-- ==== Sys2Proof/Word.lean ====
section
/-! DEFINITION. The word types of the device (R2 to R4, R35): 36-bit words, 9-bit nonets, 32-bit
set-up registers and double words, octets. -/

namespace Sys2Proof

/-- The native word of the device (R3). -/
abbrev Word := BitVec 36

/-- A quarter of a word: an octet in bits 7 to 0 and a mark in bit 8 (R3). -/
abbrev Nonet := BitVec 9

/-- A set-up register, or a double word of host memory (R3, R336). -/
abbrev DW := BitVec 32

/-- A host byte. -/
abbrev Byte := BitVec 8

/-- A host address (IOVA) or any other 64-bit quantity. -/
abbrev QW := BitVec 64

end Sys2Proof
end

