-- ==== Sys2Proof/Syntax.lean ====
section
/-! DEFINITION. The commands of the block: one constructor of `Instr` for every row of
spec/opcode_table.json, with the operands that the row's step takes from outside the device. -/

namespace Sys2Proof

/-- A Goilo-36 core: the sequencer of a pier, or the warden (R199). -/
inductive CoreId where
  | pier (p : Fin 16)
  | warden
deriving DecidableEq, Repr

/-- A PCIe function (R326). `vf v` is VF `v + 1`, the operator of partition `v`. -/
inductive FnId where
  | pf0
  | pf1
  | vf (v : Fin 64)
deriving DecidableEq, Repr

/-- The agent that makes a register access, where a field's effect depends on it (R305, R459, R473). -/
inductive Agent where
  | host
  | sequencer
  | warden
  | setter
deriving DecidableEq, Repr

/-- The fields of an instruction word beside its destination port (R209). -/
structure Fld where
  guard : BitVec 3
  sense : Bool
  mode  : BitVec 2
  src   : BitVec 24
deriving DecidableEq, Repr

/-- Guard and sense alone, for the rows that fix mode and source (R219, R227, R231). -/
structure Gd where
  guard : BitVec 3
  sense : Bool
deriving DecidableEq, Repr

/-- Guard, sense and, for a string operation, the number of words after which an interrupt stops it, if one comes
(R227, R228). -/
structure StrGd where
  gd   : Gd
  stop : Option Nat
deriving DecidableEq, Repr

/-- How a device read of host memory can fail (R333, R350). -/
inductive HostErr where
  | unsupported
  | abort
  | poisoned
  | timeout
deriving DecidableEq, Repr

/-- What the host returns to a device read: the bytes, or a host-side error. -/
inductive HostRead where
  | data (bytes : List Byte)
  | err (e : HostErr)
deriving DecidableEq, Repr

/-- How the input of an item arrives: its bytes, or the ending of the ticket that fetches it (R349, R350, R380). -/
inductive Fetched where
  | data (bytes : List Byte)
  | err (e : HostErr)
  | translation
  | badData
deriving DecidableEq, Repr

/-- The kind of a memory access, for its permissions (R313). -/
inductive Access where
  | read
  | write
  | execute
  | atomic
deriving DecidableEq, Repr

/-- The master codes of R509. -/
inductive Master where
  | fetch
  | seqData
  | run
  | hod
  | walker
  | gateway
  | pointing
  | checker
deriving DecidableEq, Repr

/-- A place in a pier's memory: a bank word or a quarry line (R457). -/
inductive MemLoc where
  | bank (addr : BitVec 21)
  | line (l : BitVec 25)
deriving DecidableEq, Repr

/-- Where an audit record that AU0 absorbs comes from: the run of the pier that carries AU0 (R180),
or the item that resident firmware has finished on that pier (stage 8 of R19). -/
inductive RecordSource where
  | run
  | item (id : Nat)
deriving DecidableEq, Repr

/-- A detection as a detector reports it (R445 to R447). `level` says that the cause stands as a level
(R449). -/
structure Detection where
  cause   : BitVec 8
  region  : BitVec 5
  detail  : DW
  detail2 : DW
  level   : Bool
deriving DecidableEq, Repr

/-- Which detection reaches the collector: the oldest one that waits on the reporting path of a
region, or one that a detector of the silicon makes now. -/
inductive DetectionSource where
  | queued (region : BitVec 5)
  | physical (d : Detection)
  | path (d : Detection) (pairs : BitVec 2) (pairs2 : BitVec 2)
deriving DecidableEq, Repr

/-- The PLDM sensors of the sideband (R358). -/
inductive Sensor where
  | die (k : Nat)
  | stack (k : Fin 2)
  | current
  | power
  | lifecycle
deriving DecidableEq, Repr

/-- An access to a set-up register or to a doorbell page. `host` gives the function whose BAR0 is written,
the byte offset, the value of the first DW, the byte enables and the length in DWs (R31).
`core` gives the word address that a sequencer or the warden stores to (R32). `hostRead` is a read by the host: function,
byte offset and length in DWs (R31, R33, R34, R329), and `sensor` the reading of a PLDM sensor (R358): the table has no row
for these two, and this row carries them (DESIGN CHOICE, log 53). -/
inductive RegWrite where
  | host (f : FnId) (off : BitVec 26) (v : DW) (be : BitVec 4) (dws : Nat)
  | core (c : CoreId) (addr : Word) (v : Word)
  | hostRead (f : FnId) (off : BitVec 26) (dws : Nat)
  | sensor (n : Sensor)
deriving DecidableEq, Repr

/-- A host access to BAR2 (R510): byte offset, bytes enabled as a mask over the request, length in DWs,
and the value of a write. -/
structure Bar2Access where
  write : Bool
  off   : BitVec 14
  dws   : Nat
  full  : Bool
  value : QW
deriving DecidableEq, Repr

/-- What a configuration read asks for: a field whose value the spec gives, or another dword, by its offset (R324, R354,
R355). -/
inductive CfgField where
  | vendor
  | totalVfs
  | vfStride
  | numVfs
  | vfEnable
  | busMaster
  | memSpace
  | bar (k : Fin 6)
  | maxPayload
  | maxRead
  | noSoftReset
  | pmeSupport
  | msixEnable
  | msixMask
  | other (off : BitVec 12)
deriving DecidableEq, Repr

/-- A configuration request that the spec gives an effect (R324, R325, R346, R353, R357, R483). -/
inductive CfgRequest where
  | read (r : CfgField)
  | msixEnable (on : Bool)
  | msixMask (on : Bool)
  | numVfs (n : BitVec 16)
  | vfEnable (on : Bool)
  | relaxedOrdering (on : Bool)
  | ptmEnable (on : Bool)
  | busMaster (on : Bool)
  | memSpace (on : Bool)
  | bar (k : Fin 6) (v : DW)
  | maxPayload (code : BitVec 3)
  | maxRead (code : BitVec 3)
deriving DecidableEq, Repr

/-- The SPDM requests that the responder serves (R356). -/
inductive SpdmRequest where
  | getVersion
  | getCapabilities
  | negotiateAlgorithms (offersSuite : Bool)
  | getDigests
  | getCertificate (offset len : Nat)
  | challenge (nonce : List Byte)
  | getMeasurements (nonce : List Byte)
  | keyExchange (hostPub : List Byte)
  | finish (verify : List Byte)
  | endSession
  | ideKm (stream : Fin 9) (key : List Byte)
  | other (code : Byte)
deriving DecidableEq, Repr

/-- What a completion timeout ends: an entry fetch of a ring, a list read of an entry, or the read of
the hod of a pier (R333, R338, R350). -/
inductive TimeoutOf where
  | entry (f : FnId) (r : Fin 64)
  | list (f : FnId) (r : Fin 64) (entry : List Byte) (isOut : Bool)
  | hod (p : Fin 16)
deriving DecidableEq, Repr

/-- Temperatures in 0.125 degree units and current in 0.1 A, as sampled every 1 ms (R474, R455). -/
structure Sample where
  die     : List Int
  stack0  : Int
  stack1  : Int
  current : Nat
  power   : Nat
deriving DecidableEq, Repr

/-- The board's state at POR_N release (R497, R439, R492). -/
structure PorRelease where
  bootSel : Bool
  sbAddr  : BitVec 3
  zeroizeLow : Bool
  railsReady : Bool
deriving DecidableEq, Repr

/-- A supply violation (R492). `overTen` says that the rail went more than 10 % outside its tolerance. -/
structure RailEvent where
  afterPwrfail : Bool
  overTen : Bool
deriving DecidableEq, Repr

/-- The commands: one constructor for each row of the opcode table. -/
inductive Instr where
  -- register ports (R216)
  | null (c : CoreId) (f : Fld)
  | a (c : CoreId) (f : Fld)
  | x1 (c : CoreId) (f : Fld)
  | x2 (c : CoreId) (f : Fld)
  | sp (c : CoreId) (f : Fld)
  | lk (c : CoreId) (f : Fld)
  | c1 (c : CoreId) (f : Fld)
  | c2 (c : CoreId) (f : Fld)
  | c3 (c : CoreId) (f : Fld)
  | mq (c : CoreId) (f : Fld)
  | mh (c : CoreId) (f : Fld)
  | ldhi (c : CoreId) (f : Fld)
  -- arithmetic and logic (R217)
  | add (c : CoreId) (f : Fld)
  | adc (c : CoreId) (f : Fld)
  | sub (c : CoreId) (f : Fld)
  | sbb (c : CoreId) (f : Fld)
  | neg (c : CoreId) (f : Fld)
  | and (c : CoreId) (f : Fld)
  | or (c : CoreId) (f : Fld)
  | xor (c : CoreId) (f : Fld)
  | shl (c : CoreId) (f : Fld)
  | shr (c : CoreId) (f : Fld)
  | sar (c : CoreId) (f : Fld)
  | rol (c : CoreId) (f : Fld)
  | cmp (c : CoreId) (f : Fld)
  | seq (c : CoreId) (f : Fld)
  | slt (c : CoreId) (f : Fld)
  | sltu (c : CoreId) (f : Fld)
  -- TLB invalidation (R231, R317)
  | tlbiMemory (c : CoreId) (f : Fld)
  | tlbiAll (c : CoreId) (g : Gd) (low : BitVec 23)
  | tlbiTag (c : CoreId) (g : Gd) (ponly : Bool) (tag : BitVec 22)
  -- long operations, decimal and F36 (R218 to R220)
  | mul (c : CoreId) (f : Fld)
  | mulu (c : CoreId) (f : Fld)
  | div (c : CoreId) (f : Fld)
  | divu (c : CoreId) (f : Fld)
  | dadd (c : CoreId) (f : Fld)
  | dsub (c : CoreId) (f : Fld)
  | dchk (c : CoreId) (f : Fld)
  | fadd (c : CoreId) (f : Fld)
  | fsub (c : CoreId) (f : Fld)
  | fmul (c : CoreId) (f : Fld)
  | fdiv (c : CoreId) (f : Fld)
  | fcmp (c : CoreId) (f : Fld)
  | ftoi (c : CoreId) (g : Gd)
  | itof (c : CoreId) (g : Gd)
  | utof (c : CoreId) (g : Gd)
  | fint (c : CoreId) (f : Fld)
  -- memory ports (R221)
  | sta (c : CoreId) (f : Fld)
  | stx1 (c : CoreId) (f : Fld)
  | stx2 (c : CoreId) (f : Fld)
  | ldd (c : CoreId) (f : Fld)
  | std (c : CoreId) (f : Fld)
  | xadd (c : CoreId) (f : Fld)
  | xswp (c : CoreId) (f : Fld)
  | ldn (c : CoreId) (f : Fld)
  | stn (c : CoreId) (f : Fld)
  -- branches and system ports (R222 to R230, R203)
  | jmp (c : CoreId) (f : Fld)
  | jmpr (c : CoreId) (f : Fld)
  | call (c : CoreId) (f : Fld)
  | callr (c : CoreId) (f : Fld)
  | loop (c : CoreId) (f : Fld)
  | trap (c : CoreId) (f : Fld)
  | rtt (c : CoreId) (f : Fld)
  | sri (c : CoreId) (f : Fld)
  | srv (c : CoreId) (f : Fld)
  -- string operations (R227); `stop`: an interrupt stops the string after so many words (R228, R253)
  | movs (c : CoreId) (g : StrGd)
  | fills (c : CoreId) (g : StrGd)
  | dadds (c : CoreId) (g : StrGd)
  | dsubs (c : CoreId) (g : StrGd)
  | cmps (c : CoreId) (g : StrGd)
  | xlts (c : CoreId) (g : StrGd)
  -- launch and synchronisation (R102, R232)
  | bond (c : CoreId) (f : Fld)
  | sync (c : CoreId) (f : Fld)
  -- events of a core
  | longOperationDelivery (c : CoreId)
  | storeBufferDrain (c : CoreId)
  | exceptionEntry (c : CoreId)
  | coreTimerWrite (c : CoreId) (v : DW)
  | coreTimerExpiry (c : CoreId)
  | instructionCacheFill (p : Fin 16) (va : Word)
  | prIcCtlInv (p : Fin 16)
  | tableWalk (p : Fin 16) (hod : Bool) (acc : Access) (va : Word)
  | coreRelease (p : Fin 16)
  -- events of a run
  | runStart (p : Fin 16)
  | loadStreamerFire (p : Fin 16) (u : Fin 4)
  | jointGroupAdvance (p : Fin 16) (port : BitVec 12)
  | storeCommit (p : Fin 16) (u : Fin 2)
  | iaFire (p : Fin 16) (u : Fin 2)
  | mcFire (p : Fin 16) (u : Fin 2)
  | dcFire (p : Fin 16)
  | fpFire (p : Fin 16)
  | rdFire (p : Fin 16)
  | cyFire (p : Fin 16)
  | ixFire (p : Fin 16)
  | slFire (p : Fin 16)
  | kf0Lookup (p : Fin 16)
  | au0Record (p : Fin 16) (source : RecordSource)
  | montTile (p : Fin 16)
  | ecpTile (p : Fin 16)
  | aesFire (p : Fin 16)
  | tdesFire (p : Fin 16)
  | hashSegment (p : Fin 16)
  | xlatFire (p : Fin 16)
  | prRunCtlAbort (p : Fin 16) (v : DW)
  | prRunCtlAckr (p : Fin 16) (v : DW)
  | prRunCtlAckf (p : Fin 16) (v : DW)
  | prRunCtlClrovf (p : Fin 16) (v : DW)
  -- banks and quarry
  | prBankOwnWrite (p : Fin 16) (b : Fin 16) (v : DW)
  | bankScourEnd (p : Fin 16) (b : Fin 16)
  | prBankRetireWrite (p : Fin 16) (v : DW)
  | bankRetentionEntry (p : Fin 16) (b : Fin 16)
  | bankWake (p : Fin 16) (b : Fin 16)
  | bankLockStart (p : Fin 16)
  | bankLockTimeout (p : Fin 16)
  | correctionWriteBack (p : Fin 16) (addr : BitVec 21)
  | quarryReadCompletion (p : Fin 16) (l : BitVec 25) (m : Master)
  | mergeBufferWriteOut (p : Fin 16) (l : BitVec 25)
  | rawWrite (p : Fin 16) (by_ : Agent)
  | rawRead (p : Fin 16) (by_ : Agent)
  | decodedRead (p : Fin 16) (by_ : Agent)
  | pointingRead (p : Fin 16) (loc : MemLoc)
  | pointingLapOverdue (p : Fin 16) (quarry : Bool)
  | hbmRefresh (p : Fin 16)
  | phyRetraining (p : Fin 16)
  | sensorCalibration
  | wearLevellingErase (sector : Nat) (good : Bool)
  | prTlbiAll (p : Fin 16) (v : DW)
  | prTlbiTag (p : Fin 16) (v : DW)
  -- hod
  | prHodPost (p : Fin 16) (v : DW)
  | prHodCtlSusp (p : Fin 16) (v : DW)
  | prHodCtlResume (p : Fin 16) (v : DW)
  | hodTicketStart (p : Fin 16)
  | hodSegmentDone (p : Fin 16) (rd : HostRead)
  -- rings and items
  | sqtailWrite (fn : FnId) (r : Fin 64) (v : DW)
  | cqheadWrite (fn : FnId) (r : Fin 64) (v : DW)
  | ringEnableWrite (fn : FnId) (r : Fin 64) (v : DW)
  | ferrClear (fn : FnId) (r : Fin 64) (v : DW)
  | entryFetch
  | entryArrival (fn : FnId) (r : Fin 64) (entry : HostRead) (inList : HostRead) (outList : HostRead)
  | itemResultWrite (it : Nat)
  | auditRecordWrite (chain : Fin 17)
  | auditRingFullNotice
  | completionWrite (it : Nat)
  | coalescingTimerExpiry (fn : FnId) (r : Fin 64)
  | msixTableAccess (fn : FnId) (acc : Bar2Access)
  | flr (fn : FnId)
  | flrItemStop (it : Nat)
  | vfEnableClear
  | perstNAssert
  | perstNRelease
  | hotReset
  | linkDown
  | d3hotEntry (fn : FnId)
  | d0Entry (fn : FnId)
  | spdmRequest (m : SpdmRequest)
  | ideIntegrityFailure (ring : Option (FnId × Fin 64))
  | ptmTimingUpdate (master : QW)
  -- steward and JTAG
  | getState (inst : Byte) (payload : List Byte)
  | lowerCap (inst : Byte) (payload : List Byte)
  | stewardKekComponent (inst : Byte) (payload : List Byte)
  | stewardHalt (inst : Byte) (payload : List Byte)
  | setdasa (staticAddr dynAddr : BitVec 7)
  | entdaa (dynAddr : BitVec 7)
  | bypass
  | idcode
  | samplePreload (bits : List Bool)
  | extest
  | memoryBist
  | trstNAssert
  -- setter
  | batchWindowExpiry (b : Nat)
  | deadlineHintExpiry (it : Nat)
  | batchAging (b : Nat)
  | batchPlacement
  | batchEnd (p : Fin 16)
  | pierSleepTimer (p : Fin 16)
  | pierOffTimer (p : Fin 16)
  | pierThinDelayExpiry (p : Fin 16)
  | preemptAckSuspended (p : Fin 16)
  | preemptAckEnded (p : Fin 16)
  | preemptTimeout (p : Fin 16)
  | migrationLeafMove (p : Fin 16) (q : Fin 64) (ipa : BitVec 30) (dest : Word)
  -- resident operations
  | echo (it : Nat) (inp : Fetched)
  | signEcdsa (it : Nat) (inp : Fetched)
  | verifyEcdsa (it : Nat) (inp : Fetched)
  | signEddsa (it : Nat) (inp : Fetched)
  | verifyEddsa (it : Nat) (inp : Fetched)
  | signRsa (it : Nat) (inp : Fetched)
  | verifyRsa (it : Nat) (inp : Fetched)
  | pinTranslate (it : Nat) (inp : Fetched)
  | macGenerate (it : Nat) (inp : Fetched)
  | macVerify (it : Nat) (inp : Fetched)
  | arqcVerify (it : Nat) (inp : Fetched)
  | hash (it : Nat) (inp : Fetched)
  | msgTranslate (it : Nat) (inp : Fetched)
  | keyImport (it : Nat) (inp : Fetched)
  | keyExport (it : Nat) (inp : Fetched)
  | keyGenerate (it : Nat) (inp : Fetched)
  | keyDerive (it : Nat) (inp : Fetched)
  | keyDestroy (it : Nat) (inp : Fetched)
  | keyInfo (it : Nat) (inp : Fetched)
  | keyStoreLogProgram (good : Bool)
  | sessionOpen (it : Nat) (inp : Fetched)
  | sessionClose (it : Nat) (inp : Fetched)
  | runProgram (it : Nat) (inp : Fetched)
  | programStepLimit (it : Nat)
  | loadProgram (it : Nat) (inp : Fetched)
  | defineCourse (it : Nat) (inp : Fetched)
  | auditAttest (it : Nat) (inp : Fetched)
  | sealNow (it : Nat) (inp : Fetched)
  | partCreate (it : Nat) (inp : Fetched)
  | partDestroy (it : Nat) (inp : Fetched)
  | kekComponent (it : Nat) (inp : Fetched)
  | componentExpired (q : Fin 64)
  | setTime (it : Nat) (inp : Fetched)
  | setState (it : Nat) (inp : Fetched)
  | provision (it : Nat) (inp : Fetched)
  | setCert (it : Nat) (inp : Fetched)
  | setReentry (it : Nat) (inp : Fetched)
  | wardRequest (it : Nat) (inp : Fetched)
  | wardAdmit (it : Nat) (inp : Fetched)
  | wardJoin (it : Nat) (inp : Fetched)
  | wardLeave (it : Nat) (inp : Fetched)
  | wardExport (it : Nat) (inp : Fetched)
  | wardImport (it : Nat) (inp : Fetched)
  -- seals, power failure, zeroize
  | sealDue
  | sealForm
  | sealWrite
  | sealPersist (good : Bool)
  | pwrfailNAssert (ticks : Nat)
  | headsFreeze
  | finalSealForm
  | finalSealProgram (good : Bool)
  | zeroizeNAssert (ticks : Nat)
  | zcntFuseProgram
  | zeroizeMemoryClear
  | keyStoreErase
  -- reset and start-up
  | thermtrip
  | porNAssert (ns : Nat)
  | porNRelease (board : PorRelease)
  | frontagePllLock
  | firmwareImageVerify
  | keystoneLoad
  | pierMemoryFill (p : Fin 16) (trained : Bool)
  | evoariStart
  | deviceTablesWritten
  | sealsProcessed
  | readyAssert
  | frResetWarm (v : DW)
  -- faults
  | faultDetection (source : DetectionSource)
  | perPierReset (p : Fin 16)
  | perPierResetComplete (p : Fin 16)
  | reactionShadowEnd (p : Fin 16)
  | containQuietPeriodExpiry (p : Fin 16)
  | holdQuietPeriodExpiry (slot : Fin 64)
  | recordCloseTimer (slot : Fin 64)
  | fcRestoreWrite (v : DW)
  | clogEntryFree (p : Fin 16) (e : Fin 16) (v : DW)
  | retirementAction (p : Fin 16) (e : Fin 16)
  | telemetryPeriod
  -- power
  | temperatureSample (sm : Sample)
  | pwBudgetWrite (by_ : Agent) (v : DW)
  | pwPierRst (p : Fin 16) (by_ : Agent) (v : DW)
  | pwPierTargetWrite (p : Fin 16) (by_ : Agent) (v : DW)
  | pierRaise
  | frequencyChangeEnd (p : Fin 16)
  | pierWakeComplete (p : Fin 16)
  | laneRampEnd (p : Fin 16)
  | idleDrop (p : Fin 16)
  -- the rest of the host port and the board
  | registerWrite (w : RegWrite)
  | completionTimeout (what : TimeoutOf)
  | configurationRequest (fn : FnId) (req : CfgRequest)
  | linkUp
  | railOutOfTolerance (e : RailEvent)
  | fallOfNow (slot : Fin 64) (cause : BitVec 8)
  | minrunExpiry (p : Fin 16)
  | unknownCommand (code inst : Byte) (payload : List Byte)
deriving DecidableEq, Repr

end Sys2Proof
end

