-- ==== Sys2Proof/Decode.lean ====
section
/-! DEFINITION. The command that a word spells by the opcode table's bits. The table gives bits to none of its rows:
they are steps of the device, not encodings. The instruction words of a partition program are decoded in
Machine/CoreProgram.lean. -/

namespace Sys2Proof

/-- The command that the `nbits` bits of `w` spell by spec/opcode_table.json, whose rows give no bits: none. -/
def decodeTableWord (_nbits _w : Nat) : Option Instr := none

end Sys2Proof
end

