-- ==== Sys2Proof/Config.lean ====
section
/-! DEFINITION. What one implementation fixes and the spec leaves open: constants without a body, so that
nothing can be proved of their values (log 2). -/

namespace Sys2Proof

/-- A value the spec leaves open, of any width, by the number of the occasion (log 2). -/
opaque Config.free (w : Nat) (n : Nat) : BitVec w

/-- The step of the 16-bit replacement LFSR of R314, whose polynomial the spec does not give. -/
opaque Config.lfsrStep : BitVec 16 → BitVec 16

/-- Free value: which of several TLB entries that hold an address is used (R316), for the LFSR's value, the
address and the number of those entries. -/
opaque Config.tlbPick : BitVec 16 → BitVec 36 → Nat → Nat

/-- The way in which the instruction cache chooses the line to replace (R240 gives no rule): an index
below the number of lines held. -/
opaque Config.icVictim : Nat → Nat

/-- A word of the warden's boot ROM (R300), by its address; the spec does not list its code. -/
opaque Config.bootRom : Nat → Word

/-- A word of the pier boot block of the Evoari image (R269), by its address; the spec does not list it. -/
opaque Config.bootBlock : Nat → Word

/-- The resident course set of the Evoari image (R480 step 8), slot and definition words; the spec does not list it. -/
opaque Config.residentCourses : List (Nat × List Word)

/-- The identity code that DETAIL2 of cause 0x09 shows for the supervisor identity (R279, R447), which the
spec does not number. -/
opaque Config.supervisorIdent : BitVec 7

/-- The derivation of the directory check key from the device key-encryption key (R396), which the spec does
not give. -/
opaque Config.checkKey : List Byte → List Byte

/-- The derivation of a partition's fill key from the device key-encryption key (R383), which the spec does
not give. -/
opaque Config.fillKey : List Byte → Nat → List Byte

/-- The message that HMAC-SHA-256 takes for block `i` of the deterministic fill (R383: counter mode, with a
counter encoding that the spec does not give). -/
opaque Config.dfInput : Nat → List Byte → List Byte

/-- The code of a flash region in DETAIL2 of causes 0x21 to 0x23 (R447), by the order of R504's table; the spec
does not number the regions. -/
opaque Config.flashRegion : Nat → BitVec 32

/-- SHA-384 of the boot ROM, which SPDM reports as a measurement (R356); the spec does not list the boot ROM. -/
opaque Config.bootRomDigest : List Byte

/-- The message that a signature of an SPDM response covers (R356), by response (0 CHALLENGE_AUTH, 1 MEASUREMENTS,
2 KEY_EXCHANGE_RSP), number of the occasion and what the host sent: SPDM 1.3 governs it, not the spec. -/
opaque Config.spdmMessage : Nat → Nat → List Byte → List Byte

/-- The Vendor ID that PF0 reports (R358), which the spec does not give. -/
opaque Config.vendorId : BitVec 16

/-- Bits [3:0] of BAR0 and BAR2 as read, by dword: the spec does not say which kind of memory BAR they are (R326). -/
opaque Config.barFlags : Nat → BitVec 4

/-- Whether the verify data of an SPDM FINISH is accepted (R356), by the transcript and the secret: SPDM 1.3 governs
it, not the spec. -/
opaque Config.spdmVerify : List Byte → List Byte → List Byte → Bool

/-- The layout of an ISO 8583 field that a map has no rule for, by version and field: length type, coding and length
(R395: such a field is read, and the spec does not give its layout). -/
opaque Config.isoField : Nat → Nat → Nat × Nat × Nat

/-- The destination character of a source character that is no decimal digit, by source coding and destination coding;
the spec gives no EBCDIC table and no text form of binary octets (R394, R395). -/
opaque Config.msgChar : Nat → Nat → Nat → Nat

/-- A fixed destination field made from fewer characters, by destination coding and length; the spec gives no padding
(R395). -/
opaque Config.msgPad : Nat → Nat → List Nat → List Nat

/-- The public key X‖Y of the leaf of a DER certificate chain (R432), which X.509 governs, not the spec. -/
opaque Config.certLeaf : List Byte → List Byte

/-- The derivation of the wrapping key of a ward admission from the shared secret (R442), which the spec does not give. -/
opaque Config.wardKdf : List Byte → List Byte

end Sys2Proof
end

