-- ==== Sys2Proof/Machine/State.lean ====
section
/-! DEFINITION. The state of the device as plain data, and its value right after reset (POR_N low).
Each field's docstring gives: name; width; file of spec/ and rule; reset value. -/

namespace Sys2Proof.Machine

open Sys2Proof

/-! ### Memories -/

/-- A sparse memory in canonical form: addresses strictly rising, no entry equal to zero. An unlisted
address reads as zero (R483: memory never written reads zero with valid check bits). -/
abbrev SMem (w : Nat) := List (Nat × BitVec w)

/-! ### A Goilo-36 core (R199) -/

/-- Whether a core runs. `stopped` is the entry failure of R256 or the stop of R452. -/
inductive CoreRun where
  | reset
  | running
  | stopped
deriving DecidableEq, Repr

/-- The identity that an access to a bank carries (R277). -/
inductive Ident where
  | supervisor
  | owner (o : BitVec 7)
deriving DecidableEq, Repr

/-- A store-buffer entry: physical address, word, nonet enables, the identity of the store, the address
that FLT reports and whether user mode made it (R249, R250). -/
structure SbEntry where
  pa    : Word
  data  : Word
  en    : BitVec 4
  ident : Ident
  flt   : Word
  user  : Bool
deriving DecidableEq, Repr

/-- A synchronous exception that waits for its entry: vector, pushed PC, pushed BDS and RES, and the FLT and FCS that its
entry writes (R258, R320). -/
structure Exc where
  vec : BitVec 7
  pc  : Word
  bds : Bool
  res : Bool
  syn : Option (Word × Word)
deriving DecidableEq, Repr

/-- The first unequal pair that a CMPS in constant-time mode has met before it was stopped: X1, X2, A and N there (R253). -/
structure CmpsHit where
  x1   : Word
  x2   : Word
  a    : Word
  less : Bool
deriving DecidableEq, Repr

/-- What a string operation in progress keeps beside its registers (R228, R229, R253): the first unequal pair of CMPS, and in the
write phase of DADDS or DSUBS whether no word has been written yet and whether every digit written is 0. -/
structure StrMemo where
  hit   : Option CmpsHit := none
  first : Bool := true
  zero  : Bool := true
deriving DecidableEq, Repr

/-- What a stopped string operation has left, with the address and the registers that it stopped at. -/
structure StrKept where
  pc   : Word
  x1   : Word
  x2   : Word
  a    : Word
  memo : StrMemo
deriving DecidableEq, Repr

/-- A long operation in progress with what it will deliver (R218, R247). -/
structure LongOp where
  f36   : Bool
  mq    : Word
  mh    : Option Word
  flags : Option (BitVec 4)
  dc    : Bool
  fp    : BitVec 5
deriving DecidableEq, Repr

/-- A branch whose delay slot has not completed: its address, the target if it is taken, whether the
slot is annulled, the registers before the branch, which a slot exception restores, and the index register that the branch has
stepped, 0 for none (R223, R259). -/
structure SlotSt where
  branchPc : Word
  target   : Option Word
  annul    : Bool
  oldLk    : Word
  oldX1    : Word
  oldX2    : Word
  oldSp    : Word
  stepped  : BitVec 2
deriving DecidableEq, Repr

/-- A fault recorded with a fetched word (R242): the address fetched, vector, FLT and FCS. -/
structure FetchFault where
  pc  : Word
  vec : BitVec 7
  flt : Word
  fcs : Word
deriving DecidableEq, Repr

/-- An imprecise store error that waits for its entry (R250). -/
structure Imprecise where
  vec : BitVec 7
  flt : Word
  fcs : Word
deriving DecidableEq, Repr

/-- A Goilo-36 core. -/
structure Core where
  /-- A, accumulator; 36 bits; 08 R199; 0 -/
  a : Word := 0
  /-- X1, index register; 36 bits; 08 R199; 0 -/
  x1 : Word := 0
  /-- X2, index register; 36 bits; 08 R199; 0 -/
  x2 : Word := 0
  /-- SP, stack pointer; 36 bits; 08 R199; 0 -/
  sp : Word := 0
  /-- LK, link register; 36 bits; 08 R199; 0 -/
  lk : Word := 0
  /-- C1, condition register; 1 bit; 08 R199; 0 -/
  c1 : Bool := false
  /-- C2, condition register; 1 bit; 08 R199; 0 -/
  c2 : Bool := false
  /-- C3, condition register; 1 bit; 08 R199; 0 -/
  c3 : Bool := false
  /-- MQ, long-operation result; 36 bits; 08 R199; 0 -/
  mq : Word := 0
  /-- MH, high word or remainder; 36 bits; 08 R199; 0 -/
  mh : Word := 0
  /-- PC; 36 bits; 08 R199, 09 R268 (loaded from physical word 0 at release); DESIGN CHOICE 0 while in reset (log 5) -/
  pc : Word := 0
  /-- SRI, special register index; 6 bits; 08 R199; 0 -/
  sri : BitVec 6 := 0
  /-- SW, status word (special register 0); 36 bits; 08 R200; 0 -/
  sw : Word := 0
  /-- VBR, vector base (special register 1); 36 bits; 08 R204; 0 -/
  vbr : Word := 0
  /-- LS, loop start (2); 36 bits; 08 R204; 0 -/
  ls : Word := 0
  /-- LE, loop end (3); 36 bits; 08 R204; 0 -/
  le : Word := 0
  /-- LC, loop count (4); 13 bits; 08 R204; 0 -/
  lc : BitVec 13 := 0
  /-- FLT, fault address (5); 36 bits; 08 R204, 11 R320; 0 -/
  flt : Word := 0
  /-- FCS, fault syndrome (6); 36 bits; 08 R204, 11 R320; 0 -/
  fcs : Word := 0
  /-- TIME high latch (8), set by a read of TIME low; 28 bits; 08 R205; none held (R204: TIME counts from POR) -/
  timeHi : Option (BitVec 28) := none
  /-- LOCK (9): EN bit 4, BANK bits 3 to 0; 5 bits; 08 R204, 10 R284; 0 -/
  lock : BitVec 5 := 0
  /-- FPCR (10); 36 bits; 08 R206; 0 -/
  fpcr : Word := 0
  /-- TRE, trap enables (11); 36 bits; 08 R207; 0 -/
  tre : Word := 0
  /-- ICAUSE.VEC (13); 7 bits; 08 R204; 0 -/
  icause : BitVec 7 := 0
  /-- IMASK (14); 9 bits; 08 R204; 0 -/
  imask : BitVec 9 := 0
  /-- IPEND (15); 9 bits; 08 R204, 09 R262; 0 -/
  ipend : BitVec 9 := 0
  /-- PR_TMR or FR_WTMR COUNT: remaining AON ticks; 32 bits; 09 R267; 0 -/
  tmr : DW := 0
  /-- core timer counting; 1 bit; 09 R267; false -/
  tmrRun : Bool := false
  /-- long operation in progress; one at most; 08 R218, 09 R247; none -/
  longop : Option LongOp := none
  /-- store buffer, oldest first; 8 entries; 09 R249; empty (R268) -/
  sbuf : List SbEntry := []
  /-- branch awaiting its delay slot; 08 R223, 09 R259; none -/
  slot : Option SlotSt := none
  /-- boundary after a move to SRI (no interrupt there); 1 bit; 08 R203; false -/
  sriHold : Bool := false
  /-- synchronous exception awaiting entry; 09 R261 rank 7; none -/
  raised : Option Exc := none
  /-- traps 9 to 12 awaiting entry, oldest first; 07 R196, 09 R261 rank 2; empty -/
  traps : List (BitVec 7) := []
  /-- NMI pending; 1 bit; 09 R264; false -/
  nmi : Bool := false
  /-- imprecise store error pending; 09 R250 rank 4; none -/
  imprecise : Option Imprecise := none
  /-- run fault (vector 14) pending; 1 bit; 09 R262; false -/
  runFault : Bool := false
  /-- whether the core is in reset, runs, or has stopped; 09 R256, R268; reset -/
  run : CoreRun := .reset
  /-- faults recorded with fetched words; 09 R242; empty -/
  fetchFaults : List FetchFault := []
  /-- what the string operation in progress keeps beside its registers; model (09 R229, R253); empty -/
  strNow : StrMemo := {}
  /-- what stopped string operations keep until they are resumed; model (09 R228, R253); empty -/
  strKept : List StrKept := []
  /-- branch target buffer, most recent first; 64 entries of two 36-bit words; 09 R244; empty -/
  btb : List (Word × Word) := []
deriving DecidableEq, Repr

/-! ### Banks, quarry, translation -/

/-- Retention of a bank (R283). -/
inductive Retn where
  | awake
  | retained
  | waking
deriving DecidableEq, Repr

/-- PR_BANK_OWN of one bank and the bank's own condition. -/
structure Bank where
  /-- PR_BANK_OWN.OWNER; 7 bits; 10 R278; 0x7F, and 0x40 for bank 15 -/
  owner : BitVec 7 := 0x7F#7
  /-- PR_BANK_OWN.CONTENT; 7 bits; 10 R278; 0x7F -/
  content : BitVec 7 := 0x7F#7
  /-- PR_BANK_OWN.SCOUR; 1 bit; 10 R278, R280; false -/
  scour : Bool := false
  /-- PR_BANK_OWN.RETN; awake, retained or waking; 10 R278, R283; awake -/
  retn : Retn := .awake
  /-- AON tick of the last granted access; 64 bits; 10 R283; 0 -/
  lastUse : Nat := 0
deriving DecidableEq, Repr

/-- PR_S2CFG of one partition (R305). -/
structure S2Cfg where
  /-- PR_S2CFG.S2W; 2 bits; 11 R305; 3 -/
  s2w : BitVec 2 := 3#2
  /-- PR_S2CFG.ROOT; 30 bits; 11 R305; 0 -/
  root : BitVec 30 := 0
deriving DecidableEq, Repr

/-- A TLB entry (R315): tag, base and size (a power of 64) of the virtual range, physical base,
permissions R, W, X, stage-1 U. -/
structure TlbEntry where
  tag  : BitVec 22
  va   : Word
  size : Nat
  pa   : Word
  r    : Bool
  w    : Bool
  x    : Bool
  u    : Bool
deriving DecidableEq, Repr

/-- A line held by the quarry merge buffer: its number, its 15 words and whether it is poison (R290). -/
structure MergeLine where
  line   : Nat
  words  : List Word
  poison : Bool
deriving DecidableEq, Repr

/-- A line of the instruction cache: physical line address (word address / 8) and its 8 words (R240). -/
structure IcLine where
  line  : Nat
  words : List Word
deriving DecidableEq, Repr

/-! ### Runs -/

/-- A stream element: index, 36 data bits and the rubble bit (R60, R77). -/
structure Elem where
  idx : Nat
  val : Word
  rub : Bool
deriving DecidableEq, Repr

/-- A streamed connection after expansion: source port, destination port, DLY (R94). -/
structure Conn where
  src : BitVec 12
  dst : BitVec 12
  dly : Nat
deriving DecidableEq, Repr

/-- A unit of a run: its number, its eight parameters, the next index to fire, whether it has ended, the
next index that a store streamer commits, the tiles computed, elements taken in and not yet used, results not
yet emitted, and the carries of CY0 by position (none: rubble). -/
structure RUnit where
  num       : Nat
  params    : List Word
  fired     : Nat := 0
  ended     : Bool := false
  committed : Nat := 0
  tiles     : Nat := 0
  ga        : List Elem := []
  gb        : List Elem := []
  gc        : List Elem := []
  res       : List Elem := []
  resF      : List Elem := []
  carry     : List (Nat × Option Int) := []
deriving DecidableEq, Repr

/-- What a run fixes at launch (R105): mode, SW.TE, space tag, widths and roots of the walk, the course
set, rounding mode and trap enables, and the QoS of R295. -/
structure RunFix where
  user    : Bool
  te      : Bool
  tag     : BitVec 22
  s1w     : BitVec 2
  s1root  : BitVec 30
  s2      : S2Cfg
  rm      : BitVec 3
  fpEn    : BitVec 5
  dve     : Bool
  qos     : BitVec 4
deriving DecidableEq, Repr

/-- A run: its header fields, what it fixed, its units and connections, the input buffers by
destination port, the emitted elements that wait on their joint by source port, the first rubble it observed,
the indices whose rubble a load streamer or KF0 has read (R126), the MC stones that the courses it names claim (R83,
R139), and the member inputs that take an outer operand's constant (R66, R87). -/
structure Run where
  n      : Nat
  sr     : Bool
  ct     : Bool
  ic     : Bool
  fix    : RunFix
  units  : List RUnit
  conns  : List Conn
  ins    : List (BitVec 12 × List Elem)
  outs   : List (BitVec 12 × List Elem)
  rubble : Option (Nat × Nat)
  rubIdx : List Nat := []
  mcClaims : List Nat := []
  consts : List (BitVec 12 × Word) := []
deriving DecidableEq, Repr

/-- A key slot of KF0: slot number, index that filled it, algorithm, usage mask and key bytes (R160). -/
structure KeySlot where
  slot  : Nat
  idx   : Nat
  alg   : Byte
  usage : BitVec 16
  key   : List Byte
deriving DecidableEq, Repr

/-- An XLAT table: owner of its last LTAB (a partition, or 64 for resident firmware) and 512 nonets (R179). -/
structure XlatTab where
  /-- owner of the last LTAB; 7 bits; 06 R179; DESIGN CHOICE 64 (log 5) -/
  owner : BitVec 7 := 64#7
  /-- 512 nonets; 06 R178, R179; 0 -/
  tab : SMem 9 := []
deriving DecidableEq, Repr

/-- The state of AU0 (R180, R181). -/
structure Au0 where
  /-- chain key K_c, never readable; 256 bits; 06 R181, 15 R416; none loaded -/
  key : Option (List Byte) := none
  /-- chain head CSEQ; 48 bits; 06 R181; 0 -/
  cseq : Nat := 0
  /-- chain head mark; 128 bits; 06 R181; 16 zero bytes -/
  mark : List Byte := List.replicate 16 0
deriving DecidableEq, Repr

/-- The run machinery of a pier. -/
structure RunSt where
  /-- executing run; one; 04 R103; none -/
  exec : Option Run := none
  /-- queued run; one; 04 R103; none -/
  queued : Option Run := none
  /-- a run that was launched and has not started (wake, ramp); 1 bit; 04 R104; false -/
  started : Bool := false
  /-- RUNST.ROUT; 4 bits; 04 R111; 0 -/
  rout : BitVec 4 := 0
  /-- RUNST.UNIT; 4 bits; 04 R111; 0 -/
  unit : BitVec 4 := 0
  /-- RUNST.INDEX; 16 bits; 04 R111; 0 -/
  index : BitVec 16 := 0
  /-- RUNST.RCAUSE; 4 bits; 04 R111; 0 -/
  rcause : BitVec 4 := 0
  /-- RUNST.RWORD; 6 bits; 04 R111; 0 -/
  rword : BitVec 6 := 0
  /-- PR_RUN_CTL.OVF; 1 bit; 04 R114; 0 -/
  ovf : Bool := false
  /-- staging registers V0 to V63, 512 elements of 36 bits; 03 R60, 04 R99; 0 (R483) -/
  stag : SMem 36 := []
  /-- rubble mark of each staging element; 1 bit; 02 R60; 0 -/
  stagRub : SMem 1 := []
  /-- staging elements whose parity is bad; 16 R456; none -/
  stagBad : List Nat := []
  /-- MC accumulators, MC0 lanes 0 to 31 then MC1; 80 bits; 05 R137, R139; 0 -/
  acc : SMem 80 := []
  /-- MC accumulators that hold rubble; 04 R127; none -/
  accRub : List Nat := []
  /-- the 512 key slots of KF0; 06 R160; empty -/
  keySlots : List KeySlot := []
  /-- XLAT tables T0 to T7; 06 R178; owner as above, 0 -/
  xlat : List XlatTab := List.replicate 8 {}
  /-- AU0; 06 R180 -/
  au0 : Au0 := {}
deriving DecidableEq, Repr

/-! ### Hod -/

/-- A queued ticket: bank word address / 64, issued by the frontage, QoS (R347, R351). -/
structure HodTicket where
  addr     : BitVec 15
  frontage : Bool
deriving DecidableEq, Repr

/-- The ticket that runs: where it lies, its decoded fields and the segment it works on (R347). -/
structure HodCur where
  addr     : BitVec 15
  frontage : Bool
  outbound : Bool
  pack     : BitVec 2
  tag      : BitVec 22
  pva      : Word
  iev      : Bool
  seg      : Nat
  segs     : List (QW × Nat)
deriving DecidableEq, Repr

/-- The hod of a pier. -/
structure Hod where
  /-- ticket queue behind the running ticket; 16 tickets with it; 12 R351; empty -/
  queue : List HodTicket := []
  /-- running ticket; 12 R351; none (PR_HOD_STAT.BUSY = 0) -/
  cur : Option HodCur := none
  /-- PR_HOD_STAT.OVF; 1 bit; 12 R351; 0 -/
  ovf : Bool := false
  /-- PR_HOD_STAT.SUSPD; 1 bit; 12 R351; 0 -/
  suspd : Bool := false
  /-- suspension requested; 1 bit; 12 R351; false -/
  suspReq : Bool := false
  /-- PR_HOD_STAT.ENDS; 16 bits; 12 R351; 0 -/
  ends : BitVec 16 := 0
deriving DecidableEq, Repr

/-! ### A pier -/

/-- Power state of a pier (R467). -/
inductive PState where
  | off
  | sleep
  | idle
  | run
deriving DecidableEq, Repr

/-- A power transition in progress (R466, R468). -/
inductive PChange where
  | none
  | wake (freq : Nat)
  | freq (f : Nat) (old : Nat)
  | ramp
deriving DecidableEq, Repr

/-- The power and clock state of a pier. -/
structure PierPower where
  /-- PW_PIER.CURST; 2 bits; 17 R473; OFF -/
  st : PState := .off
  /-- PW_PIER.CURF in 0.1 GHz; 5 bits; 17 R473; 0 -/
  freq : Nat := 0
  /-- transition in progress (PW_PIER.BUSY); 17 R473; none -/
  change : PChange := .none
  /-- PW_PIER.SHARES; 8 bits; 17 R473; 0 -/
  shares : Nat := 0
  /-- PW_PIER.TST; 2 bits; 17 R473; 2 -/
  tst : BitVec 2 := 2#2
  /-- PW_PIER.TFREQ; 5 bits; 17 R473; 16 -/
  tfreq : BitVec 5 := 16#5
  /-- AON tick at which the pier's state last changed, or its transition in progress or its reset began; 13 R366, 16 R282,
  R451, 17 R466 to R468; 0 -/
  since : Nat := 0
  /-- AON tick of the last run's end; 17 R467; 0 -/
  lastRun : Nat := 0
  /-- bank fill of start-up done; 17 R480 step 6; false -/
  filled : Bool := false
deriving DecidableEq, Repr

/-- A pointing lap (R461, R462). -/
structure Lap where
  /-- words or lines read in this lap; 16 R461; 0 -/
  count : Nat := 0
  /-- AON ticks of the lap in progress; 16 R461; 0 -/
  ticks : Nat := 0
  /-- cause 0x14 already raised for this lap (PT_CTL.OVB, OVQ); 16 R461, R462; 0 -/
  overdue : Bool := false
  /-- PT_LAP_BANK or PT_LAP_QUARRY TICKS; 32 bits; 16 R461; 0 -/
  last : DW := 0
  /-- PT_LIM_BANK or PT_LIM_QUARRY LIMIT; 32 bits; 16 R461; 0x017D_7840 or 0x5968_2F00 -/
  limit : DW := 0x017D7840#32
deriving DecidableEq, Repr

/-- A quarry injector QY_INJ (R460). -/
structure QyInj where
  /-- QY_INJ.ARM; 1 bit; 16 R460; 0 -/
  arm : Bool := false
  /-- QY_INJ.NONET; 6 bits; 16 R460; 0 -/
  nonet : BitVec 6 := 0
  /-- QY_INJ.MASK; 9 bits; 16 R460; 0 -/
  mask : Nonet := 0
deriving DecidableEq, Repr

/-- The PR_, QY_ and PT_ registers of a pier that no other structure holds. -/
structure PierRegs where
  /-- PR_STAT.CFG_ERR; 1 bit; 10 R278; 0 -/
  prErr : Bool := false
  /-- QY_ block CFG_ERR; 1 bit; 01 R34; 0 -/
  qyErr : Bool := false
  /-- PT_CTL.CFG_ERR; 1 bit; 16 R461; 0 -/
  ptErr : Bool := false
  /-- PR_BANK_PWR.IDLE; 16 bits; 10 R283; 0x0271 -/
  idle : BitVec 16 := 0x0271#16
  /-- PR_BANK_PWR.RETEN; 16 bits; 10 R283; 0x7FFF -/
  reten : BitVec 16 := 0x7FFF#16
  /-- PR_XB_PRIO; 18 bits; 10 R297; SG 7, WLK 6, HOD 2, RUN 3, SD 5, IF 4 -/
  xbPrio : BitVec 18 := 0b111110010011101100#18
  /-- PR_XB_QOS.SEQ; 4 bits; 10 R297; 8 -/
  xbQos : BitVec 4 := 8#4
  /-- PR_BANK_RETIRE.RET; 16 bits; 10 R285; 0 (only POR clears it) -/
  retire : BitVec 16 := 0
  /-- PR_SPACE.S1W; 2 bits; 11 R304; 0 -/
  s1w : BitVec 2 := 0
  /-- PR_SPACE.PART and SESSION, the current space tag; 22 bits; 11 R304; 0 -/
  tag : BitVec 22 := 0
  /-- PR_S1ROOT.ROOT; 30 bits; 11 R304; 0 -/
  s1root : BitVec 30 := 0
  /-- PR_S2CFG[0..63]; 11 R305; S2W 3, ROOT 0 -/
  s2cfg : Vector S2Cfg 64 := Vector.replicate 64 {}
  /-- PR_WORK.PUT; 4 bits; 13 R365; 0 -/
  put : BitVec 4 := 0
  /-- PR_WORK.GET; 4 bits; 13 R365; 0 -/
  get : BitVec 4 := 0
  /-- PR_PREEMPT.REQ; 1 bit; 13 R371; 0 -/
  req : Bool := false
  /-- AON tick at which REQ rose; 13 R373; 0 -/
  reqAt : Nat := 0
  /-- PR_CHK_CTL.REFUSED; 1 bit; 16 R459; 0 -/
  chkRefused : Bool := false
  /-- PR_CHK_CTL.DONE; 1 bit; 16 R459; 0 -/
  chkDone : Bool := false
  /-- PR_CHK_CTL.RES; 3 bits; 16 R459; 0 -/
  chkRes : BitVec 3 := 0
  /-- PR_CHK_ADDR; 21 bits; 16 R459; 0 -/
  chkAddr : BitVec 21 := 0
  /-- PR_CHK_D0; 32 bits; 16 R459; 0 -/
  chkD0 : DW := 0
  /-- PR_CHK_D1.CHK; 7 bits; 16 R459; 0 -/
  chkChk : BitVec 7 := 0
  /-- PR_CHK_D1.DATA; 4 bits; 16 R459; 0 -/
  chkD1 : BitVec 4 := 0
  /-- QY_INJ[0..2]; 16 R460; 0 -/
  inj : Vector QyInj 3 := Vector.replicate 3 {}
  /-- QY_INJ_LINE.LINE; 25 bits; 16 R460; 0 -/
  injLine : BitVec 25 := 0
  /-- PT_CTL.PAUSE; 1 bit; 16 R461; 0 -/
  pause : Bool := false
deriving DecidableEq, Repr

/-- The memory system of a pier. -/
structure PierMem where
  /-- the 16 banks as 43-bit codewords {check, data}; 2 Mi words; 10 R272, R274; every word zero with valid check bits (R483) -/
  banks : SMem 43 := []
  /-- the quarry as 576-bit line codewords; 10 R286, R287; every line zero with valid check nonets (R483) -/
  quarry : SMem 576 := []
  /-- quarry merge buffer; 16 lines; 10 R290; empty -/
  merge : List MergeLine := []
  /-- bank words whose corrected codeword waits to be written back; 10 R275; empty -/
  wback : List Nat := []
  /-- PR_BANK_OWN and the condition of each bank; 10 R278 -/
  bank : Vector Bank 16 := (Vector.replicate 16 {}).set 15 { owner := 0x40#7 }
  /-- bank whose lock has started; 10 R284; none -/
  lockOn : Option (BitVec 4) := none
  /-- bank whose lock a held LOCK write waits for; 10 R284; none -/
  lockWait : Option (BitVec 4) := none
  /-- the TLB of the sequencer and the runs; 256 entries; 11 R314; empty -/
  tlb : List TlbEntry := []
  /-- the hod TLB; 64 entries; 11 R314; empty -/
  hodTlb : List TlbEntry := []
  /-- replacement LFSR; 16 bits; 11 R314; DESIGN CHOICE 1 (log 5; R314 gives the reset, not the value) -/
  lfsr : BitVec 16 := 1#16
  /-- instruction cache; 1,024 lines of 8 words; 09 R240; empty -/
  icache : List IcLine := []
  /-- result of the last walk made for a requester (TABLE_WALK): physical address or (vector class, FCS); model; none -/
  walkRes : Option (Sum Word Word) := none
  /-- HBM2E channel trained; 1 bit; 17 R480 step 6; false -/
  trained : Bool := false
  /-- HBM2E channel in self-refresh; 1 bit; 01 R18; true -/
  selfRefresh : Bool := true
  /-- AON tick of the last refresh; 16 R463; 0 -/
  refreshAt : Nat := 0
  /-- AON tick of the last PHY retraining; 16 R463; 0 -/
  retrainAt : Nat := 0
  /-- retired 64-word frames (physical word address / 64); 16 R458; none -/
  frames : List Nat := []
deriving DecidableEq, Repr

/-- One of the 16 processing channels (R15). -/
structure Pier where
  /-- the pier sequencer -/
  core : Core := {}
  /-- banks, quarry, TLBs, instruction cache -/
  mem : PierMem := {}
  /-- registers -/
  regs : PierRegs := {}
  /-- runs, staging registers, accumulators, key slots, XLAT tables, AU0 -/
  runs : RunSt := {}
  /-- the hod -/
  hod : Hod := {}
  /-- bank pointing lap; 16 R461 -/
  lapB : Lap := {}
  /-- quarry pointing lap; 16 R461 -/
  lapQ : Lap := { limit := 0x59682F00#32 }
  /-- power and clock -/
  pw : PierPower := {}
  /-- detections on the reporting path of this pier, oldest first; 16 R445; empty -/
  detq : List Detection := []
  /-- ST_CTL.KC as it has taken effect on this pier; 1 bit; 13 R367; 1 -/
  kcOn : Bool := true
deriving DecidableEq, Repr

/-! ### Host port -/

/-- A ring slot (R329). -/
structure Ring where
  /-- SQTAIL; 16 bits; 12 R329; 0 -/
  sqTail : BitVec 16 := 0
  /-- CQHEAD; 16 bits; 12 R329; 0 -/
  cqHead : BitVec 16 := 0
  /-- SQB, bits 5 to 0 zero; 64 bits; 12 R329; 0 -/
  sqb : QW := 0
  /-- CQB, bits 4 to 0 zero; 64 bits; 12 R329; 0 -/
  cqb : QW := 0
  /-- EN; 1 bit; 12 R329; 0 -/
  en : Bool := false
  /-- LOG2SQ; 5 bits; 12 R329; 0 -/
  log2sq : BitVec 5 := 0
  /-- LOG2CQ; 5 bits; 12 R329; 0 -/
  log2cq : BitVec 5 := 0
  /-- VEC; 6 bits; 12 R329; 0 -/
  vec : BitVec 6 := 0
  /-- FERR; 1 bit; 12 R329; 0 -/
  ferr : Bool := false
  /-- DBERR; 1 bit; 12 R329; 0 -/
  dberr : Bool := false
  /-- CFGE; 1 bit; 12 R329; 0 -/
  cfge : Bool := false
  /-- SQHEAD, the producer index of an event ring; 16 bits; 12 R329; 0 -/
  sqHead : BitVec 16 := 0
  /-- CTIME; 8 bits; 12 R329; 0 -/
  ctime : Byte := 0
  /-- CCNT; 8 bits; 12 R329; 1 -/
  ccnt : Byte := 1
  /-- CQ tail of the device; 16 bits; 12 R330; 0 -/
  cqTail : BitVec 16 := 0
  /-- CQ phase; 1 bit; 12 R334; 1 -/
  phase : Bool := true
  /-- indices of entries whose fetch is outstanding, oldest first; 12 R332; empty -/
  fetching : List (BitVec 16) := []
  /-- completions or write-backs not yet signalled; 12 R345; 0 -/
  unsig : Nat := 0
  /-- AON tick of the oldest unsignalled one; 12 R345; 0 -/
  unsigAt : Nat := 0
deriving DecidableEq, Repr

/-- An MSI-X table entry with its PBA bit (R326, R346, R510). -/
structure MsixEntry where
  /-- message address; 64 bits; 12 R510 (PCIe base specification); PRESUMED 0 (log 5) -/
  addr : QW := 0
  /-- message data; 32 bits; 12 R510; PRESUMED 0 (log 5) -/
  data : DW := 0
  /-- vector control mask bit; 1 bit; 12 R346; PRESUMED 1 (log 5, the PCIe base specification's) -/
  mask : Bool := true
  /-- PBA bit; 1 bit; 12 R346; PRESUMED 0 (log 5) -/
  pend : Bool := false
deriving DecidableEq, Repr

/-- A PCIe function. -/
structure Func where
  /-- ring slots; up to 64; 12 R326, R329 -/
  rings : Vector Ring 64 := Vector.replicate 64 {}
  /-- MSI-X table and PBA; 56 entries at most; 12 R326 -/
  msix : Vector MsixEntry 56 := Vector.replicate 56 {}
  /-- MSI-X Enable; 1 bit; 12 R346; 0 (R354) -/
  msixEn : Bool := false
  /-- MSI-X Function Mask; 1 bit; 12 R346; 0 (R354) -/
  fmask : Bool := false
  /-- Enable Relaxed Ordering of Device Control; 1 bit; 12 R325; PRESUMED 1 (log 5, the PCIe base specification's) -/
  relaxed : Bool := true
  /-- Memory Space Enable of the Command register (a VF's: that of SR-IOV); 1 bit; 12 R354; PRESUMED 0 (log 5, the PCIe base specification's) -/
  memSpace : Bool := false
  /-- base address registers, six dwords as written; 192 bits; 12 R326, R353, R354; PRESUMED 0 (log 5, the PCIe base specification's) -/
  bars : Vector DW 6 := Vector.replicate 6 0
  /-- Max Payload Size code, 128 << code bytes; 3 bits; 12 R324; PRESUMED 0 (log 5, the PCIe base specification's) -/
  mps : BitVec 3 := 0
  /-- Max Read Request Size code, 128 << code bytes; 3 bits; 12 R324; PRESUMED 2 (log 5, the PCIe base specification's) -/
  mrrs : BitVec 3 := 2
  /-- Bus Master Enable of the Command register; 1 bit; 12 R354; PRESUMED 0 (log 5, the PCIe base specification's) -/
  busMaster : Bool := false
  /-- power state D3hot; 1 bit; 12 R355; false -/
  d3 : Bool := false
  /-- an FLR is in progress; 1 bit; 12 R353; false -/
  flr : Bool := false
  /-- AON tick at which the FLR started; 12 R353; 0 -/
  flrAt : Nat := 0
  /-- FR_VFCFG.INFL; 8 bits; 12 R328; 0 -/
  infl : Byte := 0
  /-- FR_VFCFG.RINGS; 7 bits; 12 R328; 0 -/
  ringCnt : BitVec 7 := 0
  /-- AER Unsupported Requests and fetch errors logged; 12 R31, R333; empty -/
  aer : List (BitVec 8) := []
deriving DecidableEq, Repr

/-- State of the PCIe link (R354, R483). -/
inductive Link where
  | down
  | training
  | up
deriving DecidableEq, Repr

/-- The algorithms that the SPDM responder offers (R356). -/
inductive SpdmAlg where
  | ecdsaP384
  | sha384
  | ecdheP384
  | aes256Gcm
deriving DecidableEq, Repr

/-- A response of the SPDM responder (R356). -/
inductive SpdmResp where
  | version
  | capabilities
  | algorithms (selected : List SpdmAlg)
  | digests (sha384 : List Byte)
  | certificate (part : List Byte)
  | challengeAuth (sig : List Byte)
  | measurements (bootRom image root : List Byte) (sig : List Byte)
  | keyExchangeRsp (pub sig : List Byte)
  | finishRsp
  | endSessionAck
  | ideKmAck
  | error (code : Byte)
deriving DecidableEq, Repr

/-- The SPDM responder and IDE streams (R324, R356). -/
structure Spdm where
  /-- connection phase: 0 none, 1 version, 2 capabilities, 3 algorithms; 12 R356; 0 -/
  phase : Nat := 0
  /-- key exchange done; 1 bit; 12 R356; false -/
  kx : Bool := false
  /-- secured session established; 1 bit; 12 R356; false -/
  session : Bool := false
  /-- shared secret of the key exchange; 12 R356; empty -/
  secret : List Byte := []
  /-- transcript of the messages so far; 12 R356; empty -/
  transcript : List Byte := []
  /-- IDE stream keys: link stream 0, selective streams 1 to 8; 12 R324, R356; none -/
  ide : List (Nat × List Byte) := []
deriving DecidableEq, Repr

/-- What a posted write carries (R20, R325). -/
inductive WriteKind where
  | result (item : Nat)
  | audit (chain : Nat) (cseq : Nat)
  | completion (item : Nat)
  | seal (epoch : Nat)
  | event (eseq : Nat)
  | producer (f : FnId) (r : Nat)
  | hod (p : Fin 16)
deriving DecidableEq, Repr

/-- What the device sends, in the order in which it leaves (R20). `read` is a read request of a function, and
`unsupported` the completion of a host read that answers Unsupported Request (R31, R324, R325). `steward` is an answer
in the PCI vendor-defined MCTP message type, with its Vendor ID (R358). -/
inductive Out where
  | read (f : FnId) (addr : QW) (bytes : Nat)
  | unsupported (f : FnId)
  | write (f : FnId) (kind : WriteKind) (addr : QW) (bytes : List Byte) (relaxed : Bool)
  | msix (f : FnId) (vec : Nat) (addr : QW) (data : DW)
  | fetch (f : FnId) (r : Nat) (index : BitVec 16)
  | steward (vendor : BitVec 16) (answer : List Byte)
  | spdm (m : SpdmResp)
  | tdo (v : DW)
deriving DecidableEq, Repr

/-- The PCIe port. -/
structure HostPort where
  /-- functions PF0, PF1, VF1 to VF64; 12 R326 -/
  fns : Vector Func 66 := Vector.replicate 66 {}
  /-- NumVFs of SR-IOV; 16 bits; 12 R324; PRESUMED 0 (log 5, the PCIe base specification's) -/
  numVfs : BitVec 16 := 0
  /-- VF Enable; 1 bit; 12 R324; PRESUMED 0 (log 5) -/
  vfEn : Bool := false
  /-- PTM Enable; 1 bit; 12 R357; PRESUMED 0 (log 5) -/
  ptmEn : Bool := false
  /-- PERST_N is low; 1 bit; 18 R488; true (pull-down) -/
  perst : Bool := true
  /-- PCIe link; 12 R354, 17 R483; down -/
  link : Link := .down
  /-- configuration space answers (no Request Retry Status); 1 bit; 17 R483; false -/
  cfgReady : Bool := false
  /-- function whose turn it is to fetch, and per-function next slot; 12 R332; 0 -/
  rrFn : Nat := 0
  /-- next ring slot to serve, by function; 12 R332; empty means slot 0 -/
  rrSlot : List (Nat × Nat) := []
  /-- SPDM and IDE; 12 R356 -/
  spdm : Spdm := {}
  /-- AON tick of the last PTM update; 12 R357; 0 -/
  ptmAt : Nat := 0
  /-- everything the device has sent, newest last; model (12 R20); empty -/
  out : List Out := []
  /-- answer of the last configuration or register read request; model; none -/
  lastRead : Option (BitVec 64) := none
deriving DecidableEq, Repr

/-! ### Items, sessions, setter -/

/-- Where an item stands on its way (R19). -/
inductive Stage where
  | setter
  | pier (p : Fin 16)
  | warden
  | result (chain : Fin 17)
  | record (chain : Fin 17)
  | recorded (chain : Fin 17) (cseq : Nat)
  | posted (chain : Fin 17) (cseq : Nat) (time : Nat)
  | keyChange
  | sealWait (epoch : Nat) (persist : Bool)
  | stateWait
  | destroyWait
  | overLimit (p : Fin 16)
deriving DecidableEq, Repr

/-- An item in flight (R19, R336, R340). -/
structure Item where
  id      : Nat
  fn      : FnId
  slot    : Nat
  dws     : List DW
  inSegs  : List (QW × Nat)
  outSegs : List (QW × Nat)
  stage   : Stage
  status  : Byte := 0
  result  : Byte := 0
  outLen  : Nat := 0
  output  : List Byte := []
  rdata6  : DW := 0
  rdata7  : DW := 0
  inBytes : List Byte := []
  part    : Option (Fin 64) := none
  qos     : Nat := 0
  joined  : Nat := 0
  flr     : Bool := false
  drop    : Bool := false
deriving DecidableEq, Repr

/-- A session context (R404, R343). -/
structure Session where
  num   : Nat
  fn    : FnId
  part  : Fin 64
  qos   : BitVec 4
  s1w   : BitVec 2
  root  : BitVec 30
  h     : BitVec 48
  w     : BitVec 256
  items : BitVec 48
  opened : Bool := true
deriving DecidableEq, Repr

/-- A partition program or map held by a slot (R406). -/
structure Loaded where
  part  : Fin 64
  isMap : Bool
  slot  : Nat
  bytes : List Byte
  words : List Word
deriving DecidableEq, Repr

/-- A batch class (R360): QoS, opcode, the variant's values, the session for RUN_PROGRAM. -/
structure BatchClass where
  qos     : Nat
  opc     : Byte
  variant : List Nat
deriving DecidableEq, Repr

/-- State of a batch (R361 to R365). -/
inductive BatchState where
  | gathering
  | ready
  | placed (p : Fin 16)
  | running (p : Fin 16)
deriving DecidableEq, Repr

/-- A batch of the setter; `snap` is the programs and maps that it uses from its first placement on (R410), `turn` the
number of its placement, which orders the placed batches of a pier (R365), and `parts` the partitions of the items that it
was placed with (R369). -/
structure Batch where
  id      : Nat
  cls     : BatchClass
  items   : List Nat
  oldest  : Nat
  state   : BatchState
  readyAt : Nat := 0
  aged    : Bool := false
  started : Nat := 0
  preempted : Nat := 0
  single  : Bool := false
  snap    : Option (List Loaded) := none
  turn    : Nat := 0
  parts   : List (Fin 64) := []
deriving DecidableEq, Repr

/-- ST_PART of one partition (R376). -/
structure StPart where
  /-- ST_PART.EXCL; 1 bit; 13 R376; 0 -/
  excl : Bool := false
  /-- ST_PART.BANKS; 4 bits; 13 R376; 4 -/
  banks : BitVec 4 := 4#4
  /-- ST_PART.PIERS; 16 bits; 13 R376; 0xFFFF -/
  piers : BitVec 16 := 0xFFFF#16
deriving DecidableEq, Repr

/-- Where the setter has placed a leaf of a partition on a pier, apart from its unit: pier, partition, number of the leaf in IPA
order, physical word address (R305, R369, R458). -/
structure LeafPlace where
  pier : Fin 16
  part : Fin 64
  leaf : Nat
  at_  : Nat
deriving DecidableEq, Repr

/-- The setter (R360 to R377). -/
structure Setter where
  /-- ST_CTL.CFG_ERR; 1 bit; 13 R376; 0 -/
  err : Bool := false
  /-- ST_CTL.QD; 2 bits; 13 R376; 2 -/
  qd : BitVec 2 := 2#2
  /-- ST_CTL.KC; 1 bit; 13 R376; 1 -/
  kc : Bool := true
  /-- ST_CTL.EAGER; 1 bit; 13 R376; 0 -/
  eager : Bool := false
  /-- ST_WINDOW.WIN; 16 bits; 13 R376; 100 -/
  win : BitVec 16 := 100#16
  /-- ST_BMAX.BMAX; 13 bits; 13 R376; 4,096 -/
  bmax : BitVec 13 := 4096#13
  /-- ST_PREEMPT.EN; 1 bit; 13 R376; 1 -/
  preEn : Bool := true
  /-- ST_PREEMPT.MINRUN; 8 bits; 13 R376; 20 -/
  minrun : Byte := 20
  /-- ST_PREEMPT.MAXP; 4 bits; 13 R376; 3 -/
  maxp : BitVec 4 := 3#4
  /-- ST_POWER.OFFOK; 1 bit; 13 R376; 0 -/
  offok : Bool := false
  /-- ST_POWER.MINAWAKE; 5 bits; 13 R376; 2 -/
  minawake : BitVec 5 := 2#5
  /-- ST_POWER.SLEEPT; 16 bits; 13 R376; 500 -/
  sleept : BitVec 16 := 500#16
  /-- ST_PIERS.OUT; 16 bits; 13 R376; 0 -/
  out : BitVec 16 := 0
  /-- ST_PIERS.EN; 16 bits; 13 R376; 0xFFFF -/
  en : BitVec 16 := 0xFFFF#16
  /-- ST_PART[0..63]; 13 R376 -/
  part : Vector StPart 64 := Vector.replicate 64 {}
  /-- batches, oldest first; 13 R360; empty -/
  batches : List Batch := []
  /-- next batch number; model; 0 -/
  nextBatch : Nat := 0
  /-- pier chosen last, for round-robin; 13 R364; 15 -/
  lastPier : Nat := 15
  /-- preempting batch and its victim by pier; 13 R370; none -/
  preempts : List (Fin 16 × Nat × Nat) := []
  /-- piers whose 1 ms thinning gap runs, with its end; 16 R462; none -/
  thin : List (Fin 16 × Nat) := []
  /-- AON tick since which each pier holds no batch; 13 R366; 0 -/
  idleSince : Vector Nat 16 := Vector.replicate 16 0
  /-- leaves of partitions that stand apart from their unit; 11 R305, 13 R369, 16 R458; none -/
  leaves : List LeafPlace := []
  /-- piers and partitions whose PR_S2CFG the setter clears once the partition is active there no longer; model (11 R319); empty -/
  s2Due : List (Fin 16 × Fin 64) := []
  /-- number of the next placement; model (13 R365); 0 -/
  nextTurn : Nat := 0
deriving DecidableEq, Repr

/-! ### Keys, flash, keystone -/

/-- A directory entry (R396) with its blob bytes. -/
structure KeyEntry where
  handle  : Nat
  owner   : BitVec 6
  alg     : Byte
  version : Byte
  state   : BitVec 3
  usage   : BitVec 16
  expiry  : Word
  size    : BitVec 12
  kcv     : BitVec 24
  bline   : Nat
  wrap    : List Byte
  pub     : List Byte
  blob    : List Byte
deriving DecidableEq, Repr

/-- A firmware image in flash (R481). -/
structure FwImage where
  pubKey  : List Byte
  sig     : List Byte
  version : Nat
  body    : List Byte
deriving DecidableEq, Repr

/-- The keystone image: the ZCNT under which it was encrypted, and its words (R438). -/
structure KsImage where
  zcnt  : Nat
  words : SMem 32
deriving DecidableEq, Repr

/-- A partition: its quotas (R434), and the units of 4,096 quarry lines in which the setter has placed its region, in
IPA order (R305, R368). -/
structure Partition where
  part   : Fin 64
  quarry : Nat
  keys   : Nat
  units  : List Nat
deriving DecidableEq, Repr

/-- A key change that waits for its turn at the key store log (R401). -/
structure KeyChange where
  item  : Nat
  entry : KeyEntry
deriving DecidableEq, Repr

/-- The SPI flash (R504) and the fuses. -/
structure Flash where
  /-- firmware image A; 8 MiB; 18 R504; DESIGN CHOICE none (log 6) -/
  imgA : Option FwImage := none
  /-- firmware image B; 8 MiB; 18 R504; as A -/
  imgB : Option FwImage := none
  /-- lifecycle record: lifecycle code, re-entry flag; 15 R440, 18 R504; DESIGN CHOICE BLANK, re-entry allowed (log 6) -/
  life : Option (BitVec 3 × Bool) := some (0, true)
  /-- certificate chain of SET_CERT; 18 R504; DESIGN CHOICE empty (log 6) -/
  cert : List Byte := []
  /-- seal slot ring, slot number and 576 bytes; 4,096 slots; 15 R421, 18 R504; DESIGN CHOICE erased (log 6) -/
  seals : List (Nat × List Byte) := []
  /-- next seal slot, kept erased; 15 R421; 0 -/
  nextSeal : Nat := 0
  /-- fault log, newest last, 4,096 records of ten registers; 16 R450; DESIGN CHOICE empty (log 6) -/
  faultLog : List (List DW) := []
  /-- retired frames by pier and retired banks by pier in the fault log; 16 R458; none -/
  retired : List (Fin 16 × Nat) := []
  /-- retired banks; 16 R458; none -/
  retiredBanks : List (Fin 16 × Fin 16) := []
  /-- keystone image in the key store log; 15 R438; DESIGN CHOICE none (log 6) -/
  image : Option KsImage := none
  /-- directory entries in the key store log; 14 R401; DESIGN CHOICE none (log 6) -/
  keys : List KeyEntry := []
  /-- partition quotas in the key store log; 15 R434; DESIGN CHOICE none (log 6) -/
  parts : List Partition := []
  /-- TSEQ of exports; 48 bits; 15 R443; 0 -/
  tseqOut : Nat := 0
  /-- highest TSEQ accepted by source node; 15 R444; none -/
  tseqIn : List (Nat × Nat) := []
  /-- erase count by sector; 16 R463; 0 -/
  erases : List (Nat × Nat) := []
  /-- retired sectors; 16 R463; none -/
  badSectors : List Nat := []
  /-- size of CS0 in 4 MiB units (SB_STRAP.FSZ0); 8 bits; 18 R498; DESIGN CHOICE 16 (log 6) -/
  size0 : Byte := 16
  /-- size of CS1 in 4 MiB units (SB_STRAP.FSZ1); 8 bits; 18 R498; DESIGN CHOICE 0 (log 6) -/
  size1 : Byte := 0
  /-- the SFDP tables of CS0 can be read; 1 bit; 18 R501, R503; DESIGN CHOICE true (log 6) -/
  sfdp : Bool := true
  /-- CS1 has the sector and page sizes of CS0; 1 bit; 18 R501, R503; DESIGN CHOICE true (log 6) -/
  match1 : Bool := true
deriving DecidableEq, Repr

/-- A pending component of a partition KEK (R435): its place among the four of R437, partition, KALG, length, whether it
came from PF0, and the AON tick of its acceptance. -/
structure KekPend where
  slot    : Nat
  part    : Fin 64
  kalg    : Nat
  fromPf0 : Bool
  since   : Nat
deriving DecidableEq, Repr

/-- The keystone (R437, R438): three copies of 1,024 words of 32 bits. -/
structure Keystone where
  /-- first copy; 1,024 x 32 bits; 15 R437, R438; 0 -/
  m0 : SMem 32 := []
  /-- second copy; 15 R438; 0 -/
  m1 : SMem 32 := []
  /-- third copy; 15 R438; 0 -/
  m2 : SMem 32 := []
  /-- keys unavailable after a zeroize (reason 8 of R159); 1 bit; 15 R439; false -/
  zeroized : Bool := false
  /-- the pending components, four at most; 15 R435, R437; none -/
  pend : List KekPend := []
  /-- ephemeral key of WARD_REQUEST is held, with its NODE; 15 R442; none -/
  wardReq : Option Nat := none
deriving DecidableEq, Repr

/-! ### Audit -/

/-- An audit record that the frontage has accepted and not yet delivered (R414, R417). -/
structure AuditRec where
  chain : Fin 17
  cseq  : Nat
  mark  : List Byte
  bytes : List Byte
  item  : Option Nat
deriving DecidableEq, Repr

/-- A seal that has been formed and not yet written (R418). -/
structure Seal where
  epoch   : Nat
  kind    : Nat
  bytes   : List Byte
  persist : Bool
  flashed : Bool
deriving DecidableEq, Repr

/-- The audit sealer and the chains (R414 to R426). -/
structure Audit where
  /-- AU_ block CFG_ERR; 1 bit; 01 R34; 0 -/
  err : Bool := false
  /-- accepted records awaiting PF1 slot 1, oldest first; 15 R417; empty -/
  recs : List AuditRec := []
  /-- records at the front of that queue that were accepted before PROVISION set the genesis heads; they are delivered and move
  no head; model (15 R416, R436); 0 -/
  older : Nat := 0
  /-- seal due; 1 bit; 15 R418; false -/
  due : Bool := false
  /-- AON tick at which the last seal was formed; 15 R418; 0 -/
  lastSeal : Nat := 0
  /-- records delivered per chain since the last seal; 15 R418; 0 -/
  since : List Nat := List.replicate 17 0
  /-- seals formed and not yet written; two at most; 15 R418; empty -/
  seals : List Seal := []
  /-- SEAL_NOW items waiting to form their seal; 15 R422; empty -/
  sealNow : List (Nat × Bool) := []
  /-- AON tick since which a record has waited for room in PF1 slot 1, and whether its NOTICE is made; 12 R335; none -/
  waitAt : Option (Nat × Bool) := none
  /-- delivered heads frozen by the power-fail sequence; 15 R423; false -/
  frozen : Bool := false
  /-- calendar time: seconds and the AON tick at which they held; 15 R432; not set -/
  cal : Option (Nat × Nat) := none
  /-- event-ring entry sequence (ESEQ) of the next slot-3 entry; 32 bits; 16 R455; 0 -/
  eseq : DW := 0
  /-- slot-3 entries dropped since the last one written; 16 R455; 0 -/
  drop : Nat := 0
  /-- final seal formed by the power-fail sequence; 15 R423; none -/
  final : Option (Nat × List Byte) := none
  /-- chains that are exhausted; 15 R416; none -/
  full : List Nat := []
deriving DecidableEq, Repr

/-! ### Fault collector -/

/-- A fault record slot (R448 to R450). -/
structure FRec where
  /-- REC0.VAL; 1 bit; 16 R450; 0 -/
  val : Bool := false
  /-- REC0.OPEN; 1 bit; 16 R450; 0 -/
  opened : Bool := false
  /-- causes of the record that stand as a level (REC0.NOW = some); 16 R449; none -/
  levels : List (BitVec 8) := []
  /-- REC0.SEC; 1 bit; 16 R450; 0 -/
  sec : Bool := false
  /-- REC0.CLASS; 3 bits; 16 R450; 0 -/
  cls : BitVec 3 := 0
  /-- REC0.REGION; 5 bits; 16 R450; 0 -/
  region : BitVec 5 := 0
  /-- REC0.CAUSE; 8 bits; 16 R450; 0 -/
  cause : Byte := 0
  /-- REC0.COUNT; 8 bits; 16 R450; 0 -/
  count : Nat := 0
  /-- REC1.RID; 16 bits; 16 R450; 0 -/
  rid : BitVec 16 := 0
  /-- REC1.CAUSE2; 8 bits; 16 R450; 0 -/
  cause2 : Byte := 0
  /-- REC2.DETAIL; 32 bits; 16 R450; 0 -/
  detail : DW := 0
  /-- REC3.DETAIL2; 32 bits; 16 R450; 0 -/
  detail2 : DW := 0
  /-- T_FIRST; 64 bits; 16 R450; 0 -/
  tFirst : Nat := 0
  /-- T_LAST; 64 bits; 16 R450; 0 -/
  tLast : Nat := 0
  /-- T_CLEAR; 64 bits; 16 R450; 0 -/
  tClear : Nat := 0
  /-- AON tick at which the record closed; 16 R448; 0 -/
  closedAt : Nat := 0
  /-- end of the reaction shadow: none outside a shadow, some 0 before the reset completes; 16 R453; none -/
  shadow : Option Nat := none
  /-- AON tick at which the reaction shadow ended; 16 R453, R454; 0 -/
  shadowEnd : Nat := 0
deriving DecidableEq, Repr

/-- An entry of the correction log (R457). -/
structure CLog where
  /-- CLOG0.VAL; 1 bit; 16 R457; 0 -/
  val : Bool := false
  /-- CLOG0.ADV; 1 bit; 16 R457; 0 -/
  adv : Bool := false
  /-- CLOG0.QY; 1 bit; 16 R457; 0 -/
  qy : Bool := false
  /-- CLOG0.UE; 1 bit; 16 R457; 0 -/
  ue : Bool := false
  /-- CLOG0.COUNT; 8 bits; 16 R457; 0 -/
  count : Nat := 0
  /-- CLOG1.ADDR; 25 bits; 16 R457; 0 -/
  addr : BitVec 25 := 0
  /-- CLOG2.FIRST; 32 bits; 16 R457; 0 -/
  first : DW := 0
  /-- CLOG3.LAST; 32 bits; 16 R457; 0 -/
  last : DW := 0
deriving DecidableEq, Repr

/-- The fault collector. -/
structure Collector where
  /-- FC_STAT.CFG_ERR; 1 bit; 16 R450; 0 -/
  err : Bool := false
  /-- FC_STAT.HALT; 1 bit; 16 R450; 0 -/
  halt : Bool := false
  /-- FC_STAT.HOLD; 1 bit; 16 R450; 0 -/
  hold : Bool := false
  /-- the HALT was taken for cause 0x19 or 0x1B (R452 step 3); 16 R452; false -/
  haltHard : Bool := false
  /-- the HALT was taken for cause 0x1B; 17 R479; false -/
  halt1B : Bool := false
  /-- FC_STAT.LOST; 8 bits; 16 R450; 0 -/
  lost : Nat := 0
  /-- FC_PIERS.QUAR; 16 bits; 16 R450; 0 -/
  quar : BitVec 16 := 0
  /-- FC_PIERS.OUT; 16 bits; 16 R450; 0 -/
  out : BitVec 16 := 0
  /-- FC_NEWEST.RID; 16 bits; 16 R450; 0 -/
  newRid : BitVec 16 := 0
  /-- FC_NEWEST.SLOT; 6 bits; 16 R450; 0 -/
  newSlot : BitVec 6 := 0
  /-- recoveries of each pier, AON ticks (FC_PREC0, FC_PREC1); 16 R450, R454; none -/
  prec : List (Fin 16 × Nat) := []
  /-- device recoveries, AON ticks (FC_DREC); 16 R450, R454; none -/
  drec : List Nat := []
  /-- FC_TELEM.PERIOD; 10 bits; 16 R450; 100 -/
  period : BitVec 10 := 100#10
  /-- the 64 record slots; 16 R448, R450 -/
  recs : Vector FRec 64 := Vector.replicate 64 {}
  /-- the correction log, 16 entries per pier; 16 R457 -/
  clog : Vector (Vector CLog 16) 16 := Vector.replicate 16 (Vector.replicate 16 {})
  /-- detections of frontage regions on the reporting path; 16 R445; empty -/
  detq : List Detection := []
  /-- AON tick of the last telemetry entry; 16 R455; 0 -/
  telemAt : Nat := 0
  /-- highest die temperature since the last telemetry entry; 16 R455; none -/
  dieMax : Option Int := none
  /-- last sample; 17 R474; none -/
  sample : Option Sample := none
  /-- consecutive samples above the die warning; 17 R474; 0 -/
  hotRun : Nat := 0
  /-- consecutive over-current samples; 17 R474; 0 -/
  overRun : Nat := 0
  /-- piers whose per-pier reset is asserted; 16 R451; 0 -/
  inReset : BitVec 16 := 0
  /-- AON tick of the last sensor calibration; 16 R463; 0 -/
  calAt : Nat := 0
  /-- per-pier resets that a CONTAIN reaction has still to assert; 16 R451; 0 -/
  resetDue : BitVec 16 := 0
  /-- a die trip puts every pier into OFF after HALT step 2; 1 bit; 17 R474; false -/
  dieTrip : Bool := false
  /-- HALT step 2 still to be done: items complete, the seal is formed; 16 R452; false -/
  haltStep2 : Bool := false
deriving DecidableEq, Repr

/-! ### Power, board, lifecycle -/

/-- The load arbiter (R469 to R473). -/
structure Arbiter where
  /-- PW_CTL.CFG_ERR; 1 bit; 17 R473; 0 -/
  err : Bool := false
  /-- PW_BUDGET.SCAP; 10 bits; 17 R473; 560 -/
  scap : Nat := 560
  /-- PW_BUDGET.BUDGET; 10 bits; 17 R473; 480 -/
  budget : Nat := 480
  /-- ceiling of 0.8 GHz for every pier while a die warning stands; 17 R474; false -/
  ceiling : Bool := false
  /-- AON tick of the last staggered start (wake or raise); 17 R470; none -/
  lastStart : Option Nat := none
deriving DecidableEq, Repr

/-- Operating state (R428, R429). -/
inductive OpState where
  | startUp
  | service
  | test
  | recovery
deriving DecidableEq, Repr

/-- Where the start-up sequence stands (R480): the last step done. -/
inductive Boot where
  | por
  | released
  | pll
  | image
  | failed
  | keystone
  | filled
  | evoari
  | tables
  | seals
  | ready
deriving DecidableEq, Repr

/-- The power-fail sequence (R423, R475). -/
inductive PfStage where
  | none
  | stopped
  | frozen
  | sealed
  | done
deriving DecidableEq, Repr

/-- The zeroize sequence (R439). -/
inductive ZStage where
  | none
  | cleared
  | fused
  | zeroed
  | done
deriving DecidableEq, Repr

/-- JTAG instruction register and boundary-scan register (R431, R500). -/
inductive JtagIr where
  | bypass
  | idcode
  | sample
  | extest
  | bist
deriving DecidableEq, Repr

/-- Balls, straps, sideband and JTAG (R488, R497 to R500). -/
structure Board where
  /-- POR_N low; 1 bit; 18 R488; true (the reset state is POR asserted) -/
  porLow : Bool := true
  /-- READY; 1 bit; 18 R488, R494; low -/
  ready : Bool := false
  /-- FAULT_N asserted; 1 bit; 18 R488, R494; released -/
  fault : Bool := false
  /-- THERMTRIP_N asserted (latched); 1 bit; 17 R474, 18 R494; released -/
  therm : Bool := false
  /-- SB_ALERT_N asserted; 1 bit; 18 R499, R494; released -/
  alert : Bool := false
  /-- BOOT_SEL as sampled (SB_STRAP.BOOT_SEL); 1 bit; 18 R497; DESIGN CHOICE 0 before sampling (log 5) -/
  bootSel : Bool := false
  /-- SB_ADDR as sampled (SB_STRAP.SBADDR); 3 bits; 18 R497; DESIGN CHOICE 0 before sampling (log 5) -/
  sbAddr : BitVec 3 := 0
  /-- SB_STRAP.IMG; 1 bit; 18 R498; DESIGN CHOICE 0 before start-up (log 5) -/
  img : Bool := false
  /-- SB_ block CFG_ERR; 1 bit; 01 R34; 0 -/
  err : Bool := false
  /-- sideband mode: none chosen, I3C (true) or SMBus (false); 18 R499; none -/
  sbMode : Option Bool := none
  /-- I3C dynamic address; 7 bits; 18 R499; none -/
  dynAddr : Option (BitVec 7) := none
  /-- TRST_N holds the TAP in reset; 1 bit; 18 R500; true (pull-down) -/
  tapReset : Bool := true
  /-- JTAG instruction; 18 R500 (IEEE 1149.1: IDCODE after TAP reset); PRESUMED IDCODE (log 5) -/
  ir : JtagIr := .idcode
  /-- boundary-scan register; 18 R500; DESIGN CHOICE empty (log 5) -/
  bsr : List Bool := []
  /-- EXTEST drives the balls; 1 bit; 15 R431; false -/
  extest : Bool := false
  /-- result of the last memory BIST, a free value; 15 R431; none -/
  bist : Option (BitVec 64) := none
  /-- start-up step in which an early POR_N release stops start-up; 18 R492; none -/
  stuckAt : Option Nat := none
deriving DecidableEq, Repr

/-- Lifecycle, start-up and failure sequences (R427 to R440, R423, R480). -/
structure Life where
  /-- LIFE, lifecycle code; 3 bits; 15 R427, R429; from the lifecycle record, DESIGN CHOICE 0 before it loads (log 5) -/
  life : BitVec 3 := 0
  /-- operating state (FR_STATE.OPST); 2 bits; 15 R428, R429; START-UP -/
  op : OpState := .startUp
  /-- re-entry flag of the lifecycle record; 1 bit; 15 R440; true (log 6) -/
  reentry : Bool := true
  /-- ZCNT fuses programmed, 0 to 8; 15 R429, R439; DESIGN CHOICE 0 as shipped (log 6) -/
  zcnt : Nat := 0
  /-- terminal fuse; 1 bit; 15 R433, R440; DESIGN CHOICE intact (log 6) -/
  terminal : Bool := false
  /-- fused key hash, SHA-384; 17 R481; DESIGN CHOICE empty: no key is fused (log 6) -/
  keyHash : List Byte := []
  /-- fused minimum security version; 17 R481; DESIGN CHOICE 0 (log 6) -/
  minVer : Nat := 0
  /-- start-up step reached; 17 R480; POR -/
  boot : Boot := .por
  /-- start-up is that of a frontage warm reset; 17 R480; false -/
  warm : Bool := false
  /-- power-fail sequence; 15 R423; none -/
  pf : PfStage := .none
  /-- AON tick of the PWRFAIL_N assertion; 15 R423; 0 -/
  pfAt : Nat := 0
  /-- zeroize sequence; 15 R439; none -/
  zero : ZStage := .none
  /-- SET_STATE 6 asked for the terminal fuse; 15 R433; false -/
  decom : Bool := false
  /-- ZEROIZE_N is held low; 1 bit; 15 R439; DESIGN CHOICE false (log 5) -/
  zeroLow : Bool := false
  /-- FR_STAT CFG_ERR, register 0 of the frontage block; 1 bit; 01 R34; 0 -/
  frErr : Bool := false
  /-- FR_BOOT.REMAP; 1 bit; 10 R301; 0 -/
  remap : Bool := false
  /-- SET_STATE 1 waits for VF items, with its item; 15 R433; none -/
  testWait : Option Nat := none
  /-- PART_DESTROY in progress: item and partition; 15 R434; none -/
  destroying : Option (Nat × Fin 64) := none
deriving DecidableEq, Repr

/-- The warden: its core and its SRAM of 1 Mi words with SEC-DED codewords (R240, R456). -/
structure Warden where
  /-- the warden's core -/
  core : Core := {}
  /-- SRAM, 43-bit codewords; 1 Mi words; 09 R240, 16 R456; zero with valid check bits (R483) -/
  sram : SMem 43 := []
deriving DecidableEq, Repr

/-- The device. -/
structure Dev where
  /-- TIME, AON ticks since POR; 64 bits; 01 R27, 08 R204; 0 -/
  time : QW := 0
  /-- the 16 piers; 01 R15 -/
  piers : Vector Pier 16 := Vector.replicate 16 {}
  /-- the warden -/
  warden : Warden := {}
  /-- the PCIe port -/
  host : HostPort := {}
  /-- in-flight tracker, oldest first; 131,072 items; 12 R344; empty -/
  items : List Item := []
  /-- next item number; model; 0 -/
  nextItem : Nat := 0
  /-- session table, by rising number; 65,536 contexts; 12 R342, 14 R404; empty -/
  sessions : List Session := []
  /-- the setter -/
  setter : Setter := {}
  /-- the audit sealer -/
  audit : Audit := {}
  /-- the keystone -/
  ks : Keystone := {}
  /-- the flash -/
  flash : Flash := {}
  /-- the fault collector -/
  fc : Collector := {}
  /-- the load arbiter -/
  pw : Arbiter := {}
  /-- balls, straps, sideband, JTAG -/
  board : Board := {}
  /-- lifecycle and sequences -/
  life : Life := {}
  /-- partitions that exist; 64; 15 R434; none -/
  parts : List Partition := []
  /-- programs and maps loaded; volatile; 14 R406; none -/
  loaded : List Loaded := []
  /-- key changes waiting for the key store log, in order; 14 R401; empty -/
  changes : List KeyChange := []
  /-- counter of free values; MODEL'S OWN, not the spec's; DESIGN CHOICE 0 (log 2) -/
  fresh : Nat := 0
deriving DecidableEq, Repr

/-- The state of the model: the device, and the commands that wait, first in first out. -/
structure State where
  /-- the device -/
  dev : Dev := {}
  /-- waiting commands, first in first out; MODEL'S OWN; empty -/
  pending : List Instr := []
deriving DecidableEq, Repr

/-- Why the machine stops. -/
inductive Fault where
  /-- Raised by RAIL_OUT_OF_TOLERANCE when a rail exceeds its tolerance by more than 10 %: R492 gives no
  outcome there. Safe: the model stops where the hardware does something unsaid. -/
  | railDamage
deriving DecidableEq, Repr

/-- Why a command has no meaning. -/
inductive Refusal where
  /-- A command that is not modelled, by its mnemonic. Safe: the model stops. -/
  | notModelled (mnemonic : String)
deriving DecidableEq, Repr

/-- Right after reset: POR_N is low, every register at its reset value, the queue empty. -/
def State.reset : State := {}

end Sys2Proof.Machine
end

