-- ==== Sys2Proof/Machine/Ops.lean ====
section
/-! DEFINITION. Named operations over sparse memories and over the parts of the state. -/

namespace Sys2Proof.Machine

open Sys2Proof

/-! ### Sparse memories -/

/-- The value at address `a`; an unlisted address reads zero (R483). -/
def SMem.get {w : Nat} : SMem w → Nat → BitVec w
  | [], _ => 0
  | (b, v) :: m, a => if a = b then v else SMem.get m a

/-- Writes `x` at address `a`, keeping the canonical form. -/
def SMem.set {w : Nat} : SMem w → Nat → BitVec w → SMem w
  | [], a, x => if x = 0 then [] else [(a, x)]
  | (b, v) :: m, a, x =>
    if a < b then (if x = 0 then (b, v) :: m else (a, x) :: (b, v) :: m)
    else if a = b then (if x = 0 then m else (a, x) :: m)
    else (b, v) :: SMem.set m a x

/-- Zeroes the addresses from `lo` up to but not including `hi`. -/
def SMem.clear {w : Nat} (m : SMem w) (lo hi : Nat) : SMem w :=
  m.filter (fun e => e.1 < lo || hi ≤ e.1)

/-- The canonical form: addresses strictly rising and no zero entry. -/
def SMem.wf {w : Nat} : SMem w → Bool
  | [] => true
  | (a, x) :: m => x != 0 && m.all (fun e => a < e.1) && SMem.wf m

/-- Writes consecutive values from address `a`. -/
def SMem.setList {w : Nat} (m : SMem w) (a : Nat) : List (BitVec w) → SMem w
  | [] => m
  | x :: xs => SMem.setList (m.set a x) (a + 1) xs

/-- Reads `n` consecutive values from address `a`. -/
def SMem.getList {w : Nat} (m : SMem w) (a n : Nat) : List (BitVec w) :=
  (List.range n).map (fun i => m.get (a + i))

/-! ### Lists -/

/-- The element at `i`, or `d` beyond the end. -/
def nth {α : Type} (l : List α) (i : Nat) (d : α) : α := l.getD i d

/-- Sets the element at `i`; beyond the end nothing changes. -/
def setNth {α : Type} (l : List α) (i : Nat) (x : α) : List α := l.set i x

/-- The value under key `k`, or `d`. -/
def assocGet {α β : Type} [DecidableEq α] (l : List (α × β)) (k : α) (d : β) : β :=
  match l.find? (fun e => e.1 = k) with
  | some e => e.2
  | none => d

/-- Sets the value under key `k`. -/
def assocSet {α β : Type} [DecidableEq α] (l : List (α × β)) (k : α) (v : β) : List (α × β) :=
  if l.any (fun e => e.1 = k) then l.map (fun e => if e.1 = k then (k, v) else e)
  else l ++ [(k, v)]

/-! ### Parts of the device -/

/-- Pier `p`. -/
def Dev.pier (d : Dev) (p : Fin 16) : Pier := d.piers[p]

/-- Replaces pier `p`. -/
def Dev.setPier (d : Dev) (p : Fin 16) (x : Pier) : Dev := { d with piers := d.piers.set p x }

/-- Changes pier `p`. -/
def Dev.onPier (d : Dev) (p : Fin 16) (f : Pier → Pier) : Dev := d.setPier p (f (d.pier p))

/-- Changes every pier. -/
def Dev.allPiers (d : Dev) (f : Pier → Pier) : Dev := { d with piers := d.piers.map f }

/-- A core. -/
def Dev.core (d : Dev) : CoreId → Core
  | .pier p => (d.pier p).core
  | .warden => d.warden.core

/-- Replaces a core. -/
def Dev.setCore (d : Dev) (c : CoreId) (x : Core) : Dev :=
  match c with
  | .pier p => d.onPier p (fun P => { P with core := x })
  | .warden => { d with warden := { d.warden with core := x } }

/-- Changes a core. -/
def Dev.onCore (d : Dev) (c : CoreId) (f : Core → Core) : Dev := d.setCore c (f (d.core c))

/-- Number of a PCIe function in the table of functions (R326). -/
def fnNum : FnId → Fin 66
  | .pf0 => 0
  | .pf1 => 1
  | .vf v => ⟨v.val + 2, by omega⟩

/-- A PCIe function. -/
def Dev.fn (d : Dev) (f : FnId) : Func := d.host.fns[fnNum f]

/-- Changes a PCIe function. -/
def Dev.onFn (d : Dev) (f : FnId) (g : Func → Func) : Dev :=
  { d with host := { d.host with fns := d.host.fns.set (fnNum f) (g (d.fn f)) } }

/-- A ring slot. -/
def Dev.ring (d : Dev) (f : FnId) (r : Fin 64) : Ring := (d.fn f).rings[r]

/-- Changes a ring slot. -/
def Dev.onRing (d : Dev) (f : FnId) (r : Fin 64) (g : Ring → Ring) : Dev :=
  d.onFn f (fun F => { F with rings := F.rings.set r (g F.rings[r]) })

/-- AON tick count since POR as a number (R27). -/
def Dev.now (d : Dev) : Nat := d.time.toNat

/-- Sends one transaction, behind everything sent before (R20). -/
def Dev.send (d : Dev) (o : Out) : Dev := { d with host := { d.host with out := d.host.out ++ [o] } }

/-- A free value of width `w` (log 2). -/
def Dev.free (d : Dev) (w : Nat) : BitVec w := Config.free w d.fresh

/-- Moves on to the next free value (log 2). -/
def Dev.used (d : Dev) : Dev := { d with fresh := d.fresh + 1 }

/-- A detection of an event: it does not stand as a level (R449). -/
def mkDetection (cause region detail detail2 : Nat) : Detection :=
  ⟨BitVec.ofNat 8 cause, BitVec.ofNat 5 region, BitVec.ofNat 32 detail, BitVec.ofNat 32 detail2, false⟩

/-- A detector of a pier reports: the detection joins the pier's reporting path (R445). The region is
that of the pier, which the collector knows (R446). -/
def Pier.detect (P : Pier) (cause detail detail2 : Nat) : Pier :=
  { P with detq := P.detq ++ [mkDetection cause 0 detail detail2] }

/-- A detector of a frontage region reports (R445, R446). -/
def Dev.detect (d : Dev) (cause region detail detail2 : Nat) : Dev :=
  { d with fc := { d.fc with detq := d.fc.detq ++ [mkDetection cause region detail detail2] } }

/-- The device enters SERVICE: TC is held at 0 outside START-UP, TEST and RECOVERY, on every core (R200). -/
def Dev.enterService (d : Dev) : Dev :=
  let hold (k : Core) : Core := { k with sw := k.sw &&& ~~~ 0x200#36 }
  let d := (d.onCore .warden hold).allPiers (fun P => { P with core := hold P.core })
  { d with life := { d.life with op := .service } }

/-- The answer of a command that changes the device alone. -/
def State.answer (s : State) (d : Dev) : Host.Outcome State Fault Refusal := .next { s with dev := d }

end Sys2Proof.Machine
end

