-- ==== Sys2Proof/Machine/Bond.lean ====
section
/-! DEFINITION. Ports, units, courses, course definitions and bond scripts: their form and their checks
(R65 to R96, R108, R109, R155). -/

namespace Sys2Proof.Machine

open Sys2Proof

/-! ### Ports and units (R65, R68 to R70, R155) -/

/-- A port number: unit [11:4], code [3:0] (R69). -/
abbrev Port := BitVec 12

/-- The unit of a port (R69). -/
def portUnit (p : Port) : Nat := p.toNat / 16
/-- The code of a port (R65). -/
def portCode (p : Port) : Nat := p.toNat % 16
/-- The port of a unit and code (R69). -/
def mkPort (u c : Nat) : Port := BitVec.ofNat 12 (u * 16 + c)
/-- The pool marker (R86, R96). -/
def poolMark : Port := 0xFFF#12

/-- Whether a code is a streamed input (R65). -/
def codeIn (c : Nat) : Bool := c < 4
/-- Whether a code is a streamed output (R65). -/
def codeOut (c : Nat) : Bool := 4 ≤ c && c < 8
/-- Whether a code is a parameter (R65). -/
def codeParam (c : Nat) : Bool := 8 ≤ c

/-- Load streamer (R70). -/
def isLoad (u : Nat) : Bool := u < 4
/-- Store streamer (R70). -/
def isStore (u : Nat) : Bool := u = 4 || u = 5
/-- Lane stone (R68, R70). -/
def isLane (u : Nat) : Bool := (8 ≤ u && u ≤ 0xF) || u = 0x12 || u = 0x13
/-- Soft course slot (R70). -/
def isSoft (u : Nat) : Bool := 0x80 ≤ u && u ≤ 0xBF

/-- The port codes present on a unit of silicon; empty for a reserved unit (R68, R70, R155). -/
def unitCodes (u : Nat) : List Nat :=
  if isLoad u then [4, 8, 9, 10, 11, 12, 13, 14, 15]
  else if isStore u then [0, 3, 8, 9, 10, 11, 12, 13, 14, 15]
  else if isLane u then List.range 16
  else match u with
    | 0x10 => [0, 3, 4, 5, 6, 7, 8, 9, 12, 13]
    | 0x11 => [0, 3, 4, 5, 6, 8]
    | 0x20 => [0, 1, 2, 3, 4, 6, 8, 9, 10, 11, 12, 13]
    | 0x21 => [0, 1, 2, 3, 4, 6, 8, 9, 10, 11, 12, 13]
    | 0x22 => [0, 1, 2, 3, 4, 6, 8, 9, 10, 11, 12, 13]
    | 0x23 => [0, 1, 2, 3, 4, 6, 8, 9, 10, 11, 12]
    | 0x24 => [0, 1, 3, 4, 5, 6, 8, 9, 10, 12, 13]
    | 0x25 => [0, 1, 3, 4, 6, 8, 9, 10, 12, 13]
    | _ => []

/-- The stones that a fixed course claims (R83). -/
def fixedClaims (u : Nat) : List Nat :=
  match u with
  | 0x20 => [0x0A, 0x0B, 0x09, 0x0F]
  | 0x25 => [0x20, 0x0A, 0x0B, 0x09, 0x0F, 0x08, 0x13]
  | _ => []

/-! ### Connection words (R85, R94) -/

/-- SRC of a connection word. -/
def cwSrc (w : Word) : Port := w.extractLsb' 24 12
/-- DST of a connection word. -/
def cwDst (w : Word) : Port := w.extractLsb' 12 12
/-- MOD of a connection word. -/
def cwMod (w : Word) : Nat := (w.extractLsb' 0 12).toNat
/-- Whether a connection word is a pool setting (R94). -/
def cwPool (w : Word) : Bool := cwSrc w = poolMark
/-- IDX of a pool setting (R94). -/
def cwIdx (w : Word) : Nat := cwMod w % 64
/-- SPAN of a pool setting (R94). -/
def cwSpan (w : Word) : Nat := cwMod w / 64 % 8 + 1
/-- DLY of a streamed connection (R94). -/
def cwDly (w : Word) : Nat := cwMod w % 16

/-! ### Course definitions (R85 to R88) -/

/-- A course definition, read from its words. -/
structure Course where
  members : List Nat
  conns   : List Word
  pool    : List Word
deriving DecidableEq, Repr

/-- M, C and K of a definition's header (R85). -/
def defM (h : Word) : Nat := (h.extractLsb' 0 5).toNat
/-- C of a definition's header. -/
def defC (h : Word) : Nat := (h.extractLsb' 8 8).toNat
/-- K of a definition's header. -/
def defK (h : Word) : Nat := (h.extractLsb' 16 6).toNat

/-- The definition that a block of words holds (R85). -/
def parseCourse (ws : List Word) : Course :=
  let h := ws.headD 0
  { members := ((ws.drop 1).take (defM h)).map (fun w => (w.extractLsb' 0 8).toNat),
    conns := (ws.drop (1 + defM h)).take (defC h),
    pool := (ws.drop (1 + defM h + defC h)).take (defK h) }

/-- The courses of one set: slot and definition (R88). -/
abbrev CourseSet := List (Nat × Course)

/-- The definition in a slot. -/
def slotCourse (cs : CourseSet) (slot : Nat) : Option Course :=
  (cs.find? (fun e => e.1 = slot)).map (·.2)

/-- The outer port codes that a course binds (R87). -/
def courseCodes (c : Course) : List Nat :=
  (c.conns.flatMap (fun w =>
    (if portUnit (cwSrc w) = 0xFE then [portCode (cwSrc w)] else []) ++
    (if portUnit (cwDst w) = 0xFE then [portCode (cwDst w)] else []))).eraseDups

/-- The port codes present on a unit: those of silicon, or those that a soft course binds (R68, R71). -/
def codesOf (cs : CourseSet) (user : Bool) (u : Nat) : List Nat :=
  if isSoft u then match slotCourse cs (u - 0x80) with
    | some c => courseCodes c
    | none => []
  else if user && u = 0x11 then []
  else unitCodes u

/-- Whether a port is present on its unit. -/
def portPresent (cs : CourseSet) (user : Bool) (p : Port) : Bool := (codesOf cs user (portUnit p)).contains (portCode p)

/-- A unit with everything it claims, at every depth (R83, R84). -/
def claimsOf (cs : CourseSet) : Nat → Nat → List Nat
  | 0, u => [u]
  | f + 1, u =>
    if isSoft u then match slotCourse cs (u - 0x80) with
      | some c => u :: c.members.flatMap (claimsOf cs f)
      | none => [u]
    else u :: fixedClaims u

/-- Whether a list of claims names a unit twice (R84). -/
def hasDup (l : List Nat) : Bool := l.eraseDups.length != l.length

/-! ### Expansion (R80, R81, R87) -/

/-- Units, parameter settings, streamed connections and inputs held at a constant, with soft courses or without them. -/
structure Net where
  units  : List Nat
  params : List (Port × Word)
  conns  : List Conn
  consts : List (Port × Word) := []
deriving DecidableEq, Repr

/-- The value set on a parameter port; 0 where nothing sets it (R66). -/
def netParam (n : Net) (p : Port) : Word := assocGet n.params p 0

/-- The value of an operand input that nothing drives: that of an outer input which a soft course binds to it, else its
parameter P1 to P3 (R66, R87). -/
def netConst (n : Net) (p : Port) : Word := assocGet n.consts p (netParam n (mkPort (portUnit p) (9 + portCode p)))

/-- What drives in place of a source port when soft course `u` gives way to its members: the member outputs that its outer
output binds, with their delays (R87). -/
def innerSrcs (u : Nat) (c : Course) (p : Port) : List (Port × Nat) :=
  if portUnit p = u then
    (c.conns.filter (fun w => cwDst w = mkPort 0xFE (portCode p))).map (fun w => (cwSrc w, cwDly w))
  else [(p, 0)]

/-- What is driven in place of a destination port: the member inputs that the outer input binds (R87). -/
def innerDsts (u : Nat) (c : Course) (p : Port) : List (Port × Nat) :=
  if portUnit p = u then
    (c.conns.filter (fun w => !cwPool w && cwSrc w = mkPort 0xFE (portCode p))).map (fun w => (cwDst w, cwDly w))
  else [(p, 0)]

/-- Replaces soft course `u` by its members (R87). Delays along a path add up (DEDUCED, log 9). A member input bound to an
outer operand that the bond leaves undriven takes that operand's constant (R66). -/
def expandOne (n : Net) (u : Nat) (c : Course) : Net :=
  let mine (p : Port) : Bool := portUnit p = u
  let sets := c.conns.filter (fun w => codeParam (portCode (cwDst w)))
  let own := c.conns.filter (fun w => !codeParam (portCode (cwDst w)) && portUnit (cwSrc w) ≠ 0xFE && portUnit (cwDst w) ≠ 0xFE)
  let open_ := c.conns.filter (fun w => !cwPool w && portUnit (cwSrc w) = 0xFE && portCode (cwSrc w) < 3 &&
    !n.conns.any (fun k => k.dst = mkPort u (portCode (cwSrc w))))
  { units := (n.units.filter (· ≠ u)) ++ c.members,
    params := n.params.filter (fun e => !mine e.1) ++ sets.map (fun w =>
      (cwDst w, if cwPool w then c.pool.getD (cwIdx w) 0 else netParam n (mkPort u (portCode (cwSrc w))))),
    conns := n.conns.flatMap (fun k => (innerSrcs u c k.src).flatMap (fun s =>
        (innerDsts u c k.dst).map (fun e => ⟨s.1, e.1, s.2 + k.dly + e.2⟩))) ++
      own.map (fun w => ⟨cwSrc w, cwDst w, cwDly w⟩),
    consts := n.consts.filter (fun e => !mine e.1) ++
      open_.map (fun w => (cwDst w, netConst n (mkPort u (portCode (cwSrc w))))) }

/-- Replaces every soft course by its members, at every depth. -/
def expand (cs : CourseSet) : Nat → Net → Net
  | 0, n => n
  | f + 1, n =>
    match n.units.find? isSoft with
    | some u => match slotCourse cs (u - 0x80) with
      | some c => expand cs f (expandOne n u c)
      | none => n
    | none => n

/-- Expansions that suffice: 64 slots, each a member of one course at most. -/
def expandFuel : Nat := 80

/-- Units reached from a set of units by one connection. -/
def netStep (n : Net) (from_ : List Nat) : List Nat :=
  (from_ ++ (n.conns.filter (fun k => from_.contains (portUnit k.src))).map (fun k => portUnit k.dst)).eraseDups

/-- The transitive closure by `k` rounds. -/
def netReach (n : Net) : Nat → List Nat → List Nat
  | 0, l => l
  | k + 1, l => netReach n k (netStep n l)

/-- Whether some path leads from an output of a unit back to an input of the same unit (R81). -/
def hasLoop (n : Net) : Bool :=
  n.units.any (fun u =>
    (netReach n n.units.length
      ((n.conns.filter (fun k => portUnit k.src = u)).map (fun k => portUnit k.dst)).eraseDups).contains u)

/-- The joints that a net needs: distinct output ports that drive a streamed input (R80). -/
def jointCount (n : Net) : Nat := (n.conns.map (·.src)).eraseDups.length

/-! ### Bond scripts (R92 to R96) -/

/-- C of a script's header (R93). -/
def bondC (h : Word) : Nat := (h.extractLsb' 16 6).toNat
/-- K of a script's header (R93). -/
def bondK (h : Word) : Nat := (h.extractLsb' 22 6).toNat
/-- N of a script's header: 0 encodes 65,536 (R93). -/
def bondN (h : Word) : Nat := if (h.extractLsb' 0 16) = 0#16 then 65536 else (h.extractLsb' 0 16).toNat
/-- The words of a script that BOND reads (R102). -/
def bondWords (h : Word) : Nat := min (1 + bondC h + bondK h) 64

/-- A bond script: header, connection words, pool. -/
structure Script where
  head  : Word
  conns : List Word
  pool  : List Word
deriving DecidableEq, Repr

/-- The script that its words hold (R92). -/
def parseScript (ws : List Word) : Script :=
  let h := ws.headD 0
  { head := h, conns := (ws.drop 1).take (bondC h), pool := (ws.drop (1 + bondC h)).take (bondK h) }

/-- The parameter ports that a pool setting writes with their values (R95). -/
def poolSets (s : Script) (w : Word) : List (Port × Word) :=
  (List.range (cwSpan w)).map (fun j => (cwDst w + BitVec.ofNat 12 j, s.pool.getD (cwIdx w + j) 0))

/-- The units that a connection word names. -/
def wordUnits (w : Word) : List Nat := if cwPool w then [portUnit (cwDst w)] else [portUnit (cwSrc w), portUnit (cwDst w)]

/-- The net of the first `k` connection words (R108). -/
def scriptNet (s : Script) (k : Nat) : Net :=
  let ws := s.conns.take k
  { units := (ws.flatMap wordUnits).eraseDups,
    params := (ws.filter cwPool).flatMap (poolSets s),
    conns := (ws.filter (fun w => !cwPool w)).map (fun w => ⟨cwSrc w, cwDst w, cwDly w⟩) }

/-- Numbers the connection words from 1. -/
def numbered (ws : List Word) : List (Nat × Word) := (List.range ws.length).map (fun i => (i + 1, ws.getD i 0))

/-- The first connection word that a test selects. -/
def firstWord (s : Script) (f : Word → Bool) : Option Nat := ((numbered s.conns).find? (fun e => f e.2)).map (·.1)

/-- The smallest number of words that already fail a test (R108). -/
def firstPrefix (s : Script) (f : Nat → Bool) : Option Nat :=
  (List.range (s.conns.length + 1)).find? (fun k => 1 ≤ k && f k)

/-! ### Streams (R97 to R101) -/

/-- A stream of a script: unit, kind, base or group, length. -/
structure Stream where
  unit    : Nat
  staging : Bool
  base    : Nat
  len     : Nat
deriving DecidableEq, Repr

/-- Registers of a staging group (R99). -/
def groupSize (d : Word) : Nat := 2 ^ (d.extractLsb' 6 3).toNat

/-- The value of parameter `c` of a streamer in the whole script. -/
def streamParam (s : Script) (u c : Nat) : Word := netParam (scriptNet s s.conns.length) (mkPort u (8 + c))

/-- The stream of a streamer (R97, R99); a staging base is its first element position. -/
def streamOf (s : Script) (u : Nat) : Stream :=
  let st := streamParam s u 0 = 1
  let b := streamParam s u 1
  let l := (streamParam s u 2).toNat % 131072
  ⟨u, st, if st then (b.toNat % 64) * 512 else b.toNat, if l = 0 then bondN s.head else l⟩

/-- Whether two streams share an element place (R109). -/
def streamsOverlap (a b : Stream) : Bool :=
  a.staging = b.staging && a.base < b.base + b.len && b.base < a.base + a.len

/-- The streamers that a script names. -/
def scriptStreamers (s : Script) : List Nat := (scriptNet s s.conns.length).units.filter (fun u => isLoad u || isStore u)

/-- Whether a store streamer has its A connected (R101). -/
def storeConnected (s : Script) (u : Nat) : Bool := s.conns.any (fun w => !cwPool w && cwDst w = mkPort u 0)

/-- The lowest-numbered word that sets KIND, BASE or LEN of a streamer; 0 if none (R108). -/
def streamWord (s : Script) (u : Nat) : Nat :=
  (firstWord s (fun w => cwPool w && (poolSets s w).any (fun e => portUnit e.1 = u && 8 ≤ portCode e.1 && portCode e.1 ≤ 10))).getD 0

/-- The last connection word that names a unit. -/
def lastNaming (s : Script) (u : Nat) : Nat :=
  ((numbered s.conns).filter (fun e => (wordUnits e.2).contains u)).foldl (fun m e => max m e.1) 0

/-! ### The checks of a launch (R108) -/

/-- Whether the header has a reserved field (R93). -/
def headBad (h : Word) : Bool := 24 < bondC h || 64 < 1 + bondC h + bondK h || h.extractLsb' 28 5 ≠ 0#5

/-- Whether a setting gives a streamer parameter a reserved value (R97, R99). -/
def streamParamBad (s : Script) (p : Port) (v : Word) : Bool :=
  let u := portUnit p
  (isLoad u || isStore u) &&
  match portCode p with
  | 8 => v ≠ 0 && v ≠ 1
  | 9 => streamParam s u 0 = 1 && (v.toNat / 512 ≠ 0 || (v.extractLsb' 6 3) = 7#3)
  | 10 => v.toNat / 131072 ≠ 0
  | c => 11 ≤ c && v ≠ 0

/-- Cause 0x1 on a connection word: its modifier or the streamer parameters it sets (R94, R95, R97). -/
def wordReserved (s : Script) (w : Word) : Bool :=
  if cwPool w then
    cwMod w / 512 ≠ 0 || 15 < portCode (cwDst w) + cwSpan w - 1 || bondK s.head ≤ cwIdx w + cwSpan w - 1 ||
    (poolSets s w).any (fun e => streamParamBad s e.1 e.2)
  else cwMod w / 16 ≠ 0

/-- Cause 0x2 on a connection word (R68, R70, R71, R96). -/
def wordPortBad (cs : CourseSet) (user : Bool) (s : Script) (w : Word) : Bool :=
  if cwPool w then (poolSets s w).any (fun e => e.1 = poolMark || !portPresent cs user e.1)
  else !portPresent cs user (cwSrc w) || cwDst w = poolMark || !portPresent cs user (cwDst w)

/-- Cause 0x3 on a connection word. -/
def wordKindBad (w : Word) : Bool :=
  if cwPool w then !codeParam (portCode (cwDst w))
  else !codeOut (portCode (cwSrc w)) || !codeIn (portCode (cwDst w))

/-- Cause 0x4 on the first `k` words (R82). -/
def setTwice (s : Script) (k : Nat) : Bool :=
  let n := scriptNet s k
  hasDup ((n.conns.map (fun c => c.dst.toNat)) ++ (n.params.map (fun e => e.1.toNat)))

/-- Cause 0x5 on the first `k` words (R84). -/
def claimsTwice (cs : CourseSet) (s : Script) (k : Nat) : Bool :=
  hasDup ((scriptNet s k).units.flatMap (claimsOf cs 65))

/-- The streams that count for overlap among the first `k` words (R108). -/
def streamsUpTo (s : Script) (k : Nat) : List Stream :=
  ((scriptStreamers s).filter (fun u => lastNaming s u ≤ k && (isLoad u || storeConnected s u))).map (streamOf s)

/-- Cause 0xA on the first `k` words (R109). -/
def overlapUpTo (s : Script) (k : Nat) : Bool :=
  let ss := streamsUpTo s k
  ss.any (fun a => isStore a.unit && ss.any (fun b => b.unit ≠ a.unit && streamsOverlap a b))

/-- Cause 0x8 of a streamer: FIRST is no multiple of the group size (R99). -/
def groupMisaligned (s : Script) (u : Nat) : Bool :=
  streamParam s u 0 = 1 && ((streamParam s u 1).toNat % 64) % groupSize (streamParam s u 1) ≠ 0

/-- Cause 0x9 of a streamer (R101). -/
def streamRange (s : Script) (u : Nat) : Bool :=
  let t := streamOf s u
  bondN s.head < t.len || (if t.staging then 512 * groupSize (streamParam s u 1) < t.len else 2 ^ 36 < t.base + t.len)

/-- The lowest word of the streamers that fail a test (R108). -/
def streamCause (s : Script) (f : Nat → Bool) : Option Nat :=
  ((scriptStreamers s).filter f).foldl (fun m u => some (match m with
    | none => streamWord s u
    | some k => min k (streamWord s u))) none

/-- The refusal of a launch: RCAUSE and RWORD, or none (R108). -/
def bondCheck (cs : CourseSet) (user : Bool) (s : Script) : Option (Nat × Nat) :=
  let net (k : Nat) := expand cs expandFuel (scriptNet s k)
  let tests : List (Nat × (Unit → Option Nat)) :=
    [(1, fun _ => if headBad s.head then some 0 else firstWord s (wordReserved s)),
     (2, fun _ => firstWord s (wordPortBad cs user s)),
     (3, fun _ => firstWord s wordKindBad),
     (4, fun _ => firstPrefix s (setTwice s)),
     (5, fun _ => firstPrefix s (claimsTwice cs s)),
     (6, fun _ => firstPrefix s (fun k => hasLoop (net k))),
     (7, fun _ => firstPrefix s (fun k => 24 < jointCount (net k))),
     (8, fun _ => streamCause s (groupMisaligned s)),
     (9, fun _ => streamCause s (streamRange s)),
     (10, fun _ => firstPrefix s (overlapUpTo s))]
  tests.findSome? (fun t => (t.2 ()).map (fun w => (t.1, w)))

/-! ### The checks of DEFINE_COURSE (R90) -/

/-- Reserved bits of a definition: header, member words, modifiers (R85, R86, R94). MOD of a connection from SELF.P0 to
SELF.P7 to a member parameter, for which R86 states no layout, is held to that of a streamed connection: [11:4] must be 0,
and [3:0] has no effect (DESIGN CHOICE, log 61). -/
def defReserved (ws : List Word) : Bool :=
  let h := ws.headD 0
  let ms := (ws.drop 1).take (defM h)
  let cs := (ws.drop (1 + defM h)).take (defC h)
  h.extractLsb' 22 10 ≠ 0#10 || h.extractLsb' 5 3 ≠ 0#3 || ms.any (fun w => w.toNat / 256 ≠ 0) ||
  cs.any (fun w => if cwPool w then cwMod w / 64 ≠ 0 else cwMod w / 16 ≠ 0)

/-- Whether a member word allows a unit (R85). -/
def memberAllowed (u : Nat) : Bool :=
  (8 ≤ u && u ≤ 0x10) || u = 0x12 || u = 0x13 || (0x20 ≤ u && u ≤ 0x25) || isSoft u

/-- Whether a soft course contains a slot at any depth (R90 check 0x05). -/
def containsSlot (cs : CourseSet) : Nat → Nat → Nat → Bool
  | 0, _, _ => false
  | f + 1, slot, u =>
    isSoft u && (u - 0x80 = slot || match slotCourse cs (u - 0x80) with
      | some c => c.members.any (containsSlot cs f slot)
      | none => false)

/-- Whether a port of a definition belongs to SELF, to a member, or is the pool marker, and is present
(R86, R90 check 0x06). -/
def defPortOk (cs : CourseSet) (c : Course) (src : Bool) (p : Port) : Bool :=
  (src && p = poolMark) || portUnit p = 0xFE ||
  (c.members.contains (portUnit p) && portPresent cs false p)

/-- Directions of a connection word of a definition (R87, R90 check 0x07): SELF.A to SELF.T and SELF.P0 to
SELF.P7 are sources, SELF.R to SELF.X destinations. -/
def defDirOk (w : Word) : Bool :=
  let s := cwSrc w
  let d := cwDst w
  (cwPool w || (if portUnit s = 0xFE then codeIn (portCode s) || codeParam (portCode s) else codeOut (portCode s))) &&
  (if portUnit d = 0xFE then codeOut (portCode d) else codeIn (portCode d) || codeParam (portCode d))

/-- Kinds of a connection word of a definition (R87, R90 check 0x08). A SELF input straight on a SELF output, which R87
forbids and for which R90 names no result code, fails this check (DESIGN CHOICE, log 60). -/
def defKindOk (c : Course) (w : Word) : Bool :=
  let s := cwSrc w
  let d := cwDst w
  let paramSrc := cwPool w || (portUnit s = 0xFE && codeParam (portCode s))
  if codeParam (portCode d) && portUnit d ≠ 0xFE then paramSrc && (!cwPool w || cwIdx w < c.pool.length)
  else !paramSrc && !(portUnit s = 0xFE && portUnit d = 0xFE)

/-- The net of a course alone, with SELF connections left out, expanded (R90 checks 0x0A to 0x0C). -/
def courseNet (cs : CourseSet) (c : Course) : Net :=
  let inner := c.conns.filter (fun w => portUnit (cwSrc w) ≠ 0xFE && portUnit (cwDst w) ≠ 0xFE && !cwPool w &&
    !codeParam (portCode (cwDst w)))
  expand cs expandFuel ⟨c.members, [], inner.map (fun w => ⟨cwSrc w, cwDst w, cwDly w⟩), []⟩

/-- Checks 0x0A to 0x0C of R90. -/
def courseStands (cs : CourseSet) (c : Course) : Option Nat :=
  if hasDup (c.members.flatMap (claimsOf cs 65)) then some 0x0A
  else if hasLoop (courseNet cs c) then some 0x0B
  else if 24 < jointCount (courseNet cs c) then some 0x0C
  else none

/-- The result code of the first failing check of R90, or none. `cs` is the set as it stands. -/
def courseCheck (cs : CourseSet) (slot : Nat) (ws : List Word) : Option Nat :=
  let h := ws.headD 0
  let c := parseCourse ws
  let after := (cs.filter (fun e => e.1 ≠ slot)) ++ [(slot, c)]
  let holders := cs.filter (fun e => e.1 ≠ slot && containsSlot cs 65 slot (0x80 + e.1))
  if h.extractLsb' 32 4 ≠ 1#4 || 16 < defM h || 48 < defC h then some 0x01
  else if c.members.any (fun u => !memberAllowed u || u = 0x80 + slot) then some 0x02
  else if hasDup c.members then some 0x03
  else if c.members.any (fun u => isSoft u && (slotCourse cs (u - 0x80)).isNone) then some 0x04
  else if c.members.any (containsSlot cs 65 slot) then some 0x05
  else if c.conns.any (fun w => !defPortOk cs c true (cwSrc w) || !defPortOk cs c false (cwDst w)) then some 0x06
  else if c.conns.any (fun w => !defDirOk w) then some 0x07
  else if c.conns.any (fun w => !defKindOk c w) then some 0x08
  else if hasDup (c.conns.map (fun w => (cwDst w).toNat)) then some 0x09
  else match courseStands after c with
    | some r => some r
    | none =>
      if defM h = 0 then (if holders.isEmpty then none else some 0x0D)
      else if holders.any (fun e => (courseStands after e.2).isSome) then some 0x0D else none

end Sys2Proof.Machine
end

