-- ==== Sys2Proof/Machine/Ecc.lean ====
section
/-! DEFINITION. The memory codes: SEC-DED (43,36) of R274 and RS(64,60) over GF(2^9) of R287. -/

namespace Sys2Proof.Machine

open Sys2Proof

/-! ### SEC-DED (43,36) (R274) -/

/-- The columns of the data bits: the 35 values of weight 3 in rising order, then 0b001_1111 (R274). -/
def eccColumns : List Nat :=
  [0x07, 0x0B, 0x0D, 0x0E, 0x13, 0x15, 0x16, 0x19, 0x1A, 0x1C, 0x23, 0x25] ++
  [0x26, 0x29, 0x2A, 0x2C, 0x31, 0x32, 0x34, 0x38, 0x43, 0x45, 0x46, 0x49] ++
  [0x4A, 0x4C, 0x51, 0x52, 0x54, 0x58, 0x61, 0x62, 0x64, 0x68, 0x70, 0x1F]

/-- XOR of the columns of the data bits that are set, from data bit `i` up. -/
def eccFold (w : Word) : Nat → List Nat → Nat
  | _, [] => 0
  | i, c :: cs => (if w.getLsbD i then c else 0) ^^^ eccFold w (i + 1) cs

/-- The check bits of a word (R274). -/
def eccCheck (w : Word) : BitVec 7 := BitVec.ofNat 7 (eccFold w 0 eccColumns)

/-- The codeword {check, data} of a word. -/
def eccEncode (w : Word) : BitVec 43 := eccCheck w ++ w

/-- The bank poison codeword (R61). -/
def eccPoison : BitVec 43 := 0b1111111#7 ++ (0#36 : Word)

/-- The outcome of decoding a stored codeword (R274). -/
inductive EccRead where
  | clean
  | corrected
  | poison
  | uncorrectable
deriving DecidableEq, Repr

/-- Position of column `s` in the list, counted from `i`. -/
def eccFind (s : Nat) : Nat → List Nat → Option Nat
  | _, [] => none
  | i, c :: cs => if c = s then some i else eccFind s (i + 1) cs

/-- The data of a codeword. -/
def eccData (c : BitVec 43) : Word := c.extractLsb' 0 36

/-- Decodes a stored codeword: outcome and data word (R274). The data of a rubble word are those stored. -/
def eccDecode (c : BitVec 43) : EccRead × Word :=
  let w := eccData c
  let syn := ((c.extractLsb' 36 7) ^^^ eccCheck w).toNat
  if syn = 0 then (.clean, w)
  else match eccFind syn 0 eccColumns with
    | some i => (.corrected, w ^^^ BitVec.ofNat 36 (2 ^ i))
    | none =>
      if (eccFind syn 0 [1, 2, 4, 8, 16, 32, 64]).isSome then (.corrected, w)
      else if syn = 0x7F then (.poison, w) else (.uncorrectable, w)

/-! ### GF(2^9) with x^9 + x^4 + 1 (R287) -/

/-- Multiplication by α. -/
def gfDouble (a : Nat) : Nat := if a < 256 then 2 * a else (2 * a) ^^^ 0x211

/-- Multiplication in GF(2^9), by `n` bits of `b` from bit `i`. -/
def gfMulAux (b : Nat) : Nat → Nat → Nat → Nat
  | 0, _, _ => 0
  | n + 1, i, a => (if b.testBit i then a else 0) ^^^ gfMulAux b n (i + 1) (gfDouble a)

/-- Multiplication in GF(2^9). -/
def gfMul (a b : Nat) : Nat := gfMulAux b 9 0 a

/-- `a` to the power `n`. -/
def gfPow (a : Nat) : Nat → Nat
  | 0 => 1
  | n + 1 => gfMul a (gfPow a n)

/-- Inverse in GF(2^9): a^510, by repeated squaring of a^(2^k - 2). -/
def gfInvAux (a : Nat) : Nat → Nat → Nat
  | 0, x => x
  | n + 1, x => gfInvAux a n (gfMul (gfMul x x) (gfMul a a))

/-- Inverse in GF(2^9). -/
def gfInv (a : Nat) : Nat := gfInvAux a 8 1

/-! ### RS(64,60) (R287) -/

/-- Data nonet `m` of a line. -/
def lineNonet (l : BitVec 576) (m : Nat) : Nat := (l >>> (9 * m)).toNat % 512

/-- The 15 words of a line. -/
def lineWords (l : BitVec 576) : List Word :=
  (List.range 15).map (fun i => BitVec.ofNat 36 ((l >>> (36 * i)).toNat % 2 ^ 36))

/-- The four check nonets of the data nonets 0 to 59, packed as the line packs them: the remainder of
d(x) x^4 by g(x) = (x - 1)(x - α)(x - α²)(x - α³), one data nonet at a time from the highest (R287). -/
def rsStep (r : Nat × Nat × Nat × Nat) (d : Nat) : Nat × Nat × Nat × Nat :=
  let f := d ^^^ r.2.2.2
  -- g(x) = x^4 + 15 x^3 + 54 x^2 + 120 x + 64, from the product of its factors
  (gfMul f 64, r.1 ^^^ gfMul f 120, r.2.1 ^^^ gfMul f 54, r.2.2.1 ^^^ gfMul f 15)

/-- The check nonets of 60 data nonets given from the highest down (R287). -/
def rsCheck (ds : List Nat) : BitVec 36 :=
  let r := ds.foldl rsStep (0, 0, 0, 0)
  BitVec.ofNat 36 (r.1 + 512 * r.2.1 + 262144 * r.2.2.1 + 134217728 * r.2.2.2)

/-- The 540 data bits of 15 words. -/
def lineData (ws : List Word) : BitVec 540 :=
  ws.foldr (fun w acc => (acc <<< 36) ||| w.setWidth 540) 0

/-- The check nonets of the data bits of a line. -/
def lineCheck (l : BitVec 540) : BitVec 36 :=
  rsCheck ((List.range 60).map (fun i => (l >>> (9 * (59 - i))).toNat % 512))

/-- The codeword of a line of 15 words (R287). -/
def lineEncode (ws : List Word) : BitVec 576 :=
  let d := lineData ws
  lineCheck d ++ d

/-- The poison line of 15 words: complemented check nonets (R62). -/
def linePoison (ws : List Word) : BitVec 576 :=
  let d := lineData ws
  (~~~ lineCheck d) ++ d

/-- The coefficient of x^j in the codeword: check nonets 0 to 3, then data nonets (R287). -/
def lineCoeff (l : BitVec 576) (j : Nat) : Nat :=
  if j < 4 then lineNonet l (60 + j) else lineNonet l (j - 4)

/-- XORs a value into the coefficient of x^j. -/
def lineFix (l : BitVec 576) (j e : Nat) : BitVec 576 :=
  l ^^^ (BitVec.ofNat 576 e <<< (9 * (if j < 4 then 60 + j else j - 4)))

/-- Syndrome S_i: the codeword at α^i, by Horner from x^63 down. -/
def lineSyn (l : BitVec 576) (i : Nat) : Nat :=
  (List.range 64).foldl (fun acc k => (gfMul acc (2 ^ i)) ^^^ lineCoeff l (63 - k)) 0

/-- The exponents j below 64 with α^j a root of x² + s1 x + s2. -/
def rsRoots (s1 s2 : Nat) : Nat → Nat → Nat → List (Nat × Nat)
  | 0, _, _ => []
  | n + 1, j, x =>
    let rest := rsRoots s1 s2 n (j + 1) (gfDouble x)
    if (gfMul x x) ^^^ (gfMul s1 x) ^^^ s2 = 0 then (j, x) :: rest else rest

/-- The outcome of decoding a line (R289). -/
inductive LineRead where
  | clean
  | corrected (n : Nat)
  | poison
  | uncorrectable
deriving DecidableEq, Repr

/-- Corrects at most two nonets: the errors that the four syndromes name, if they name any (R289). -/
def lineCorrect (l : BitVec 576) (s0 s1 s2 s3 : Nat) : Option (Nat × BitVec 576) :=
  let det := (gfMul s0 s2) ^^^ (gfMul s1 s1)
  if det = 0 then
    if s0 = 0 then none
    else
      let x := gfMul s1 (gfInv s0)
      if gfMul s1 x = s2 ∧ gfMul s2 x = s3 then
        match rsRoots 0 (gfMul x x) 64 0 1 with
        | (j, _) :: _ => some (1, lineFix l j s0)
        | [] => none
      else none
  else
    let di := gfInv det
    let q1 := gfMul ((gfMul s0 s3) ^^^ (gfMul s1 s2)) di
    let q2 := gfMul ((gfMul s1 s3) ^^^ (gfMul s2 s2)) di
    match rsRoots q1 q2 64 0 1 with
    | [(j1, x1), (j2, x2)] =>
      let y1 := gfMul (s1 ^^^ gfMul s0 x2) (gfInv (x1 ^^^ x2))
      some (2, lineFix (lineFix l j1 y1) j2 (s0 ^^^ y1))
    | _ => none

/-- Decodes a stored line: outcome and the corrected codeword (R289, R62). -/
def lineDecode (l : BitVec 576) : LineRead × BitVec 576 :=
  if l.extractLsb' 540 36 = ~~~ lineCheck (l.extractLsb' 0 540) then (.poison, l)
  else
    let s0 := lineSyn l 0
    let s1 := lineSyn l 1
    let s2 := lineSyn l 2
    let s3 := lineSyn l 3
    if s0 = 0 ∧ s1 = 0 ∧ s2 = 0 ∧ s3 = 0 then (.clean, l)
    else match lineCorrect l s0 s1 s2 s3 with
      | some (n, l') => (.corrected n, l')
      | none => (.uncorrectable, l)

end Sys2Proof.Machine
end

