-- ==== Sys2Proof/Machine/Memory.lean ====
section
/-! DEFINITION. Banks and quarry of a pier: ownership, retention, lock, decoding, the merge buffer
(R270 to R293), and rubble (R59 to R64). -/

namespace Sys2Proof.Machine

open Sys2Proof

/-! ### The physical map (R270) -/

/-- Where a physical word address leads (R270, R286, R292). -/
inductive Target where
  | bank (b : Fin 16) (a : Nat)
  | pr (k : Nat)
  | qy (k : Nat)
  | pt (k : Nat)
  | quarry (line pos : Nat)
  | none
deriving DecidableEq, Repr

/-- The base of the quarry (R270). -/
def quarryBase : Nat := 0x100000000

/-- First word of the device reserve (R292). -/
def reserveBase : Nat := 0x118600000

/-- First word of the device tables (R292, R311). -/
def tablesBase : Nat := 0x11D100000

/-- First word past the quarry (R270). -/
def quarryEnd : Nat := 0x11E000000

/-! ### Where a line stands (R17, R286, R288) -/

/-- The stack of a pier (R17). -/
def hbmStack (p : Fin 16) : Nat := p.val / 8

/-- The channel of a pier in its stack (R17). -/
def hbmChannel (p : Fin 16) : Nat := p.val % 8

/-- Pseudo-channel `half` (0 or 1) of a pier's channel (R17). -/
def hbmPseudo (p : Fin 16) (half : Nat) : Nat := 2 * hbmChannel p + half % 2

/-- The place of a line, the same in both pseudo-channels of its pier (R286). -/
structure HbmPlace where
  column    : Nat
  bankGroup : Nat
  bank      : Nat
  row       : Nat
deriving DecidableEq, Repr

/-- The place of line `l` (R286). -/
def hbmPlace (l : Nat) : HbmPlace := ⟨l % 32, l / 32 % 4, l / 128 % 4, l / 512 % 65536⟩

/-- The DQ pin on which a line bit travels (R288). -/
def linePin (bit : Nat) : Nat := bit / 4

/-- The beat in which a line bit travels (R288). -/
def lineBeat (bit : Nat) : Nat := bit % 4

/-- The pseudo-channel of pier `p` whose DQ carries a line bit: pins 0 to 71, or pins 72 to 143 (R288). -/
def linePseudo (p : Fin 16) (bit : Nat) : Nat := hbmPseudo p (linePin bit / 72)

/-- Lines of the partition region (R292, R460). -/
def partitionLines : Nat := 27262976

/-- The bank that holds word address `a` (R272). -/
def bankOf (a : Nat) : Fin 16 := ⟨a / 0x20000 % 16, Nat.mod_lt _ (by decide)⟩

/-- The target of a physical address (R270). -/
def physTarget (a : Word) : Target :=
  let n := a.toNat
  if n < 0x200000 then .bank (bankOf n) n
  else if n < 0x1000000 then .none
  else if n < 0x1008000 then .pr (n - 0x1000000)
  else if n < 0x100C000 then .qy (n - 0x1008000)
  else if n < 0x1010000 then .pt (n - 0x100C000)
  else if n < quarryBase then .none
  else if n < quarryEnd then .quarry ((n - quarryBase) / 15) ((n - quarryBase) % 15)
  else .none

/-! ### Outcomes -/

/-- What an access to memory answers. `bus` carries the KIND of R321, 0xC to 0xE; `rubble` is an
uncorrectable or rubble word, or a write that R64 refuses; `held` is an access that waits. -/
inductive MemRes (α : Type) where
  | ok (v : α) (P : Pier)
  | held (P : Pier)
  | bus (kind : Nat) (P : Pier)
  | rubble (P : Pier)
deriving Repr

/-- The pier that an access leaves behind. -/
def MemRes.pier {α : Type} : MemRes α → Pier
  | .ok _ P => P
  | .held P => P
  | .bus _ P => P
  | .rubble P => P

/-- The number of an identity for DETAIL2 of cause 0x09 (R447). -/
def identCode : Ident → Nat
  | .supervisor => Config.supervisorIdent.toNat
  | .owner o => o.toNat

/-- Whether an identity matches an owner (R279). -/
def identMatches (i : Ident) (owner : BitVec 7) : Bool :=
  match i with
  | .supervisor => owner.toNat ≤ 64
  | .owner o => o = owner && owner != 0x7F#7

/-- The master code of R509. -/
def masterCode : Master → Nat
  | .fetch => 1
  | .seqData => 2
  | .run => 3
  | .hod => 4
  | .walker => 5
  | .gateway => 6
  | .pointing => 7
  | .checker => 8

/-- Whether a master may use a bank whose lock is held: the sequencer's fetch and data alone (R284). -/
def masterUnlocked : Master → Bool
  | .fetch => true
  | .seqData => true
  | _ => false

/-! ### Banks -/

/-- Changes bank `b`'s record. -/
def Pier.onBank (P : Pier) (b : Fin 16) (f : Bank → Bank) : Pier :=
  { P with mem := { P.mem with bank := P.mem.bank.set b (f P.mem.bank[b]) } }

/-- A granted access waits for a scour, a wake or a lock of the bank, else it is served; an access to a retained bank starts its
wake (R280, R283, R284). -/
def bankWait (P : Pier) (now : Nat) (m : Master) (b : Fin 16) : MemRes Unit :=
  let k := P.mem.bank[b]
  if k.scour then .held P
  else if k.retn = .retained then .held (P.onBank b (fun k => { k with retn := .waking, lastUse := now }))
  else if k.retn = .waking then .held P
  else if P.mem.lockOn = some (BitVec.ofFin b) && !masterUnlocked m then .held P
  else .ok () (P.onBank b (fun k => { k with lastUse := now }))

/-- Grants an access to a bank: ownership first (R279), then scour (R280), retention (R283) and lock
(R284), which hold it. `now` is the AON time. -/
def bankGrant (P : Pier) (now : Nat) (i : Ident) (m : Master) (b : Fin 16) : MemRes Unit :=
  if !identMatches i P.mem.bank[b].owner then .bus 0xD (P.detect 0x09 b.val (identCode i)) else bankWait P now m b

/-- Releases the lock where it is held on bank `b`; EN then reads 0 (R281, R284). -/
def unlockBank (P : Pier) (b : Fin 16) : Pier :=
  let P := if P.mem.lockOn = some (BitVec.ofFin b) then
      { P with
        mem := { P.mem with lockOn := none }
        core := { P.core with lock := P.core.lock &&& 0x0F#5 } }
    else P
  if P.mem.lockWait = some (BitVec.ofFin b) then { P with mem := { P.mem with lockWait := none } } else P

/-- Ends a scour: every word of the bank is zero with valid check bits (R280). -/
def scourEnd (P : Pier) (b : Fin 16) : Pier :=
  let lo := b.val * 0x20000
  { P.onBank b (fun k => { k with scour := false }) with
    mem := { (P.onBank b (fun k => { k with scour := false })).mem with
      banks := P.mem.banks.clear lo (lo + 0x20000)
      wback := P.mem.wback.filter (fun a => a < lo || lo + 0x20000 ≤ a) } }

/-- An access of the checker, the gateway or the hod that waits inside its command for a scour, a wake or the end of a
lock; a lock ends by its limit of 64 pier cycles, with its NOTICE (R280, R283, R284; log 51). -/
def settleBank (P : Pier) (now : Nat) (b : Fin 16) : Pier :=
  let P := if P.mem.bank[b].scour then scourEnd P b else P
  let P := if P.mem.lockOn = some (BitVec.ofFin b) then (unlockBank P b).detect 0x0B b.val 0 else P
  P.onBank b (fun k => { k with retn := .awake, lastUse := now })

/-- Stores a codeword in a bank, dropping a write-back that waits for the word (R275). -/
def bankStore (P : Pier) (a : Nat) (c : BitVec 43) : Pier :=
  { P with mem := { P.mem with banks := P.mem.banks.set a c, wback := P.mem.wback.filter (· ≠ a) } }

/-- Reads a bank word without the ownership check: corrects, schedules the write-back and reports (R275,
R456). -/
def bankFetch (P : Pier) (m : Master) (a : Nat) : MemRes Word :=
  let r := eccDecode (P.mem.banks.get a)
  match r.1 with
  | .clean => .ok r.2 P
  | .corrected =>
    .ok r.2 ({ P with mem := { P.mem with wback := P.mem.wback.filter (· ≠ a) ++ [a] } }.detect 0x02 a (masterCode m))
  | .poison => .rubble P
  | .uncorrectable => .rubble (P.detect 0x03 a (masterCode m))

/-- Merges the enabled nonets of `w` into `old` (R221, R249). -/
def mergeNonets (en : BitVec 4) (old w : Word) : Word :=
  let mask : Word := (List.range 4).foldl
    (fun acc k => if en.getLsbD k then acc ||| (0x1FF#36 <<< (9 * k)) else acc) 0
  (old &&& ~~~ mask) ||| (w &&& mask)

/-! ### Quarry (R286 to R290) -/

/-- Writes a codeword into the HBM2E; every injector armed for the line is applied and disarmed (R460). -/
def hbmWrite (P : Pier) (l : Nat) (c : BitVec 576) : Pier :=
  if P.regs.injLine.toNat = l ∧ l < partitionLines then
    let c' := (List.finRange 3).foldl (fun c j =>
      let i := P.regs.inj[j]
      if i.arm then c ^^^ ((BitVec.setWidth 576 i.mask) <<< (9 * i.nonet.toNat)) else c) c
    { P with
      mem := { P.mem with quarry := P.mem.quarry.set l c' }
      regs := { P.regs with inj := P.regs.inj.map (fun i => { i with arm := false }) } }
  else { P with mem := { P.mem with quarry := P.mem.quarry.set l c } }

/-- Writes a merged line out of the merge buffer (R290). -/
def mergeOut (P : Pier) (e : MergeLine) : Pier :=
  hbmWrite { P with mem := { P.mem with merge := P.mem.merge.filter (fun x => x.line ≠ e.line) } } e.line
    (if e.poison then linePoison e.words else lineEncode e.words)

/-- Puts a line into the merge buffer, writing the oldest out when all 16 are held (R290). -/
def mergePut (P : Pier) (e : MergeLine) : Pier :=
  let P := if P.mem.merge.any (fun x => x.line = e.line) then P
    else if P.mem.merge.length < 16 then P
    else match P.mem.merge with
      | x :: _ => mergeOut P x
      | [] => P
  { P with mem := { P.mem with merge := P.mem.merge.filter (fun x => x.line ≠ e.line) ++ [e] } }

/-- The words of a line as every master sees them: the merge buffer first (R290), else the decoded line
(R289). `none` is rubble. A corrected line is written back (R289). -/
def lineFetch (P : Pier) (m : Master) (l : Nat) : Option (List Word) × Pier :=
  match P.mem.merge.find? (fun x => x.line = l) with
  | some e => (if e.poison then none else some e.words, P)
  | none =>
    let r := lineDecode (P.mem.quarry.get l)
    match r.1 with
    | .clean => (some (lineWords r.2), P)
    | .corrected n =>
      (some (lineWords r.2), { P with mem := { P.mem with quarry := P.mem.quarry.set l r.2 } }.detect 0x04 l n)
    | .poison => (none, P)
    | .uncorrectable => (none, P.detect 0x05 l (masterCode m))

/-- One word of a write to a line: position, word, enabled nonets, rubble mark. -/
structure LineWrite where
  pos : Nat
  val : Word
  en  : BitVec 4
  rub : Bool
deriving DecidableEq, Repr

/-- Whether a set of writes covers all 15 words whole with good data (R64, R290). -/
def coversLine (ws : List LineWrite) : Bool :=
  (List.range 15).all (fun i => ws.any (fun w => w.pos = i && w.en = 0xF#4 && !w.rub))

/-- Applies the writes of one access to the words of a line, in order. -/
def applyWrites (old : List Word) (ws : List LineWrite) : List Word :=
  ws.foldl (fun acc w => acc.set w.pos (mergeNonets w.en (acc.getD w.pos 0) w.val)) old

/-- What a line write answers: done, or refused as rubble by R64, or done with rubble touched. -/
inductive LineDone where
  | ok
  | refused
  | touched
deriving DecidableEq, Repr

/-- Writes words of one quarry line in one access (R64, R290). A write to part of a line that is or decodes as rubble is
discarded and leaves a poison line; `stream` says that a store stream or the setter gateway writes, to which rubble is
reported in place of a refusal. -/
def lineWrite (P : Pier) (m : Master) (stream : Bool) (l : Nat) (ws : List LineWrite) : LineDone × Pier :=
  if coversLine ws then
    let P := { P with mem := { P.mem with merge := P.mem.merge.filter (fun x => x.line ≠ l) } }
    (.ok, hbmWrite P l (lineEncode (applyWrites (List.replicate 15 0) ws)))
  else
    let held := P.mem.merge.find? (fun x => x.line = l)
    let r := lineFetch P m l
    let rub := ws.any (·.rub)
    match r.1 with
    | some old =>
      (if rub then .touched else .ok, mergePut r.2 ⟨l, applyWrites old ws, rub⟩)
    | none =>
      -- the line is poison already, or decodes as uncorrectable and becomes poison (R290)
      let old := match held with
        | some e => e.words
        | none => lineWords (P.mem.quarry.get l)
      (if stream then .touched else .refused, mergePut r.2 ⟨l, old, true⟩)

/-! ### Physical accesses -/

/-- Whether an identity may reach the device reserve (R293). -/
def reserveAllows : Ident → Bool
  | .supervisor => true
  | .owner o => o = 0x40#7

/-- Reads a physical word of banks or quarry (R271, R279, R293). -/
def physRead (P : Pier) (now : Nat) (i : Ident) (m : Master) (a : Word) : MemRes Word :=
  match physTarget a with
  | .bank b n =>
    match bankGrant P now i m b with
    | .ok _ P => bankFetch P m n
    | .held P => .held P
    | .bus k P => .bus k P
    | .rubble P => .rubble P
  | .quarry l w =>
    if reserveBase ≤ a.toNat && !reserveAllows i then
      .bus 0xD (P.detect 0x0A (a.toNat % 2 ^ 32) (a.toNat / 2 ^ 32))
    else match lineFetch P m l with
      | (some ws, P) => .ok (ws.getD w 0) P
      | (none, P) => .rubble P
  | _ => .bus 0xC P

/-- Writes a physical word of banks or quarry, with nonet enables (R64, R271, R279, R290). `rub` marks a
rubble element, `stream` a store stream or gateway copy. -/
def physWrite (P : Pier) (now : Nat) (i : Ident) (m : Master) (stream : Bool) (a w : Word) (en : BitVec 4)
    (rub : Bool) : MemRes Unit :=
  match physTarget a with
  | .bank b n =>
    match bankGrant P now i m b with
    | .ok _ P =>
      if rub then .ok () (bankStore P n eccPoison)
      else if en = 0xF#4 then .ok () (bankStore P n (eccEncode w))
      else match bankFetch P m n with
        | .ok old P => .ok () (bankStore P n (eccEncode (mergeNonets en old w)))
        | .held P => .held P
        | .bus k P => .bus k P
        | .rubble P => .rubble P
    | .held P => .held P
    | .bus k P => .bus k P
    | .rubble P => .rubble P
  | .quarry l p =>
    if reserveBase ≤ a.toNat && !reserveAllows i then
      .bus 0xD (P.detect 0x0A (a.toNat % 2 ^ 32) (a.toNat / 2 ^ 32))
    else match lineWrite P m stream l [⟨p, w, en, rub⟩] with
      | (.refused, P) => .rubble P
      | (_, P) => .ok () P
  | _ => .bus 0xC P

/-- Writes back the corrected codeword of a bank word, or drops the write-back (R275). -/
def writeBack (P : Pier) (a : Nat) : Pier :=
  if a ∈ P.mem.wback then
    let r := eccDecode (P.mem.banks.get a)
    if r.1 = .corrected then bankStore P a (eccEncode r.2)
    else { P with mem := { P.mem with wback := P.mem.wback.filter (· ≠ a) } }
  else P

end Sys2Proof.Machine
end

