-- ==== Sys2Proof/Machine/CourseTable.lean ====
section
/-! DEFINITION. Course definitions in the device tables of a pier's quarry reserve: their place, reading and writing
(R85, R88, R89, R292). -/

namespace Sys2Proof.Machine

open Sys2Proof

/-- Lines that the model gives each slot: a definition has at most 128 words (R85; log 62). -/
def courseLines : Nat := 9

/-- The first line of a slot of a set, 0 to 63 for the partitions and 64 for resident firmware. R88 and R292 put definitions
in the device tables and give them no layout there (DESIGN CHOICE, log 62). -/
def courseLine (set slot : Nat) : Nat := 33095680 + courseLines * (64 * set + slot)

/-- Words of a definition by its header (R85). -/
def defWords (ws : List Word) : Nat :=
  let h := ws.headD 0
  1 + defM h + defC h + defK h

/-- The words of `n` lines from `l` up; none where a line is rubble. -/
def fetchLines (m : Master) : Nat → Nat → Pier → Option (List Word) × Pier
  | 0, _, P => (some [], P)
  | n + 1, l, P =>
    match lineFetch P m l with
    | (none, P) => (none, P)
    | (some ws, P) =>
      (match fetchLines m n (l + 1) P with
       | (some rest, P) => (some (ws ++ rest), P)
       | (none, P) => (none, P))

/-- The definition in a slot of a pier's device tables. A slot whose header has M = 0 holds none (R89); one that reads as
rubble is taken to hold none (DESIGN CHOICE, log 62). -/
def readCourse (m : Master) (set slot : Nat) (P : Pier) : Option Course × Pier :=
  match lineFetch P m (courseLine set slot) with
  | (none, P) => (none, P)
  | (some ws, P) =>
    if defM (ws.headD 0) = 0 then (none, P)
    else match fetchLines m ((defWords ws + 14) / 15 - 1) (courseLine set slot + 1) P with
      | (some rest, P) => (some (parseCourse ((ws ++ rest).take (defWords ws))), P)
      | (none, P) => (none, P)

/-- The definitions in some slots of a set. -/
def readCourses (m : Master) (set : Nat) : List Nat → Pier → CourseSet × Pier
  | [], P => ([], P)
  | k :: l, P =>
    let c := readCourse m set k P
    let r := readCourses m set l c.2
    ((match c.1 with | some c => [(k, c)] | none => []) ++ r.1, r.2)

/-- The slots that units name. -/
def softSlots (us : List Nat) : List Nat := (us.filter isSoft).map (· - 0x80)

/-- The definitions that slots name, at every depth (R83): each round reads the slots that the last round's members name. -/
def courseClosure (m : Master) (set : Nat) : Nat → List Nat → CourseSet → Pier → CourseSet × Pier
  | 0, _, cs, P => (cs, P)
  | f + 1, slots, cs, P =>
    match slots.eraseDups.filter (fun k => !cs.any (fun e => e.1 = k)) with
    | [] => (cs, P)
    | new =>
      let r := readCourses m set new P
      courseClosure m set f (r.1.flatMap (fun e => softSlots e.2.members)) (cs ++ r.1) r.2

/-- The courses that a script names, as its launch reads them (R88, R102). -/
def scriptCourses (set : Nat) (s : Script) (P : Pier) : CourseSet × Pier :=
  courseClosure .run set 65 (softSlots (s.conns.flatMap wordUnits)) [] P

/-- Every definition of a set. -/
def wholeSet (set : Nat) (P : Pier) : CourseSet × Pier := readCourses .gateway set (List.range 64) P

/-- Writes whole lines from `l` up through the gateway (R64). -/
def putLines : Nat → List Word → Nat → Pier → Pier
  | 0, _, _, P => P
  | n + 1, ws, l, P =>
    putLines n (ws.drop 15) (l + 1)
      (lineWrite P .gateway true l ((List.range 15).map (fun i => ⟨i, ws.getD i 0, 0xF#4, false⟩))).2

/-- Installs a definition in a slot of a set, or clears the slot where M is 0 (R89). -/
def putCourse (set slot : Nat) (ws : List Word) (P : Pier) : Pier :=
  putLines ((ws.length + 14) / 15) ws (courseLine set slot) P

/-- Clears slots of a set (R89, R434). -/
def clearCourses (set : Nat) (P : Pier) : Pier := (List.range 64).foldl (fun P k => putCourse set k [0] P) P

end Sys2Proof.Machine
end

