-- ==== Sys2Proof/Machine/Hash.lean ====
section
/-! DEFINITION. The digests that the device computes: SHA-256, SHA-384, SHA-512, SHA3-256 and HMAC (R176,
R389, R391, R416). The spec names the standards; their content is PRESUMED (FIPS 180-4, FIPS 202, RFC 2104;
log 10). -/

namespace Sys2Proof.Machine

open Sys2Proof

/-! ### Bytes -/

/-- The number of bytes in big-endian order. -/
def beNat (bs : List Byte) : Nat := bs.foldl (fun n b => n * 256 + b.toNat) 0

/-- The number of bytes in little-endian order. -/
def leNat (bs : List Byte) : Nat := bs.foldr (fun b n => n * 256 + b.toNat) 0

/-- `k` bytes of a number, little-endian. -/
def leBytes : Nat → Nat → List Byte
  | 0, _ => []
  | k + 1, n => BitVec.ofNat 8 n :: leBytes k (n / 256)

/-- `k` bytes of a number, big-endian. -/
def beBytes (k n : Nat) : List Byte := (leBytes k n).reverse

/-- Byte-wise exclusive OR. -/
def xorBytes (a b : List Byte) : List Byte := List.zipWith (· ^^^ ·) a b

/-- Bytes from a list of numbers. -/
def bytesOf (l : List Nat) : List Byte := l.map (BitVec.ofNat 8)

/-- Extends with zeros, or cuts, to `n` bytes. -/
def fitBytes (n : Nat) (bs : List Byte) : List Byte := (bs ++ List.replicate (n - bs.length) 0).take n

/-- Cuts a list into pieces of `n`; `f` pieces at most. -/
def chunks {α : Type} (n : Nat) : Nat → List α → List (List α)
  | 0, _ => []
  | f + 1, l => match l with
    | [] => []
    | _ => l.take n :: chunks n f (l.drop n)

/-- Pieces of `n` that cover a list. -/
def chunksOf {α : Type} (n : Nat) (l : List α) : List (List α) := chunks n l.length l

/-! ### SHA-2 -/

/-- Round constants of SHA-256. -/
def k256 : List Nat :=
  [0x428a2f98, 0x71374491, 0xb5c0fbcf, 0xe9b5dba5, 0x3956c25b, 0x59f111f1, 0x923f82a4, 0xab1c5ed5] ++
  [0xd807aa98, 0x12835b01, 0x243185be, 0x550c7dc3, 0x72be5d74, 0x80deb1fe, 0x9bdc06a7, 0xc19bf174] ++
  [0xe49b69c1, 0xefbe4786, 0xfc19dc6, 0x240ca1cc, 0x2de92c6f, 0x4a7484aa, 0x5cb0a9dc, 0x76f988da] ++
  [0x983e5152, 0xa831c66d, 0xb00327c8, 0xbf597fc7, 0xc6e00bf3, 0xd5a79147, 0x6ca6351, 0x14292967] ++
  [0x27b70a85, 0x2e1b2138, 0x4d2c6dfc, 0x53380d13, 0x650a7354, 0x766a0abb, 0x81c2c92e, 0x92722c85] ++
  [0xa2bfe8a1, 0xa81a664b, 0xc24b8b70, 0xc76c51a3, 0xd192e819, 0xd6990624, 0xf40e3585, 0x106aa070] ++
  [0x19a4c116, 0x1e376c08, 0x2748774c, 0x34b0bcb5, 0x391c0cb3, 0x4ed8aa4a, 0x5b9cca4f, 0x682e6ff3] ++
  [0x748f82ee, 0x78a5636f, 0x84c87814, 0x8cc70208, 0x90befffa, 0xa4506ceb, 0xbef9a3f7, 0xc67178f2]

/-- Round constants of SHA-384 and SHA-512. -/
def k512 : List Nat :=
  [0x428a2f98d728ae22, 0x7137449123ef65cd, 0xb5c0fbcfec4d3b2f, 0xe9b5dba58189dbbc] ++
  [0x3956c25bf348b538, 0x59f111f1b605d019, 0x923f82a4af194f9b, 0xab1c5ed5da6d8118] ++
  [0xd807aa98a3030242, 0x12835b0145706fbe, 0x243185be4ee4b28c, 0x550c7dc3d5ffb4e2] ++
  [0x72be5d74f27b896f, 0x80deb1fe3b1696b1, 0x9bdc06a725c71235, 0xc19bf174cf692694] ++
  [0xe49b69c19ef14ad2, 0xefbe4786384f25e3, 0xfc19dc68b8cd5b5, 0x240ca1cc77ac9c65] ++
  [0x2de92c6f592b0275, 0x4a7484aa6ea6e483, 0x5cb0a9dcbd41fbd4, 0x76f988da831153b5] ++
  [0x983e5152ee66dfab, 0xa831c66d2db43210, 0xb00327c898fb213f, 0xbf597fc7beef0ee4] ++
  [0xc6e00bf33da88fc2, 0xd5a79147930aa725, 0x6ca6351e003826f, 0x142929670a0e6e70] ++
  [0x27b70a8546d22ffc, 0x2e1b21385c26c926, 0x4d2c6dfc5ac42aed, 0x53380d139d95b3df] ++
  [0x650a73548baf63de, 0x766a0abb3c77b2a8, 0x81c2c92e47edaee6, 0x92722c851482353b] ++
  [0xa2bfe8a14cf10364, 0xa81a664bbc423001, 0xc24b8b70d0f89791, 0xc76c51a30654be30] ++
  [0xd192e819d6ef5218, 0xd69906245565a910, 0xf40e35855771202a, 0x106aa07032bbd1b8] ++
  [0x19a4c116b8d2d0c8, 0x1e376c085141ab53, 0x2748774cdf8eeb99, 0x34b0bcb5e19b48a8] ++
  [0x391c0cb3c5c95a63, 0x4ed8aa4ae3418acb, 0x5b9cca4f7763e373, 0x682e6ff3d6b2b8a3] ++
  [0x748f82ee5defb2fc, 0x78a5636f43172f60, 0x84c87814a1f0ab72, 0x8cc702081a6439ec] ++
  [0x90befffa23631e28, 0xa4506cebde82bde9, 0xbef9a3f7b2c67915, 0xc67178f2e372532b] ++
  [0xca273eceea26619c, 0xd186b8c721c0c207, 0xeada7dd6cde0eb1e, 0xf57d4f7fee6ed178] ++
  [0x6f067aa72176fba, 0xa637dc5a2c898a6, 0x113f9804bef90dae, 0x1b710b35131c471b] ++
  [0x28db77f523047d84, 0x32caab7b40c72493, 0x3c9ebe0a15c9bebc, 0x431d67c49c100d4c] ++
  [0x4cc5d4becb3e42b6, 0x597f299cfc657e2a, 0x5fcb6fab3ad6faec, 0x6c44198c4a475817]

/-- Initial hash value of SHA-256. -/
def iv256 : List Nat :=
  [0x6a09e667, 0xbb67ae85, 0x3c6ef372, 0xa54ff53a, 0x510e527f, 0x9b05688c, 0x1f83d9ab, 0x5be0cd19]

/-- Initial hash value of SHA-512. -/
def iv512 : List Nat :=
  [0x6a09e667f3bcc908, 0xbb67ae8584caa73b, 0x3c6ef372fe94f82b, 0xa54ff53a5f1d36f1] ++
  [0x510e527fade682d1, 0x9b05688c2b3e6c1f, 0x1f83d9abfb41bd6b, 0x5be0cd19137e2179]

/-- Initial hash value of SHA-384. -/
def iv384 : List Nat :=
  [0xcbbb9d5dc1059ed8, 0x629a292a367cd507, 0x9159015a3070dd17, 0x152fecd8f70e5939] ++
  [0x67332667ffc00b31, 0x8eb44a8768581511, 0xdb0c2e0d64f98fa7, 0x47b5481dbefa4fa4]

/-- Rotation amounts of a SHA-2 variant: Σ0, Σ1, σ0, σ1 with the last of each σ a shift. -/
structure ShaRot where
  s0 : Nat × Nat × Nat
  s1 : Nat × Nat × Nat
  t0 : Nat × Nat × Nat
  t1 : Nat × Nat × Nat

/-- Rotations of SHA-256. -/
def rot256 : ShaRot := ⟨(2, 13, 22), (6, 11, 25), (7, 18, 3), (17, 19, 10)⟩
/-- Rotations of SHA-512. -/
def rot512 : ShaRot := ⟨(28, 34, 39), (14, 18, 41), (1, 8, 7), (19, 61, 6)⟩

/-- Σ of a word. -/
def shaBig {w : Nat} (r : Nat × Nat × Nat) (x : BitVec w) : BitVec w :=
  x.rotateRight r.1 ^^^ x.rotateRight r.2.1 ^^^ x.rotateRight r.2.2
/-- σ of a word. -/
def shaSmall {w : Nat} (r : Nat × Nat × Nat) (x : BitVec w) : BitVec w :=
  x.rotateRight r.1 ^^^ x.rotateRight r.2.1 ^^^ (x >>> r.2.2)

/-- The message schedule after the first 16 words, `n` more; `win` holds the last 16 words, oldest first. -/
def shaSched {w : Nat} (r : ShaRot) : Nat → List (BitVec w) → List (BitVec w)
  | 0, _ => []
  | n + 1, win =>
    let x := shaSmall r.t1 (win.getD 14 0) + win.getD 9 0 + shaSmall r.t0 (win.getD 1 0) + win.getD 0 0
    x :: shaSched r n (win.tail ++ [x])

/-- One round: state a to h, round constant, schedule word. -/
def shaRound {w : Nat} (r : ShaRot) (st : List (BitVec w)) (kw : BitVec w × BitVec w) : List (BitVec w) :=
  match st with
  | [a, b, c, d, e, f, g, h] =>
    let t1 := h + shaBig r.s1 e + ((e &&& f) ^^^ (~~~ e &&& g)) + kw.1 + kw.2
    let t2 := shaBig r.s0 a + ((a &&& b) ^^^ (a &&& c) ^^^ (b &&& c))
    [t1 + t2, a, b, c, d + t1, e, f, g]
  | l => l

/-- Compresses one block of 16 words. -/
def shaBlock {w : Nat} (r : ShaRot) (ks : List (BitVec w)) (h : List (BitVec w)) (m : List (BitVec w)) : List (BitVec w) :=
  let ws := m ++ shaSched r (ks.length - 16) m
  List.zipWith (· + ·) h ((ks.zip ws).foldl (shaRound r) h)

/-- The padded message of SHA-2: 0x80, zeros, the bit length in the last `len` bytes. -/
def shaPad (blk len : Nat) (m : List Byte) : List Byte :=
  let z := (blk - (m.length + 1 + len) % blk) % blk
  m ++ [0x80#8] ++ List.replicate z 0 ++ beBytes len (8 * m.length)

/-- SHA-2 over words of `w` bits, `wb` bytes each. -/
def sha2 (w wb : Nat) (r : ShaRot) (ks iv : List Nat) (outLen : Nat) (m : List Byte) : List Byte :=
  let blocks := chunksOf (16 * wb) (shaPad (16 * wb) (2 * wb) m)
  let k : List (BitVec w) := ks.map (BitVec.ofNat w)
  let h := blocks.foldl (fun h b => shaBlock r k h ((chunksOf wb b).map (fun x => BitVec.ofNat w (beNat x))))
    (iv.map (BitVec.ofNat w))
  (h.flatMap (fun x => beBytes wb x.toNat)).take outLen

/-- SHA-256. -/
def sha256 (m : List Byte) : List Byte := sha2 32 4 rot256 k256 iv256 32 m
/-- SHA-384. -/
def sha384 (m : List Byte) : List Byte := sha2 64 8 rot512 k512 iv384 48 m
/-- SHA-512. -/
def sha512 (m : List Byte) : List Byte := sha2 64 8 rot512 k512 iv512 64 m

/-! ### SHA3-256 -/

/-- Round constants of Keccak. -/
def keccakRc : List Nat :=
  [0x1, 0x8082, 0x800000000000808a, 0x8000000080008000, 0x808b, 0x80000001] ++
  [0x8000000080008081, 0x8000000000008009, 0x8a, 0x88, 0x80008009, 0x8000000a] ++
  [0x8000808b, 0x800000000000008b, 0x8000000000008089, 0x8000000000008003, 0x8000000000008002, 0x8000000000000080] ++
  [0x800a, 0x800000008000000a, 0x8000000080008081, 0x8000000000008080, 0x80000001, 0x8000000080008008]

/-- The ρ offsets, lane x + 5y. -/
def keccakRho : List Nat :=
  [0, 1, 62, 28, 27, 36, 44, 6, 55, 20, 3, 10, 43] ++ [25, 39, 41, 45, 15, 21, 8, 18, 2, 61, 56, 14]

/-- One round of Keccak-f[1600] on 25 lanes. -/
def keccakRound (a : List (BitVec 64)) (rc : Nat) : List (BitVec 64) :=
  let g (l : List (BitVec 64)) (x y : Nat) := l.getD (x % 5 + 5 * (y % 5)) 0
  let c := (List.range 5).map (fun x => g a x 0 ^^^ g a x 1 ^^^ g a x 2 ^^^ g a x 3 ^^^ g a x 4)
  let d := (List.range 5).map (fun x => c.getD ((x + 4) % 5) 0 ^^^ (c.getD ((x + 1) % 5) 0).rotateLeft 1)
  let t := (List.range 25).map (fun i => a.getD i 0 ^^^ d.getD (i % 5) 0)
  -- B[y, 2x + 3y] = rot(A[x, y]); lane (X, Y) of B comes from x = (X + 3Y) mod 5, y = X
  let b := (List.range 25).map (fun i =>
    let x := (i % 5 + 3 * (i / 5)) % 5
    let y := i % 5
    (g t x y).rotateLeft (keccakRho.getD (x + 5 * y) 0))
  let e := (List.range 25).map (fun i =>
    b.getD i 0 ^^^ (~~~ (g b (i % 5 + 1) (i / 5)) &&& g b (i % 5 + 2) (i / 5)))
  e.set 0 (e.getD 0 0 ^^^ BitVec.ofNat 64 rc)

/-- SHA3-256. -/
def sha3_256 (m : List Byte) : List Byte :=
  let z := 136 - m.length % 136
  let padded := if z = 1 then m ++ [0x86#8] else m ++ [0x06#8] ++ List.replicate (z - 2) 0 ++ [0x80#8]
  let st := (chunksOf 136 padded).foldl (fun st b =>
    let ws := (chunksOf 8 b).map (fun x => BitVec.ofNat 64 (leNat x))
    keccakRc.foldl keccakRound ((List.range 25).map (fun i => st.getD i 0 ^^^ ws.getD i 0)))
    (List.replicate 25 (0 : BitVec 64))
  ((st.take 4).flatMap (fun x => leBytes 8 x.toNat))

/-! ### HMAC -/

/-- HMAC over a hash of block size `blk` (RFC 2104). -/
def hmac (h : List Byte → List Byte) (blk : Nat) (key m : List Byte) : List Byte :=
  let k := fitBytes blk (if blk < key.length then h key else key)
  h (k.map (· ^^^ 0x5C#8) ++ h (k.map (· ^^^ 0x36#8) ++ m))

/-- HMAC-SHA-256. -/
def hmacSha256 (key m : List Byte) : List Byte := hmac sha256 64 key m
/-- HMAC-SHA-384. -/
def hmacSha384 (key m : List Byte) : List Byte := hmac sha384 128 key m
/-- HMAC-SHA-512. -/
def hmacSha512 (key m : List Byte) : List Byte := hmac sha512 128 key m

end Sys2Proof.Machine
end

