-- ==== Sys2Proof/Machine/Pack.lean ====
section
/-! DEFINITION. Host bytes and words: plain, dense and raw-nonet packing (R38 to R42). -/

namespace Sys2Proof.Machine

open Sys2Proof

/-- Nonet `i` of a word (R3). -/
def nonetOf (w : Word) (i : Nat) : Nonet := w.extractLsb' (9 * i) 9

/-- A word of four nonets. -/
def wordOfNonets (ns : List Nonet) : Word :=
  (BitVec.ofNat 36 (((ns.getD 3 0).toNat * 512 + (ns.getD 2 0).toNat) * 262144 + (ns.getD 1 0).toNat * 512 + (ns.getD 0 0).toNat))

/-- The four octets of a word. -/
def octetsOf (w : Word) : List Byte := (List.range 4).map (fun i => (nonetOf w i).setWidth 8)

/-- A word of four octets with the marks clear. -/
def wordOfBytes (bs : List Byte) : Word := wordOfNonets (bs.map (·.setWidth 9))

/-- Plain packing inbound (R38, R41). -/
def plainIn (bs : List Byte) : List Word := (chunksOf 4 bs).map wordOfBytes

/-- Plain packing outbound (R38). -/
def plainOut (ws : List Word) : List Byte := ws.flatMap octetsOf

/-- Dense packing inbound: groups of nine bytes to two words; a group of at most four bytes fills one word
(R39, R41). -/
def denseIn (bs : List Byte) : List Word :=
  (chunksOf 9 bs).flatMap (fun g =>
    let v := leNat g
    if g.length ≤ 4 then [BitVec.ofNat 36 v] else [BitVec.ofNat 36 v, BitVec.ofNat 36 (v / 2 ^ 36)])

/-- Dense packing outbound: the bytes that carry all words whole (R39). -/
def denseOut (ws : List Word) : List Byte :=
  ((chunksOf 2 ws).flatMap (fun g =>
    leBytes 9 ((g.getD 0 0).toNat + (g.getD 1 0).toNat * 2 ^ 36))).take ((9 * ws.length + 1) / 2)

/-- Raw-nonet packing inbound (R40, R41). -/
def rawIn (bs : List Byte) : List Word :=
  (chunksOf 8 bs).map (fun g => wordOfNonets ((chunksOf 2 g).map (fun u => BitVec.ofNat 9 (leNat u))))

/-- Raw-nonet packing outbound (R40). -/
def rawOut (ws : List Word) : List Byte :=
  ws.flatMap (fun w => (List.range 4).flatMap (fun i => leBytes 2 (nonetOf w i).toNat))

/-- Packing inbound by code: 0 plain, 1 dense, 2 raw-nonet (R37). -/
def packIn (code : Nat) (bs : List Byte) : List Word :=
  match code with
  | 0 => plainIn bs
  | 1 => denseIn bs
  | _ => rawIn bs

/-- Packing outbound by code (R37). -/
def packOut (code : Nat) (ws : List Word) : List Byte :=
  match code with
  | 0 => plainOut ws
  | 1 => denseOut ws
  | _ => rawOut ws

/-- Words written for an inbound length (R41). -/
def packWords (code len : Nat) : Nat :=
  match code with
  | 0 => (len + 3) / 4
  | 1 => 2 * (len / 9) + (if len % 9 = 0 then 0 else if len % 9 ≤ 4 then 1 else 2)
  | _ => (len + 7) / 8

end Sys2Proof.Machine
end

