-- ==== Sys2Proof/Machine/Cipher.lean ====
section
/-! DEFINITION. The ciphers that the device runs: AES and TDES in the modes of R173 and R174, CMAC, ISO 9797-1
MACs, AES key wrap (R160, R397). The spec names the standards; their content is PRESUMED (FIPS 197, FIPS 46-3,
SP 800-38A, SP 800-38B, SP 800-38F, ISO 9797-1; log 10). -/

namespace Sys2Proof.Machine

open Sys2Proof

/-! ### AES -/

/-- Multiplication by x in GF(2^8) of AES. -/
def aesX (a : Nat) : Nat := if a < 128 then 2 * a else (2 * a) ^^^ 0x11B

/-- Multiplication in GF(2^8) over `n` bits of `b`. -/
def aesMulAux (b : Nat) : Nat → Nat → Nat → Nat
  | 0, _, _ => 0
  | n + 1, i, a => (if b.testBit i then a else 0) ^^^ aesMulAux b n (i + 1) (aesX a)

/-- Multiplication in GF(2^8). -/
def aesMul (a b : Nat) : Nat := aesMulAux b 8 0 a

/-- a^(2^k − 2) by repeated squaring: the inverse for 7 rounds. -/
def aesInvAux (a : Nat) : Nat → Nat → Nat
  | 0, x => x
  | n + 1, x => aesInvAux a n (aesMul (aesMul x x) (aesMul a a))

/-- The AES S-box. -/
def aesSbox (a : Nat) : Nat :=
  let b := aesInvAux a 7 1
  let rot (k : Nat) := (b * 2 ^ k) % 256 ||| (b / 2 ^ (8 - k))
  (b ^^^ rot 1 ^^^ rot 2 ^^^ rot 3 ^^^ rot 4) ^^^ 0x63

/-- The inverse S-box. -/
def aesSboxInv (a : Nat) : Nat :=
  let rot (k : Nat) := (a * 2 ^ k) % 256 ||| (a / 2 ^ (8 - k))
  aesInvAux (rot 1 ^^^ rot 3 ^^^ rot 6 ^^^ 5) 7 1

/-- Key expansion: `n` more words after those in `ws`, newest last. `nk` is the key length in words. -/
def aesExpand (nk : Nat) : Nat → Nat → List (List Nat) → List (List Nat)
  | 0, _, ws => ws
  | n + 1, rc, ws =>
    let i := ws.length
    let prev := ws.getD (i - 1) []
    let t := if i % nk = 0 then
        match (prev.drop 1 ++ prev.take 1).map aesSbox with
        | b :: bs => (b ^^^ rc) :: bs
        | [] => []
      else if 6 < nk ∧ i % nk = 4 then prev.map aesSbox else prev
    aesExpand nk n (if i % nk = 0 then aesX rc else rc) (ws ++ [List.zipWith (· ^^^ ·) (ws.getD (i - nk) []) t])

/-- The round keys of a key of 16, 24 or 32 bytes, 16 bytes each. -/
def aesKeys (key : List Byte) : List (List Nat) :=
  let nk := key.length / 4
  let ws := aesExpand nk (4 * (nk + 7) - nk) 1 (chunksOf 4 (key.map BitVec.toNat))
  (chunksOf 4 ws).map List.flatten

/-- Row r of the state moves left by r (or right for the inverse). -/
def aesShift (inv : Bool) (s : List Nat) : List Nat :=
  (List.range 16).map (fun i => s.getD ((i + (if inv then 12 else 4) * (i % 4)) % 16) 0)

/-- MixColumns with the first row of its matrix. -/
def aesMix (m : List Nat) (s : List Nat) : List Nat :=
  (List.range 16).map (fun i =>
    let c := 4 * (i / 4)
    (List.range 4).foldl (fun acc k => acc ^^^ aesMul (s.getD (c + k) 0) (m.getD ((k + 4 - i % 4) % 4) 0)) 0)

/-- Adds a round key. -/
def aesAdd (s k : List Nat) : List Nat := List.zipWith (· ^^^ ·) s k

/-- Encrypts one block under expanded keys. -/
def aesEnc (ks : List (List Nat)) (blk : List Byte) : List Byte :=
  let s0 := aesAdd (blk.map BitVec.toNat) (ks.headD [])
  let mid := ((ks.drop 1).dropLast).foldl
    (fun s k => aesAdd (aesMix [2, 3, 1, 1] (aesShift false (s.map aesSbox))) k) s0
  bytesOf (aesAdd (aesShift false (mid.map aesSbox)) (ks.getLastD []))

/-- Decrypts one block under expanded keys. -/
def aesDec (ks : List (List Nat)) (blk : List Byte) : List Byte :=
  let s0 := (aesShift true (aesAdd (blk.map BitVec.toNat) (ks.getLastD []))).map aesSboxInv
  let mid := ((ks.drop 1).dropLast).reverse.foldl
    (fun s k => (aesShift true (aesMix [14, 11, 13, 9] (aesAdd s k))).map aesSboxInv) s0
  bytesOf (aesAdd mid (ks.headD []))

/-! ### DES -/

/-- Initial permutation. -/
def desIP : List Nat :=
  [58, 50, 42, 34, 26, 18, 10, 2, 60, 52, 44, 36, 28, 20, 12, 4] ++
  [62, 54, 46, 38, 30, 22, 14, 6, 64, 56, 48, 40, 32, 24, 16, 8] ++
  [57, 49, 41, 33, 25, 17, 9, 1, 59, 51, 43, 35, 27, 19, 11, 3] ++
  [61, 53, 45, 37, 29, 21, 13, 5, 63, 55, 47, 39, 31, 23, 15, 7]

/-- Final permutation. -/
def desFP : List Nat :=
  [40, 8, 48, 16, 56, 24, 64, 32, 39, 7, 47, 15, 55, 23, 63, 31] ++
  [38, 6, 46, 14, 54, 22, 62, 30, 37, 5, 45, 13, 53, 21, 61, 29] ++
  [36, 4, 44, 12, 52, 20, 60, 28, 35, 3, 43, 11, 51, 19, 59, 27] ++
  [34, 2, 42, 10, 50, 18, 58, 26, 33, 1, 41, 9, 49, 17, 57, 25]

/-- Expansion. -/
def desE : List Nat :=
  [32, 1, 2, 3, 4, 5, 4, 5, 6, 7, 8, 9, 8, 9, 10, 11, 12, 13, 12, 13, 14, 15, 16, 17] ++
  [16, 17, 18, 19, 20, 21, 20, 21, 22, 23, 24, 25, 24, 25, 26, 27, 28, 29, 28, 29, 30, 31, 32, 1]

/-- Permutation after the S-boxes. -/
def desP : List Nat :=
  [16, 7, 20, 21, 29, 12, 28, 17, 1, 15, 23, 26, 5, 18, 31, 10] ++
  [2, 8, 24, 14, 32, 27, 3, 9, 19, 13, 30, 6, 22, 11, 4, 25]

/-- Permuted choice 1. -/
def desPC1 : List Nat :=
  [57, 49, 41, 33, 25, 17, 9, 1, 58, 50, 42, 34, 26, 18, 10, 2, 59, 51, 43, 35, 27, 19, 11, 3, 60, 52, 44, 36] ++
  [63, 55, 47, 39, 31, 23, 15, 7, 62, 54, 46, 38, 30, 22, 14, 6, 61, 53, 45, 37, 29, 21, 13, 5, 28, 20, 12, 4]

/-- Permuted choice 2. -/
def desPC2 : List Nat :=
  [14, 17, 11, 24, 1, 5, 3, 28, 15, 6, 21, 10, 23, 19, 12, 4, 26, 8, 16, 7, 27, 20, 13, 2] ++
  [41, 52, 31, 37, 47, 55, 30, 40, 51, 45, 33, 48, 44, 49, 39, 56, 34, 53, 46, 42, 50, 36, 29, 32]

/-- The eight S-boxes, each as 64 hexadecimal digits in one number, the first entry in the highest digit. -/
def desS : List Nat :=
  [0xE4D12FB83A6C59070F74E2D1A6CB953841E8D62BFC973A50FC8249175B3EA06D] ++
  [0xF18E6B34972DC05A3D47F28EC01A69B50E7BA4D158C6932FD8A13F42B67C05E9] ++
  [0xA09E63F51DC7B428D709346A285ECBF1D6498F30B12C5AE71AD069874FE3B52C] ++
  [0x7DE3069A1285BC4FD8B56F03472C1AE9A690CB7DF13E52843F06A1D8945BC72E] ++
  [0x2C417AB6853FD0E9EB2C47D150FA3986421BAD78F9C5630EB8C71E2D6F09A453] ++
  [0xC1AF92680D34E75BAF427C9561DE0B389EF528C3704A1DB6432C95FABE17608D] ++
  [0x4B2EF08D3C975A61D0B7491AE35C2F8614BDC37EAF6805926BD814A7950FE23C] ++
  [0xD2846FB1A93E50C71FD8A374C56B0E927B419CE206ADF35821E74A8DFC90356B]

/-- Takes the bits that a permutation names; a block is a list of bits, the first numbered 1. -/
def desPerm (p : List Nat) (b : List Bool) : List Bool := p.map (fun i => b.getD (i - 1) false)

/-- The bits of bytes, the most significant first. -/
def bitsOfBytes (bs : List Byte) : List Bool := bs.flatMap (fun b => (List.range 8).map (fun i => b.getLsbD (7 - i)))

/-- The number that bits spell, the most significant first. -/
def natOfBits (l : List Bool) : Nat := l.foldl (fun n b => 2 * n + b.toNat) 0

/-- The bytes that bits spell. -/
def bytesOfBits (l : List Bool) : List Byte := (chunksOf 8 l).map (fun c => BitVec.ofNat 8 (natOfBits c))

/-- One S-box on six bits. -/
def desSbox (box : Nat) (b : List Bool) : List Bool :=
  let n := natOfBits b
  let row := (n / 32) * 2 + n % 2
  let v := box / 16 ^ (63 - (16 * row + n / 2 % 16)) % 16
  (List.range 4).map (fun i => v.testBit (3 - i))

/-- The round function. -/
def desF (r k : List Bool) : List Bool :=
  let x := List.zipWith xor (desPerm desE r) k
  desPerm desP ((List.zipWith desSbox desS (chunksOf 6 x)).flatten)

/-- Rotates a half key left. -/
def rotBits (n : Nat) (l : List Bool) : List Bool := l.drop n ++ l.take n

/-- The 16 round keys. -/
def desKeys (key : List Byte) : List (List Bool) :=
  let k := desPerm desPC1 (bitsOfBytes key)
  let c := k.take 28
  let d := k.drop 28
  [1, 2, 4, 6, 8, 10, 12, 14, 15, 17, 19, 21, 23, 25, 27, 28].map
    (fun n => desPerm desPC2 (rotBits n c ++ rotBits n d))

/-- DES on one block with the round keys in the order of use. -/
def desCore (ks : List (List Bool)) (blk : List Byte) : List Byte :=
  let b := desPerm desIP (bitsOfBytes blk)
  let lr := ks.foldl (fun (lr : List Bool × List Bool) k => (lr.2, List.zipWith xor lr.1 (desF lr.2 k)))
    (b.take 32, b.drop 32)
  bytesOfBits (desPerm desFP (lr.2 ++ lr.1))

/-- DES encryption of one block. -/
def desEnc (key blk : List Byte) : List Byte := desCore (desKeys key) blk
/-- DES decryption of one block. -/
def desDec (key blk : List Byte) : List Byte := desCore (desKeys key).reverse blk

/-- Part `i` of a two-key or three-key TDES key; two-key TDES uses the first as the third. -/
def tdesPart (key : List Byte) (i : Nat) : List Byte :=
  if key.length < 24 ∧ i = 2 then key.take 8 else (key.drop (8 * i)).take 8

/-- TDES encryption of one block. -/
def tdesEnc (key blk : List Byte) : List Byte :=
  desEnc (tdesPart key 2) (desDec (tdesPart key 1) (desEnc (tdesPart key 0) blk))
/-- TDES decryption of one block. -/
def tdesDec (key blk : List Byte) : List Byte :=
  desDec (tdesPart key 0) (desEnc (tdesPart key 1) (desDec (tdesPart key 2) blk))

/-! ### Modes over blocks -/

/-- A block cipher under one key: block size, encryption, decryption. -/
structure BlockCipher where
  size : Nat
  enc  : List Byte → List Byte
  dec  : List Byte → List Byte

/-- AES under a key, its round keys expanded. -/
def aesCipher (key : List Byte) : BlockCipher :=
  let ks := aesKeys key
  ⟨16, aesEnc ks, aesDec ks⟩

/-- TDES under a key. -/
def tdesCipher (key : List Byte) : BlockCipher := ⟨8, tdesEnc key, tdesDec key⟩

/-- CBC encryption of blocks. -/
def cbcEnc (c : BlockCipher) : List Byte → List (List Byte) → List (List Byte)
  | _, [] => []
  | iv, b :: bs => let x := c.enc (xorBytes iv b); x :: cbcEnc c x bs

/-- CBC decryption of blocks. -/
def cbcDec (c : BlockCipher) : List Byte → List (List Byte) → List (List Byte)
  | _, [] => []
  | iv, b :: bs => xorBytes iv (c.dec b) :: cbcDec c b bs

/-- A counter block: bytes 12 to 15 count big-endian modulo 2^32 (R173). -/
def ctrNext (b : List Byte) : List Byte := b.take 12 ++ beBytes 4 (beNat (b.drop 12) + 1)

/-- CTR over blocks. -/
def ctrMode (c : BlockCipher) : List Byte → List (List Byte) → List (List Byte)
  | _, [] => []
  | iv, b :: bs => xorBytes (c.enc iv) b :: ctrMode c (ctrNext iv) bs

/-- Doubles in GF(2^n) for CMAC. -/
def cmacDouble (size : Nat) (b : List Byte) : List Byte :=
  let n := 2 * beNat b
  let m := 2 ^ (8 * size)
  beBytes size (if n < m then n else (n - m) ^^^ (if size = 16 then 0x87 else 0x1B))

/-- CMAC of a message (SP 800-38B). -/
def cmac (c : BlockCipher) (m : List Byte) : List Byte :=
  let l := c.enc (List.replicate c.size 0)
  let k1 := cmacDouble c.size l
  let k2 := cmacDouble c.size k1
  let full := m ≠ [] ∧ m.length % c.size = 0
  let blocks := chunksOf c.size m
  let body := if full then blocks.dropLast else if m = [] then [] else blocks.dropLast
  let last := if m = [] then [] else blocks.getLastD []
  let x := body.foldl (fun st b => c.enc (xorBytes st b)) (List.replicate c.size 0)
  let tail := if full then xorBytes last k1 else xorBytes (fitBytes c.size (last ++ [0x80#8])) k2
  c.enc (xorBytes x tail)

/-- ISO 9797-1 padding method 1 or 2. -/
def isoPad (method : Nat) (size : Nat) (m : List Byte) : List Byte :=
  let p := if method = 2 then m ++ [0x80#8] else m
  let p := if p = [] then List.replicate size 0 else p
  p ++ List.replicate ((size - p.length % size) % size) 0

/-- The CBC chain of MAC algorithm 1. -/
def macChain (enc : List Byte → List Byte) (size : Nat) (blocks : List (List Byte)) : List Byte :=
  blocks.foldl (fun st b => enc (xorBytes st b)) (List.replicate size 0)

/-- ISO 9797-1 MAC algorithm 1 with TDES (R174). -/
def macAlg1 (key : List Byte) (method : Nat) (m : List Byte) : List Byte :=
  macChain (tdesEnc key) 8 (chunksOf 8 (isoPad method 8 m))

/-- ISO 9797-1 MAC algorithm 3: the retail MAC (R174). -/
def macAlg3 (key : List Byte) (method : Nat) (m : List Byte) : List Byte :=
  let x := macChain (desEnc (tdesPart key 0)) 8 (chunksOf 8 (isoPad method 8 m))
  desEnc (tdesPart key 2) (desDec (tdesPart key 1) x)

/-! ### AES key wrap (SP 800-38F) -/

/-- One step of W: register A with the list of semiblocks, step t. -/
def kwStep (c : BlockCipher) (st : List Byte × List (List Byte)) (t : Nat) : List Byte × List (List Byte) :=
  match st.2 with
  | r :: rs =>
    let b := c.enc (st.1 ++ r)
    (xorBytes (b.take 8) (beBytes 8 t), rs ++ [b.drop 8])
  | [] => st

/-- The wrapping function W. -/
def kwW (c : BlockCipher) (a : List Byte) (rs : List (List Byte)) : List Byte :=
  let r := ((List.range (6 * rs.length)).map (· + 1)).foldl (kwStep c) (a, rs)
  r.1 ++ r.2.flatten

/-- One step of the inverse of W. -/
def kwUnstep (c : BlockCipher) (st : List Byte × List (List Byte)) (t : Nat) : List Byte × List (List Byte) :=
  match st.2.reverse with
  | r :: rs =>
    let b := c.dec (xorBytes st.1 (beBytes 8 t) ++ r)
    (b.take 8, b.drop 8 :: rs.reverse)
  | [] => st

/-- The inverse of W: register A and the semiblocks. -/
def kwUnW (c : BlockCipher) (w : List Byte) : List Byte × List Byte :=
  let rs := chunksOf 8 (w.drop 8)
  let r := ((List.range (6 * rs.length)).map (fun i => 6 * rs.length - i)).foldl (kwUnstep c) (w.take 8, rs)
  (r.1, r.2.flatten)

/-- AES-KW: wraps a multiple of 8 bytes. -/
def aesKw (kek pt : List Byte) : List Byte := kwW (aesCipher kek) (List.replicate 8 0xA6#8) (chunksOf 8 pt)

/-- AES-KW unwrapping; none where the integrity check fails. -/
def aesKwUnwrap (kek ct : List Byte) : Option (List Byte) :=
  let r := kwUnW (aesCipher kek) ct
  if r.1 = List.replicate 8 0xA6#8 then some r.2 else none

/-- AES-KWP: wraps any length. -/
def aesKwp (kek pt : List Byte) : List Byte :=
  let a := bytesOf [0xA6, 0x59, 0x59, 0xA6] ++ beBytes 4 pt.length
  let p := pt ++ List.replicate ((8 - pt.length % 8) % 8) 0
  if p.length = 8 then (aesCipher kek).enc (a ++ p) else kwW (aesCipher kek) a (chunksOf 8 p)

/-- AES-KWP unwrapping; none where the integrity check fails. -/
def aesKwpUnwrap (kek ct : List Byte) : Option (List Byte) :=
  let r := if ct.length = 16 then let b := (aesCipher kek).dec ct; (b.take 8, b.drop 8) else kwUnW (aesCipher kek) ct
  let n := beNat (r.1.drop 4)
  if r.1.take 4 = bytesOf [0xA6, 0x59, 0x59, 0xA6] ∧ n ≤ r.2.length ∧ r.2.length < n + 8 ∧
      (r.2.drop n).all (· = 0) then some (r.2.take n) else none

end Sys2Proof.Machine
end

