-- ==== Sys2Proof/Machine/PubKey.lean ====
section
/-! DEFINITION. Public-key arithmetic: Montgomery products (R166), point operations (R170), ECDSA, Ed25519 and
RSA (R384 to R386). The spec names the standards; their content is PRESUMED (FIPS 186-5, RFC 6979, RFC 8032,
PKCS #1, Renes-Costello-Batina 2016, Hisil et al. 2008; log 10). -/

namespace Sys2Proof.Machine

open Sys2Proof

/-! ### Modular arithmetic -/

/-- b^e mod m over the bits of `e`, the lowest first; `f` bits. -/
def powModAux (m : Nat) : Nat → Nat → Nat → Nat → Nat
  | 0, _, _, acc => acc
  | f + 1, b, e, acc => powModAux m f (b * b % m) (e / 2) (if e % 2 = 1 then acc * b % m else acc)

/-- b^e mod m. -/
def powMod (b e m : Nat) : Nat := powModAux m (e.log2 + 1) (b % m) e (1 % m)

/-- Extended Euclid on (r0, r1) with coefficients of the second argument; `f` steps. -/
def egcdAux : Nat → Int → Int → Int → Int → Int × Int
  | 0, r0, _, t0, _ => (r0, t0)
  | f + 1, r0, r1, t0, t1 => if r1 = 0 then (r0, t0) else egcdAux f r1 (r0 % r1) t1 (t0 - r0 / r1 * t1)

/-- The inverse of a mod m; 0 where there is none. -/
def invMod (a m : Nat) : Nat :=
  let r := egcdAux (3 * m.log2 + 8) m (a % m) 0 1
  if r.1 = 1 then (r.2 % m).toNat else 0

/-- a − b mod p for reduced operands. -/
def subMod (a b p : Nat) : Nat := (a + p - b) % p

/-! ### Montgomery product (R166) -/

/-- The loop of R166 over the limbs of a. -/
def montLoop (b n np : Nat) (as : List Nat) : Nat :=
  as.foldl (fun u aj =>
    let u := u + aj * b
    let m := (u % 2 ^ 32 * np) % 2 ^ 32
    (u + m * n) / 2 ^ 32) 0

/-- −n0^(−1) mod 2^32 for odd n0, by Newton's iteration (R166). -/
def montNp (n0 : Nat) : Nat :=
  let x := (List.range 5).foldl (fun x _ => x * (2 ^ 33 + 2 - n0 * x % 2 ^ 32) % 2 ^ 32) n0
  (2 ^ 32 - x) % 2 ^ 32

/-- The limbs of a number, lowest first. -/
def toLimbs : Nat → Nat → List Nat
  | 0, _ => []
  | k + 1, n => n % 2 ^ 32 :: toLimbs k (n / 2 ^ 32)

/-- The number that limbs hold (R44). -/
def ofLimbs (l : List Nat) : Nat := l.foldr (fun x n => n * 2 ^ 32 + x) 0

/-- The result limbs of MMUL, or of MRED with b = 1; zeros for an even modulus (R166, R167). -/
def montMul (as bs ns : List Nat) : List Nat :=
  let l := as.length
  let n := ofLimbs ns
  if ns.headD 0 % 2 = 0 then List.replicate l 0
  else
    let u := montLoop (ofLimbs bs) n (montNp (ns.headD 0)) as
    toLimbs l (if n ≤ u then u - n else u)

/-! ### Short Weierstrass curves with a = −3 -/

/-- A curve: prime, b, order, generator, bytes of a coordinate. -/
structure Curve where
  p  : Nat
  b  : Nat
  n  : Nat
  gx : Nat
  gy : Nat
  bytes : Nat

/-- P-256. -/
def p256 : Curve where
  p := 0xFFFFFFFF00000001000000000000000000000000FFFFFFFFFFFFFFFFFFFFFFFF
  b := 0x5AC635D8AA3A93E7B3EBBD55769886BC651D06B0CC53B0F63BCE3C3E27D2604B
  n := 0xFFFFFFFF00000000FFFFFFFFFFFFFFFFBCE6FAADA7179E84F3B9CAC2FC632551
  gx := 0x6B17D1F2E12C4247F8BCE6E563A440F277037D812DEB33A0F4A13945D898C296
  gy := 0x4FE342E2FE1A7F9B8EE7EB4A7C0F9E162BCE33576B315ECECBB6406837BF51F5
  bytes := 32

/-- P-384. -/
def p384 : Curve where
  p := 0xFFFFFFFFFFFFFFFFFFFFFFFFFFFFFFFFFFFFFFFFFFFFFFFFFFFFFFFFFFFFFFFEFFFFFFFF0000000000000000FFFFFFFF
  b := 0xB3312FA7E23EE7E4988E056BE3F82D19181D9C6EFE8141120314088F5013875AC656398D8A2ED19D2A85C8EDD3EC2AEF
  n := 0xFFFFFFFFFFFFFFFFFFFFFFFFFFFFFFFFFFFFFFFFFFFFFFFFC7634D81F4372DDF581A0DB248B0A77AECEC196ACCC52973
  gx := 0xAA87CA22BE8B05378EB1C71EF320AD746E1D3B628BA79B9859F741E082542A385502F25DBF55296C3A545E3872760AB7
  gy := 0x3617DE4A96262C6F5D9E98BF9292DC29F8F41DBD289A147CE9DA3113B5F0B8C00A60B1CE1D7E819D7A431D7C90EA0E5F
  bytes := 48

/-- A point in homogeneous projective coordinates; the identity is (0 : 1 : 0) (R169). -/
structure Pt where
  x : Nat
  y : Nat
  z : Nat
deriving DecidableEq, Repr

/-- Complete addition for a = −3: algorithm 4 of Renes, Costello and Batina (R170). -/
def wAdd (c : Curve) (a b : Pt) : Pt :=
  let p := c.p
  let xx := a.x * b.x % p
  let yy := a.y * b.y % p
  let zz := a.z * b.z % p
  let xy := (a.x * b.y + b.x * a.y) % p
  let yz := (a.y * b.z + b.y * a.z) % p
  let xz := (a.x * b.z + b.x * a.z) % p
  let m := 3 * subMod xz (c.b * zz % p) p % p
  let u := subMod yy m p
  let v := (yy + m) % p
  let w := 3 * subMod (subMod (c.b * xz % p) (3 * zz % p) p) xx p % p
  let t := 3 * subMod xx zz p % p
  ⟨subMod (v * xy % p) (yz * w % p) p, (v * u + t * w) % p, (u * yz + xy * t) % p⟩

/-- Exception-free doubling for a = −3: algorithm 6 of Renes, Costello and Batina (R170). -/
def wDbl (c : Curve) (a : Pt) : Pt :=
  let p := c.p
  let xx := a.x * a.x % p
  let yy := a.y * a.y % p
  let zz := a.z * a.z % p
  let xz := 2 * a.x * a.z % p
  let m := 3 * subMod (c.b * zz % p) xz p % p
  let u := subMod yy m p
  let v := (yy + m) % p
  let w := 3 * subMod (subMod (c.b * xz % p) (3 * zz % p) p) xx p % p
  let t := 3 * subMod xx zz p % p
  let yz := 2 * a.y * a.z % p
  ⟨subMod (u * (2 * a.x * a.y % p) % p) (yz * w % p) p, (u * v + t * w) % p, 4 * (yz * yy % p) % p⟩

/-- Scalar multiple over `f` bits of k from the lowest. -/
def wMulAux (c : Curve) : Nat → Nat → Pt → Pt → Pt
  | 0, _, _, acc => acc
  | f + 1, k, q, acc => wMulAux c f (k / 2) (wDbl c q) (if k % 2 = 1 then wAdd c acc q else acc)

/-- k times a point. -/
def wMul (c : Curve) (k : Nat) (q : Pt) : Pt := wMulAux c (k.log2 + 1) k q ⟨0, 1, 0⟩

/-- The generator. -/
def wGen (c : Curve) : Pt := ⟨c.gx, c.gy, 1⟩

/-- Affine coordinates; none for the identity. -/
def wAffine (c : Curve) (q : Pt) : Option (Nat × Nat) :=
  if q.z % c.p = 0 then none
  else let zi := invMod q.z c.p; some (q.x * zi % c.p, q.y * zi % c.p)

/-- Whether (x, y) is a point of the curve with reduced coordinates. -/
def onCurve (c : Curve) (x y : Nat) : Bool :=
  x < c.p && y < c.p && (y * y) % c.p = (x * x * x + (c.p - 3) * x + c.b) % c.p

/-- The public key Qx‖Qy of a private scalar. -/
def ecPublic (c : Curve) (d : Nat) : List Byte :=
  match wAffine c (wMul c d (wGen c)) with
  | some (x, y) => beBytes c.bytes x ++ beBytes c.bytes y
  | none => List.replicate (2 * c.bytes) 0

/-- The x coordinate of an ECDH secret, big-endian. -/
def ecdhX (c : Curve) (d : Nat) (qx qy : Nat) : List Byte :=
  match wAffine c (wMul c d ⟨qx, qy, 1⟩) with
  | some (x, _) => beBytes c.bytes x
  | none => List.replicate c.bytes 0

/-! ### ECDSA (R384, R385) -/

/-- A digest truncated to the bit length of n. -/
def ecTrunc (c : Curve) (digest : List Byte) : Nat :=
  let z := beNat digest
  let bits := 8 * digest.length
  let nb := c.n.log2 + 1
  if nb < bits then z / 2 ^ (bits - nb) else z

/-- HMAC_DRBG output blocks of RFC 6979, `n` of them, from (K, V): bytes and the new V. -/
def rfcBlocks (hm : List Byte → List Byte → List Byte) (k : List Byte) : Nat → List Byte → List Byte × List Byte
  | 0, v => ([], v)
  | n + 1, v =>
    let v' := hm k v
    let r := rfcBlocks hm k n v'
    (v' ++ r.1, r.2)

/-- Bits of bytes as an integer cut to the bit length of n. -/
def rfcInt (c : Curve) (bs : List Byte) : Nat := ecTrunc c bs

/-- Candidates for k until one serves, `f` at most; `hl` is the length of the hash (RFC 6979). -/
def rfcLoop (c : Curve) (hm : List Byte → List Byte → List Byte) (hl : Nat) : Nat → List Byte → List Byte → Nat
  | 0, _, _ => 1
  | f + 1, k, v =>
    let r := rfcBlocks hm k ((c.bytes + hl - 1) / hl) v
    let cand := rfcInt c (r.1.take c.bytes)
    if cand ≠ 0 ∧ cand < c.n then cand
    else
      let k' := hm k (r.2 ++ [0#8])
      rfcLoop c hm hl f k' (hm k' r.2)

/-- k of RFC 6979 with the HMAC `hm` of a hash of `hl` bytes (R385, R420). -/
def rfc6979 (c : Curve) (hm : List Byte → List Byte → List Byte) (hl : Nat) (d : Nat) (digest : List Byte) : Nat :=
  let x := beBytes c.bytes d
  let h := beBytes c.bytes (ecTrunc c digest % c.n)
  let v := List.replicate hl 1#8
  let k := List.replicate hl 0#8
  let k := hm k (v ++ [0#8] ++ x ++ h)
  let v := hm k v
  let k := hm k (v ++ [1#8] ++ x ++ h)
  let v := hm k v
  rfcLoop c hm hl 100 k v

/-- An ECDSA signature r‖s with k given. -/
def ecdsaWith (c : Curve) (k d : Nat) (digest : List Byte) : List Byte :=
  match wAffine c (wMul c k (wGen c)) with
  | some (x, _) =>
    let r := x % c.n
    let s := invMod k c.n * ((ecTrunc c digest + r * d) % c.n) % c.n
    beBytes c.bytes r ++ beBytes c.bytes s
  | none => List.replicate (2 * c.bytes) 0

/-- An ECDSA signature r‖s of a resident operation: k by RFC 6979 with HMAC-SHA-256 (R384, R385). -/
def ecdsaSign (c : Curve) (d : Nat) (digest : List Byte) : List Byte :=
  ecdsaWith c (rfc6979 c hmacSha256 32 d digest) d digest

/-- A signature of the audit identity over a message: P-384 with SHA-384, k by RFC 6979 (R420). -/
def identitySign (d : Nat) (m : List Byte) : List Byte :=
  ecdsaWith p384 (rfc6979 p384 hmacSha384 48 d (sha384 m)) d (sha384 m)

/-- The RESULT code of an ECDSA verification: 0 when the signature is valid (R386). -/
def ecdsaVerify (c : Curve) (pub digest sig : List Byte) : Nat :=
  let qx := beNat (pub.take c.bytes)
  let qy := beNat ((pub.drop c.bytes).take c.bytes)
  let r := beNat (sig.take c.bytes)
  let s := beNat ((sig.drop c.bytes).take c.bytes)
  if !onCurve c qx qy then 0x04
  else if r = 0 ∨ c.n ≤ r ∨ s = 0 ∨ c.n ≤ s then 0x02
  else
    let w := invMod s c.n
    let u1 := ecTrunc c digest * w % c.n
    let u2 := r * w % c.n
    match wAffine c (wAdd c (wMul c u1 (wGen c)) (wMul c u2 ⟨qx, qy, 1⟩)) with
    | some (x, _) => if x % c.n = r then 0 else 0x01
    | none => 0x01

/-! ### edwards25519 -/

/-- The prime 2^255 − 19. -/
def edP : Nat := 2 ^ 255 - 19
/-- The group order L. -/
def edL : Nat := 2 ^ 252 + 27742317777372353535851937790883648493
/-- The curve constant d. -/
def edD : Nat := 37095705934669439343138083508754565189542113879843219016388785533085940283555

/-- A point in extended coordinates with E = XY / Z; the identity is (0 : 1 : 1 : 0) (R169). -/
structure EdPt where
  x : Nat
  y : Nat
  z : Nat
  t : Nat
deriving DecidableEq, Repr

/-- Dedicated doubling of Hisil, Wong, Carter and Dawson for a = −1 (R170). -/
def edDbl (q : EdPt) : EdPt :=
  let a := q.x * q.x % edP
  let b := q.y * q.y % edP
  let c := 2 * q.z * q.z % edP
  let d := subMod 0 a edP
  let e := subMod ((q.x + q.y) * (q.x + q.y) % edP) ((a + b) % edP) edP
  let g := (d + b) % edP
  let f := subMod g c edP
  let h := subMod d b edP
  ⟨e * f % edP, g * h % edP, f * g % edP, e * h % edP⟩

/-- Unified addition with k = 2d (R170). -/
def edAdd (q r : EdPt) : EdPt :=
  let a := subMod (q.y % edP) (q.x % edP) edP * subMod (r.y % edP) (r.x % edP) edP % edP
  let b := (q.y + q.x) * (r.y + r.x) % edP
  let c := q.t * (2 * edD) % edP * r.t % edP
  let d := 2 * q.z * r.z % edP
  let e := subMod b a edP
  let f := subMod d c edP
  let g := (d + c) % edP
  let h := (b + a) % edP
  ⟨e * f % edP, g * h % edP, f * g % edP, e * h % edP⟩

/-- Scalar multiple over `f` bits. -/
def edMulAux : Nat → Nat → EdPt → EdPt → EdPt
  | 0, _, _, acc => acc
  | f + 1, k, q, acc => edMulAux f (k / 2) (edDbl q) (if k % 2 = 1 then edAdd acc q else acc)

/-- k times a point. -/
def edMul (k : Nat) (q : EdPt) : EdPt := edMulAux (k.log2 + 1) k q ⟨0, 1, 1, 0⟩

/-- The base point. -/
def edBase : EdPt :=
  let x := 15112221349535400772501151409588531511454012693041857206046113283949847762202
  let y := 46316835694926478169428394003475163141307993866256225615783033603165251855960
  ⟨x, y, 1, x * y % edP⟩

/-- The 32-byte encoding of a point (RFC 8032). -/
def edEncode (q : EdPt) : List Byte :=
  let zi := invMod q.z edP
  let x := q.x * zi % edP
  let y := q.y * zi % edP
  leBytes 32 (y + (x % 2) * 2 ^ 255)

/-- Decodes a point; none for an invalid or non-canonical encoding (R386). -/
def edDecode (b : List Byte) : Option EdPt :=
  let n := leNat b
  let sgn := n / 2 ^ 255 % 2
  let y := n % 2 ^ 255
  if edP ≤ y then none
  else
    let u := subMod (y * y % edP) 1 edP
    let v := (edD * (y * y % edP) + 1) % edP
    let v3 := v * v % edP * v % edP
    let v7 := v3 * v3 % edP * v % edP
    let x0 := u * v3 % edP * powMod (u * v7 % edP) ((edP - 5) / 8) edP % edP
    let chk := v * (x0 * x0 % edP) % edP
    let x? := if chk = u then some x0
      else if chk = subMod 0 u edP then some (x0 * powMod 2 ((edP - 1) / 4) edP % edP) else none
    match x? with
    | none => none
    | some x =>
      if x = 0 ∧ sgn = 1 then none
      else
        let x := if x % 2 = sgn then x else edP - x
        some ⟨x, y, 1, x * y % edP⟩

/-- The private scalar s and the prefix of a 32-byte private key (RFC 8032). -/
def edSecret (sk : List Byte) : Nat × List Byte :=
  let h := sha512 sk
  let n := leNat (h.take 32)
  let s := (n % 2 ^ 254) / 8 * 8 + 2 ^ 254
  (s, h.drop 32)

/-- The public key of a private key (RFC 8032). -/
def edPublic (sk : List Byte) : List Byte := edEncode (edMul (edSecret sk).1 edBase)

/-- An Ed25519 signature (R384). -/
def edSign (sk m : List Byte) : List Byte :=
  let s := edSecret sk
  let a := edPublic sk
  let r := leNat (sha512 (s.2 ++ m)) % edL
  let rr := edEncode (edMul r edBase)
  let k := leNat (sha512 (rr ++ a ++ m)) % edL
  rr ++ leBytes 32 ((r + k * s.1) % edL)

/-- The RESULT code of an Ed25519 verification: 0 when valid (R386). -/
def edVerify (pub m sig : List Byte) : Nat :=
  match edDecode pub with
  | none => 0x04
  | some a =>
    let s := leNat (sig.drop 32)
    if edL ≤ s then 0x02
    else
      let k := leNat (sha512 (sig.take 32 ++ pub ++ m)) % edL
      match edDecode (sig.take 32) with
      | none => 0x01
      | some _ =>
        -- S B = R + k A, compared as encodings of R
        let na : EdPt := ⟨subMod 0 a.x edP, a.y, a.z, subMod 0 a.t edP⟩
        if edEncode (edAdd (edMul s edBase) (edMul k na)) = sig.take 32 then 0 else 0x01

/-! ### Point operations of ECP (R169, R170) -/

/-- The field value of a Montgomery-form coordinate. -/
def fromMont (p bits x : Nat) : Nat := x % p * invMod (2 ^ bits % p) p % p
/-- The Montgomery form of a field value. -/
def toMont (p bits x : Nat) : Nat := x * (2 ^ bits % p) % p

/-- The coordinates of a point operation on one transaction, in and out in Montgomery form; `b` is none for
a doubling (R169, R170). -/
def ecpOp (code : Nat) (a : List Nat) (b : Option (List Nat)) : List Nat :=
  let w (c : Curve) (bits : Nat) : List Nat :=
    let pt (l : List Nat) : Pt := ⟨fromMont c.p bits (l.getD 0 0), fromMont c.p bits (l.getD 1 0), fromMont c.p bits (l.getD 2 0)⟩
    let r := match b with
      | none => wDbl c (pt a)
      | some q => wAdd c (pt a) (pt q)
    [toMont c.p bits r.x, toMont c.p bits r.y, toMont c.p bits r.z]
  match code with
  | 1 => w p256 256
  | 2 => w p384 384
  | _ =>
    let pt (l : List Nat) : EdPt :=
      ⟨fromMont edP 256 (l.getD 0 0), fromMont edP 256 (l.getD 1 0), fromMont edP 256 (l.getD 2 0), fromMont edP 256 (l.getD 3 0)⟩
    let r := match b with
      | none => edDbl (pt a)
      | some q => edAdd (pt a) (pt q)
    [toMont edP 256 r.x, toMont edP 256 r.y, toMont edP 256 r.z, toMont edP 256 r.t]

/-! ### RSA (R384 to R386) -/

/-- The digest algorithms DALG (R384). -/
def dalgHash (dalg : Nat) (m : List Byte) : List Byte :=
  match dalg with
  | 1 => sha256 m
  | 2 => sha512 m
  | 3 => sha3_256 m
  | _ => sha384 m

/-- The digest length of DALG. -/
def dalgLen (dalg : Nat) : Nat :=
  match dalg with
  | 1 => 32
  | 2 => 64
  | 3 => 32
  | _ => 48

/-- The DigestInfo prefix of PKCS #1 v1.5. -/
def digestInfo (dalg : Nat) : List Byte :=
  let oid := match dalg with
    | 1 => 0x01
    | 2 => 0x03
    | 3 => 0x08
    | _ => 0x02
  bytesOf ([0x30, 0x11 + dalgLen dalg, 0x30, 0x0D, 0x06, 0x09, 0x60, 0x86, 0x48, 0x01] ++
    [0x65, 0x03, 0x04, 0x02, oid, 0x05, 0x00, 0x04, dalgLen dalg])

/-- The PKCS #1 v1.5 encoding of a digest in k bytes. -/
def pkcs1Encode (k dalg : Nat) (digest : List Byte) : List Byte :=
  let t := digestInfo dalg ++ digest
  bytesOf [0, 1] ++ List.replicate (k - 3 - t.length) 0xFF#8 ++ [0#8] ++ t

/-- MGF1 with DALG. -/
def mgf1 (dalg : Nat) (seed : List Byte) (len : Nat) : List Byte :=
  ((List.range (len / dalgLen dalg + 1)).flatMap (fun i => dalgHash dalg (seed ++ beBytes 4 i))).take len

/-- The PSS encoding of a digest with a salt, emBits bits. -/
def pssEncode (emBits dalg : Nat) (digest salt : List Byte) : List Byte :=
  let emLen := (emBits + 7) / 8
  let h := dalgHash dalg (List.replicate 8 0 ++ digest ++ salt)
  let db := List.replicate (emLen - salt.length - dalgLen dalg - 2) 0#8 ++ [1#8] ++ salt
  let masked := xorBytes db (mgf1 dalg h db.length)
  let top := 8 * emLen - emBits
  (match masked with
    | b :: bs => (b &&& BitVec.ofNat 8 (2 ^ (8 - top) - 1)) :: bs
    | [] => []) ++ h ++ [0xBC#8]

/-- The RESULT code of a PSS check: 0 valid, 0x03 malformed, 0x01 mismatch (R386). -/
def pssCheck (emBits dalg slen : Nat) (digest em : List Byte) : Nat :=
  let emLen := (emBits + 7) / 8
  let hl := dalgLen dalg
  let top := 8 * emLen - emBits
  let dbLen := emLen - hl - 1
  let masked := em.take dbLen
  let h := (em.drop dbLen).take hl
  if emLen < hl + slen + 2 ∨ em.getLastD 0 ≠ 0xBC#8 ∨ (masked.headD 0).toNat / 2 ^ (8 - top) ≠ 0 then 0x03
  else
    let db := xorBytes masked (mgf1 dalg h dbLen)
    let db := match db with
      | b :: bs => (b &&& BitVec.ofNat 8 (2 ^ (8 - top) - 1)) :: bs
      | [] => []
    let zl := emLen - hl - slen - 2
    if (db.take zl).any (· ≠ 0) ∨ (db.drop zl).headD 0 ≠ 1#8 then 0x03
    else if dalgHash dalg (List.replicate 8 0 ++ digest ++ db.drop (zl + 1)) = h then 0 else 0x01

/-- RSA private operation by CRT (R385). -/
def rsaCrt (p q dp dq qinv m : Nat) : Nat :=
  let m1 := powMod m dp p
  let m2 := powMod m dq q
  let h := qinv * ((m1 + p * q - m2) % p) % p
  m2 + h * q

/-- The RESULT code of an RSA verification (R386). -/
def rsaVerify (n e : Nat) (pss : Bool) (dalg slen : Nat) (digest sig : List Byte) : Nat :=
  let k := sig.length
  let s := beNat sig
  if n ≤ s then 0x03
  else
    let em := powMod s e n
    if pss then
      let emBits := n.log2
      pssCheck emBits dalg slen digest (beBytes ((emBits + 7) / 8) em)
    else
      let want := pkcs1Encode k dalg digest
      let got := beBytes k em
      if got = want then 0
      else if got.take (k - digest.length) = want.take (k - digest.length) then 0x01 else 0x03

end Sys2Proof.Machine
end

