-- ==== Sys2Proof/Machine/Directory.lean ====
section
/-! DEFINITION. The keystone's words and the key directory: entries, blobs, replicas, checks and key check
values (R158, R159, R292, R396 to R400, R437, R438). -/

namespace Sys2Proof.Machine

open Sys2Proof

/-! ### The keystone (R437, R438) -/

/-- A word of the keystone as read: the majority of its three copies; zero where all differ (R438). -/
def Keystone.word (k : Keystone) (w : Nat) : DW :=
  let a := k.m0.get w
  let b := k.m1.get w
  let c := k.m2.get w
  if a = b ∨ a = c then a else if b = c then b else 0

/-- Whether the three copies of a word differ from each other (R438). -/
def Keystone.split (k : Keystone) (w : Nat) : Bool :=
  let a := k.m0.get w
  let b := k.m1.get w
  let c := k.m2.get w
  a ≠ b && a ≠ c && b ≠ c

/-- Whether one copy of a word is outvoted (R438). -/
def Keystone.outvoted (k : Keystone) (w : Nat) : Bool :=
  !k.split w && !(k.m0.get w = k.m1.get w && k.m0.get w = k.m2.get w)

/-- Writes all three copies of a word. -/
def Keystone.put (k : Keystone) (w : Nat) (v : DW) : Keystone :=
  { k with m0 := k.m0.set w v, m1 := k.m1.set w v, m2 := k.m2.set w v }

/-- Writes words from `w` up. -/
def Keystone.putWords (k : Keystone) (w : Nat) : List DW → Keystone
  | [] => k
  | v :: vs => Keystone.putWords (k.put w v) (w + 1) vs

/-- Bytes held by `n` words from `w`, the lowest byte of each word first. -/
def Keystone.bytes (k : Keystone) (w n : Nat) : List Byte :=
  (List.range n).flatMap (fun i => leBytes 4 (k.word (w + i)).toNat)

/-- Writes bytes from word `w`, the lowest byte of each word first. -/
def Keystone.putBytes (k : Keystone) (w : Nat) (bs : List Byte) : Keystone :=
  k.putWords w ((chunksOf 4 bs).map (fun c => BitVec.ofNat 32 (leNat c)))

/-- The device key-encryption key; none after a zeroize (R159, R437, R439). -/
def Keystone.kek (k : Keystone) : Option (List Byte) := if k.zeroized then none else some (k.bytes 0 8)

/-- The chain root (R416, R437). -/
def Keystone.chainRoot (k : Keystone) : List Byte := k.bytes 8 8

/-- The highest chain sequence (R416). -/
def cseqMax : Nat := 2 ^ 48 - 1

/-- The chain key of chain `c` (R416). -/
def Keystone.chainKey (k : Keystone) (c : Nat) : List Byte :=
  hmacSha256 k.chainRoot (bytesOf [0x43, 0x48, c])

/-- The private scalar of the audit identity (R420, R437). -/
def Keystone.identity (k : Keystone) : Nat := leNat (k.bytes 0x10 12)

/-- The ward transport key (R437). -/
def Keystone.wtk (k : Keystone) : List Byte := k.bytes 0x20 8

/-- The ward identifier (R437). -/
def Keystone.wardId (k : Keystone) : List Byte := k.bytes 0x28 2

/-- NODE (R437). -/
def Keystone.node (k : Keystone) : Nat := (k.word 0x2A).toNat % 1024

/-- WARD (R437). -/
def Keystone.ward (k : Keystone) : Bool := (k.word 0x2A).getLsbD 16

/-- CSEQ and mark of the head of chain `c` (R437). -/
def Keystone.head (k : Keystone) (c : Nat) : Nat × List Byte :=
  ((k.word (0x40 + 8 * c)).toNat + (k.word (0x41 + 8 * c)).toNat % 65536 * 2 ^ 32, k.bytes (0x42 + 8 * c) 4)

/-- Sets the head of chain `c` (R417, R437). -/
def Keystone.setHead (k : Keystone) (c cseq : Nat) (mark : List Byte) : Keystone :=
  (k.putWords (0x40 + 8 * c) [BitVec.ofNat 32 cseq, BitVec.ofNat 32 (cseq / 2 ^ 32)]).putBytes (0x42 + 8 * c) mark

/-- The highest EPOCH formed (R437). -/
def Keystone.epoch (k : Keystone) : Nat := (k.word 0xC8).toNat + (k.word 0xC9).toNat * 2 ^ 32

/-- Sets the highest EPOCH formed. -/
def Keystone.setEpoch (k : Keystone) (e : Nat) : Keystone :=
  k.putWords 0xC8 [BitVec.ofNat 32 e, BitVec.ofNat 32 (e / 2 ^ 32)]

/-- KALG of partition `q`'s KEK; 0 where there is none (R437). -/
def Keystone.kalg (k : Keystone) (q : Nat) : Nat := (k.word (0x300 + q)).toNat % 4

/-- Partition `q`'s KEK (R435, R437). -/
def Keystone.partKek (k : Keystone) (q : Nat) : List Byte :=
  (k.bytes (0x100 + 8 * q) 8).take (if k.kalg q = 1 then 24 else 32)

/-! ### Entries (R396) -/

/-- The quarry line of handle `h` (R292). -/
def dirLine (h : Nat) : Nat := partitionLines + h

/-- The quarry line of blob line `k` (R292). -/
def blobLineAt (k : Nat) : Nat := partitionLines + 4194304 + k

/-- Blob lines of an entry: BLEN (R396). -/
def KeyEntry.blen (e : KeyEntry) : Nat := (e.pub.length + e.blob.length + 63) / 64

/-- Words W0 to W13 of an entry (R396). -/
def KeyEntry.words (e : KeyEntry) : List Word :=
  let wrap := BitVec.ofNat 324 (leNat (e.wrap.take 40))
  [BitVec.ofNat 36 (e.owner.toNat * 2 ^ 29 + e.alg.toNat * 2 ^ 21 + e.version.toNat * 2 ^ 13 + e.state.toNat * 2 ^ 10),
   BitVec.ofNat 36 e.usage.toNat, e.expiry, BitVec.ofNat 36 (e.size.toNat * 2 ^ 24 + e.kcv.toNat),
   BitVec.ofNat 36 (e.blen * 2 ^ 28 + e.bline % 2 ^ 20)] ++
  (List.range 9).map (fun i => wrap.extractLsb' (36 * i) 36)

/-- ECHK of words W0 to W13, packed densely, 5 bytes a word being the model's reading (R396). -/
def entryCheck (kek : List Byte) (ws : List Word) : Word :=
  BitVec.ofNat 36 (leNat (hmacSha256 (Config.checkKey kek) ((ws.take 14).flatMap (fun w => leBytes 5 w.toNat))))

/-- The 15 words of an entry's line (R396). -/
def KeyEntry.line (e : KeyEntry) (kek : List Byte) : List Word := e.words ++ [entryCheck kek e.words]

/-- An entry read from its words; its blob bytes are elsewhere (R396). -/
def parseEntry (h : Nat) (ws : List Word) : KeyEntry :=
  let w (i : Nat) : Word := ws.getD i 0
  { handle := h, owner := (w 0).extractLsb' 29 6, alg := (w 0).extractLsb' 21 8, version := (w 0).extractLsb' 13 8,
    state := (w 0).extractLsb' 10 3, usage := (w 1).extractLsb' 0 16, expiry := w 2, size := (w 3).extractLsb' 24 12,
    kcv := (w 3).extractLsb' 0 24, bline := (w 4).toNat % 2 ^ 20,
    wrap := (leBytes 41 (((List.range 9).map (fun i => (w (5 + i)).toNat)).foldr (fun x n => n * 2 ^ 36 + x) 0)).take 40,
    pub := [], blob := [] }

/-- BLEN of an entry's words. -/
def entryBlen (ws : List Word) : Nat := (ws.getD 4 0).toNat / 2 ^ 28

/-- The lines of an entry's blob (R396). -/
def KeyEntry.blobLines (e : KeyEntry) : List (List Word) :=
  (chunksOf 64 (e.pub ++ e.blob)).map (fun c => (denseIn (fitBytes 64 c)).take 15)

/-! ### Key forms (R396, R397, R399) -/

/-- Whether an algorithm is symmetric: TDES, AES or HMAC (R397). -/
def algSym (a : Nat) : Bool := (1 ≤ a && a ≤ 5) || a = 8
/-- Whether a code names a key pair (R397). -/
def algPair (a : Nat) : Bool := a = 0x10 || a = 0x12 || a = 0x14 || a = 0x18
/-- Whether a code names a public key (R397). -/
def algPublic (a : Nat) : Bool := a = 0x11 || a = 0x13 || a = 0x15 || a = 0x19
/-- TDES codes. -/
def algTdes (a : Nat) : Bool := a = 1 || a = 2
/-- AES codes. -/
def algAes (a : Nat) : Bool := a = 3 || a = 4 || a = 5

/-- Key bytes of the symmetric codes with a fixed length (R397). -/
def algKeyLen (a : Nat) : Nat :=
  match a with
  | 1 => 16
  | 2 => 24
  | 3 => 16
  | 4 => 24
  | 5 => 32
  | _ => 0

/-- P: bytes of public components in an entry's blob (R396). -/
def pubLen (alg size : Nat) : Nat :=
  match alg with
  | 0x10 => 64
  | 0x11 => 64
  | 0x12 => 96
  | 0x13 => 96
  | 0x14 => 32
  | 0x15 => 32
  | 0x18 => 4 * size + 4
  | 0x19 => 4 * size + 4
  | _ => 0

/-- S: bytes of the secret in an entry's blob (R396). -/
def secretLen (alg size : Nat) : Nat :=
  match alg with
  | 0x10 => 32
  | 0x12 => 48
  | 0x14 => 32
  | 0x18 => 4 * size + 10 * size
  | 0x08 => 4 * size
  | _ => 0

/-- W: bytes of the wrapped secret in an entry's blob (R396). -/
def wrapLen (alg size : Nat) : Nat :=
  let s := secretLen alg size
  if s = 0 then 0 else 8 + 8 * ((s + 7) / 8)

/-- The key check value of a symmetric key (R399). -/
def symKcv (alg : Nat) (key : List Byte) : BitVec 24 :=
  let b := if algTdes alg then tdesEnc key (List.replicate 8 0)
    else if algAes alg then cmac (aesCipher key) (List.replicate 16 0)
    else hmacSha256 key (List.replicate 32 0)
  BitVec.ofNat 24 (beNat (b.take 3))

/-- The key check value of a public key (R399). -/
def pubKcv (pub : List Byte) : BitVec 24 := BitVec.ofNat 24 (beNat ((sha256 pub).take 3))

/-- An entry for a symmetric or HMAC key: in WRAP up to 256 bits, else in a blob (R396). -/
def symEntry (kek : List Byte) (e : KeyEntry) (key : List Byte) : KeyEntry :=
  if key.length ≤ 32 then
    { e with wrap := aesKw kek (fitBytes ((key.length + 7) / 8 * 8) key), pub := [], blob := [] }
  else { e with wrap := [], pub := [], blob := aesKwp kek key }

/-- An entry for an asymmetric key: public components in the clear, the secret wrapped (R396). -/
def asymEntry (kek : List Byte) (e : KeyEntry) (pub secret : List Byte) : KeyEntry :=
  { e with wrap := [], pub := pub, blob := if secret = [] then [] else aesKwp kek secret }

/-- The key bytes of a symmetric entry (R160, R396). -/
def symKey (kek : List Byte) (e : KeyEntry) : List Byte :=
  let n := 4 * e.size.toNat
  if e.blob = [] then ((aesKwUnwrap kek (e.wrap.take ((n + 7) / 8 * 8 + 8))).getD []).take n
  else ((aesKwpUnwrap kek e.blob).getD []).take n

/-- The secret of an asymmetric entry (R396). -/
def asymSecret (kek : List Byte) (e : KeyEntry) : List Byte := (aesKwpUnwrap kek e.blob).getD []

/-! ### Checks (R159) -/

/-- What a lookup knows: the run's partition (none in supervisor mode), calendar time and required usage. -/
structure LookCtx where
  part  : Option (BitVec 6)
  cal   : Option Nat
  usage : Word

/-- The first failing reason of R159 from 1 to 5 for an entry; 0 where none fails. -/
def entryReason (c : LookCtx) (e : KeyEntry) : Nat :=
  if e.state = 0#3 then 1
  else if c.part.any (fun p => p ≠ e.owner) then 2
  else if e.state ≠ 1#3 then 3
  else if e.expiry ≠ 0 && (match c.cal with | some t => e.expiry.toNat < t | none => true) then 4
  else if e.usage.setWidth 36 &&& c.usage ≠ c.usage then 5
  else 0

/-! ### Reading an entry from a replica (R164, R292, R396) -/

/-- What reading a directory entry answers: the entry with its blob, its check failing, or rubble. -/
inductive DirRead where
  | entry (e : KeyEntry)
  | rubble
deriving DecidableEq, Repr

/-- Reads blob lines of a replica. -/
def readBlob : Nat → Nat → Pier → Option (List Byte) × Pier
  | 0, _, P => (some [], P)
  | k + 1, l, P =>
    match lineFetch P .run (blobLineAt l) with
    | (none, P) => (none, P)
    | (some ws, P) =>
      match readBlob k (l + 1) P with
      | (some bs, P) => (some ((denseOut ws).take 64 ++ bs), P)
      | (none, P) => (none, P)

/-- The entry that a line's words hold, without its blob, and its BLEN. -/
structure DirHead where
  entry : KeyEntry
  blen  : Nat

/-- Takes an entry from the 15 words of its line: an ECHK that fails counts as an uncorrectable error, a FREE entry carries none,
and without the device key-encryption key it is not checked (R164, R396; the last DEDUCED from R159's reason 8, log 57). -/
def headOf (kek : Option (List Byte)) (h : Nat) (ws : List Word) (P : Pier) : Option DirHead × Pier :=
  let e := parseEntry h ws
  if e.state = 0#3 || kek.all (fun k => entryCheck k ws = ws.getD 14 0) then (some ⟨e, entryBlen ws⟩, P)
  else (none, P.detect 0x12 h 0)

/-- Reads the entry of handle `h` from its quarry line; none is rubble (R164, R292, R396). -/
def readHead (kek : Option (List Byte)) (h : Nat) (P : Pier) : Option DirHead × Pier :=
  match lineFetch P .run (dirLine h) with
  | (none, P) => (none, P)
  | (some ws, P) => headOf kek h ws P

/-- Reads the blob of an entry (R396). -/
def readBody (x : DirHead) (P : Pier) : DirRead × Pier :=
  let e := x.entry
  if e.state = 0#3 then (.entry e, P)
  else match readBlob x.blen e.bline P with
    | (none, P) => (.rubble, P)
    | (some bs, P) =>
      let p := pubLen e.alg.toNat e.size.toNat
      (.entry { e with pub := bs.take p, blob := (bs.drop p).take (wrapLen e.alg.toNat e.size.toNat) }, P)

/-! ### The key cache (R162, R277, R367) -/

/-- The bank 15 address of the cache slot of a handle (R367). -/
def cacheSlot (h : Nat) : Nat := 15 * 0x20000 + 16 * (h % 8192)

/-- Whether a tag word names a handle with VAL = 1 (R367). -/
def cacheTag (w : Word) (h : Nat) : Bool := w.getLsbD 22 && w.toNat % 2 ^ 22 = h

/-- Reads `n` words of bank 15 from `a` up as KF0 does, with identity 64 (R277). -/
def cacheWords (now : Nat) : Nat → Nat → Pier → MemRes (List Word)
  | 0, _, P => .ok [] P
  | n + 1, a, P =>
    match physRead P now (.owner 0x40#7) .run (BitVec.ofNat 36 a) with
    | .ok w P =>
      (match cacheWords now n (a + 1) P with
       | .ok ws P => .ok (w :: ws) P
       | r => r)
    | .held P => .held P
    | .bus k P => .bus k P
    | .rubble P => .rubble P

/-- The entry's line in the pier's key cache, where bank 15 names the frontage and the slot holds the handle; a tag word that
cannot be read is no hit (R162, R367; the last DEDUCED, log 57). -/
def cacheLook (now h : Nat) (P : Pier) : MemRes (Option (List Word)) :=
  if P.mem.bank[15].owner ≠ 64#7 then .ok none P
  else match physRead P now (.owner 0x40#7) .run (BitVec.ofNat 36 (cacheSlot h + 15)) with
    | .ok w P =>
      if !cacheTag w h then .ok none P
      else (match cacheWords now 15 (cacheSlot h) P with
        | .ok ws P => .ok (some ws) P
        | .held P => .held P
        | .bus _ P => .ok none P
        | .rubble P => .rubble P)
    | .held P => .held P
    | r => .ok none r.pier

/-- Writes an entry and its blob into a replica (R163, R396, R401 step 2). -/
def writeEntry (kek : List Byte) (e : KeyEntry) (P : Pier) : Pier :=
  let put (l : Nat) (ws : List Word) (P : Pier) : Pier :=
    hbmWrite { P with mem := { P.mem with merge := P.mem.merge.filter (fun x => x.line ≠ l) } } l (lineEncode ws)
  let P := put (dirLine e.handle) (e.line kek) P
  (e.blobLines.zipIdx).foldl (fun P b => put (blobLineAt (e.bline + b.2)) b.1 P) P

/-! ### Components (R158) -/

/-- The bytes of a component as a number; none where it is absent (R158). -/
def component (kek : List Byte) (priv : Bool) (e : KeyEntry) (code : Nat) : Option Nat :=
  let alg := e.alg.toNat
  let l := 4 * e.size.toNat
  let sec := asymSecret kek e
  if !priv then
    match alg, code with
    | 0x10, 0 => some (beNat (e.pub.take 32))
    | 0x10, 1 => some (beNat (e.pub.drop 32))
    | 0x11, 0 => some (beNat (e.pub.take 32))
    | 0x11, 1 => some (beNat (e.pub.drop 32))
    | 0x12, 0 => some (beNat (e.pub.take 48))
    | 0x12, 1 => some (beNat (e.pub.drop 48))
    | 0x13, 0 => some (beNat (e.pub.take 48))
    | 0x13, 1 => some (beNat (e.pub.drop 48))
    | 0x14, 0 => some (leNat e.pub)
    | 0x15, 0 => some (leNat e.pub)
    | 0x18, 0 => some (beNat (e.pub.take l))
    | 0x18, 1 => some (beNat (e.pub.drop l))
    | 0x19, 0 => some (beNat (e.pub.take l))
    | 0x19, 1 => some (beNat (e.pub.drop l))
    | _, _ => none
  else
    let half (k : Nat) : Nat := beNat ((sec.drop (l + k * (l / 2))).take (l / 2))
    match alg, code with
    | 0x10, 2 => some (beNat sec)
    | 0x12, 2 => some (beNat sec)
    | 0x14, 2 => some (edSecret sec).1
    | 0x18, 2 => some (beNat (sec.take l))
    | 0x18, 3 => some (half 0)
    | 0x18, 4 => some (half 1)
    | 0x18, 5 => some (half 2)
    | 0x18, 6 => some (half 3)
    | 0x18, 7 => some (half 4)
    | _, _ => none

end Sys2Proof.Machine
end

