-- ==== Sys2Proof/Machine/HostPort.lean ====
section
/-! DEFINITION. What the device sends to the host: functions that exist, writes, MSI-X messages, coalescing, event
rings and their entries (R20, R324 to R335, R345, R346, R455). -/

namespace Sys2Proof.Machine

open Sys2Proof

/-! ### Functions (R324, R326, R355) -/

/-- Whether a function exists: PF0, PF1, and VFs 1 to min(NumVFs, 64) while VF Enable is set (R324). -/
def Dev.fnExists (d : Dev) : FnId → Bool
  | .vf v => d.host.vfEn && v.val < d.host.numVfs.toNat
  | _ => true

/-- Whether the device issues requests of a function: the link is up, the function is in D0 (R355) and may
master the bus. -/
def Dev.canSend (d : Dev) (f : FnId) : Bool :=
  d.fnExists f && d.host.link = .up && !(d.fn f).d3 && (d.fn f).busMaster

/-- Whether completions and MSI-X messages are written: not after PWRFAIL_N (R423), a zeroize (R439), or a HALT
of cause 0x19 or 0x1B (R452). -/
def Dev.postsAllowed (d : Dev) : Bool := d.life.pf = .none && d.life.zero = .none && !d.fc.haltHard

/-- MSI-X vectors of a function (R326). -/
def vectorCount : FnId → Nat
  | .pf0 => 56
  | .pf1 => 8
  | .vf _ => 31

/-- Ring slots of a function (R326, R328). -/
def Dev.ringCount (d : Dev) : FnId → Nat
  | .pf0 => 16
  | .pf1 => 4
  | .vf v => (d.fn (.vf v)).ringCnt.toNat

/-- Whether a slot is an event ring: PF1 slots 1 to 3 (R335). -/
def isEvent (f : FnId) (r : Nat) : Bool := f = .pf1 && 1 ≤ r && r ≤ 3

/-- Posts one memory write of a function (R20, R325). -/
def Dev.write (d : Dev) (f : FnId) (kind : WriteKind) (addr : QW) (bytes : List Byte) (relaxed : Bool) : Dev :=
  if d.canSend f then d.send (.write f kind addr bytes relaxed) else d

/-- The largest read of a function: its Max Read Request Size (R324). -/
def Func.readSize (F : Func) : Nat := 128 * 2 ^ F.mrrs.toNat

/-- Issues the read requests of `n` bytes from `addr` with a function's requester ID, none larger than its Max Read Request Size
(R324, R325). DESIGN CHOICE: the pieces start at `addr` and follow each other (log 58). -/
def Dev.readHost (d : Dev) (f : FnId) (addr : QW) (n : Nat) : Dev :=
  if !d.canSend f then d
  else
    let m := (d.fn f).readSize
    (List.range ((n + m - 1) / m)).foldl (fun d k => d.send (.read f (addr + BitVec.ofNat 64 (m * k)) (min m (n - m * k)))) d

/-- Issues the reads of a buffer's segments (R325, R338). -/
def Dev.readSegs (d : Dev) (f : FnId) (segs : List (QW × Nat)) : Dev := segs.foldl (fun d s => d.readHost f s.1 s.2) d

/-! ### Interrupts (R345, R346) -/

/-- Changes an MSI-X entry. -/
def Dev.onMsix (d : Dev) (f : FnId) (v : Nat) (g : MsixEntry → MsixEntry) : Dev :=
  if h : v < 56 then d.onFn f (fun F => { F with msix := F.msix.set v (g F.msix[v]) }) else d

/-- Raises the message of a vector: sent, held in the PBA while masked, or lost while MSI-X Enable is clear
(R346). -/
def Dev.raiseMsix (d : Dev) (f : FnId) (v : Nat) : Dev :=
  if !d.postsAllowed || !(d.fn f).msixEn then d
  else
    let e := (d.fn f).msix.toList.getD v {}
    if e.mask || (d.fn f).fmask then d.onMsix f v (fun e => { e with pend := true })
    else if d.canSend f then d.send (.msix f v e.addr e.data) else d

/-- Counts a completion or write-back of a slot and raises its message by the coalescing rule (R345). -/
def Dev.signal (d : Dev) (f : FnId) (r : Fin 64) : Dev :=
  let R := d.ring f r
  let n := R.unsig + 1
  if R.ctime = 0 || max R.ccnt.toNat 1 ≤ n then
    (d.onRing f r (fun R => { R with unsig := 0 })).raiseMsix f R.vec.toNat
  else d.onRing f r (fun R => { R with unsig := n, unsigAt := if R.unsig = 0 then d.now else R.unsigAt })

/-! ### Event rings (R335) -/

/-- Depth of a submission ring or event ring. -/
def Ring.sqDepth (R : Ring) : Nat := 2 ^ R.log2sq.toNat

/-- Depth of a completion ring. -/
def Ring.cqDepth (R : Ring) : Nat := 2 ^ R.log2cq.toNat

/-- Entries of an event ring that are free (R335). -/
def Ring.eventFree (R : Ring) : Nat :=
  R.sqDepth - 1 - (R.sqHead.toNat + R.sqDepth - R.cqHead.toNat) % R.sqDepth

/-- Whether `n` entries fit into an event ring of PF1 that is enabled (R335); the stopped device writes none (R423, R475,
R476). -/
def Dev.eventRoom (d : Dev) (r : Fin 64) (n : Nat) : Bool :=
  let R := d.ring .pf1 r
  R.en && n ≤ R.eventFree && d.canSend .pf1 && d.life.pf ≠ .done

/-- Writes one entry of an event ring and advances the producer index. -/
def Dev.eventEntry (d : Dev) (r : Fin 64) (kind : WriteKind) (bytes : List Byte) : Dev :=
  let R := d.ring .pf1 r
  let d := d.write .pf1 kind (R.sqb + BitVec.ofNat 64 (64 * R.sqHead.toNat)) bytes false
  d.onRing .pf1 r (fun R => { R with sqHead := BitVec.ofNat 16 ((R.sqHead.toNat + 1) % R.sqDepth) })

/-- Writes entries into an event ring, then the producer index, then signals (R335). -/
def Dev.eventPut (d : Dev) (r : Fin 64) (kind : WriteKind) (entries : List (List Byte)) : Dev :=
  let d := entries.foldl (fun d e => d.eventEntry r kind e) d
  let R := d.ring .pf1 r
  (d.write .pf1 (.producer .pf1 r.val) R.cqb (leBytes 4 R.sqHead.toNat) false).signal .pf1 r

/-- Forms an entry of the fault and telemetry stream and writes it, or drops and counts it (R335, R455).
`body` is bytes 16 to 63. -/
def Dev.fcEntry (d : Dev) (type : Nat) (body : List Byte) : Dev :=
  let a := d.audit
  let bytes := bytesOf [1, type] ++ leBytes 2 (min a.drop 65535) ++ leBytes 4 a.eseq.toNat ++ leBytes 8 d.now ++ fitBytes 48 body
  let d' := { d with audit := { a with eseq := a.eseq + 1, drop := 0 } }
  if d.eventRoom 3 1 then d'.eventPut 3 (.event a.eseq.toNat) [bytes]
  else { d with audit := { a with eseq := a.eseq + 1, drop := a.drop + 1 } }

/-! ### Warden and pier interrupts (R262, R263) -/

/-- Sets an IPEND bit of the warden (R262). -/
def Dev.pendWarden (d : Dev) (k : Nat) : Dev :=
  d.onCore .warden (fun c => { c with ipend := c.ipend ||| BitVec.ofNat 9 (2 ^ k) })

/-- Sets an IPEND bit of a pier sequencer (R262). -/
def Dev.pendPier (d : Dev) (p : Fin 16) (k : Nat) : Dev :=
  d.onPier p (fun P => { P with core := { P.core with ipend := P.core.ipend ||| BitVec.ofNat 9 (2 ^ k) } })

end Sys2Proof.Machine
end

