-- ==== Sys2Proof/Machine/Audit.lean ====
section
/-! DEFINITION. Audit records, the frontage chain, seals and their parts (R382, R414 to R422). -/

namespace Sys2Proof.Machine

open Sys2Proof

/-! ### Items (R19, R336, R378) -/

/-- The opcode of an item. -/
def Item.opc (i : Item) : Nat := (i.dws.getD 0 0).toNat % 256

/-- DW `k` of an item's entry. -/
def Item.dw (i : Item) (k : Nat) : DW := i.dws.getD k 0

/-- Bits [hi:lo] of DW `k`. -/
def Item.bits (i : Item) (k hi lo : Nat) : Nat := (i.dw k).toNat / 2 ^ lo % 2 ^ (hi + 1 - lo)

/-- KH1 and KH2 of an item. -/
def Item.kh1 (i : Item) : Nat := i.bits 4 21 0
/-- KH2. -/
def Item.kh2 (i : Item) : Nat := i.bits 5 21 0
/-- SESSION. -/
def Item.session (i : Item) : Nat := i.bits 1 15 0
/-- SEQ. -/
def Item.seq (i : Item) : Nat := (i.dw 2).toNat + i.bits 3 15 0 * 2 ^ 32

/-- Whether a partition exists (R434). -/
def Dev.partExists (d : Dev) (q : Fin 64) : Bool := d.parts.any (fun p => p.part = q)

/-- Whether an opcode takes a session on a function (R378). -/
def Dev.takesSession (d : Dev) (f : FnId) (opc : Nat) : Bool :=
  match opc with
  | 0x01 => (match f with
    | .vf v => d.partExists v
    | _ => false)
  | 0x61 => true
  | _ => (0x10 ≤ opc && opc ≤ 0x15) || opc = 0x20 || opc = 0x30 || opc = 0x31 || opc = 0x38 || opc = 0x40 || opc = 0x48 ||
    (0x50 ≤ opc && opc ≤ 0x55) || (0x70 ≤ opc && opc ≤ 0x72)

/-- Replaces an item of the tracker. -/
def Dev.onItem (d : Dev) (id : Nat) (f : Item → Item) : Dev :=
  { d with items := d.items.map (fun i => if i.id = id then f i else i) }

/-- An item in flight by its number. -/
def Dev.item? (d : Dev) (id : Nat) : Option Item := d.items.find? (fun i => i.id = id)

/-- Removes an item from the tracker. -/
def Dev.dropItem (d : Dev) (id : Nat) : Dev := { d with items := d.items.filter (fun i => i.id ≠ id) }

/-! ### Records (R382, R414) -/

/-- The FUNC byte of a record (R414). -/
def funcByte : FnId → Nat
  | .pf0 => 0
  | .pf1 => 1
  | .vf v => v.val + 2

/-- The parts of a record beside its sequence and mark. -/
structure RecFields where
  kind    : Nat
  opc     : Nat
  session : Option Nat := none
  part    : Option Nat := none
  status  : Nat := 0
  result  : Nat := 0
  func    : Nat := 0xFF
  kh1     : Nat := 0
  kh2     : Nat := 0
  tag     : Nat := 0
  time    : Nat
  idata   : List Byte := []
  rdata   : List Byte := []

/-- Bytes 0 to 47 of a record (R414). -/
def recBody (c cseq : Nat) (f : RecFields) : List Byte :=
  bytesOf [1, f.kind, c, f.opc] ++ leBytes 6 cseq ++ leBytes 2 (f.session.getD 0) ++
  bytesOf [f.part.getD 0 % 64 + (if f.part.isNone then 64 else 0) + (if f.session.isNone then 128 else 0),
    f.status, f.result, f.func] ++
  leBytes 3 f.kh1 ++ leBytes 3 f.kh2 ++ leBytes 2 f.tag ++ leBytes 8 f.time ++
  (sha256 f.idata).take 8 ++ (sha256 f.rdata).take 8

/-- The mark of a record (R416). -/
def recMark (key prev body : List Byte) : List Byte := (hmacSha256 key (prev ++ body)).take 16

/-- The bytes that an item's input digest covers (R382, R414): for KEK_COMPONENT the partition, the
algorithm and the key check value only. -/
def Item.digestIn (i : Item) : List Byte :=
  if i.opc = 0x82 then bytesOf [i.bits 12 5 0, i.bits 12 9 8] ++ leBytes 3 (i.bits 13 23 0)
  else (i.dws.drop 1).flatMap (fun w => leBytes 4 w.toNat) ++ i.inBytes

/-- The bytes that an item's result digest covers (R382). -/
def Item.digestOut (i : Item) : List Byte :=
  [i.status, i.result] ++ leBytes 4 i.outLen ++ leBytes 4 i.rdata6.toNat ++ leBytes 4 i.rdata7.toNat ++ i.output

/-- The fields of an item's record (R414). -/
def Dev.itemFields (d : Dev) (i : Item) : RecFields :=
  { kind := 0, opc := i.opc, session := if d.takesSession i.fn i.opc then some i.session else none,
    part := i.part.map (·.val), status := i.status.toNat, result := i.result.toNat, func := funcByte i.fn,
    kh1 := i.kh1, kh2 := i.kh2, tag := i.bits 0 31 16, time := d.now, idata := i.digestIn, rdata := i.digestOut }

/-! ### Chain heads (R416, R417) -/

/-- The accepted head of a chain: its last record that the frontage accepted since PROVISION, else the delivered head
(R416, R417, R436). -/
def Dev.acceptedHead (d : Dev) (c : Nat) : Nat × List Byte :=
  match ((d.audit.recs.drop d.audit.older).filter (fun r => r.chain.val = c)).getLast? with
  | some r => (r.cseq, r.mark)
  | none => d.ks.head c

/-- The frontage accepts a record for delivery into PF1 slot 1 (R417). -/
def Dev.accept (d : Dev) (r : AuditRec) : Dev :=
  let wait := match d.audit.waitAt with
    | some w => some w
    | none => some (d.now, false)
  { d with audit := { d.audit with recs := d.audit.recs ++ [r], waitAt := wait } }

/-- Whether records and completions are still made: not in a zeroize and not in a HALT of cause 0x19 or 0x1B
(R439, R452). -/
def Dev.recordsAllowed (d : Dev) : Bool := d.life.zero = .none && !d.fc.haltHard

/-- Whether a keystone word is in the image (R437). -/
def ksInImage (w : Nat) : Bool :=
  w < 0x1C || (0x20 ≤ w && w < 0x2B) || (0x30 ≤ w && w < 0x3D) || (0x100 ≤ w && w < 0x340)

/-- The words of the keystone image (R437, R438). -/
def Keystone.imageWords (k : Keystone) : SMem 32 :=
  ((List.range 1024).filter ksInImage).filterMap (fun w => if k.word w = 0 then none else some (w, k.word w))

/-- A read of `n` words of the keystone from `w` by a unit of the device: an outvoted copy and a word with three different
copies reach the collector, which repairs the one and takes the HALT reaction for the other (R438, R447 causes 0x1A and
0x1B). -/
def Dev.keyUse (d : Dev) (w n : Nat) : Dev :=
  (((List.range n).map (fun i => w + i)).filter (fun k => d.ks.split k || d.ks.outvoted k)).foldl
    (fun d k => d.detect (if d.ks.split k then 0x1B else 0x1A) 17 k 0) d

/-- Persists the keystone image under the current ZCNT (R432, R438). -/
def Dev.persist (d : Dev) : Dev :=
  let d := ((d.keyUse 0 0x1C).keyUse 0x20 0x1D).keyUse 0x100 0x240
  { d with flash := { d.flash with image := some ⟨d.life.zcnt, d.ks.imageWords⟩ } }

/-- Writes the lifecycle record, and the keystone's copy of it into the image (R432, R437, R440). -/
def Dev.writeLife (d : Dev) : Dev :=
  Dev.persist { d with
    ks := d.ks.put 0x3C (BitVec.ofNat 32 (d.life.life.toNat + (if d.life.reentry then 8 else 0)))
    flash := { d.flash with life := some (d.life.life, d.life.reentry) } }

/-- Sets the lifecycle code, in the live state, the keystone and the lifecycle record (R427, R437, R440);
SB_ALERT_N goes low (R499). -/
def Dev.setLife (d : Dev) (l : Nat) : Dev :=
  Dev.writeLife { d with
    life := { d.life with life := BitVec.ofNat 3 l }
    board := { d.board with alert := true } }

/-- The device enters RECOVERY (R428, R433). -/
def Dev.enterRecovery (d : Dev) : Dev :=
  let d := d.setLife 3
  { d with life := { d.life with op := .recovery } }

/-- Chain 16 is exhausted: RECOVERY without a record (R416). -/
def Dev.exhaust16 (d : Dev) : Dev :=
  if d.audit.full.contains 16 then d
  else Dev.enterRecovery { d with audit := { d.audit with full := d.audit.full ++ [16] } }

/-- Appends a record to chain 16; a chain whose sequence is exhausted appends nothing, and the device enters RECOVERY
(R416). -/
def Dev.append16 (d : Dev) (f : RecFields) (item : Option Nat) : Dev :=
  let h := d.acceptedHead 16
  if cseqMax ≤ h.1 then d.exhaust16
  else
    let body := recBody 16 (h.1 + 1) f
    let mark := recMark (d.ks.chainKey 16) h.2 body
    let d := (d.keyUse 8 8).keyUse 0xC0 6
    d.accept ⟨16, h.1 + 1, mark, body ++ mark, item⟩

/-- The recoveries of the piers and of the device, as RECOVERY_ENTERED carries them (R415, R450). -/
def Dev.precWords (d : Dev) : List Byte :=
  let cnt (p : Nat) : Nat := min 9 ((d.fc.prec.filter (fun e => e.1.val = p && d.now < e.2 + 90000000000)).length)
  let half (j : Nat) : Nat := (List.range 8).foldl (fun n m => n + cnt (8 * j + m) * 16 ^ m) 0
  leBytes 4 (half 0) ++ leBytes 4 (half 1) ++
    leBytes 4 (min 5 ((d.fc.drec.filter (fun t => d.now < t + 2160000000000)).length))

/-- RECOVERY_ENTERED on chain 16 (R415). -/
def Dev.recoveryEvent (d : Dev) : Dev :=
  d.append16 { kind := 1, opc := 4, time := d.now, idata := d.precWords } none

/-- The chain of a pier is exhausted: RECOVERY with its record, and nothing more is placed there (R416). -/
def Dev.exhaust (d : Dev) (p : Fin 16) : Dev :=
  if d.audit.full.contains p.val then d
  else (Dev.enterRecovery { d with audit := { d.audit with full := d.audit.full ++ [p.val] } }).recoveryEvent

/-- What an item's record carries: an item of a function that was reset ends with HOST_FAULT and RESULT 0x01 (R353). -/
def Item.settled (i : Item) : Item :=
  if i.flr then { i with status := 0x20, result := 0x01, outLen := 0, output := [], rdata6 := 0, rdata7 := 0 } else i

/-- Records an item on chain 16 with the status that it carries: the item waits for stage 9 (R21, R23). An item
whose record would go on an exhausted chain 16 is dropped (R416). -/
def Dev.record16 (d : Dev) (i : Item) : Dev :=
  let i := i.settled
  if !d.recordsAllowed then d.dropItem i.id
  else
    let h := d.acceptedHead 16
    if cseqMax ≤ h.1 then d.exhaust16.dropItem i.id
    else
      let j := { i with stage := .recorded 16 (h.1 + 1) }
      (d.append16 (d.itemFields i) (some i.id)).onItem i.id (fun _ => j)

/-- Ends an item on chain 16 with a status (R21, R23, R339, R452). -/
def Dev.endItem16 (d : Dev) (i : Item) (status result : Nat) : Dev :=
  d.record16 { i with status := BitVec.ofNat 8 status, result := BitVec.ofNat 8 result, outLen := 0, output := [],
                      rdata6 := 0, rdata7 := 0 }

/-! ### Seals (R418 to R420) -/

/-- The public key of the audit identity (R420). -/
def Dev.identityPub (d : Dev) : List Byte := ecPublic p384 d.ks.identity

/-- Calendar time in seconds, once set (R432). -/
def Dev.calendar (d : Dev) : Option Nat := d.audit.cal.map (fun c => c.1 + (d.now - c.2) / 25000000)

/-- Recoveries of a pier in the last hour (R419, R454). -/
def Dev.precOf (d : Dev) (p : Nat) : Nat := (d.fc.prec.filter (fun e => e.1.val = p && d.now < e.2 + 90000000000)).length

/-- Device recoveries in the last 24 hours (R419, R454). -/
def Dev.drecOf (d : Dev) : Nat := (d.fc.drec.filter (fun t => d.now < t + 2160000000000)).length

/-- The 576 bytes of a seal over the given heads, chain 0 first (R419, R420). -/
def Dev.sealBytes (d : Dev) (kind epoch refepoch : Nat) (heads : List (Nat × List Byte)) : List Byte :=
  let body := bytesOf [1, kind] ++ leBytes 2 (d.ks.node + (if d.ks.ward then 32768 else 0)) ++
    bytesOf [d.life.life.toNat, d.life.zcnt] ++ bytesOf [0, 0] ++ leBytes 8 epoch ++ leBytes 8 d.now ++
    leBytes 8 (d.calendar.getD 0) ++ leBytes 2 d.drecOf ++ bytesOf [0, 0] ++
    (List.range 16).map (fun p => BitVec.ofNat 8 (min 255 (d.precOf p))) ++
    leBytes 8 refepoch ++ leBytes 4 0 ++
    (List.range 17).flatMap (fun c =>
      let h := heads.getD c (0, List.replicate 16 0)
      leBytes 6 h.1 ++ leBytes 2 0 ++ fitBytes 16 h.2)
  body ++ identitySign d.ks.identity body ++ List.replicate 8 0

/-- The delivered heads of all chains (R417). -/
def Dev.heads (d : Dev) : List (Nat × List Byte) := (List.range 17).map d.ks.head

/-- EPOCH, KIND, REFEPOCH and a head of a seal's bytes (R419). -/
def sealEpoch (s : List Byte) : Nat := leNat ((s.drop 8).take 8)
/-- KIND of a seal. -/
def sealKind (s : List Byte) : Nat := (s.getD 1 0).toNat
/-- CSEQ and mark of a chain in a seal. -/
def sealHead (s : List Byte) (c : Nat) : Nat × List Byte :=
  (leNat ((s.drop (64 + 24 * c)).take 6), (s.drop (64 + 24 * c + 8)).take 16)

/-- Whether a seal's signature verifies under a public key (R420). -/
def sealValid (pub s : List Byte) : Bool :=
  s.length = 576 && ecdsaVerify p384 pub (sha384 (s.take 472)) ((s.drop 472).take 96) = 0

/-- Forms an epoch seal over the delivered heads (R418): the next EPOCH, held until it is written. -/
def Dev.formSeal (d : Dev) (persist : Bool) : Dev :=
  let d := (d.keyUse 0x10 12).keyUse 0x40 0x8A
  let e := d.ks.epoch + 1
  let s := d.sealBytes 1 e 0 d.heads
  { d with
    ks := d.ks.setEpoch e
    audit := { d.audit with
      seals := d.audit.seals ++ [⟨e, 1, s, persist || e % 40 = 0, false⟩], due := false, lastSeal := d.now,
      since := List.replicate 17 0 } }

/-- The sector of a seal slot (R504). -/
def sealSector (slot : Nat) : Nat := 0x1100 + slot / 4

/-- The next slot from `slot` whose sector is not retired; `k` slots at most (R463). -/
def Flash.goodSlot (f : Flash) : Nat → Nat → Nat
  | 0, slot => slot
  | k + 1, slot => if f.badSectors.contains (sealSector slot) then Flash.goodSlot f k ((slot + 1) % 4096) else slot

/-- Programs a seal into the next good slot of the seal slot ring; the slot after it is kept erased (R421, R463, R504). -/
def Flash.putSeal (f : Flash) (s : List Byte) : Flash :=
  let slot := f.goodSlot 4096 f.nextSeal
  let next := (slot + 1) % 4096
  { f with seals := f.seals.filter (fun e => e.1 ≠ slot && e.1 ≠ next) ++ [(slot, s)], nextSeal := next }

end Sys2Proof.Machine
end

