-- ==== Sys2Proof/Machine/Translate.lean ====
section
/-! DEFINITION. Two-stage address translation: the walk, the TLBs, permissions and syndromes (R302 to R321). -/

namespace Sys2Proof.Machine

open Sys2Proof

/-- What a translation uses: the tag, the width and root of stage 1, stage 2, whether U is required
(R303 to R305). -/
structure TrCtx where
  tag    : BitVec 22
  s1w    : BitVec 2
  s1root : BitVec 30
  s2     : S2Cfg
  user   : Bool
deriving DecidableEq, Repr

/-- What a translation answers. -/
inductive TrRes where
  | ok (pa : Word) (P : Pier)
  | held (P : Pier)
  | fault (vec : BitVec 7) (fcs : Word) (P : Pier)
deriving Repr

/-- ACC code of an access (R320). -/
def accCode : Access → Nat
  | .read => 0
  | .write => 1
  | .execute => 2
  | .atomic => 3

/-- The syndrome of R320 with RUN and IMP zero. -/
def mkFcs (user : Bool) (acc : Access) (s1lvl : Nat) (stage2 : Bool) (level kind : Nat) : Word :=
  BitVec.ofNat 36 ((if user then 2 ^ 13 else 0) + accCode acc * 2 ^ 11 + s1lvl * 2 ^ 8 +
    (if stage2 then 2 ^ 7 else 0) + level * 2 ^ 4 + kind)

/-- The vector of a translation fault or walk error (R320, R321). -/
def trVector (acc : Access) (kind : Nat) : BitVec 7 :=
  if 8 ≤ kind then 6 else if acc = .execute then 4 else 5

/-- Levels of a width code (R308). -/
def levelsOf (w : BitVec 2) : Nat := 3 + w.toNat

/-- Address bits of a width code (R308). -/
def widthBits (w : BitVec 2) : Nat := 24 + 6 * w.toNat

/-- The index of an address at level `l` of `n` (R308). -/
def levelIndex (n l a : Nat) : Nat := a / 2 ^ (6 * (n - l) + 6) % 64

/-- Words mapped by a leaf at level `l` of `n` (R308). -/
def blockSize (n l : Nat) : Nat := 64 ^ (n - l + 1)

/-- Whether the words from `lo` of a block lie wholly in banks or in the partition region (R311). -/
def inMemory (lo size : Nat) : Bool :=
  lo + size ≤ 0x200000 || (quarryBase ≤ lo && lo + size ≤ reserveBase)

/-- R, W and X of an entry cover what an access needs (R313). -/
def permits (acc : Access) (r w x : Bool) : Bool :=
  match acc with
  | .read => r
  | .write => w
  | .execute => x
  | .atomic => r && w

/-- A failure inside a walk: stage 2 or 1, level, S1LVL, KIND; or a table read that waits. -/
inductive WalkFail where
  | kind (stage2 : Bool) (level s1lvl kind : Nat)
  | held
deriving DecidableEq, Repr

/-- A leaf that a stage found: the address reached, the leaf size, and the entry. -/
structure Leafed where
  pa   : Nat
  size : Nat
  pte  : Word
deriving DecidableEq, Repr

/-- Whether a line reads as a poison line. -/
def Pier.readsPoison (P : Pier) (l : Nat) : Bool :=
  match P.mem.merge.find? (fun x => x.line = l) with
  | some e => e.poison
  | none => (lineDecode (P.mem.quarry.get l)).1 = .poison

/-- The walker's read of a line; unlike another read of rubble, one of a table entry notifies the collector (R311 step 2;
log 70). -/
def tableLine (P : Pier) (l : Nat) : Option (List Word) × Pier :=
  match lineFetch P .walker l with
  | (some ws, P) => (some ws, P)
  | (none, Q) => (none, if P.readsPoison l then Q.detect 0x05 l (masterCode .walker) else Q)

/-- The walker's read of a stage-1 entry at a physical address: the entry's data come before the owner of its bank (R311 steps
2 and 3). -/
def tableWord (P : Pier) (now : Nat) (i : Ident) (lvl a : Nat) : Except WalkFail Word × Pier :=
  match physTarget (BitVec.ofNat 36 a) with
  | .bank b n =>
    (match bankWait P now .walker b with
     | .held P => (.error .held, P)
     | r =>
       match bankFetch r.pier .walker n with
       | .ok e Q =>
         if identMatches i Q.mem.bank[b].owner then (.ok e, Q)
         else (.error (.kind false lvl 0 0xA), Q.detect 0x09 b.val (identCode i))
       | bad =>
         (.error (.kind false lvl 0 0x9),
          if (eccDecode (P.mem.banks.get n)).1 = .poison then bad.pier.detect 0x03 n (masterCode .walker) else bad.pier))
  | .quarry l w =>
    (match tableLine P l with
     | (some ws, P) => (.ok (ws.getD w 0), P)
     | (none, P) => (.error (.kind false lvl 0 0x9), P))
  | _ => (.error (.kind false lvl 0 0x8), P)

/-- Reads a table entry in the quarry's device tables (R277, R311 steps 1 and 2 for stage 2). -/
def readS2Entry (P : Pier) (tab idx lvl s1lvl : Nat) : Except WalkFail Word × Pier :=
  if tab < tablesBase || quarryEnd ≤ tab then (.error (.kind true lvl s1lvl 0x8), P)
  else
    let a := tab + idx
    match tableLine P ((a - quarryBase) / 15) with
    | (some ws, P) => (.ok (ws.getD ((a - quarryBase) % 15) 0), P)
    | (none, P) => (.error (.kind true lvl s1lvl 0x9), P)

/-- Checks an entry at level `l` of `n` (R311 steps 4 to 7): `inl next` is a table pointer, `inr leaf` a
leaf reached for address `a`. -/
def checkEntry (stage2 : Bool) (n l s1lvl a : Nat) (e : Word) : Except WalkFail (Nat ⊕ Leafed) :=
  let addr := (e &&& 0xFFFFFFFC0#36).toNat
  if !e.getLsbD 0 then .error (.kind stage2 l s1lvl 0x2)
  else if e.getLsbD 1 then
    if l < n && (e.extractLsb' 2 4) = 0#4 then .ok (.inl addr) else .error (.kind stage2 l s1lvl 0x4)
  else
    let size := blockSize n l
    if addr % size ≠ 0 then .error (.kind stage2 l s1lvl 0x5)
    else if stage2 && !inMemory addr size then .error (.kind stage2 l s1lvl 0x6)
    else .ok (.inr ⟨addr + a % size, size, e⟩)

/-- Stage-2 levels from `l` on, `k` of them left (R310, R311). -/
def walk2 (n s1lvl a : Nat) : Nat → Nat → Nat → Pier → Except WalkFail Leafed × Pier
  | 0, l, _, P => (.error (.kind true l s1lvl 0x4), P)
  | k + 1, l, tab, P =>
    match readS2Entry P tab (levelIndex n l a) l s1lvl with
    | (.error f, P) => (.error f, P)
    | (.ok e, P) =>
      match checkEntry true n l s1lvl a e with
      | .error f => (.error f, P)
      | .ok (.inl t) => walk2 n s1lvl a k (l + 1) t P
      | .ok (.inr leaf) => (.ok leaf, P)

/-- The level of the leaf found from its size. -/
def leafLevel (n size : Nat) : Nat := n + 1 - size.log2 / 6

/-- Stage 2 of an address (R305, R309, R310). -/
def stage2 (c : TrCtx) (s1lvl a : Nat) (P : Pier) : Except WalkFail Leafed × Pier :=
  if c.s2.s2w = 3#2 then (.error (.kind true 1 s1lvl 0x2), P)
  else if a / 2 ^ widthBits c.s2.s2w ≠ 0 then (.error (.kind true 0 s1lvl 0x1), P)
  else
    let n := levelsOf c.s2.s2w
    walk2 n s1lvl a n 1 (c.s2.root.toNat * 64) P

/-- Reads a stage-1 table entry: its table is translated first, lies in banks or the partition region,
and in a bank must match the owner (R310, R311 steps 1 to 3). -/
def readS1Entry (c : TrCtx) (now : Nat) (tabIpa idx lvl : Nat) (P : Pier) : Except WalkFail Word × Pier :=
  match stage2 c lvl tabIpa P with
  | (.error f, P) => (.error f, P)
  | (.ok t, P) =>
    if !inMemory t.pa 64 then (.error (.kind false lvl 0 0x8), P)
    else tableWord P now (.owner ((c.tag.extractLsb' 16 6).setWidth 7)) lvl (t.pa + idx)

/-- Stage-1 levels from `l` on (R310). -/
def walk1 (c : TrCtx) (now n a : Nat) : Nat → Nat → Nat → Pier → Except WalkFail Leafed × Pier
  | 0, l, _, P => (.error (.kind false l 0 0x4), P)
  | k + 1, l, tab, P =>
    match readS1Entry c now tab (levelIndex n l a) l P with
    | (.error f, P) => (.error f, P)
    | (.ok e, P) =>
      match checkEntry false n l 0 a e with
      | .error f => (.error f, P)
      | .ok (.inl t) => walk1 c now n a k (l + 1) t P
      | .ok (.inr leaf) => (.ok leaf, P)

/-- The whole walk for an access: the physical address and the TLB entry, or the failure (R310, R313,
R315). The address size of the VA comes first (R309). -/
def walk (c : TrCtx) (now : Nat) (acc : Access) (va : Word) (P : Pier) : Except WalkFail (Word × TlbEntry) × Pier :=
  let a := va.toNat
  if a / 2 ^ widthBits c.s1w ≠ 0 then (.error (.kind false 0 0 0x1), P)
  else
    let n := levelsOf c.s1w
    match walk1 c now n a n 1 (c.s1root.toNat * 64) P with
    | (.error f, P) => (.error f, P)
    | (.ok l1, P) =>
      let r1 := l1.pte.getLsbD 2
      let w1 := l1.pte.getLsbD 3
      let x1 := l1.pte.getLsbD 4
      let u1 := l1.pte.getLsbD 5
      if !permits acc r1 w1 x1 || (c.user && !u1) then (.error (.kind false (leafLevel n l1.size) 0 0x3), P)
      else
        match stage2 c 0 l1.pa P with
        | (.error f, P) => (.error f, P)
        | (.ok l2, P) =>
          let r2 := l2.pte.getLsbD 2
          let w2 := l2.pte.getLsbD 3
          let x2 := l2.pte.getLsbD 4
          if !permits acc r2 w2 x2 then
            (.error (.kind true (leafLevel (levelsOf c.s2.s2w) l2.size) 0 0x3), P)
          else
            let size := min l1.size l2.size
            (.ok (BitVec.ofNat 36 l2.pa,
              ⟨c.tag, BitVec.ofNat 36 (a / size * size), size, BitVec.ofNat 36 (l2.pa / size * size),
               r1 && r2, w1 && w2, x1 && x2, u1⟩), P)

/-! ### TLBs (R314 to R317) -/

/-- Whether an entry of the tag contains an address (R315, R316). -/
def tlbHit (tag : BitVec 22) (va : Word) (e : TlbEntry) : Bool :=
  e.tag = tag && e.va.toNat ≤ va.toNat && va.toNat < e.va.toNat + e.size

/-- Fills a TLB of `cap` entries: an empty entry first, else the one the LFSR chooses (R314). -/
def tlbFill (cap : Nat) (lfsr : BitVec 16) (tlb : List TlbEntry) (e : TlbEntry) : List TlbEntry :=
  if tlb.length < cap then tlb ++ [e] else tlb.set (lfsr.toNat % cap) e

/-- The TLB of the sequencer and runs, or that of the hod (R314). -/
def tlbOf (P : Pier) (hod : Bool) : List TlbEntry := if hod then P.mem.hodTlb else P.mem.tlb

/-- Replaces a TLB. -/
def setTlb (P : Pier) (hod : Bool) (t : List TlbEntry) : Pier :=
  if hod then { P with mem := { P.mem with hodTlb := t } } else { P with mem := { P.mem with tlb := t } }

/-- Walks and fills the TLB, or gives the fault (R310, R315, R320). -/
def walkFill (c : TrCtx) (now : Nat) (hod : Bool) (acc : Access) (va : Word) (P : Pier) : TrRes :=
  match walk c now acc va P with
  | (.ok (pa, e), P) =>
    let P' := setTlb P hod (tlbFill (if hod then 64 else 256) P.mem.lfsr (tlbOf P hod) e)
    .ok pa { P' with mem := { P'.mem with lfsr := Config.lfsrStep P'.mem.lfsr } }
  | (.error (.kind s2 lvl s1 k), P) => .fault (trVector acc k) (mkFcs c.user acc s1 s2 lvl k) P
  | (.error .held, P) => .held P

/-- The entry that a TLB uses for an address: the one that holds it, or, of several, any one of them (a free
choice, R316). -/
def tlbFind (P : Pier) (hod : Bool) (tag : BitVec 22) (va : Word) : Option TlbEntry :=
  match (tlbOf P hod).filter (tlbHit tag va) with
  | [] => none
  | [e] => some e
  | es => es[Config.tlbPick P.mem.lfsr va es.length % es.length]?

/-- Translates an address: a TLB hit with the permissions that the access needs, or a walk. An entry that
lacks a permission is dropped (R315). -/
def translate (c : TrCtx) (now : Nat) (hod : Bool) (acc : Access) (va : Word) (P : Pier) : TrRes :=
  match tlbFind P hod c.tag va with
  | some e =>
    if permits acc e.r e.w e.x && (!c.user || e.u) then
      .ok (BitVec.ofNat 36 (e.pa.toNat + (va.toNat - e.va.toNat))) P
    else walkFill c now hod acc va (setTlb P hod ((tlbOf P hod).erase e))
  | none => walkFill c now hod acc va P

/-- Invalidates, in both TLBs, every entry that `f` selects (R231, R317, R318). -/
def tlbInvalidate (P : Pier) (f : TlbEntry → Bool) : Pier :=
  { P with mem := { P.mem with tlb := P.mem.tlb.filter (fun e => !f e), hodTlb := P.mem.hodTlb.filter (fun e => !f e) } }

/-- Whether an entry matches a space tag, or its partition alone (R231, R318). -/
def tagMatches (ponly : Bool) (tag : BitVec 22) (e : TlbEntry) : Bool :=
  if ponly then e.tag.extractLsb' 16 6 = tag.extractLsb' 16 6 else e.tag = tag

/-- The translation context of the pier's current space (R304, R305). -/
def pierTrCtx (P : Pier) (user : Bool) : TrCtx :=
  ⟨P.regs.tag, P.regs.s1w, P.regs.s1root, P.regs.s2cfg[(P.regs.tag.extractLsb' 16 6).toFin], user⟩

/-- The identity of an access in user mode: the partition of the tag (R277). -/
def tagIdent (tag : BitVec 22) : Ident := .owner ((tag.extractLsb' 16 6).setWidth 7)

end Sys2Proof.Machine
end

