-- ==== Sys2Proof/Machine/Tables.lean ====
section
/-! DEFINITION. The stage-2 tables that the setter builds (R305 to R308, R368), gateway writes, and the moving of a
leaf (R369). -/

namespace Sys2Proof.Machine

open Sys2Proof

/-! ### The setter gateway (R271, R277, R279)

The gateway carries identity 64 where the setter acts for itself (the key cache), and the supervisor identity where it acts
for the warden's firmware (tables, leaves, program images; log 51). -/

/-- Identity 64 (R277). -/
def setterIdent : Ident := .owner 0x40#7

/-- A request of the gateway that the default target answers fails, with a NOTICE (R271, R447 cause 0x0C). -/
def gatewayFail (kind a : Nat) (P : Pier) : MemRes α := .bus kind (P.detect 0x0C (a % 2 ^ 32) (a / 2 ^ 32 % 16))

/-- A bank access of the gateway: the owner check comes first, then a scour, a wake or a lock is waited for (R279, R280,
R283, R284; log 51). -/
def gatewayBank (P : Pier) (now : Nat) (i : Ident) (b : Fin 16) (a : Nat) (f : Pier → MemRes α) : MemRes α :=
  if identMatches i P.mem.bank[b].owner then f (settleBank P now b)
  else gatewayFail 0xD a (P.detect 0x09 b.val (identCode i))

/-- Writes words of the quarry through the gateway, each word as one write of its own, so that no such write covers a whole
line (DESIGN CHOICE: R64 and R290 do not say how the gateway groups its words; log 52). A rubble word makes its line poison, and
rubble that a write meets is reported to the gateway, for which the spec gives no further action (R60, R64, R290). -/
def gatewayQuarry (P : Pier) : List (Nat × Word × Bool) → Pier
  | [] => P
  | (a, w, rub) :: l =>
    let line := (a - quarryBase) / 15
    gatewayQuarry (lineWrite P .gateway true line [⟨(a - quarryBase) % 15, w, 0xF#4, rub⟩]).2 l

/-- Words from address `a` up, as pairs for the gateway. -/
def wordsAt (a : Nat) (ws : List Word) : List (Nat × Word × Bool) := ws.zipIdx.map (fun e => (a + e.2, e.1, false))

/-- Writes a word anywhere in banks or quarry through the gateway, as poison where it is rubble (R61, R369). -/
def gatewayWrite (P : Pier) (now : Nat) (i : Ident) (a : Nat) (w : Word) (rub : Bool) : MemRes Unit :=
  match physTarget (BitVec.ofNat 36 a) with
  | .bank b n => gatewayBank P now i b n (fun P => .ok () (bankStore P n (if rub then eccPoison else eccEncode w)))
  | .quarry _ _ => .ok () (gatewayQuarry P [(a, w, rub)])
  | _ => gatewayFail 0xC a P

/-- Reads a word of banks or quarry through the gateway. -/
def gatewayRead (P : Pier) (now : Nat) (i : Ident) (a : Nat) : MemRes Word :=
  match physTarget (BitVec.ofNat 36 a) with
  | .bank b n => gatewayBank P now i b n (fun P => bankFetch P .gateway n)
  | .quarry l k =>
    (match lineFetch P .gateway l with
     | (some ws, P) => .ok (ws.getD k 0) P
     | (none, P) => .rubble P)
  | _ => gatewayFail 0xC a P

/-! ### The tables of a partition (R305) -/

/-- Words of the table area that the model gives each partition. -/
def tableArea : Nat := 0x20000

/-- The level-1 table of partition `q` (R305, R311). -/
def tableRoot (q : Nat) : Nat := tablesBase + q * tableArea

/-- PR_S2CFG of partition `q` as the setter writes it: 30-bit IPA and the root, or no stage 2 (R305). -/
def s2CfgFor (exist : Bool) (q : Nat) : S2Cfg :=
  if exist then ⟨1#2, BitVec.ofNat 30 (tableRoot q / 64)⟩ else {}

/-- Writes every PR_S2CFG of a pier from the setter's tables (R305). -/
def Dev.s2Restore (d : Dev) (p : Fin 16) : Dev :=
  d.onPier p (fun P => { P with regs := { P.regs with
    s2cfg := Vector.ofFn (fun (q : Fin 64) => s2CfgFor (d.partExists q && d.setter.part[q].piers.getLsbD p.val) q.val) } })

/-- The 4,096-word blocks of the partition region (R305, R460). -/
def regionBlocks : Nat := 99840

/-- The physical block in place of block `b`, where it holds a retired frame: one from the top of the region, below those
that `top` blocks in use leave free (R305, R458). -/
def blockFor (top : Nat) (frames : List Nat) (b : Nat) : Nat :=
  let bad := (frames.filterMap (fun f => if quarryBase ≤ 64 * f then some ((64 * f - quarryBase) / 4096) else none)).eraseDups
  match bad.idxOf? b with
  | some k => if top ≤ regionBlocks - 1 - k then regionBlocks - 1 - k else b
  | none => b

/-- The block of the partition region that leaf `j` of a partition has by its units alone (R305). -/
def Partition.block (q : Partition) (j : Nat) : Nat := 15 * q.units.getD (j / 15) 0 + j % 15

/-- The leaves that a pier's retired frames displace when a partition's tables are first built there (R305, R458). -/
def displaced (top : Nat) (p : Fin 16) (q : Partition) (frames : List Nat) : List LeafPlace :=
  (List.range (15 * q.quarry)).filterMap (fun j =>
    let b := blockFor top frames (q.block j)
    if b = q.block j then none else some ⟨p, q.part, j, quarryBase + 4096 * b⟩)

/-- The address of leaf `j` of a partition on a pier: where the setter has moved it, else by its units (R305, R369). -/
def leafAt (leaves : List LeafPlace) (p : Fin 16) (q : Partition) (j : Nat) : Nat :=
  match leaves.find? (fun l => l.pier = p && l.part = q.part && l.leaf = j) with
  | some l => l.at_
  | none => quarryBase + 4096 * q.block j

/-- A valid table pointer (R307). -/
def ptePointer (a : Nat) : Word := BitVec.ofNat 36 (a / 64 * 64 + 3)
/-- A stage-2 leaf with R, W and X (R307). -/
def pteLeaf (a : Nat) : Word := BitVec.ofNat 36 (a / 64 * 64 + 0x1D)

/-- The entries of partition `q`'s tables for `n` blocks: level 1 covers 16 Mi words an entry, level 2 262,144,
level 3 one block; the level-1 table, then the level-2 tables, then the level-3 tables (R305, R308). -/
def tableEntries (q n : Nat) (place : Nat → Nat) : List (Nat × Word × Bool) :=
  let root := tableRoot q
  let n3 := (n + 63) / 64
  let n2 := (n3 + 63) / 64
  let t2 (k : Nat) : Nat := root + 64 * (1 + k)
  let t3 (k : Nat) : Nat := root + 64 * (1 + n2 + k)
  (List.range n2).map (fun k => (root + k, ptePointer (t2 k), false)) ++
  (List.range n3).map (fun k => (t2 (k / 64) + k % 64, ptePointer (t3 k), false)) ++
  (List.range n).map (fun k => (t3 (k / 64) + k % 64, pteLeaf (place k), false))

/-- The end of the highest partition region in use, in blocks. -/
def Dev.regionTop (d : Dev) : Nat := 15 * ((d.parts.map (fun q => q.units.foldl (fun m u => max m (u + 1)) 0)).foldl max 0)

/-- The lowest `n` free units of the partition region (R368). -/
def Dev.freeUnits (d : Dev) (n : Nat) : List Nat :=
  let used := d.parts.flatMap (·.units)
  ((List.range 6656).filter (fun u => !used.contains u)).take n

/-- Invalidates a partition's entries in both TLBs of a pier, as PR_TLBI with PONLY = 1 does (R318, R319). -/
def tlbiPartition (q : Fin 64) (P : Pier) : Pier := tlbInvalidate P (fun e => (e.tag.extractLsb' 16 6).toNat = q.val)

/-- Builds a partition's tables on a pier, and invalidates its translations there (R305, R319). -/
def buildTables (leaves : List LeafPlace) (p : Fin 16) (q : Partition) (P : Pier) : Pier :=
  tlbiPartition q.part (gatewayQuarry P (tableEntries q.part.val (15 * q.quarry) (leafAt leaves p q)))

/-- Builds a partition's tables on a pier for the first time: leaves with a retired frame are placed elsewhere (R305,
R458). -/
def Dev.buildNew (d : Dev) (q : Partition) (p : Fin 16) : Dev :=
  let others := d.setter.leaves.filter (fun l => !(l.pier = p && l.part = q.part))
  let d := { d with setter := { d.setter with leaves := others ++ displaced d.regionTop p q (d.pier p).mem.frames } }
  d.onPier p (buildTables d.setter.leaves p q)

/-- Zeroes whole quarry lines: each becomes good data (R64). -/
def zeroLines (P : Pier) (lo hi : Nat) : Pier :=
  { P with mem := { P.mem with
      quarry := P.mem.quarry.clear lo hi
      merge := P.mem.merge.filter (fun e => e.line < lo || hi ≤ e.line) } }

/-- Removes a partition's tables, with its translations, and zeroes its region on a pier (R319, R434 step 5). -/
def clearRegion (q : Partition) (P : Pier) : Pier :=
  let lo := (tableRoot q.part.val - quarryBase) / 15
  let hi := (tableRoot q.part.val + tableArea - quarryBase + 14) / 15
  let inside (l : Nat) : Bool := lo ≤ l && l < hi
  let lines := ((P.mem.quarry.filter (fun (e : Nat × BitVec 576) => inside e.1)).map (·.1) ++
    (P.mem.merge.filter (fun e => inside e.line)).map (·.line)).eraseDups
  let own := (lines.flatMap (fun l => (List.range 15).map (fun i => quarryBase + 15 * l + i))).filter (fun a =>
    tableRoot q.part.val ≤ a && a < tableRoot q.part.val + tableArea)
  let P := tlbiPartition q.part (gatewayQuarry P (own.map (fun a => (a, 0, false))))
  q.units.foldl (fun P u => zeroLines P (4096 * u) (4096 * u + 4096)) P

/-! ### Leaves (R307, R369) -/

/-- A leaf of a partition's stage 2: the address of its entry, the entry and its size. -/
structure FoundLeaf where
  at_  : Nat
  pte  : Word
  size : Nat

/-- Finds the leaf of an IPA, level by level; `k` levels left of `n` (R308, R311). -/
def findLeaf (P : Pier) (n ipa : Nat) : Nat → Nat → Option FoundLeaf
  | 0, _ => none
  | k + 1, tab =>
    let l := n - k
    let a := tab + levelIndex n l ipa
    match physTarget (BitVec.ofNat 36 a) with
    | .quarry ln i =>
      (match (lineFetch P .gateway ln).1 with
       | none => none
       | some ws =>
         let e := ws.getD i 0
         if !e.getLsbD 0 then none
         else if e.getLsbD 1 then findLeaf P n ipa k (e.toNat / 64 * 64)
         else some ⟨a, e, blockSize n l⟩)
    | _ => none

/-- The leaf of partition `q` on a pier that holds an IPA. -/
def Pier.leafOf (P : Pier) (q : Fin 64) (ipa : Nat) : Option FoundLeaf :=
  let c := P.regs.s2cfg[q]
  if c.s2w = 3#2 then none else findLeaf P (levelsOf c.s2w) ipa (levelsOf c.s2w) (c.root.toNat * 64)

/-- The physical address of an IPA in its leaf. -/
def FoundLeaf.word (l : FoundLeaf) (ipa : Nat) : Nat := (l.pte.toNat / 64 * 64) / l.size * l.size + ipa % l.size

/-- The bank word or the quarry line that holds an address, as cause 0x13 counts them (R369). -/
def poisonUnit (a : Nat) : Nat := if a < quarryBase then a else quarryBase + (a - quarryBase) / 15

/-- Copies `n` words as the supervisor: a rubble word is written as poison, with one NOTICE of cause 0x13 for each bank word or
quarry line so poisoned; `last` is the one that was reported last. A request that fails ends the copy: the answer is then
false (R271, R369). -/
def copyLeaf (now q : Nat) : Nat → Option Nat → Nat → Nat → Pier → Bool × Pier
  | 0, _, _, _, P => (true, P)
  | k + 1, last, src, dst, P =>
    let put (last : Option Nat) (w : Word) (rub : Bool) (P : Pier) : Bool × Pier :=
      match gatewayWrite P now .supervisor dst w rub with
      | .ok _ P => copyLeaf now q k last (src + 1) (dst + 1) P
      | r => (false, r.pier)
    match gatewayRead P now .supervisor src with
    | .ok w P => put last w false P
    | .rubble P =>
      put (some (poisonUnit dst)) 0 true (if last = some (poisonUnit dst) then P else P.detect 0x13 (dst % 2 ^ 32) q)
    | r => (false, r.pier)

end Sys2Proof.Machine
end

