-- ==== Sys2Proof/Machine/Power.lean ====
section
/-! DEFINITION. The load arbiter, pier power states and pier resets (R268, R269, R282, R466 to R473). -/

namespace Sys2Proof.Machine

open Sys2Proof

/-! ### Shares (R469, R470, R473) -/

/-- Shares of an awake pier at `f` × 0.1 GHz: ⌈2.4 + 1.35 f⌉ (R469). -/
def sharesAt (f : Nat) : Nat := (48 + 27 * f + 19) / 20

/-- The cap: the lower of BUDGET and SCAP (R470). -/
def Dev.cap (d : Dev) : Nat := min d.pw.budget d.pw.scap

/-- The shares granted, the frontage reserve of 96 included (R469, R473). -/
def Dev.grant (d : Dev) : Nat := 96 + (d.piers.toList.map (fun P => P.pw.shares)).sum

/-- Whether a pier is awake: IDLE or RUN (R467). -/
def Pier.awake (P : Pier) : Bool := P.pw.st = .idle || P.pw.st = .run

/-- The frequency that a pier runs at, or is changing to (R466). -/
def Pier.goal (P : Pier) : Nat :=
  match P.pw.change with
  | .freq f _ => f
  | _ => P.pw.freq

/-- TFREQ under the ceiling that a die warning applies (R470, R474). -/
def Dev.tfreq (d : Dev) (P : Pier) : Nat :=
  if d.pw.ceiling then min P.pw.tfreq.toNat 8 else P.pw.tfreq.toNat

/-- The highest frequency from `hi` down to `lo` whose shares fit under the cap, when the pier's own shares
are given back first (R470). -/
def fitFreq (room own : Nat) (lo : Nat) : Nat → Option Nat
  | 0 => none
  | f + 1 =>
    if f + 1 < lo then none
    else if sharesAt (f + 1) ≤ room + own then some (f + 1)
    else fitFreq room own lo f

/-- Whether a staggered start may begin now: none in the last 2 µs, and none that waits for its turn (R470). -/
def Dev.staggerOk (d : Dev) : Bool :=
  match d.pw.lastStart with
  | none => true
  | some t => t + 50 ≤ d.now

/-- When the next staggered start may begin (R470). -/
def Dev.nextStart (d : Dev) : Nat :=
  match d.pw.lastStart with
  | none => d.now
  | some t => max d.now (t + 50)

/-- Grants the wake of a pier in SLEEP or OFF where its shares fit; it starts when the stagger lets it (R470). -/
def Dev.tryWake (d : Dev) (p : Fin 16) : Option Dev :=
  let P := d.pier p
  let t := d.tfreq P
  if P.awake || P.pw.change ≠ .none then none
  else match fitFreq (d.cap - d.grant) P.pw.shares (min t 4) t with
    | none => none
    | some f =>
      if d.cap < d.grant then none
      else some ({ d.onPier p (fun P => { P with pw := { P.pw with change := .wake f, shares := sharesAt f, since := d.nextStart } }) with
        pw := { d.pw with lastStart := some d.nextStart } })

/-- Starts a change of frequency: the pier holds the largest of its old, its new and 8 shares (R466, R469). -/
def Pier.startFreq (P : Pier) (now : Nat) (f : Nat) : Pier :=
  { P with pw := { P.pw with change := .freq f P.pw.freq, shares := max (max P.pw.shares (sharesAt f)) 8, since := now } }

/-- How long a wake takes, in AON ticks: 24 µs from SLEEP; 60 µs and 4,096 pier cycles of bank fill from OFF (R282, R467,
R468). -/
def wakeTicks (st : PState) (f : Nat) : Nat :=
  if st = .off then 1500 + (1024 + f - 1) / f else 600

/-! ### Resets and power states of a pier (R267, R268, R282, R467, R468) -/

/-- A core in reset; its timer keeps its count (R267, R268). -/
def Core.toReset (c : Core) : Core := { tmr := c.tmr, tmrRun := c.tmrRun }

/-- A pier enters SLEEP: banks in retention, registers and quarry kept (R467). -/
def Pier.toSleep (P : Pier) (now : Nat) : Pier :=
  { P with
    core := P.core.toReset
    mem := { P.mem with selfRefresh := true, tlb := [], hodTlb := [], icache := [], lockOn := none, lockWait := none,
                        bank := P.mem.bank.map (fun b => { b with retn := .retained }) }
    runs := { ovf := P.runs.ovf }
    pw := { P.pw with st := .sleep, freq := 0, shares := 1, change := .none, since := now } }

/-- A pier enters OFF: only the quarry is kept (R467). -/
def Pier.toOff (P : Pier) (now : Nat) : Pier :=
  { P.toSleep now with
    mem := { (P.toSleep now).mem with banks := [], wback := [] }
    pw := { P.pw with st := .off, freq := 0, shares := 0, change := .none, since := now } }

/-- The banks as a reset leaves them: scoured, owners at their reset values, retired banks at 127 (R282, R285). -/
def resetBanks (retire : BitVec 16) : Vector Bank 16 :=
  Vector.ofFn (fun (b : Fin 16) =>
    if retire.getLsbD b.val then { owner := 0x7F#7, retn := .retained } else if b.val = 15 then { owner := 0x40#7 } else {})

/-- What a per-pier reset or a wake from OFF reinitialises: every register, all banks; the quarry, retired banks
and frames, and the HBM2E channel's training are kept (R9, R282, R285, R468, R477). -/
def Pier.reinit (P : Pier) : Pier :=
  { ({} : Pier) with
    mem := { ({} : PierMem) with quarry := P.mem.quarry, merge := P.mem.merge, bank := resetBanks P.regs.retire,
                                 trained := P.mem.trained, frames := P.mem.frames, refreshAt := P.mem.refreshAt,
                                 retrainAt := P.mem.retrainAt }
    regs := { ({} : PierRegs) with retire := P.regs.retire }
    pw := P.pw
    detq := P.detq
    kcOn := P.kcOn }

/-- AU0 as the frontage loads it: the chain key and the last record accepted from the pier (R181, R468). -/
def Dev.au0For (d : Dev) (p : Fin 16) : Au0 :=
  let h := d.acceptedHead p.val
  ⟨if d.ks.zeroized then none else some (d.ks.chainKey p.val), h.1, h.2⟩

/-- The pier boot block: 4,096 words of the Evoari image, which the spec does not list (R269). -/
def bootWords (banks : SMem 43) : SMem 43 :=
  (((List.range 4096).map (fun i => (i, eccEncode (Config.bootBlock i)))).filter (fun e => e.2 ≠ 0)) ++
    banks.filter (fun e => 4096 ≤ e.1)

/-- The frontage prepares bank 0 and releases the core: owner 64 with its scour, the boot block, and the PC from
the word at physical address 0 (R268, R269). -/
def Pier.release (P : Pier) (now : Nat) : Pier :=
  let b := P.mem.bank[0]
  let banks := if b.content = 64#7 then P.mem.banks else P.mem.banks.clear 0 0x20000
  let bank : Bank := { owner := 64#7, content := 64#7, lastUse := now }
  let P := { P with mem := { P.mem with banks := bootWords banks, bank := P.mem.bank.set 0 bank } }
  let pc := match bankFetch P .fetch 0 with
    | .ok w _ => w
    | _ => 0
  { P with core := { P.core.toReset with pc := pc, run := .running } }

/-- CORE_RELEASE's condition: start-up has come to step 10, and the core is in reset on an awake pier whose per-pier reset has
ended and that is neither quarantined nor OUT (R268, R269, R451, R480). -/
def Dev.mayRelease (d : Dev) (p : Fin 16) : Bool :=
  (d.life.boot = .seals || d.life.boot = .ready) && (d.pier p).awake && (d.pier p).core.run = .reset &&
  !d.fc.inReset.getLsbD p.val && !d.fc.quar.getLsbD p.val && !d.fc.out.getLsbD p.val

/-! ### Reclaim (R471) -/

/-- The awake pier that holds the most shares by its frequency in `fs`, the highest number among ties, of those
above `lo`; frequency 0 means not awake. -/
def richest (lo : Nat) (fs : List Nat) : Option Nat :=
  (fs.zipIdx.filter (fun e => lo < e.1)).foldl (fun (b : Option Nat) e =>
    match b with
    | none => some e.2
    | some i => if sharesAt (fs.getD i 0) ≤ sharesAt e.1 then some e.2 else some i) none

/-- Lowers frequencies a step at a time until the total fits or all are at `lo`; `k` steps at most (R471). -/
def lowerFreqs (cap base lo : Nat) : Nat → List Nat → List Nat
  | 0, fs => fs
  | k + 1, fs =>
    if base + (fs.map (fun f => if f = 0 then 0 else sharesAt f)).sum ≤ cap then fs
    else match richest lo fs with
      | none => fs
      | some i => lowerFreqs cap base lo k (fs.set i (fs.getD i 0 - 1))

/-- Puts idle piers to sleep, highest number first, until the total fits (R471). -/
def sleepPiers (cap base : Nat) (idle : Nat → Bool) : Nat → List Nat → List Nat → List Nat × List Nat
  | 0, fs, sl => (fs, sl)
  | i + 1, fs, sl =>
    if base + sl.length + (fs.map (fun f => if f = 0 then 0 else sharesAt f)).sum ≤ cap then (fs, sl)
    else if fs.getD i 0 ≠ 0 && idle i then sleepPiers cap base idle i (fs.set i 0) (i :: sl)
    else sleepPiers cap base idle i fs sl

/-- Whether a pier holds no batch (R366, R468). -/
def Dev.holdsNoBatch (d : Dev) (p : Nat) : Bool :=
  d.setter.batches.all (fun b => match b.state with
    | .placed q => q.val ≠ p
    | .running q => q.val ≠ p
    | _ => true)

/-- The arbiter reclaims shares when the grant exceeds the cap (R471). Every change starts at once. -/
def Dev.reclaim (d : Dev) : Dev :=
  let fs := d.piers.toList.map (fun P => if P.awake then P.goal else 0)
  let base := 96 + (d.piers.toList.map (fun P => if P.awake then 0 else P.pw.shares)).sum
  let total (fs : List Nat) (sl : Nat) : Nat := base + sl + (fs.map (fun f => if f = 0 then 0 else sharesAt f)).sum
  if total fs 0 ≤ d.cap then d
  else
    let f1 := lowerFreqs d.cap base 4 256 fs
    let (f2, sl) := sleepPiers d.cap base d.holdsNoBatch 16 f1 []
    let f3 := if total f2 sl.length ≤ d.cap then f2 else lowerFreqs d.cap (base + sl.length) 2 256 f2
    (List.finRange 16).foldl (fun d p =>
      if sl.contains p.val then d.onPier p (fun P => P.toSleep d.now)
      else if fs.getD p.val 0 ≠ 0 && f3.getD p.val 0 ≠ fs.getD p.val 0 then d.onPier p (fun P => P.startFreq d.now (f3.getD p.val 0))
      else d) d

/-- The ceiling of a die warning is applied by R471: piers above 0.8 GHz are lowered (R474). -/
def Dev.applyCeiling (d : Dev) : Dev :=
  d.allPiers (fun P => if P.awake && 8 < P.goal then P.startFreq d.now 8 else P)

/-- A change of the cap or of the HOLD, HALT or lifecycle state pulls SB_ALERT_N low (R499). -/
def Dev.alertUp (d : Dev) : Dev := { d with board := { d.board with alert := true } }

/-- Sets BUDGET and SCAP; a cap that falls starts a reclaim (R471, R472). -/
def Dev.setCap (d : Dev) (budget scap : Nat) : Dev :=
  let d' := { d with pw := { d.pw with budget := budget, scap := scap } }
  let d' := if d'.cap = d.cap then d' else d'.alertUp
  if d'.cap < d.cap then d'.reclaim else d'

/-- The pier raised next: an awake pier out of reset below its TFREQ, lowest frequency first, then lowest number, and the
frequency it goes to (R470). -/
def Dev.raiseNext (d : Dev) : Option (Fin 16 × Nat) :=
  let ps := (List.finRange 16).filter (fun p =>
    (d.pier p).awake && !d.fc.inReset.getLsbD p.val && (d.pier p).pw.change = .none &&
    (d.pier p).pw.freq < d.tfreq (d.pier p))
  let best := ps.foldl (fun (b : Option (Fin 16)) p =>
    match b with
    | none => some p
    | some q => if (d.pier p).pw.freq < (d.pier q).pw.freq then some p else some q) none
  match best with
  | none => none
  | some p =>
    let P := d.pier p
    if d.cap < d.grant then none
    else match fitFreq (d.cap - d.grant) P.pw.shares (P.pw.freq + 1) (d.tfreq P) with
      | some f => some (p, f)
      | none => none

/-! ### The commands -/

/-- CORE_RELEASE (R268, R269). -/
def execCoreRelease (p : Fin 16) (s : State) : Host.Outcome State Fault Refusal :=
  s.answer (if s.dev.mayRelease p then s.dev.onPier p (fun P => P.release s.dev.now) else s.dev)

/-- PIER_RAISE: the arbiter raises a pier, one start per 2 µs (R470). -/
def execPierRaise (s : State) : Host.Outcome State Fault Refusal :=
  let d := s.dev
  s.answer (if !d.staggerOk then d else
    match d.raiseNext with
    | some (p, f) => { d.onPier p (fun P => P.startFreq d.now f) with pw := { d.pw with lastStart := some d.now } }
    | none => d)

/-- FREQUENCY_CHANGE_END: 10 µs after the change started, the pier switches back to its own clock; a BOND accepted during
the change ramps its lanes now (R466, R467). -/
def execFrequencyChangeEnd (p : Fin 16) (s : State) : Host.Outcome State Fault Refusal :=
  let P := s.dev.pier p
  match P.pw.change with
  | .freq f _ =>
    s.answer (if s.dev.now < P.pw.since + 250 then s.dev else s.dev.setPier p { P with pw := { P.pw with
      freq := f, shares := sharesAt f, change := if P.pw.st = .idle && P.runs.exec.isSome then .ramp else .none
      since := s.dev.now } })
  | _ => s.answer s.dev

/-- A pier after its wake: its core and volatile units in reset, AU0's head reloaded; from OFF, its registers
and banks too, and the setter writes PR_S2CFG again (R305, R468). The channel of a quarantined pier, and one that never
trained, stays in self-refresh (R18, R480). -/
def Dev.wakeDone (d : Dev) (p : Fin 16) (f : Nat) : Dev :=
  let P := d.pier p
  let Q := if P.pw.st = .off then P.reinit else P.toSleep d.now
  let Q := { Q with
    mem := { Q.mem with selfRefresh := d.fc.quar.getLsbD p.val || !P.mem.trained, lfsr := 1#16 }
    runs := { Q.runs with au0 := d.au0For p }
    lapB := if P.pw.st = .off then { limit := Q.lapB.limit } else Q.lapB
    lapQ := if P.pw.st = .off then { limit := Q.lapQ.limit } else Q.lapQ
    pw := { P.pw with st := .idle, freq := f, shares := sharesAt f, change := .none, since := d.now, lastRun := d.now } }
  let d' := d.setPier p Q
  if P.pw.st = .off then d'.s2Restore p else d'

/-- LANE_RAMP_END: the four-step lane ramp finishes, 0.1 µs after it began (R467). -/
def execLaneRampEnd (p : Fin 16) (s : State) : Host.Outcome State Fault Refusal :=
  let P := s.dev.pier p
  s.answer (if P.pw.change = .ramp && P.pw.since + 2 ≤ s.dev.now then
    s.dev.setPier p { P with pw := { P.pw with st := .run, change := .none, since := s.dev.now } } else s.dev)

/-- IDLE_DROP: no run for 100 µs (R467). -/
def execIdleDrop (p : Fin 16) (s : State) : Host.Outcome State Fault Refusal :=
  let P := s.dev.pier p
  s.answer (if P.pw.st = .run && P.runs.exec.isNone && P.runs.queued.isNone && P.pw.lastRun + 2500 ≤ s.dev.now then
    s.dev.setPier p { P with pw := { P.pw with st := .idle, since := s.dev.now } } else s.dev)

/-- Whether an agent may change TST and TFREQ now (R473). -/
def Dev.targetWritable (d : Dev) (a : Agent) : Bool :=
  match a with
  | .setter => true
  | .warden => true
  | .host => d.life.op = .test
  | .sequencer => false

/-- Writes TST and TFREQ of PW_PIER: reserved values keep the field and set CFG_ERR (R11, R473). Lowering TFREQ
lowers the clock; a higher one waits for PIER_RAISE; TST 0 and 1 put a pier without a batch to OFF and SLEEP, TST 2
wakes it as far as the arbiter grants. -/
def Dev.writeTarget (d : Dev) (p : Fin 16) (a : Agent) (v : DW) : Dev :=
  let P := d.pier p
  let t := v.extractLsb' 8 2
  let f := v.extractLsb' 0 5
  let err (d : Dev) : Dev := { d with pw := { d.pw with err := true } }
  if t = P.pw.tst && f = P.pw.tfreq then d
  else if !d.targetWritable a then err d
  else
    let d := if t = 3#2 then err d else d.onPier p (fun P => { P with pw := { P.pw with tst := t } })
    let d := if f.toNat < 2 || 16 < f.toNat then err d else d.onPier p (fun P => { P with pw := { P.pw with tfreq := f } })
    let P := d.pier p
    if P.pw.tst = 2#2 then
      if P.awake then (if P.pw.tfreq.toNat < P.goal then d.onPier p (fun P => P.startFreq d.now P.pw.tfreq.toNat) else d)
      else (d.tryWake p).getD d
    else if d.holdsNoBatch p.val && P.pw.change = .none then
      if P.pw.tst = 1#2 then (if P.awake then d.onPier p (fun P => P.toSleep d.now) else d)
      else if P.pw.st = .off then d else d.onPier p (fun P => P.toOff d.now)
    else d

/-- PW_PIER_TARGET_WRITE (R473). -/
def execPwPierTargetWrite (p : Fin 16) (by_ : Agent) (v : DW) (s : State) : Host.Outcome State Fault Refusal :=
  s.answer (s.dev.writeTarget p by_ v)

/-- Whether RWL fields are writable: START-UP, TEST and RECOVERY (R7, R428). -/
def Dev.unlocked (d : Dev) : Bool := d.life.op = .startUp || d.life.op = .test || d.life.op = .recovery

/-- PW_BUDGET: BUDGET is RWL, 120 to 560 (R8, R11, R472, R473). -/
def Dev.writeBudget (d : Dev) (v : DW) : Dev :=
  let b := (v.extractLsb' 0 10).toNat
  if b = d.pw.budget then d
  else if !d.unlocked || b < 120 || 560 < b then { d with pw := { d.pw with err := true } }
  else d.setCap b d.pw.scap

/-- PW_BUDGET_WRITE (R470 to R473). -/
def execPwBudgetWrite (_by : Agent) (v : DW) (s : State) : Host.Outcome State Fault Refusal :=
  s.answer (s.dev.writeBudget v)

end Sys2Proof.Machine
end

