-- ==== Sys2Proof/Machine/F36.lean ====
section
/-! DEFINITION. F36 binary floating point (R52 to R55, R142 to R145, R190 to R194). A finite magnitude is
held exactly, as a number of units of 2^-280 (R52). Flags are held in the positions of R55. -/

namespace Sys2Proof.Machine

open Sys2Proof

/-- NX, UF, OF, DZ and NV in the positions of R55. -/
def fNX : Nat := 1
/-- UF (R55). -/
def fUF : Nat := 2
/-- OF (R55). -/
def fOF : Nat := 4
/-- DZ (R55). -/
def fDZ : Nat := 8
/-- NV (R55). -/
def fNV : Nat := 16

/-- The sign s of an F36 word (R52). -/
def fSign (w : Word) : Bool := w.getLsbD 35
/-- The biased exponent e (R52). -/
def fExp (w : Word) : Nat := (w.extractLsb' 26 9).toNat
/-- The trailing fraction f (R52). -/
def fFrac (w : Word) : Nat := (w.extractLsb' 0 26).toNat
/-- Whether a word is a NaN (R52). -/
def fIsNaN (w : Word) : Bool := fExp w = 0x1FF && fFrac w ≠ 0
/-- Whether a word is a signalling NaN (R52). -/
def fIsSNaN (w : Word) : Bool := fIsNaN w && !w.getLsbD 25
/-- Whether a word is an infinity (R52). -/
def fIsInf (w : Word) : Bool := fExp w = 0x1FF && fFrac w = 0
/-- The magnitude of a finite word in units of 2^-280 (R52). -/
def fMag (w : Word) : Nat := if fExp w = 0 then fFrac w else (2 ^ 26 + fFrac w) <<< (fExp w - 1)
/-- Whether a word is a zero (R52). -/
def fIsZero (w : Word) : Bool := fExp w = 0 && fFrac w = 0
/-- The value of a finite word in units of 2^-280. -/
def fVal (w : Word) : Int := if fSign w then -(fMag w : Int) else fMag w

/-- The default quiet NaN (R53). -/
def fQNaN : Word := 0x7FE000000#36
/-- A word with its sign bit set or cleared. -/
def fWithSign (s : Bool) (w : Word) : Word := if s then w ||| 0x800000000#36 else w &&& 0x7FFFFFFFF#36
/-- An infinity (R53). -/
def fInf (s : Bool) : Word := fWithSign s 0x7FC000000#36
/-- A zero (R53). -/
def fZero (s : Bool) : Word := fWithSign s 0#36
/-- A NaN made quiet: f[25] set, the rest kept (R193). -/
def fQuiet (w : Word) : Word := w ||| 0x002000000#36

/-- Rounds num/den to an integer in a rounding mode of R55, with the sign of the value; also whether the
result is inexact. -/
def roundQ (rm : Nat) (s : Bool) (num den : Nat) : Nat × Bool :=
  let q := num / den
  let r := num % den
  let up := match rm with
    | 1 => false
    | 2 => decide (r ≠ 0) && !s
    | 3 => decide (r ≠ 0) && s
    | 4 => decide (den ≤ 2 * r)
    | _ => decide (den < 2 * r) || (decide (den = 2 * r) && q % 2 = 1)
  (if up then q + 1 else q, r ≠ 0)

/-- The result and flags of an overflow (R190). -/
def fOverflow (rm : Nat) (s : Bool) : Word × Nat :=
  let toInf := match rm with
    | 1 => false
    | 2 => !s
    | 3 => s
    | _ => true
  (if toInf then fInf s else fWithSign s 0x7FBFFFFFF#36, fOF + fNX)

/-- Rounds the magnitude num/den, in units of 2^-280, with a sign, to F36 (R54, R55). Tininess is judged
on the result rounded with an unbounded exponent (R54; DEDUCED, log 8). -/
def fRound (rm : Nat) (s : Bool) (num den : Nat) : Word × Nat :=
  if num = 0 then (fZero s, 0)
  else
    let q := num / den
    let sh := if q = 0 then 0 else (q.log2 + 1) - 27
    let mi := roundQ rm s num (den <<< sh)
    let m := if mi.1 = 2 ^ 27 then 2 ^ 26 else mi.1
    let sh' := if mi.1 = 2 ^ 27 then sh + 1 else sh
    if 2 ^ 26 ≤ m ∧ 509 < sh' then fOverflow rm s
    else
      let tiny := decide (q < 2 ^ 26) && decide ((roundQ rm s (2 * num) den).1 < 2 ^ 27)
      let bits := if m < 2 ^ 26 then m else (sh' + 1) * 2 ^ 26 + (m - 2 ^ 26)
      (fWithSign s (BitVec.ofNat 36 bits), (if mi.2 then fNX else 0) + (if tiny && mi.2 then fUF else 0))

/-- The result for operands of which one is a NaN: the first NaN, made quiet, and NV if any is
signalling (R144, R193). -/
def fNaNOf (l : List Word) (nv : Bool) : Option (Word × Nat) :=
  match l.find? fIsNaN with
  | some w => some (fQuiet w, if nv || l.any fIsSNaN then fNV else 0)
  | none => none

/-- The sign of an exact zero sum (R193). -/
def fZeroSum (rm : Nat) (sa sb : Bool) : Word := fZero (if sa = sb then sa else rm = 3)

/-- A + B (R142, R190, R193). -/
def fAdd (rm : Nat) (a b : Word) : Word × Nat :=
  match fNaNOf [a, b] false with
  | some r => r
  | none =>
    if fIsInf a then (if fIsInf b && fSign a != fSign b then (fQNaN, fNV) else (a, 0))
    else if fIsInf b then (b, 0)
    else
      let v := fVal a + fVal b
      if v = 0 then (fZeroSum rm (fSign a) (fSign b), 0) else fRound rm (v < 0) v.natAbs 1

/-- −A, the sign alone (R142). -/
def fNeg (a : Word) : Word := a ^^^ 0x800000000#36

/-- A − B: the sum with B's sign inverted, but a NaN operand keeps its sign (R193). -/
def fSub (rm : Nat) (a b : Word) : Word × Nat :=
  match fNaNOf [a, b] false with
  | some r => r
  | none => fAdd rm a (fNeg b)

/-- A × B (R142, R193). -/
def fMul (rm : Nat) (a b : Word) : Word × Nat :=
  let s := fSign a != fSign b
  match fNaNOf [a, b] false with
  | some r => r
  | none =>
    if fIsInf a || fIsInf b then (if fIsZero a || fIsZero b then (fQNaN, fNV) else (fInf s, 0))
    else fRound rm s (fMag a * fMag b) (2 ^ 280)

/-- A / B (R142, R193). -/
def fDiv (rm : Nat) (a b : Word) : Word × Nat :=
  let s := fSign a != fSign b
  match fNaNOf [a, b] false with
  | some r => r
  | none =>
    if fIsInf a then (if fIsInf b then (fQNaN, fNV) else (fInf s, 0))
    else if fIsInf b then (fZero s, 0)
    else if fIsZero b then (if fIsZero a then (fQNaN, fNV) else (fInf s, fDZ))
    else fRound rm s (fMag a * 2 ^ 280) (fMag b)

/-- A × B + C with one rounding (R142, R144, R193). -/
def fFma (rm : Nat) (a b c : Word) : Word × Nat :=
  let s := fSign a != fSign b
  let bad := (fIsInf a && fIsZero b) || (fIsZero a && fIsInf b)
  match fNaNOf [a, b, c] bad with
  | some r => r
  | none =>
    if bad then (fQNaN, fNV)
    else if fIsInf a || fIsInf b then
      (if fIsInf c && fSign c != s then (fQNaN, fNV) else (fInf s, 0))
    else if fIsInf c then (c, 0)
    else
      let v := fVal a * fVal b + fVal c * 2 ^ 280
      if v = 0 then (fZeroSum rm s (fSign c), 0) else fRound rm (v < 0) v.natAbs (2 ^ 280)

/-- The outcome of a comparison (R142, R194). -/
inductive FOrd where
  | lt
  | eq
  | gt
  | un
deriving DecidableEq, Repr

/-- A value that orders infinities beside the finite values. -/
def fKey (w : Word) : Int := if fIsInf w then (if fSign w then -(2 ^ 600) else 2 ^ 600) else fVal w

/-- The quiet comparison FCMP: order, and NV for a signalling NaN (R144, R193). -/
def fCmp (a b : Word) : FOrd × Nat :=
  if fIsNaN a || fIsNaN b then (.un, if fIsSNaN a || fIsSNaN b then fNV else 0)
  else (if fKey a < fKey b then .lt else if fKey a = fKey b then .eq else .gt, 0)

/-- minimumNumber and maximumNumber, with −0 below +0 (R142, R193). -/
def fMinMax (max : Bool) (a b : Word) : Word × Nat :=
  let nv := if fIsSNaN a || fIsSNaN b then fNV else 0
  if fIsNaN a && fIsNaN b then (fQuiet a, nv)
  else if fIsNaN a then (b, nv)
  else if fIsNaN b then (a, nv)
  else
    let aLess := decide (fKey a < fKey b) || (fKey a = fKey b && fSign a && !fSign b)
    (if aLess != max then a else b, 0)

/-- F36 to a signed integer (R144, R192, R193). -/
def fToInt (rm : Nat) (a : Word) : Word × Nat :=
  if fIsNaN a then (0x7FFFFFFFF#36, fNV)
  else
    let lim : Word := if fSign a then 0x800000000#36 else 0x7FFFFFFFF#36
    if fIsInf a then (lim, fNV)
    else
      let mi := roundQ rm (fSign a) (fMag a) (2 ^ 280)
      let v : Int := if fSign a then -(mi.1 : Int) else mi.1
      if v < -(2 ^ 35) ∨ 2 ^ 35 ≤ v then (lim, fNV)
      else (BitVec.ofInt 36 v, if mi.2 then fNX else 0)

/-- An integer to F36 (R192). -/
def fOfInt (rm : Nat) (v : Int) : Word × Nat := fRound rm (v < 0) (v.natAbs * 2 ^ 280) 1

/-- A rounded to an integral F36 value (R144, R192, R193). -/
def fInt (rm : Nat) (a : Word) : Word × Nat :=
  match fNaNOf [a] false with
  | some r => r
  | none =>
    if fIsInf a then (a, 0)
    else
      let mi := roundQ rm (fSign a) (fMag a) (2 ^ 280)
      ((fRound 1 (fSign a) (mi.1 * 2 ^ 280) 1).1, if mi.2 then fNX else 0)

end Sys2Proof.Machine
end

