-- ==== Sys2Proof/Machine/Flags.lean ====
section
/-! DEFINITION. Results and flags of the integer and decimal operations, shared by the Goilo-36 ports and
the lane stones (R43, R47 to R51, R135, R136, R140, R141, R183 to R189). -/

namespace Sys2Proof.Machine

open Sys2Proof

/-! ### Integers (R135, R184) -/

/-- A result with carry or borrow out and signed overflow. -/
structure IntRes where
  r  : Word
  cy : Bool
  v  : Bool
deriving DecidableEq, Repr

/-- Z: the result is 0 (R132, R217). -/
def flagZ (r : Word) : Bool := r = 0
/-- N: bit 35 of the result (R132, R217). -/
def flagN (r : Word) : Bool := r.getLsbD 35

/-- A + B + c with carry out and signed overflow (R184). -/
def intAdd (a b : Word) (c : Bool) : IntRes :=
  let n := a.toNat + b.toNat + c.toNat
  let z := a.toInt + b.toInt + c.toNat
  ⟨BitVec.ofNat 36 n, decide (2 ^ 36 ≤ n), decide (z < -(2 ^ 35)) || decide (2 ^ 35 ≤ z)⟩

/-- A − B − c with borrow out and signed overflow (R184). -/
def intSub (a b : Word) (c : Bool) : IntRes :=
  let z := a.toInt - b.toInt - c.toNat
  ⟨a - b - BitVec.ofNat 36 c.toNat, decide (a.toNat < b.toNat + c.toNat),
   decide (z < -(2 ^ 35)) || decide (2 ^ 35 ≤ z)⟩

/-- −B with CY for a non-zero operand and V for the minimum integer (R184). -/
def intNeg (b : Word) : IntRes := ⟨-b, decide (b ≠ 0), decide (b = 0x800000000#36)⟩

/-- The four shifts and rotates (R187). -/
inductive ShiftOp where
  | shl
  | shr
  | sar
  | rol
deriving DecidableEq, Repr

/-- The result and carry of a shift or rotate by source bits [6:0]; `cy0` is the carry for a count of 0
(R136, R187). -/
def intShift (op : ShiftOp) (a src : Word) (cy0 : Bool) : Word × Bool :=
  let c := (src.extractLsb' 0 7).toNat
  let sgn := a.getLsbD 35
  if c = 0 then (a, cy0)
  else match op with
    | .shl => (a <<< c, if c ≤ 36 then a.getLsbD (36 - c) else false)
    | .shr => (a >>> c, if c ≤ 36 then a.getLsbD (c - 1) else false)
    | .sar => (a.sshiftRight c, if c ≤ 36 then a.getLsbD (c - 1) else sgn)
    | .rol => (a.rotateLeft (c % 36), a.getLsbD ((36 - c % 36) % 36))

/-- A × B as a 72-bit product, signed or unsigned (R138, R185). -/
def intMul (signed : Bool) (a b : Word) : BitVec 72 :=
  if signed then BitVec.ofInt 72 (a.toInt * b.toInt) else BitVec.ofNat 72 (a.toNat * b.toNat)

/-- Quotient and remainder of DIV and DIVU; `dc` divide check, `v` the overflow of −2^35 / −1 (R185). -/
structure DivRes where
  q  : Word
  r  : Word
  v  : Bool
  dc : Bool
deriving DecidableEq, Repr

/-- DIV and DIVU (R185): truncation toward zero, the remainder with the dividend's sign. -/
def intDiv (signed : Bool) (a b : Word) : DivRes :=
  if b = 0 then ⟨0, a, false, true⟩
  else if signed then
    ⟨BitVec.ofInt 36 (a.toInt.tdiv b.toInt), BitVec.ofInt 36 (a.toInt.tmod b.toInt),
     decide (a = 0x800000000#36 ∧ b = 0xFFFFFFFFF#36), false⟩
  else ⟨a / b, a % b, false, false⟩

/-! ### Decimal (R47 to R51, R140, R188) -/

/-- Digit `d` of a D36 word (R47). -/
def digit (w : Word) (d : Nat) : Nat := (w.extractLsb' (4 * d) 4).toNat

/-- Whether digits `lo` to 8 are valid (R47). -/
def digitsOk (w : Word) (lo : Nat) : Bool := (List.range 9).all (fun i => i < lo || digit w i ≤ 9)

/-- The number that digits `lo` to 8 hold. -/
def digitsVal (w : Word) (lo : Nat) : Nat :=
  (List.range 9).foldr (fun i acc => if i < lo then acc else acc * 10 + digit w i) 0

/-- Whether a nibble is a valid sign (R49). -/
def signOk (n : Nat) : Bool := decide (10 ≤ n)

/-- Whether a sign nibble means minus (R49). -/
def signMinus (n : Nat) : Bool := n = 0xB || n = 0xD

/-- The D36 word of a number below 10^k in digits `lo` up (R47). -/
def toDigits (lo : Nat) : Nat → Nat → Word
  | 0, _ => 0
  | k + 1, n => (BitVec.ofNat 36 (n % 10) <<< (4 * lo)) ||| toDigits (lo + 1) k (n / 10)

/-- The unsigned nine-digit word of n mod 10^9. -/
def decWord (n : Nat) : Word := toDigits 0 9 (n % 1000000000)

/-- Whether an unsigned word is valid (R51). -/
def decOk (w : Word) : Bool := digitsOk w 0

/-- Whether a one-word signed string is valid (R51). -/
def sdecOk (w : Word) : Bool := digitsOk w 1 && signOk (digit w 0)

/-- The value of a valid unsigned word. -/
def decVal (w : Word) : Nat := digitsVal w 0

/-- The value of a valid one-word signed string; a minus zero is zero (R50). -/
def sdecVal (w : Word) : Int := if signMinus (digit w 0) then -(digitsVal w 1 : Int) else digitsVal w 1

/-- The one-word signed string of a true value: its low eight digits with its true sign (R50, R140). -/
def sdecWord (v : Int) : Word :=
  toDigits 1 8 (v.natAbs % 100000000) ||| (if v < 0 then 0xD#36 else 0xC#36)

/-- Unsigned decimal A + B + c: result and carry (R140, R220). -/
def decAdd (a b : Word) (c : Bool) : Word × Bool :=
  let n := decVal a + decVal b + c.toNat
  (decWord n, decide (1000000000 ≤ n))

/-- Unsigned decimal A − B − c: result and borrow (R140, R220). -/
def decSub (a b : Word) (c : Bool) : Word × Bool :=
  let m := decVal b + c.toNat
  if decVal a < m then (decWord (1000000000 + decVal a - m), true) else (decWord (decVal a - m), false)

end Sys2Proof.Machine
end

