-- ==== Sys2Proof/Machine/Stones.lean ====
section
/-! DEFINITION. The operations of the lane stones (R129 to R154), one firing at a time. -/

namespace Sys2Proof.Machine

open Sys2Proof

/-- What a firing emits on R, S, F and X, and the flags that an enabled trap would take. -/
structure LaneOut where
  r    : Word := 0
  s    : Word := 0
  f    : Word := 0
  x    : Word := 0
  trap : Bool := false
deriving DecidableEq, Repr

/-- The outcome of a reserved operation or parameter: PX alone (R131). -/
def laneReserved : LaneOut := { f := 0x100#36 }

/-- A flag nonet in the integer layout (R132). -/
def intFlags (z n cy v dv : Bool) : Word :=
  BitVec.ofNat 36 (z.toNat + 2 * n.toNat + 4 * cy.toNat + 8 * v.toNat + 16 * dv.toNat)

/-- A result whose Z and N follow R (R132). -/
def laneInt (r s : Word) (cy v : Bool) : LaneOut :=
  { r := r, s := s, f := intFlags (flagZ r) (flagN r) cy v false }

/-- 1 or 0 as a word. -/
def boolWord (b : Bool) : Word := if b then 1#36 else 0#36

/-- Signed less-than. -/
def sltWord (a b : Word) : Bool := a.toInt < b.toInt

/-! ### IA0 and IA1 (R135, R136) -/

/-- A sum or difference with its carry on S. -/
def laneCarry (r : IntRes) : LaneOut := laneInt r.r (boolWord r.cy) r.cy r.v

/-- A shift or rotate of a lane stone: a count of 0 clears CY (R136). -/
def laneShift (op : ShiftOp) (a b : Word) : LaneOut :=
  let r := intShift op a b false
  laneInt r.1 0 r.2 false

/-- A firing of IA0 or IA1 (R135). -/
def iaOp (op : Nat) (a b c : Word) : LaneOut :=
  match op with
  | 0x00 => laneInt a 0 false false
  | 0x01 => laneCarry (intAdd a b false)
  | 0x02 => laneCarry (intAdd a b (c ≠ 0))
  | 0x03 => laneCarry (intSub a b false)
  | 0x04 => laneCarry (intSub a b (c ≠ 0))
  | 0x05 => let r := intNeg a; laneInt r.r 0 r.cy r.v
  | 0x06 => laneInt (a &&& b) 0 false false
  | 0x07 => laneInt (a ||| b) 0 false false
  | 0x08 => laneInt (a ^^^ b) 0 false false
  | 0x09 => laneInt (a &&& ~~~ b) 0 false false
  | 0x0A => laneShift .shl a b
  | 0x0B => laneShift .shr a b
  | 0x0C => laneShift .sar a b
  | 0x0D => laneShift .rol a b
  | 0x0E => laneInt (boolWord (a = b)) 0 false false
  | 0x0F => laneInt (boolWord (sltWord a b)) 0 false false
  | 0x10 => laneInt (boolWord (a.ult b)) 0 false false
  | 0x11 => laneInt (if sltWord b a then b else a) 0 false false
  | 0x12 => laneInt (if sltWord a b then b else a) 0 false false
  | 0x13 => laneInt (if b.ult a then b else a) 0 false false
  | 0x14 => laneInt (if a.ult b then b else a) 0 false false
  | 0x15 => if b.ule a then laneInt (a - b) 1 false false else laneInt a 0 false false
  | _ => laneReserved

/-! ### MC0 and MC1 (R137, R138) -/

/-- What an MC firing does to the accumulator of its lane, beside what it emits. `reads` says that the
result depends on the accumulator's earlier value (R127, R139). -/
structure McOut where
  out   : LaneOut
  acc   : BitVec 80
  reads : Bool
deriving DecidableEq, Repr

/-- The read-out of an 80-bit value with its flags (R137, R138). -/
def mcRead (v : BitVec 80) (ov : Bool) : LaneOut :=
  { r := v.extractLsb' 0 36, s := v.extractLsb' 36 36, x := (v.extractLsb' 72 8).signExtend 36,
    f := intFlags (v = 0) (v.getLsbD 79) false ov false }

/-- An accumulator update by an exact amount, with overflow of 80 bits signed (R138). -/
def mcUpdate (acc : BitVec 80) (n : Int) : McOut :=
  let t := acc.toInt + n
  let v := BitVec.ofInt 80 t
  ⟨mcRead v (decide (t < -(2 ^ 79)) || decide (2 ^ 79 ≤ t)), v, true⟩

/-- A firing of MC0 or MC1 for index `i` (R138). PASS reads out R alone, and its Z and N follow the 36 bits of R: R137 names the
accumulator as the 80-bit value read out of every operation but MUL and MULU, and PASS reads none (DESIGN CHOICE, log 63). -/
def mcOp (op i : Nat) (acc : BitVec 80) (a b : Word) : McOut :=
  let sp : Int := a.toInt * b.toInt
  let up : Nat := a.toNat * b.toNat
  match op with
  | 0x00 =>
    ⟨{ r := a, f := intFlags (flagZ a) (flagN a) false false false }, acc, false⟩
  | 0x01 => ⟨mcRead (BitVec.ofInt 80 sp) false, acc, false⟩
  | 0x02 => ⟨mcRead (BitVec.ofNat 80 up) false, acc, false⟩
  | 0x03 => mcUpdate acc sp
  | 0x04 => mcUpdate acc up
  | 0x05 => mcUpdate acc (-sp)
  | 0x06 => if i < 32 then ⟨mcRead (BitVec.ofInt 80 sp) false, BitVec.ofInt 80 sp, false⟩ else mcUpdate acc sp
  | 0x07 => if i < 32 then ⟨mcRead (BitVec.ofNat 80 up) false, BitVec.ofNat 80 up, false⟩ else mcUpdate acc up
  | 0x08 => ⟨mcRead (a.signExtend 80) false, a.signExtend 80, false⟩
  | 0x09 => ⟨mcRead acc false, acc, true⟩
  | 0x0A => ⟨mcRead acc false, acc.sshiftRight 32, true⟩
  | _ => ⟨laneReserved, acc, false⟩

/-! ### DC0 (R140, R141) -/

/-- A signed decimal result with its flags (R140). -/
def dcSigned (v : Int) : LaneOut :=
  let r := sdecWord v
  { r := r, f := intFlags (v.natAbs % 100000000 = 0) (v < 0) false (decide (99999999 < v.natAbs)) false }

/-- Z and N of a word that is a signed string (R140). -/
def dcSignedFlags (r : Word) (dv : Bool) : Word :=
  intFlags ((List.range 8).all (fun d => digit r (d + 1) = 0)) (signMinus (digit r 0)) false false dv

/-- The outcome of an invalid operand: R is A, DV, and the trap when enabled (R51, R141). -/
def dcInvalid (signed : Bool) (a : Word) : LaneOut :=
  { r := a, f := if signed then dcSignedFlags a true else intFlags (flagZ a) (flagN a) false false true, trap := true }

/-- Whether the operands that an operation checks are valid (R141). -/
def dcOperandsOk (op : Nat) (a b : Word) : Bool :=
  match op with
  | 0x01 => decOk a && decOk b
  | 0x02 => decOk a && decOk b
  | 0x03 => sdecOk a && sdecOk b
  | 0x04 => sdecOk a && sdecOk b
  | 0x05 => decOk a
  | 0x06 => sdecOk a
  | 0x07 => decOk a && decOk b
  | 0x08 => sdecOk a && sdecOk b
  | 0x09 => decOk a
  | 0x0B => decOk a
  | _ => true

/-- −1, 0 or +1 as a word. -/
def ordWord (lt eq : Bool) : Word := if eq then 0#36 else if lt then 0xFFFFFFFFF#36 else 1#36

/-- A firing of DC0 (R140, R141). Z and N of the signed results follow R140. DCHKS leaves A as it is, sign nibble included: its R
is `A, signed checked`, although results of signed operations are written with the signs of R49 and R50 (DESIGN CHOICE,
log 64). -/
def dcOp (op : Nat) (a b c : Word) : LaneOut :=
  if !dcOperandsOk op a b then dcInvalid (op = 0x03 || op = 0x04 || op = 0x06) a
  else match op with
    | 0x00 => laneInt a 0 false false
    | 0x01 => let r := decAdd a b (c ≠ 0); laneInt r.1 (boolWord r.2) r.2 false
    | 0x02 => let r := decSub a b (c ≠ 0); laneInt r.1 (boolWord r.2) r.2 false
    | 0x03 => dcSigned (sdecVal a + sdecVal b)
    | 0x04 => dcSigned (sdecVal a - sdecVal b)
    | 0x05 => laneInt a 0 false false
    | 0x06 => { r := a, f := dcSignedFlags a false }
    | 0x07 => laneInt (ordWord (decVal a < decVal b) (decVal a = decVal b)) 0 false false
    | 0x08 => laneInt (ordWord (sdecVal a < sdecVal b) (sdecVal a = sdecVal b)) 0 false false
    | 0x09 => laneInt (BitVec.ofNat 36 (decVal a)) 0 false false
    | 0x0A => laneInt (decWord a.toNat) (BitVec.ofNat 36 (a.toNat / 1000000000)) false false
    | 0x0B =>
      let d := (b.extractLsb' 0 4).toNat
      if 9 ≤ d then laneInt 0 a false false else laneInt (a <<< (4 * d)) (a >>> (4 * (9 - d))) false false
    | _ => laneReserved

/-! ### FP0 (R142 to R145) -/

/-- The rounding mode of a firing; none for a reserved code (R143). -/
def fpMode (p4 : Word) (rm : BitVec 3) : Option Nat :=
  if p4.getLsbD 3 then (if (p4.extractLsb' 0 3).toNat ≤ 4 then some (p4.extractLsb' 0 3).toNat else none)
  else some rm.toNat

/-- A result with its F36 flags; the trap is taken when a raised flag is enabled (R145). -/
def fpOut (en : BitVec 5) (r : Word × Nat) : LaneOut :=
  { r := r.1, f := BitVec.ofNat 36 r.2, trap := decide ((BitVec.ofNat 5 r.2) &&& en ≠ 0#5) }

/-- A firing of FP0 (R142). A reserved rounding code in P4 gives R131 for every operation, also for those that do not round,
although R130 has bits that an operation does not define ignored (DESIGN CHOICE, log 65). -/
def fpOp (op : Nat) (p4 : Word) (rm : BitVec 3) (en : BitVec 5) (a b c : Word) : LaneOut :=
  match fpMode p4 rm with
  | none => laneReserved
  | some m =>
    match op with
    | 0x00 => { r := a }
    | 0x01 => fpOut en (fAdd m a b)
    | 0x02 => fpOut en (fSub m a b)
    | 0x03 => fpOut en (fMul m a b)
    | 0x04 => fpOut en (fDiv m a b)
    | 0x05 => fpOut en (fFma m a b c)
    | 0x06 =>
      let k := fCmp a b
      let o := fpOut en (0, k.2)
      match k.1 with
      | .lt => { o with r := 1, f := o.f ||| 0x20#36 }
      | .eq => { o with r := 2, f := o.f ||| 0x40#36 }
      | .gt => { o with r := 4, f := o.f ||| 0x80#36 }
      | .un => o
    | 0x07 => fpOut en (fMinMax false a b)
    | 0x08 => fpOut en (fMinMax true a b)
    | 0x09 => { r := a &&& 0x7FFFFFFFF#36 }
    | 0x0A => { r := fNeg a }
    | 0x0B => fpOut en (fToInt m a)
    | 0x0C => fpOut en (fOfInt m a.toInt)
    | 0x0D => fpOut en (fOfInt m a.toNat)
    | 0x0E => fpOut en (fInt m a)
    | _ => laneReserved

/-! ### RD0 (R146 to R149) -/

/-- The element of a segment that a minimum or maximum keeps: the lowest index of the best value. -/
def rdBest (better : Word → Word → Bool) : List (Nat × Word) → Option (Nat × Word)
  | [] => none
  | e :: es =>
    match rdBest better es with
    | none => some e
    | some k => if better k.2 e.2 then some k else some e

/-- A minimum or maximum with its index (R147). -/
def rdMinMax (signed : Bool) (better : Word → Word → Bool) (es : List (Nat × Word)) : LaneOut :=
  match rdBest better es with
  | none => {}
  | some k => { r := k.2, s := BitVec.ofNat 36 k.1, f := intFlags (flagZ k.2) (signed && flagN k.2) false false false }

/-- A sum on R and S (R147). -/
def rdSum (signed : Bool) (t : Int) : LaneOut :=
  let v := BitVec.ofInt 72 t
  { r := v.extractLsb' 0 36, s := v.extractLsb' 36 36, f := intFlags (v = 0) (signed && v.getLsbD 71) false false false }

/-- The decimal sum of a segment (R148). -/
def rdDsum (signed : Bool) (es : List (Nat × Word)) : LaneOut :=
  let ok := es.filter (fun e => if signed then sdecOk e.2 else decOk e.2)
  let dv := ok.length != es.length
  if signed then
    let t := ok.foldl (fun (acc : Int) e => acc + sdecVal e.2) 0
    { r := toDigits 1 8 (t.natAbs % 100000000) ||| (if t < 0 then 0xD#36 else 0xC#36),
      s := decWord (t.natAbs / 100000000), f := intFlags (t = 0) (t < 0) false false dv }
  else
    let t := ok.foldl (fun acc e => acc + decVal e.2) 0
    { r := decWord t, s := decWord (t / 1000000000), f := intFlags (t = 0) false false false dv }

/-- Adds a value to a partial sum that may be absent, gathering flags (R149). -/
def fsumAdd (rm : Nat) (p : Option Word × Nat) (q : Option Word) : Option Word × Nat :=
  match p.1, q with
  | none, _ => (q, p.2)
  | some _, none => p
  | some a, some b => let r := fAdd rm a b; (some r.1, p.2 ||| r.2)

/-- One level of the pairwise tree (R149). -/
def fsumPair (rm : Nat) : List (Option Word) → List (Option Word) × Nat
  | a :: b :: l =>
    let r := fsumAdd rm (a, 0) b
    let t := fsumPair rm l
    (r.1 :: t.1, r.2 ||| t.2)
  | l => (l, 0)

/-- The levels of the tree (R149). -/
def fsumTree (rm : Nat) : Nat → List (Option Word) → Nat → Option Word × Nat
  | 0, l, fl => ((l.headD none), fl)
  | k + 1, l, fl => let r := fsumPair rm l; fsumTree rm k r.1 (fl ||| r.2)

/-- The F36 sum of a segment in the order of R149. -/
def rdFsum (rm : Nat) (es : List (Nat × Word)) : LaneOut :=
  let lanes := (List.range 32).map (fun l =>
    (es.filter (fun e => e.1 % 32 = l)).foldl (fun p e => fsumAdd rm p (some e.2)) ((none, 0) : Option Word × Nat))
  let r := fsumTree rm 5 (lanes.map (·.1)) (lanes.foldl (fun acc l => acc ||| l.2) 0)
  { r := r.1.getD 0, f := BitVec.ofNat 36 r.2 }

/-- The result of a segment (R147 to R149); PASS is no reduction. -/
def rdSegment (op : Nat) (p5 : Word) (rm : BitVec 3) (es : List (Nat × Word)) : LaneOut :=
  match op with
  | 0x01 => rdSum true (es.foldl (fun (t : Int) e => t + e.2.toInt) 0)
  | 0x02 => rdSum false (es.foldl (fun (t : Int) e => t + e.2.toNat) 0)
  | 0x03 => rdMinMax true (fun x y => sltWord x y) es
  | 0x04 => rdMinMax true (fun x y => sltWord y x) es
  | 0x05 => rdMinMax false (fun x y => x.ult y) es
  | 0x06 => rdMinMax false (fun x y => y.ult x) es
  | 0x07 => laneInt (es.foldl (fun t e => t &&& e.2) 0xFFFFFFFFF#36) 0 false false
  | 0x08 => laneInt (es.foldl (fun t e => t ||| e.2) 0) 0 false false
  | 0x09 => laneInt (es.foldl (fun t e => t ^^^ e.2) 0) 0 false false
  | 0x0A =>
    let r := BitVec.ofNat 36 (es.filter (fun e => e.2 ≠ 0)).length
    { r := r, f := intFlags (flagZ r) false false false false }
  | 0x0B => rdDsum (p5.getLsbD 0) es
  | 0x0C => rdFsum rm.toNat es
  | _ => laneReserved

/-! ### CY0 (R150, R151) -/

/-- A value split at 2^32: limb, signed carry (R46). -/
def cySplit (s : Int) : LaneOut :=
  let r := BitVec.ofInt 36 (s.emod (2 ^ 32))
  let c := BitVec.ofInt 36 (s.ediv (2 ^ 32))
  { r := r, s := c, f := intFlags (flagZ r) false (c ≠ 0) false false }

/-- A firing of CY0 with the carry of its position; NORM and SPLIT (R150, R151). -/
def cyOp (op : Nat) (a c : Word) (carry : Int) : LaneOut :=
  match op with
  | 0x00 => laneInt a 0 false false
  | 0x01 => cySplit (a.toInt + c.toInt + carry)
  | 0x02 => cySplit a.toInt
  | _ => laneReserved

/-! ### IX0 and SL0 (R152, R153) -/

/-- A firing of IX0 for index `i` (R152). -/
def ixOp (op i : Nat) (p1 p2 p3 a : Word) : LaneOut :=
  match op with
  | 0x00 => laneInt a 0 false false
  | 0x01 => laneInt (p1 + BitVec.ofNat 36 i * p2) 0 false false
  | 0x02 =>
    if p2 = 0 then laneInt (BitVec.ofNat 36 i) 0 false false
    else laneInt (BitVec.ofNat 36 (i % p2.toNat)) (BitVec.ofNat 36 (i / p2.toNat)) false false
  | 0x03 => laneInt (boolWord ((if p2 = 0 then i else i % p2.toNat) < p3.toNat)) 0 false false
  | _ => laneReserved

/-- A firing of SL0 (R153). -/
def slOp (op : Nat) (p4 a b c : Word) : LaneOut :=
  let t := if op = 0x02 then decide (c &&& (p4 &&& 0x1FF#36) ≠ 0) else decide (c ≠ 0)
  match op with
  | 0x00 => laneInt a 0 false false
  | 0x01 => laneInt (if t then b else a) 0 false false
  | 0x02 => laneInt (if t then b else a) 0 false false
  | 0x03 => laneInt (if t then b else a) (if t then a else b) false false
  | 0x04 => laneInt (if t then a else 0) 0 false false
  | _ => laneReserved

end Sys2Proof.Machine
end

