-- ==== Sys2Proof/Machine/RunParts.lean ====
section
/-! DEFINITION. The parts of a run: its units, elements on ports, reports, ends and rubble (R60, R63, R73 to R78,
R97, R111 to R128). -/

namespace Sys2Proof.Machine

open Sys2Proof

/-! ### Parts of a run -/

/-- A unit of a run by its number. -/
def Run.unit? (r : Run) (u : Nat) : Option RUnit := r.units.find? (fun x => x.num = u)

/-- Changes a unit of a run. -/
def Run.onUnit (r : Run) (u : Nat) (f : RUnit → RUnit) : Run :=
  { r with units := r.units.map (fun x => if x.num = u then f x else x) }

/-- Parameter `k` of a unit (R66). -/
def RUnit.p (u : RUnit) (k : Nat) : Word := u.params.getD k 0

/-- Elements that wait on a destination port. -/
def Run.inAt (r : Run) (p : Port) : List Elem := assocGet r.ins p []

/-- Elements that a source port has emitted and its joint has not advanced. -/
def Run.outAt (r : Run) (p : Port) : List Elem := assocGet r.outs p []

/-- Whether a connection drives a streamed input. -/
def Run.fed (r : Run) (p : Port) : Bool := r.conns.any (fun c => c.dst = p)

/-- Whether an output port is connected. -/
def Run.used (r : Run) (p : Port) : Bool := r.conns.any (fun c => c.src = p)

/-- The streamed inputs of a unit that connections drive. -/
def Run.inputs (r : Run) (u : Nat) : List Port := ((List.range 4).map (mkPort u)).filter r.fed

/-- Emits an element on an output port; elements on a port that nothing connects are discarded (R74). -/
def Run.emit (r : Run) (u code : Nat) (e : Elem) : Run :=
  let p := mkPort u code
  if r.used p then { r with outs := assocSet r.outs p (r.outAt p ++ [e]) } else r

/-- Emits R, S, F and X of one firing (R74, R130). A rubble input makes every output rubble (R63). -/
def Run.emitAll (r : Run) (u i : Nat) (o : LaneOut) (rub : Bool) : Run :=
  (((r.emit u 4 ⟨i, o.r, rub⟩).emit u 5 ⟨i, o.s, rub⟩).emit u 6 ⟨i, o.f, rub⟩).emit u 7 ⟨i, o.x, rub⟩

/-- Whether an element that waits on one of the inputs `ps` can still meet its partners: every other input holds its index
or has not reached it (R73, R75). -/
def Run.partnered (r : Run) (ps : List Port) (e : Elem) : Bool :=
  ps.all (fun p => (r.inAt p).any (fun y => y.idx = e.idx) || !(r.inAt p).any (fun y => e.idx < y.idx))

/-- Discards the elements on a unit's inputs that have no partner (R75). -/
def Run.align (r : Run) (u : Nat) : Run :=
  let ps := r.inputs u
  if ps.length ≤ 1 then r
  else { r with ins := r.ins.map (fun (e : BitVec 12 × List Elem) =>
    if ps.contains e.1 then (e.1, e.2.filter (r.partnered ps)) else e) }

/-- The index of the element that heads a unit's inputs, or the next one to fire (R73, R75). -/
def Run.nextIdx (r : Run) (u : RUnit) : Nat :=
  match (r.inputs u.num).filterMap (fun p => (r.inAt p).head?) with
  | e :: _ => e.idx
  | [] => u.fired

/-- The next index for which a unit may fire: every connected input holds its element (R73, R75). -/
def Run.ready (r : Run) (u : RUnit) : Option Nat :=
  let ins := r.inputs u.num
  if u.ended then none
  else if ins.isEmpty then (if u.fired < r.n then some u.fired else none)
  else if ins.all (fun p => !(r.inAt p).isEmpty) then some (r.nextIdx u)
  else none

/-- The operand on an input: the element that waits there, or the parameter P1 to P3, or the constant of the outer operand that
a soft course binds to it (R66, R87). -/
def Run.operand (r : Run) (u : RUnit) (code : Nat) : Word :=
  if r.fed (mkPort u.num code) then ((r.inAt (mkPort u.num code)).headD ⟨0, 0, false⟩).val
  else assocGet r.consts (mkPort u.num code) (u.p (1 + code))

/-- Whether a rubble-marked element waits on some input (R76). -/
def Run.rubbleIn (r : Run) (u : RUnit) : Bool :=
  (r.inputs u.num).any (fun p => ((r.inAt p).headD ⟨0, 0, false⟩).rub)

/-- Takes one element from every connected input of a unit and counts the firing; what then has no partner is discarded
(R74, R75). -/
def Run.take (r : Run) (u : Nat) : Run :=
  let ps := r.inputs u
  (({ r with ins := r.ins.map (fun (e : BitVec 12 × List Elem) =>
      if ps.contains e.1 then (e.1, e.2.drop 1) else e) }).onUnit u (fun x => { x with fired := r.nextIdx x + 1 })).align u

/-- The length of a streamer's stream (R97). -/
def RUnit.len (u : RUnit) (n : Nat) : Nat :=
  let l := (u.p 2).toNat % 131072
  if l = 0 then n else l

/-- The staging position of element `e` of a staging stream (R99). -/
def RUnit.stagPos (u : RUnit) (e : Nat) : Nat := (u.p 1).toNat % 64 * 512 + e

/-! ### Reports and ends (R111 to R115, R121 to R124, R139, R160) -/

/-- Writes a run report, or loses it (R113). -/
def runReport (P : Pier) (rout unit index : Nat) : Pier :=
  if P.runs.rout = 0#4 then
    { P with runs := { P.runs with rout := BitVec.ofNat 4 rout, unit := BitVec.ofNat 4 unit, index := BitVec.ofNat 16 index } }
  else { P with runs := { P.runs with ovf := true } }

/-- The MC stones that a run uses, itself or through MONT and ECP (R83). -/
def mcUsed (r : Run) : List Nat :=
  (List.range 2).filter (fun s => r.units.any (fun u => u.num = 0x0A + s || u.num = 0x20 || u.num = 0x25))

/-- Accumulators of the named MC stones lose their meaning: free values from number `fr`; what was rubble stays rubble until
an operation resets it (R127, R139, log 2). -/
def freeAccs (P : Pier) (fr : Nat) (stones : List Nat) : Pier :=
  let idx := stones.flatMap (fun s => (List.range 32).map (fun l => 32 * s + l))
  { P with runs := { P.runs with
      acc := idx.foldl (fun m i => m.set i (Config.free 80 (fr + i))) P.runs.acc } }

/-- Free values that the end of a run may use. -/
def accFrees : Nat := 64

/-- Sets an IPEND bit of the sequencer (R262). -/
def Pier.pend (P : Pier) (k : Nat) : Pier :=
  { P with core := { P.core with ipend := P.core.ipend ||| BitVec.ofNat 9 (2 ^ k) } }

/-- The executing run ends with OK or RUBBLE: report, vector 16, key slots cleared; the queued run takes
its place (R104, R115, R126, R160). The courses it names leave the accumulators they claim without meaning (R139). -/
def finishRun (P : Pier) (now fr : Nat) (r : Run) : Pier :=
  let P := match r.rubble with
    | some (i, u) => runReport P 1 u i
    | none => P
  let P := freeAccs P fr r.mcClaims
  let P := if r.ic then P.pend 0 else P
  { P with
    runs := { P.runs with exec := P.runs.queued, queued := none, started := false, keySlots := [] }
    pw := { P.pw with lastRun := now } }

/-- The executing run faults: it ends, the queued run is discarded, vector 14 becomes pending, and for a
stream fault FLT and FCS are written (R115, R121, R123, R124). -/
def faultRun (P : Pier) (now fr : Nat) (r : Run) (rout unit index : Nat) (syn : Option (Word × Word)) : Pier :=
  let P := runReport (freeAccs P fr (mcUsed r)) rout unit index
  let core := { P.core with runFault := true }
  let core := match syn with
    | some (flt, fcs) => { core with flt := flt, fcs := fcs }
    | none => core
  { P with
    core := core
    runs := { P.runs with exec := none, queued := none, started := false, keySlots := [] }
    pw := { P.pw with lastRun := now } }

/-- The index that an aborted run reports (R128). -/
def abortIndex (r : Run) : Nat :=
  let left := (r.units.filter (fun u => isStore u.num && r.fed (mkPort u.num 0) && !u.ended && u.committed < u.len r.n)).map (·.committed)
  left.foldl min r.n

/-- PR_RUN_CTL.ABORT: the executing run ends and the queued run is discarded (R128). -/
def abortRun (P : Pier) (now fr : Nat) : Pier :=
  match P.runs.exec with
  | none => P
  | some r =>
    let P := runReport (freeAccs P fr (mcUsed r)) 2 0 (abortIndex r)
    { P with
      runs := { P.runs with exec := none, queued := none, started := false, keySlots := [] }
      pw := { P.pw with lastRun := now } }

/-! ### Rubble seen by a run (R126) -/

/-- Records rubble observed by unit code `u` at index `i`: the lowest index, then the lower code. -/
def Run.observe (r : Run) (i u : Nat) : Run :=
  { r with rubble := match r.rubble with
      | none => some (i, u)
      | some (j, v) => if i < j ∨ (i = j ∧ u < v) then some (i, u) else some (j, v) }

/-! ### Segments of RD0 (R146, R147) -/

/-- Segment length of RD0; none for a reserved value (R146). -/
def rdSeg (r : Run) (u : RUnit) : Option Nat :=
  let s := (u.p 4).toNat % 131072
  if s = 0 then some r.n else if s ≤ 65536 then some s else none

/-- Emits the segment that RD0 has gathered: one element on each of R, S and F, of which an undefined one is 0 (R146, R147, R127;
DEDUCED: R130's zero for each firing is left to X, for which R146 gives no emission; log 72). -/
def rdEmit (r : Run) (u : RUnit) (s : Nat) : Run :=
  let rub := u.ga.any (·.rub)
  let o := rdSegment (u.p 0).toNat (u.p 5) r.fix.rm (u.ga.map (fun e => (e.idx, e.val)))
  (((r.emit u.num 4 ⟨s, o.r, rub⟩).emit u.num 5 ⟨s, o.s, rub⟩).emit u.num 6 ⟨s, o.f, rub⟩).onUnit u.num (fun x => { x with ga := [] })

/-! ### Batches of MONT and ECP (R165, R169) -/

/-- Limbs of a number and coordinates of a point for MONT or ECP: L, k; none where a parameter is reserved. -/
def tileLk (u : RUnit) : Option (Nat × Nat) :=
  if u.num = 0x20 then
    let l := (u.p 5).toNat % 256
    if (u.p 0 = 1 || u.p 0 = 2) && 1 ≤ l && l ≤ 128 then some (l, 1) else none
  else if u.p 0 = 1 || u.p 0 = 2 then
    match (u.p 5).toNat % 16 with
    | 1 => some (8, 3)
    | 2 => some (12, 3)
    | 3 => some (8, 4)
    | _ => none
  else none

/-- W, L and k of a run's MONT or ECP; none where a parameter is reserved (R165, R169). -/
def tileShape (n : Nat) (u : RUnit) : Option (Nat × Nat × Nat) :=
  let w := (u.p 4).toNat % 8192
  match tileLk u with
  | some (l, k) => if w % 32 = 0 && 32 ≤ w && w ≤ 4096 && k * l * w = n then some (w, l, k) else none
  | none => none

end Sys2Proof.Machine
end

