-- ==== Sys2Proof/Machine/Segments.lean ====
section
/-! DEFINITION. Segments of AES, TDES and HASH: key references, what a segment gathers and what it emits
(R160, R161, R172 to R177). -/

namespace Sys2Proof.Machine

open Sys2Proof

/-- The algorithm codes of a course's family (R161, R397). -/
def courseAlgs (u : Nat) : List Nat :=
  match u with
  | 0x21 => [3, 4, 5]
  | 0x22 => [1, 2]
  | _ => [8]

/-- The usage bit that an operation of a course needs (R161, R398). -/
def courseUsage (u op : Nat) : Nat :=
  if u = 0x23 then 2
  else match op with
    | 1 => 0
    | 2 => 1
    | 3 => 0
    | 4 => 1
    | 5 => if u = 0x21 then 0 else 2
    | _ => 2

/-- The key of a reference that a course takes while it fires for index `i`; none where the reference is not
honoured (R161). -/
def keyOfRef (slots : List KeySlot) (u op i : Nat) (ref : Word) : Option (List Byte) :=
  let alg := (ref.extractLsb' 24 8).toNat
  if ref.getLsbD 32 && ref.extractLsb' 33 3 = 0#3 && ref.extractLsb' 9 15 = 0#15 then
    match slots.find? (fun s => s.slot = ref.toNat % 512) with
    | some s =>
      if s.idx ≤ i && i < s.idx + 512 && s.alg.toNat = alg && (courseAlgs u).contains alg &&
          s.usage.getLsbD (courseUsage u op) then some s.key else none
    | none => none
  else none

/-- Whether an operation makes one output per segment: CMAC, MAC1, MAC3 and the digests (R173, R174, R176). -/
def segMac (u op : Nat) : Bool :=
  u = 0x23 || (u = 0x21 && op = 6) || (u = 0x22 && (op = 5 || op = 6))

/-- Elements of a block: 4 for AES, 2 for TDES, 1 word for HASH (R172, R176). -/
def segBlock (u : Nat) : Nat :=
  match u with
  | 0x21 => 4
  | 0x22 => 2
  | _ => 1

/-- Whether the parameters of a run's AES, TDES or HASH are reserved (R131, R172 to R176). -/
def segReserved (n : Nat) (x : RUnit) : Bool :=
  let op := (x.p 0).toNat
  if x.num = 0x23 then op = 0 || 4 < op
  else op = 0 || 6 < op || 16384 < (x.p 4).toNat % 65536 || n % segBlock x.num ≠ 0 ||
    (x.num = 0x22 && segMac x.num op && ((x.p 5).toNat % 4 = 0 || (x.p 5).toNat % 4 = 3))

/-- Elements of a segment (R172, R176). -/
def segLen (n : Nat) (x : RUnit) : Nat :=
  let s := (x.p 4).toNat % 65536
  if s = 0 then n else s * segBlock x.num

/-- Whether a segment's operation takes a key. -/
def segKeyed (u op : Nat) : Bool := u ≠ 0x23 || op = 4

/-- Takes one firing into the segment of a course: the data element, B where the segment reads it, and the key
at the segment's first element (R172, R176). -/
def segGather (slots : List KeySlot) (n i : Nat) (x : RUnit) (a b c : Word) (rub : Bool) : RUnit :=
  let op := (x.p 0).toNat
  let pos := i % segLen n x
  let gb := if segMac x.num op then (if pos = 0 then [⟨i, b, rub⟩] else x.gb)
    else if pos = 0 then [⟨i, b, rub⟩]
    else if pos < segBlock x.num then x.gb ++ [⟨i, b, rub⟩]
    else x.gb
  let gc := if pos = 0 then
      match keyOfRef slots x.num op i c with
      | some k => ⟨1, 0, false⟩ :: k.map (fun b => ⟨0, b.setWidth 36, false⟩)
      | none => []
    else x.gc
  { x with ga := x.ga ++ [⟨i, a, rub⟩], gb := gb, gc := gc }

/-- The key that a segment holds. -/
def segKey (x : RUnit) : Option (List Byte) :=
  match x.gc with
  | [] => none
  | _ :: ks => some (ks.map (fun e => e.val.setWidth 8))

/-- The bytes of a digest or MAC of a segment's message. -/
def segDigest (x : RUnit) (key m : List Byte) : List Byte :=
  let op := (x.p 0).toNat
  match x.num with
  | 0x21 => cmac (aesCipher key) m
  | 0x22 => if op = 5 then macAlg1 key ((x.p 5).toNat % 4) m else macAlg3 key ((x.p 5).toNat % 4) m
  | _ => match op with
    | 1 => sha256 m
    | 2 => sha512 m
    | 3 => sha3_256 m
    | _ => hmacSha256 key m

/-- Output words of a segment of a MAC or digest (R173, R174, R176). -/
def segWords (x : RUnit) : Nat :=
  match x.num with
  | 0x21 => 4
  | 0x22 => 2
  | _ => if x.p 0 = 2 then 16 else 8

/-- The output blocks of the whole blocks that a segment holds (R173, R174). -/
def segCipher (x : RUnit) (key : List Byte) : List Byte :=
  let c := if x.num = 0x21 then aesCipher key else tdesCipher key
  let bs := (chunksOf c.size (plainOut (x.ga.map (·.val)))).filter (fun b => b.length = c.size)
  let iv := fitBytes c.size (plainOut (x.gb.map (·.val)))
  (match (x.p 0).toNat with
   | 1 => bs.map c.enc
   | 2 => bs.map c.dec
   | 3 => cbcEnc c iv bs
   | 4 => cbcDec c iv bs
   | _ => ctrMode c iv bs).flatten

/-- Emits words on R with their flags on F from index `i` (R130, R132, R63). -/
def emitWords (r : Run) (u i : Nat) (v rub : Bool) : List Word → Run
  | [] => r
  | w :: ws => emitWords (r.emitAll u i (laneInt w 0 false v) rub) u (i + 1) v rub ws

/-- Emits what a segment has gathered; a rubble element makes every output of the segment rubble (R161, R172,
R176, R177). -/
def segEmit (r : Run) (x : RUnit) (n : Nat) : Run :=
  let op := (x.p 0).toNat
  let rub := x.ga.any (·.rub)
  let first := (x.ga.headD ⟨0, 0, false⟩).idx
  let key := segKey x
  let bad := segKeyed x.num op && key.isNone
  let r := r.onUnit x.num (fun y => { y with ga := [], gb := [], gc := [] })
  if segMac x.num op then
    let cap := 4 * x.ga.length
    let len := (x.gb.headD ⟨0, 0, false⟩).val.toNat
    let m := (plainOut (x.ga.map (·.val))).take (min len cap)
    let out := if bad then List.replicate (segWords x) 0 else plainIn (segDigest x (key.getD []) m)
    emitWords r x.num (first / segLen n x * segWords x) (bad || cap < len) rub out
  else
    let whole := x.ga.length / segBlock x.num * segBlock x.num
    let out := if bad then List.replicate whole 0 else plainIn (segCipher x (key.getD []))
    emitWords r x.num first bad rub out

/-- What a course emits when its input ends inside a segment: what it has gathered. -/
def segFlush (r : Run) (x : RUnit) : Run :=
  if x.ga.isEmpty || segReserved r.n x then r else segEmit r x r.n

end Sys2Proof.Machine
end

