-- ==== Sys2Proof/Machine/Run.lean ====
section
/-! DEFINITION. Runs: streams, joints, firing, commits and launch (R60, R73 to R79, R97 to R128). -/

namespace Sys2Proof.Machine

open Sys2Proof

/-! ### Ends of units (R73 to R75) -/

/-- Whether the stream that drives an input has ended and everything of it has been taken. -/
def Run.inputDone (r : Run) (p : Port) : Bool :=
  (r.inAt p).isEmpty &&
  r.conns.all (fun c => c.dst != p ||
    ((r.outAt c.src).isEmpty && match r.unit? (portUnit c.src) with
      | some s => s.ended
      | none => true))

/-- Whether a unit takes its whole input into its own store (R165, R168). -/
def storesInput (u : Nat) : Bool := u = 0x20 || u = 0x25

/-- Whether the stream that drives an input has ended short of N, counting what was taken: a course that needs
the whole batch never completes then (R168). -/
def Run.inputShort (r : Run) (taken : Nat) (p : Port) : Bool :=
  taken + (r.inAt p).length < r.n &&
  r.conns.all (fun c => c.dst != p ||
    ((r.outAt c.src).isEmpty && match r.unit? (portUnit c.src) with
      | some s => s.ended
      | none => true))

/-- Whether a unit has finished firing. -/
def Run.unitDone (r : Run) (u : RUnit) : Bool :=
  let ins := r.inputs u.num
  if isLoad u.num then u.len r.n ≤ u.fired
  else if isStore u.num && !r.fed (mkPort u.num 0) then true
  else if ins.isEmpty then r.n ≤ u.fired
  else if storesInput u.num && u.tiles ≠ 0 then r.n ≤ u.fired
  else ins.any r.inputDone || (storesInput u.num && (tileShape r.n u).isSome && ins.any (r.inputShort u.fired))

/-- What a unit does when its inputs end: RD0 emits a segment that received some firings (R146); what
waits on its inputs is discarded (R75). -/
def Run.endUnit (r : Run) (u : RUnit) : Run :=
  let r := if u.num = 0x0E && !u.ga.isEmpty then
      match rdSeg r u with
      | some seg => rdEmit r u ((u.fired - 1) / max seg 1)
      | none => r
    else if u.num = 0x21 || u.num = 0x22 || u.num = 0x23 then segFlush r u
    else r
  let ps := r.inputs u.num
  ({ r with ins := r.ins.filter (fun e => !ps.contains e.1) }).onUnit u.num (fun x => { x with ended := true })

/-- Marks units that have finished, `k` rounds. -/
def Run.settle : Nat → Run → Run
  | 0, r => r
  | k + 1, r =>
    match r.units.find? (fun u => !u.ended && r.unitDone u) with
    | some u => Run.settle k (r.endUnit u)
    | none => r

/-- Whether a run has ended: every unit has finished and every element that a store streamer will write is committed (R104).
DESIGN CHOICE (log 54): a run whose last store is committed while other units still have indices to fire runs on until they
have fired. -/
def Run.over (r : Run) : Bool := r.units.all (·.ended)

/-! ### Room on a joint and the commit horizon (R73, R78, R79, R116) -/

/-- Whether RD0 reduces: an operation of R147 beside PASS, with a valid segment length. -/
def rdReduces (r : Run) (x : RUnit) : Bool := x.num = 0x0E && x.p 0 ≠ 0 && (x.p 0).toNat ≤ 0xC && (rdSeg r x).isSome

/-- Whether a unit is one of the courses that work on segments, with valid parameters (R172, R176). -/
def segWorks (r : Run) (x : RUnit) : Bool :=
  (x.num = 0x21 || x.num = 0x22 || x.num = 0x23) && !segReserved r.n x

/-- The lowest index that a unit may still emit on a port, where it fires for index `i` next (R74, R146, R172, R176,
R180). -/
def Run.nextOut (r : Run) (x : RUnit) (code i : Nat) : Nat :=
  if rdReduces r x && code ≠ 7 then i / max ((rdSeg r x).getD 1) 1
  else if x.num = 0x11 then (if code = 5 then i / 16 * 16 + 15 else i / 16 * 16)
  else if segWorks r x then
    (if segMac x.num (x.p 0).toNat then i / max (segLen r.n x) 1 * segWords x else i / max (segLen r.n x) 1 * segLen r.n x)
  else i

/-- Whether the joints of a unit that fires for index `i` can take what it emits: nothing of an earlier group waits on
them (R73, R78, R79). -/
def Run.room (r : Run) (x : RUnit) (i : Nat) : Bool :=
  (List.range 4).all (fun k => (r.outAt (mkPort x.num (4 + k))).all (fun e => e.idx / 32 = r.nextOut x (4 + k) i / 32))

/-- Whether a unit emits fewer elements than it fires, or emits only when a segment or a batch is whole (R74). -/
def Run.gathers (r : Run) (x : RUnit) : Bool :=
  rdReduces r x || segWorks r x || x.num = 0x11 || (storesInput x.num && (tileShape r.n x).isSome)

/-- Units that elements of a gathering unit reach, by `k` rounds over the connections. -/
def Run.behind (r : Run) : Nat → List Nat → List Nat
  | 0, l => l
  | k + 1, l =>
    Run.behind r k (l ++ (r.conns.filter (fun c => l.contains (portUnit c.src))).map (fun c => portUnit c.dst)).eraseDups

/-- The units fed, directly or not, by a gathering unit. -/
def Run.gathered (r : Run) : List Nat :=
  let first := (r.conns.filter (fun c => match r.unit? (portUnit c.src) with
    | some x => r.gathers x
    | none => false)).map (fun c => portUnit c.dst)
  Run.behind r r.units.length first.eraseDups

/-- The index up to which a unit has fired; MONT and ECP fire for an element when they take it (R116, R168). -/
def Run.firedTo (r : Run) (x : RUnit) : Nat :=
  if storesInput x.num && (tileShape r.n x).isSome then
    ((r.inputs x.num).map (fun p => x.fired + (r.inAt p).length)).foldl min r.n
  else r.nextIdx x

/-- The horizon H that bounds how far ahead a unit fires: the lowest index that some unit has yet to fire (R116). A unit behind a
gathering one is not counted: it cannot fire before the gathering unit has, and R146, R168 and R172 let that unit gather more
than 512 elements (DEDUCED, log 49). -/
def Run.horizon (r : Run) : Nat :=
  let late := r.gathered
  ((r.units.filter (fun x => !x.ended && !isStore x.num && !late.contains x.num)).map r.firedTo).foldl min r.n

/-- Whether a unit may fire for index `i`: below H + 512 (R116). -/
def Run.near (r : Run) (i : Nat) : Bool := i < r.horizon + 512

/-! ### Staging destinations (R60, R99, R116) -/

/-- Writes an element of a staging stream (R60, R99). -/
def stagWrite (P : Pier) (u : RUnit) (e : Elem) : Pier :=
  let a := u.stagPos e.idx
  { P with runs := { P.runs with
      stag := P.runs.stag.set a e.val
      stagRub := P.runs.stagRub.set a (if e.rub then 1#1 else 0#1)
      stagBad := P.runs.stagBad.filter (· ≠ a) } }

/-- A staging store streamer writes each element when it arrives (R101, R116): one element at a time. -/
def stagDrain : Nat → Pier → Run → Pier × Run
  | 0, P, r => (P, r)
  | k + 1, P, r =>
    match r.units.find? (fun u => isStore u.num && u.p 0 = 1 && r.fed (mkPort u.num 0) && (r.ready u).isSome) with
    | none => (P, r)
    | some u =>
      let e := (r.inAt (mkPort u.num 0)).headD ⟨0, 0, false⟩
      let rub := r.rubbleIn u
      let P := if e.idx < u.len r.n then stagWrite P u { e with rub := rub } else P
      stagDrain k P ((r.take u.num).onUnit u.num (fun x => { x with committed := e.idx + 1 }))

/-- After any step of a run: staging writes, ends of units, and the end of the run. -/
def afterRun (P : Pier) (now fr : Nat) (r : Run) : Pier :=
  let (P, r) := stagDrain 256 P r
  let r := r.settle (r.units.length + 1)
  if r.over then finishRun P now fr r else { P with runs := { P.runs with exec := some r } }

/-! ### Memory streams (R98, R101, R121, R126) -/

/-- The translation of a run: as fixed at launch (R105). -/
def runTrCtx (f : RunFix) : TrCtx := ⟨f.tag, f.s1w, f.s1root, f.s2, f.user⟩

/-- The identity of a run's accesses (R277). -/
def runIdent (f : RunFix) : Ident := if f.user then tagIdent f.tag else .supervisor

/-- The syndrome of a run's bus error (R320, R321). -/
def runBusFcs (f : RunFix) (acc : Access) (kind : Nat) : Word :=
  mkFcs f.user acc 0 false 0 kind ||| 0x8000#36

/-- The KIND of a bus error of a stream: a register window takes no stream (R32, R321). -/
def streamKind (pa : Word) (k : Nat) : Nat :=
  match physTarget pa with
  | .pr _ => 0xE
  | .qy _ => 0xE
  | .pt _ => 0xE
  | _ => k

/-- The physical address of a stream element, or the fault: ROUT and syndrome (R98, R121). -/
def streamAddr (P : Pier) (now : Nat) (f : RunFix) (acc : Access) (va : Word) :
    Except (Option (Nat × Word)) Word × Pier :=
  if f.user || f.te then
    match translate (runTrCtx f) now false acc va P with
    | .ok pa P => (.ok pa, P)
    | .held P => (.error none, P)
    | .fault vec fcs P => (.error (some (if vec = 6#7 then 4 else 3, fcs ||| 0x8000#36)), P)
  else (.ok va, P)

/-- What the reading of one element answers. -/
inductive StreamRead where
  | elem (e : Elem)
  | held
  | fault (rout : Nat) (syn : Option (Word × Word))
deriving DecidableEq, Repr

/-- Reads element `i` of a load stream (R98, R99, R121, R126, R456). -/
def loadElem (P : Pier) (now : Nat) (r : Run) (u : RUnit) (i : Nat) : StreamRead × Pier :=
  if u.p 0 = 1 then
    let a := u.stagPos i
    if a ∈ P.runs.stagBad then
      (.fault 9 none, P.detect 0x06 (a / 512 * 512 + a % 512) 0)
    else
      let rub := P.runs.stagRub.get a = 1#1
      (.elem ⟨i, P.runs.stag.get a, rub⟩, P)
  else
    let va := u.p 1 + BitVec.ofNat 36 i
    match streamAddr P now r.fix .read va with
    | (.error none, P) => (.held, P)
    | (.error (some (rout, fcs)), P) => (.fault rout (some (va, fcs)), P)
    | (.ok pa, P) =>
      match physRead P now (runIdent r.fix) .run pa with
      | .ok w P => (.elem ⟨i, w, false⟩, P)
      | .held P => (.held, P)
      | .bus k P => (.fault 5 (some (va, runBusFcs r.fix .read (streamKind pa k))), P)
      | .rubble P => (.elem ⟨i, 0, true⟩, P)

/-- Fires a load streamer for indices from `i`, `k` of them (R101, R121, R126). `none` means held. -/
def loadGroup (now fr : Nat) (u : RUnit) : Nat → Nat → Pier → Run → Option (Pier × Option Run)
  | 0, _, P, r => some (P, some r)
  | k + 1, i, P, r =>
    match loadElem P now r u i with
    | (.held, _) => none
    | (.fault rout syn, P) => some (faultRun P now fr r rout u.num i syn, none)
    | (.elem e, P) =>
      if e.rub && r.sr then some (faultRun P now fr r 6 u.num i none, none)
      else
        let r := if e.rub then { r.observe i u.num with rubIdx := r.rubIdx ++ [i] } else r
        loadGroup now fr u k (i + 1) P ((r.emit u.num 4 e).onUnit u.num (fun x => { x with fired := i + 1 }))

/-- LOAD_STREAMER_FIRE: the streamer reads the next row of its stream and emits its group (R101). Nothing happens while its
joint has no room, the row reaches H + 512 (R116) or its bank holds the access. -/
def loadFire (P : Pier) (now fr u : Nat) : Pier :=
  match P.runs.exec with
  | none => P
  | some r =>
    if !P.runs.started then P else
    match r.unit? u with
    | none => P
    | some x =>
      let stop := min (32 * (x.fired / 32 + 1)) (x.len r.n)
      if x.ended || stop ≤ x.fired || !r.room x x.fired || !r.near (stop - 1) then P
      else match loadGroup now fr x (stop - x.fired) x.fired P r with
        | none => (loadElem P now r x x.fired).2
        | some (P, none) => P
        | some (P, some r) => afterRun P now fr r

/-! ### Joints (R77 to R79, R119, R126) -/

/-- Groups that wait on a destination. -/
def groupsAt (l : List Elem) : Nat := (l.map (fun e => e.idx / 32)).eraseDups.length

/-- Whether a destination can accept one more group (R79, R119). -/
def Run.accepts (r : Run) (c : Conn) : Bool :=
  match r.unit? (portUnit c.dst) with
  | some u => u.ended || storesInput u.num || groupsAt (r.inAt c.dst) < 4 + c.dly
  | none => true

/-- Whether the first group on a port is whole: all of it has been emitted, and what the unit still emits lies in later
groups (R78). -/
def Run.groupWhole (r : Run) (p : Port) (g : List Elem) : Bool :=
  g.length = 32 || (r.outAt p).length ≠ g.length || match r.unit? (portUnit p) with
    | some u => u.ended || (g.headD ⟨0, 0, false⟩).idx / 32 < r.nextOut u (portCode p) (r.nextIdx u) / 32
    | none => true

/-- Delivers a group to a destination; what then has no partner is discarded (R75). -/
def Run.deliver (r : Run) (g : List Elem) (dst : Port) : Run :=
  match r.unit? (portUnit dst) with
  | some u => if u.ended then r else ({ r with ins := assocSet r.ins dst (r.inAt dst ++ g) }).align u.num
  | none => r

/-- JOINT_GROUP_ADVANCE: the joint of an output port advances a group when every destination can accept it
(R79); rubble that no streamer or KF0 read at that index is observed on the joint, as R126's last clause has it (log 55: the
example DTOTAL of spec/04_bonds_runs.md, line 379, reports LS0 where that clause gives the joint and the lower index). -/
def jointAdvance (P : Pier) (now fr : Nat) (p : Port) : Pier :=
  match P.runs.exec with
  | none => P
  | some r =>
    let out := r.outAt p
    match out with
    | [] => P
    | e :: _ =>
      let g := out.takeWhile (fun x => x.idx / 32 = e.idx / 32)
      let dsts := r.conns.filter (fun c => c.src = p)
      if !r.groupWhole p g || !dsts.all r.accepts then P
      else match g.find? (fun x => x.rub && !r.rubIdx.contains x.idx) with
        | some x =>
          if r.sr then faultRun P now fr r 6 9 x.idx none
          else afterRun P now fr (dsts.foldl (fun r c => r.deliver g c.dst)
            { r.observe x.idx 9 with outs := assocSet r.outs p (out.drop g.length) })
        | none =>
          afterRun P now fr (dsts.foldl (fun r c => r.deliver g c.dst)
            { r with outs := assocSet r.outs p (out.drop g.length) })

/-! ### Commits (R101, R116, R122, R126) -/

/-- The commit horizon has passed group `g`: every unit that still fires has fired past it (R116). Store
streamers translate ahead of the data, group by group. -/
def Run.horizonPast (r : Run) (g : Nat) : Bool :=
  r.units.all (fun u => u.ended || isStore u.num || 32 * (g + 1) ≤ r.nextIdx u)

/-- Translates the elements of group `g` of a store streamer and checks that they can be written; the
fault with its index, or the addresses. -/
def storeAddrs (now : Nat) (r : Run) (u : RUnit) : List Nat → Pier → Except (Option (Nat × Nat × Word × Word)) (List (Nat × Word)) × Pier
  | [], P => (.ok [], P)
  | i :: is, P =>
    let va := u.p 1 + BitVec.ofNat 36 i
    match streamAddr P now r.fix .write va with
    | (.error none, P) => (.error none, P)
    | (.error (some (rout, fcs)), P) => (.error (some (i, rout, va, fcs)), P)
    | (.ok pa, P) =>
      let bad (k : Nat) (P : Pier) := (Except.error (some (i, 5, va, runBusFcs r.fix .write k)), P)
      let go (P : Pier) := match storeAddrs now r u is P with
        | (.error e, P) => (.error e, P)
        | (.ok l, P) => (.ok ((i, pa) :: l), P)
      match physTarget pa with
      | .bank b _ =>
        match bankGrant P now (runIdent r.fix) .run b with
        | .ok _ P => go P
        | .held P => (.error none, P)
        | .bus k P => bad k P
        | .rubble P => go P
      | .quarry _ _ =>
        if reserveBase ≤ pa.toNat && !reserveAllows (runIdent r.fix) then
          bad 0xD (P.detect 0x0A (pa.toNat % 2 ^ 32) (pa.toNat / 2 ^ 32))
        else go P
      | _ => bad (streamKind pa 0xC) P

/-- Bank words of a group are stored one by one; a rubble element as the poison codeword (R61). -/
def storeBanks (P : Pier) : List (Nat × Word × Elem) → Pier
  | [] => P
  | (_, pa, e) :: l =>
    match physTarget pa with
    | .bank _ a => storeBanks (bankStore P a (if e.rub then eccPoison else eccEncode e.val)) l
    | _ => storeBanks P l

/-- The quarry lines that a group writes, in order. -/
def groupLines (ws : List (Nat × Word × Elem)) : List Nat :=
  (ws.filterMap (fun w => match physTarget w.2.1 with
    | .quarry l _ => some l
    | _ => none)).eraseDups

/-- The writes of a group to one line. -/
def lineOfGroup (ws : List (Nat × Word × Elem)) (l : Nat) : List LineWrite :=
  ws.filterMap (fun w => match physTarget w.2.1 with
    | .quarry l' p => if l' = l then some ⟨p, w.2.2.val, 0xF#4, w.2.2.rub⟩ else none
    | _ => none)

/-- The lowest index of a group that lies in a line. -/
def lineIndex (ws : List (Nat × Word × Elem)) (l : Nat) : Nat :=
  ((ws.filter (fun w => match physTarget w.2.1 with
    | .quarry l' _ => l' = l
    | _ => false)).map (·.1)).foldl min 65536

/-- Whether a line reads as poison and the group does not replace it whole (R64, R122). -/
def meetsPoison (P : Pier) (ws : List (Nat × Word × Elem)) (l : Nat) : Bool :=
  !coversLine (lineOfGroup ws l) && (lineFetch P .run l).1.isNone

/-- Writes the lines of a group (R290); the lines that were poison are touched rubble (R126). DESIGN CHOICE (log 56): the
elements of one group that fall into a line are one write of R64, so a line that two groups share is never covered whole. -/
def storeLines (ws : List (Nat × Word × Elem)) (u : Nat) : List Nat → Pier → Run → Pier × Run
  | [], P, r => (P, r)
  | l :: ls, P, r =>
    let met := meetsPoison P ws l
    let P := (lineWrite P .run true l (lineOfGroup ws l)).2
    storeLines ws u ls P (if met then r.observe (lineIndex ws l) u else r)

/-- The store streamers that write memory. -/
def Run.memStores (r : Run) : List RUnit :=
  [4, 5].filterMap (fun n => (r.unit? n).filter (fun u => u.p 0 ≠ 1 && r.fed (mkPort n 0)))

/-- The translation of group `g` by every memory store streamer (R116): the first fault, or nothing. -/
def translateAhead (now : Nat) (r : Run) (g : Nat) : List RUnit → Pier → Except (Option (Nat × Nat × Nat × Word × Word)) Unit × Pier
  | [], P => (.ok (), P)
  | u :: us, P =>
    let is := ((List.range 32).map (fun k => 32 * g + k)).filter (fun i => i < u.len r.n)
    match storeAddrs now r u is P with
    | (.error none, P) => (.error none, P)
    | (.error (some (i, rout, va, fcs)), P) =>
      (match translateAhead now r g us P with
       | (.error (some (j, rest)), P) => if j < i then (.error (some (j, rest)), P) else (.error (some (i, u.num, rout, va, fcs)), P)
       | (_, P) => (.error (some (i, u.num, rout, va, fcs)), P))
    | (.ok _, P) => translateAhead now r g us P

/-- The writes of those elements of a stream that lie below index `stop`, where every address of them translates. -/
def storeWrites (now : Nat) (r : Run) (y : RUnit) (es : List Elem) (stop : Nat) (P : Pier) : List (Nat × Word × Elem) :=
  let es := es.filter (fun e => e.idx < stop && e.idx < y.len r.n)
  match (storeAddrs now r y (es.map (·.idx)) P).1 with
  | .ok as => List.zipWith (fun (p : Nat × Word) e => (p.1, p.2, e)) as es
  | .error _ => []

/-- Whether a store streamer meets a poison line below index `stop`, in what has arrived for it or in what has not arrived yet
(R64, R122). -/
def poisonAhead (now : Nat) (r : Run) (y : RUnit) (stop : Nat) (P : Pier) : Bool :=
  let a := r.inAt (mkPort y.num 0)
  let next := a.foldl (fun m e => max m (e.idx + 1)) y.committed
  let ws := storeWrites now r y a stop P
  let rest := storeWrites now r y ((List.range stop).filterMap (fun i => if next ≤ i then some ⟨i, 0, false⟩ else none)) stop P
  ((ws.map (fun w => w.1 / 32)).eraseDups.any (fun g =>
    let ws := ws.filter (fun w => w.1 / 32 = g)
    (groupLines ws).any (meetsPoison P ws))) ||
  (groupLines rest).any (fun l => (lineFetch P .run l).1.isNone)

/-- Whether rubble that SR will make a fault may still be found below index `stop`: on a joint, or where the other store streamer
meets a poison line; a commit then waits (R121, R122; DEDUCED, log 73). -/
def Run.rubbleAhead (r : Run) (now : Nat) (u stop : Nat) (P : Pier) : Bool :=
  r.outs.any (fun o => o.2.any (fun e => e.rub && e.idx < stop && !r.rubIdx.contains e.idx)) ||
  r.memStores.any (fun y => y.num ≠ u && !y.ended && poisonAhead now r y stop P)

/-- The rest of a group's elements is consumed. -/
def Run.takeN (r : Run) (u : Nat) : Nat → Run
  | 0 => r
  | k + 1 => Run.takeN (r.take u) u k

/-- STORE_COMMIT: a memory store streamer commits its next group behind the commit horizon (R116, R121,
R122, R126). -/
def storeCommit (P : Pier) (now fr u : Nat) : Pier :=
  match P.runs.exec with
  | none => P
  | some r =>
    match r.unit? u with
    | none => P
    | some x =>
      let a := r.inAt (mkPort u 0)
      match a with
      | [] => P
      | e :: _ =>
        let g := e.idx / 32
        let grp := a.takeWhile (fun y => y.idx / 32 = g)
        let ts := (r.inAt (mkPort u 3)).takeWhile (fun y => y.idx / 32 = g)
        let fedT := r.fed (mkPort u 3)
        let n := if fedT then min grp.length ts.length else grp.length
        if x.ended || x.p 0 = 1 || n = 0 || !r.horizonPast g then P
        else match translateAhead now r g r.memStores P with
          | (.error none, P) => P
          | (.error (some (i, un, rout, va, fcs)), P) => faultRun P now fr r rout un i (some (va, fcs))
          | (.ok _, P) =>
            let es := ((List.range n).map (fun k =>
              let y := grp.getD k ⟨0, 0, false⟩
              { y with rub := y.rub || (fedT && (ts.getD k ⟨0, 0, false⟩).rub) })).filter (fun y => y.idx < x.len r.n)
            match storeAddrs now r x (es.map (·.idx)) P with
            | (.error _, P) => P
            | (.ok as, P) =>
              let ws := List.zipWith (fun (p : Nat × Word) e => (p.1, p.2, e)) as es
              let ls := groupLines ws
              match (if r.sr then ls.find? (meetsPoison P ws) else none) with
              | some l => faultRun P now fr r 6 u (lineIndex ws l) none
              | none =>
                if r.sr && r.rubbleAhead now u (32 * (g + 1)) P then P
                else
                  let (P, r) := storeLines ws u ls (storeBanks P ws) r
                  let last := (grp.getD (n - 1) e).idx
                  afterRun P now fr ((r.takeN u n).onUnit u (fun y => { y with committed := last + 1 }))

/-! ### Lane stones (R73, R76, R121, R127, R129) -/

/-- A unit of the executing run that may fire for an index (R73, R116). -/
def firing (P : Pier) (u : Nat) : Option (Run × RUnit × Nat) :=
  match P.runs.exec with
  | none => none
  | some r =>
    if !P.runs.started then none
    else match r.unit? u with
      | none => none
      | some x => match r.ready x with
        | none => none
        | some i => if r.room x i && r.near i then some (r, x, i) else none

/-- Ends a firing: consumes the inputs, emits the outputs (R74, R76). -/
def fireEmit (P : Pier) (now fr : Nat) (r : Run) (u i : Nat) (o : LaneOut) (rub : Bool) : Pier :=
  afterRun P now fr ((r.take u).emitAll u i o rub)

/-- A firing of a stone without state: its operation on A, B and C (R129). A trap that it takes faults the
run unless an input is rubble (R76, R121). -/
def fireLane (P : Pier) (now fr u : Nat) (trapRout trapUnit : Nat)
    (op : Run → RUnit → Nat → Word → Word → Word → LaneOut × Bool) : Pier :=
  match firing P u with
  | none => P
  | some (r, x, i) =>
    let rub := r.rubbleIn x
    let (o, trap) := op r x i (r.operand x 0) (r.operand x 1) (r.operand x 2)
    if trap && !rub then faultRun P now fr r trapRout trapUnit i none
    else fireEmit P now fr r u i o rub

/-- IA_FIRE (R135). -/
def iaFire (P : Pier) (now fr s : Nat) : Pier :=
  fireLane P now fr (8 + s) 0 0 (fun _ x _ a b c => (iaOp (x.p 0).toNat a b c, false))

/-- MC_FIRE: the accumulator of lane i mod 32 (R138, R139, R127). -/
def mcFire (P : Pier) (now fr s : Nat) : Pier :=
  match firing P (0xA + s) with
  | none => P
  | some (r, x, i) =>
    let k := 32 * s + i % 32
    let m := mcOp (x.p 0).toNat i (P.runs.acc.get k) (r.operand x 0) (r.operand x 1)
    let rubIn := r.rubbleIn x
    let was := k ∈ P.runs.accRub
    let out := rubIn || (m.reads && was)
    let upd := 3 ≤ (x.p 0).toNat && (x.p 0).toNat ≤ 10 && (x.p 0).toNat ≠ 9
    let nowRub := if upd then rubIn || (m.reads && was) else was
    let P := { P with runs := { P.runs with
      acc := P.runs.acc.set k m.acc
      accRub := if nowRub then (if was then P.runs.accRub else P.runs.accRub ++ [k]) else P.runs.accRub.filter (· ≠ k) } }
    fireEmit P now fr r (0xA + s) i m.out out

/-- DC_FIRE: an enabled decimal trap faults the run with ROUT 0x8, UNIT 0x7 (R141). -/
def dcFire (P : Pier) (now fr : Nat) : Pier :=
  fireLane P now fr 0xC 8 7 (fun r x _ a b c =>
    let o := dcOp (x.p 0).toNat a b c
    (o, o.trap && r.fix.dve))

/-- FP_FIRE: an enabled F36 flag faults the run with ROUT 0x7, UNIT 0x6 (R145). -/
def fpFire (P : Pier) (now fr : Nat) : Pier :=
  fireLane P now fr 0xD 7 6 (fun r x _ a b c =>
    let o := fpOp (x.p 0).toNat (x.p 4) r.fix.rm r.fix.fpEn a b c
    (o, o.trap))

/-- RD_FIRE: folds an element into its segment and emits at the segment's end (R146 to R149). -/
def rdFire (P : Pier) (now fr : Nat) : Pier :=
  match firing P 0xE with
  | none => P
  | some (r, x, i) =>
    let rub := r.rubbleIn x
    let a := r.operand x 0
    let op := (x.p 0).toNat
    if op = 0 then fireEmit P now fr r 0xE i (laneInt a 0 false false) rub
    else match rdSeg r x with
      | none => fireEmit P now fr r 0xE i laneReserved rub
      | some seg =>
        if 0xC < op then fireEmit P now fr r 0xE i laneReserved rub
        else
          let r := if x.ga.any (fun e => e.idx / seg ≠ i / seg) then rdEmit r x ((x.ga.headD ⟨i, 0, false⟩).idx / seg) else r
          let r := ((r.take 0xE).emit 0xE 7 ⟨i, 0, rub⟩).onUnit 0xE (fun y => { y with ga := y.ga ++ [⟨i, a, rub⟩] })
          let r := if (i + 1) % seg = 0 || i + 1 = r.n then
              match r.unit? 0xE with
              | some y => rdEmit r y (i / seg)
              | none => r
            else r
          afterRun P now fr r

/-- CY_FIRE: the carry of position i mod W (R150, R151, R127). -/
def cyFire (P : Pier) (now fr : Nat) : Pier :=
  match firing P 0xF with
  | none => P
  | some (r, x, i) =>
    let w := (x.p 4).toNat % 8192
    let w := if w = 0 then 1 else w
    let op := (x.p 0).toNat
    let rubIn := r.rubbleIn x
    if op = 1 && 4096 < w then fireEmit P now fr r 0xF i laneReserved rubIn
    else
      let t := i % w
      let carry := assocGet x.carry t (some 0)
      let o := cyOp op (r.operand x 0) (r.operand x 2) (carry.getD 0)
      if op = 1 then
        let rub := rubIn || carry.isNone
        let r := r.onUnit 0xF (fun y => { y with carry := assocSet y.carry t (if rub then none else some o.s.toInt) })
        fireEmit P now fr r 0xF i o rub
      else fireEmit P now fr r 0xF i o rubIn

/-- IX_FIRE (R152). -/
def ixFire (P : Pier) (now fr : Nat) : Pier :=
  fireLane P now fr 0x12 0 0 (fun _ x i a _ _ => (ixOp (x.p 0).toNat i (x.p 1) (x.p 2) (x.p 3) a, false))

/-- SL_FIRE: A, B and C are all present (R153, R154). -/
def slFire (P : Pier) (now fr : Nat) : Pier :=
  fireLane P now fr 0x13 0 0 (fun _ x _ a b c => (slOp (x.p 0).toNat (x.p 4) a b c, false))

/-! ### Launch (R102 to R105) -/

/-- The run that a checked script launches (R104, R105). -/
def mkRun (s : Script) (cs : CourseSet) (fix : RunFix) : Run :=
  let net := expand cs expandFuel (scriptNet s s.conns.length)
  { n := bondN s.head, sr := s.head.getLsbD 35, ct := s.head.getLsbD 34, ic := s.head.getLsbD 33, fix := fix,
    units := net.units.map (fun u => { num := u, params := (List.range 8).map (fun k => netParam net (mkPort u (8 + k))) }),
    conns := net.conns, consts := net.consts, ins := [], outs := [], rubble := none,
    mcClaims := ([0x0A, 0x0B].filter (fun m => (scriptNet s s.conns.length).units.any (fun u =>
      u ≠ m && (claimsOf cs 65 u).contains m))).map (· - 0x0A) }

/-- Writes a refusal report, or loses it (R110, R113). -/
def refuseReport (P : Pier) (cause word : Nat) : Pier :=
  if P.runs.rcause = 0#4 then
    { P with runs := { P.runs with rcause := BitVec.ofNat 4 cause, rword := BitVec.ofNat 6 word } }
  else { P with runs := { P.runs with ovf := true } }

/-- Whether both places of the run queue are full (R103). -/
def queueFull (P : Pier) : Bool := P.runs.exec.isSome && P.runs.queued.isSome

/-- Puts a run into the queue (R102, R103). -/
def enqueueRun (P : Pier) (r : Run) : Pier :=
  if P.runs.exec.isSome then { P with runs := { P.runs with queued := some r } }
  else { P with runs := { P.runs with exec := some r, started := false } }

/-- The banks that one memory stream of a run uses, page by page, translated as the run translates (R98, R283). -/
def streamBanks (P : Pier) (now : Nat) (r : Run) (u : RUnit) : List (Fin 16) :=
  let base := (u.p 1).toNat
  let len := u.len r.n
  let pages := (List.range (len / 64 + 2)).map (fun k => max base (64 * (base / 64 + k)))
  (pages.filter (fun a => a < base + len)).filterMap (fun a =>
    match streamAddr P now r.fix (if isStore u.num then .write else .read) (BitVec.ofNat 36 a) with
    | (.ok pa, _) =>
      match physTarget pa with
      | .bank b _ => some b
      | _ => none
    | _ => none)

/-- The banks that the memory streams of a run use (R283, R284). -/
def runBanks (P : Pier) (now : Nat) (r : Run) : List (Fin 16) :=
  ((r.units.filter (fun u => (isLoad u.num || isStore u.num) && u.p 0 ≠ 1)).flatMap (streamBanks P now r)).eraseDups

/-- RUN_START: the run at the head starts once its banks are awake and the lanes are ramped (R104, R283,
R467); banks in retention begin to wake. -/
def runStart (P : Pier) (now fr : Nat) : Pier :=
  match P.runs.exec with
  | none => P
  | some r =>
    if P.runs.started || P.pw.st ≠ .run || P.pw.change = .ramp then P
    else
      let bs := runBanks P now r
      let P := bs.foldl (fun P b =>
        if P.mem.bank[b].retn = .retained then P.onBank b (fun k => { k with retn := .waking, lastUse := now }) else P) P
      if bs.any (fun b => P.mem.bank[b].retn ≠ .awake) then P
      else afterRun { P with runs := { P.runs with started := true } } now fr r

/-- RUNST (R111). -/
def runstWord (P : Pier) : Word :=
  BitVec.ofNat 36 ((if P.runs.exec.isSome then 2 ^ 35 else 0) + (if P.runs.queued.isSome then 2 ^ 34 else 0) +
    P.runs.rout.toNat * 2 ^ 30 + P.runs.rcause.toNat * 2 ^ 26 + P.runs.rword.toNat * 2 ^ 20 +
    P.runs.unit.toNat * 2 ^ 16 + P.runs.index.toNat)

/-- PR_RUN_CTL: CLROVF, ACKF and ACKR act before ABORT (R114). -/
def runCtlWrite (P : Pier) (now fr : Nat) (v : DW) : Pier :=
  let P := if v.getLsbD 3 then { P with runs := { P.runs with ovf := false } } else P
  let P := if v.getLsbD 2 then { P with runs := { P.runs with rcause := 0, rword := 0 } } else P
  let P := if v.getLsbD 1 then { P with runs := { P.runs with rout := 0, unit := 0, index := 0 } } else P
  if v.getLsbD 0 then abortRun P now fr else P

end Sys2Proof.Machine
end

