-- ==== Sys2Proof/Machine/Bank.lean ====
section
/-! DEFINITION. Banks, quarry lines and background work: handover, scour, retirement, retention, lock, write-back,
the checker test window, pointing and the plumb passes (R275 to R290, R318, R457 to R463). -/

namespace Sys2Proof.Machine

open Sys2Proof

/-! ### Reaching a pier's registers (R16, R467) -/

/-- Whether the frontage reaches the registers of a pier: not while its reset is asserted, and not in OFF (R16,
R467). -/
def Dev.reachable (d : Dev) (p : Fin 16) : Bool := !d.fc.inReset.getLsbD p.val && (d.pier p).pw.st ≠ .off

/-- A write to a register of a pier; a pier that is not reached ignores it. -/
def Dev.onReg (d : Dev) (p : Fin 16) (f : Pier → Pier) : Dev := if d.reachable p then d.onPier p f else d

/-! ### Ownership (R278 to R285) -/

/-- Drops the instruction-cache lines that hold words of bank `b` (R240, R281). -/
def icDropBank (P : Pier) (b : Fin 16) : Pier :=
  { P with mem := { P.mem with icache := P.mem.icache.filter (fun l => !(8 * l.line < 0x200000 && bankOf (8 * l.line) = b)) } }

/-- PR_STAT.CFG_ERR rises (R34, R278). -/
def prError (P : Pier) : Pier := { P with regs := { P.regs with prErr := true } }

/-- Hands bank `b` over to `o` (R280, R281): the bank wakes first, its lock is released, and a new owner of 0 to 65
that differs from CONTENT starts a scour. -/
def handOver (P : Pier) (now : Nat) (b : Fin 16) (o : BitVec 7) : Pier :=
  let P := (unlockBank P b).onBank b (fun k => { k with owner := o, retn := .awake, lastUse := now })
  if o.toNat ≤ 65 && o ≠ P.mem.bank[b].content then
    (icDropBank P b).onBank b (fun k => { k with content := o, scour := true })
  else P

/-- A write of PR_BANK_OWN (R269, R278 to R281, R285): a reserved owner, any owner but 127 for a retired bank, or any
owner but 64 for bank 0 while the core is out of reset, is refused with CFG_ERR. -/
def bankOwnWrite (P : Pier) (now : Nat) (b : Fin 16) (v : DW) : Pier :=
  let o := v.extractLsb' 0 7
  if 66 ≤ o.toNat && o.toNat ≤ 126 then prError P
  else if P.regs.retire.getLsbD b.val && o ≠ 0x7F#7 then prError P
  else if b = 0 && P.core.run ≠ .reset && o ≠ 0x40#7 then prError P
  else if o = P.mem.bank[b].owner then P
  else handOver P now b o

/-- PR_BANK_OWN_WRITE (R278 to R281). -/
def execPrBankOwnWrite (p : Fin 16) (b : Fin 16) (v : DW) (s : State) : Host.Outcome State Fault Refusal :=
  s.answer (s.dev.onReg p (fun P => bankOwnWrite P s.dev.now b v))

/-- BANK_SCOUR_END (R280). -/
def execBankScourEnd (p : Fin 16) (b : Fin 16) (s : State) : Host.Outcome State Fault Refusal :=
  s.answer (s.dev.onPier p (fun P => if P.mem.bank[b].scour then scourEnd P b else P))

/-- Retires bank `b`: its owner is 127 and it stays in retention (R285). -/
def retireBank (P : Pier) (now : Nat) (b : Fin 16) : Pier :=
  (handOver P now b 0x7F#7).onBank b (fun k => { k with retn := .retained })

/-- A write of PR_BANK_RETIRE (R285): bit 0 is refused with CFG_ERR, a set bit stays set. -/
def bankRetireWrite (P : Pier) (now : Nat) (v : DW) : Pier :=
  let old := P.regs.retire
  let P := if v.getLsbD 0 then prError P else P
  let P := { P with regs := { P.regs with retire := old ||| (v.extractLsb' 0 16 &&& 0xFFFE#16) } }
  (List.finRange 16).foldl (fun P b => if P.regs.retire.getLsbD b.val && !old.getLsbD b.val then retireBank P now b else P) P

/-- PR_BANK_RETIRE_WRITE (R285). -/
def execPrBankRetireWrite (p : Fin 16) (v : DW) (s : State) : Host.Outcome State Fault Refusal :=
  s.answer (s.dev.onReg p (fun P => bankRetireWrite P s.dev.now v))

/-! ### Retention and lock (R283, R284) -/

/-- Whether the executing or the queued run of a pier uses bank `b` (R283). -/
def runUses (P : Pier) (now : Nat) (b : Fin 16) : Bool :=
  P.runs.exec.any (fun r => (runBanks P now r).contains b) || P.runs.queued.any (fun r => (runBanks P now r).contains b)

/-- BANK_RETENTION_ENTRY (R283). -/
def execBankRetentionEntry (p : Fin 16) (b : Fin 16) (s : State) : Host.Outcome State Fault Refusal :=
  let now := s.dev.now
  s.answer (s.dev.onPier p (fun P =>
    let k := P.mem.bank[b]
    if P.awake && P.regs.reten.getLsbD b.val && k.retn = .awake && k.lastUse + P.regs.idle.toNat ≤ now && !k.scour &&
        P.mem.lockOn ≠ some (BitVec.ofFin b) && !runUses P now b then
      P.onBank b (fun k => { k with retn := .retained })
    else P))

/-- BANK_WAKE: the wake ends, 50 AON ticks after the access that began it (R283). -/
def execBankWake (p : Fin 16) (b : Fin 16) (s : State) : Host.Outcome State Fault Refusal :=
  s.answer (s.dev.onPier p (fun P =>
    if P.mem.bank[b].retn = .waking && P.mem.bank[b].lastUse + 50 ≤ s.dev.now then P.onBank b (fun k => { k with retn := .awake, lastUse := s.dev.now }) else P))

/-- BANK_LOCK_START: no executing run has a stream in the bank, so the held write of LOCK completes (R284). -/
def execBankLockStart (p : Fin 16) (s : State) : Host.Outcome State Fault Refusal :=
  s.answer (s.dev.onPier p (fun P =>
    match P.mem.lockWait with
    | some b =>
      if P.runs.exec.any (fun r => (runBanks P s.dev.now r).contains b.toFin) then P
      else
        { P with
          mem := { P.mem with lockOn := some b, lockWait := none }
          core := { P.core with lock := 16#5 + b.setWidth 5 } }
    | none => P))

/-- BANK_LOCK_TIMEOUT: 64 pier cycles after its start the lock is released, with a NOTICE (R284). -/
def execBankLockTimeout (p : Fin 16) (s : State) : Host.Outcome State Fault Refusal :=
  s.answer (s.dev.onPier p (fun P =>
    match P.mem.lockOn with
    | some b => (unlockBank P b.toFin).detect 0x0B b.toNat 0
    | none => P))

/-! ### Write-backs, quarry reads and the merge buffer (R275, R289, R290) -/

/-- CORRECTION_WRITE_BACK: held while the bank is locked (R275, R284). -/
def execCorrectionWriteBack (p : Fin 16) (addr : BitVec 21) (s : State) : Host.Outcome State Fault Refusal :=
  s.answer (s.dev.onPier p (fun P =>
    if P.mem.lockOn = some (BitVec.ofFin (bankOf addr.toNat)) then P else writeBack P addr.toNat))

/-- QUARRY_READ_COMPLETION: a line read returns; a corrected line is written back, an uncorrectable one reported
(R289). -/
def execQuarryReadCompletion (p : Fin 16) (l : BitVec 25) (m : Master) (s : State) : Host.Outcome State Fault Refusal :=
  s.answer (s.dev.onPier p (fun P => if P.mem.selfRefresh then P else (lineFetch P m l.toNat).2))

/-- MERGE_BUFFER_WRITE_OUT: a merged line is written to the HBM2E (R290). -/
def execMergeBufferWriteOut (p : Fin 16) (l : BitVec 25) (s : State) : Host.Outcome State Fault Refusal :=
  s.answer (s.dev.onPier p (fun P =>
    match P.mem.merge.find? (fun e => e.line = l.toNat) with
    | some e => if P.mem.selfRefresh then P else mergeOut P e
    | none => P))

/-! ### The checker test window (R459) -/

/-- The last command was refused; nothing else changes (R459). -/
def chkRefuse (P : Pier) : Pier := { P with regs := { P.regs with chkRefused := true } }

/-- The last command has completed (R459). -/
def chkDoneP (P : Pier) : Pier := { P with regs := { P.regs with chkRefused := false, chkDone := true } }

/-- Loads PR_CHK_D0 and PR_CHK_D1.DATA (R459). -/
def chkLoad (P : Pier) (w : Word) : Pier :=
  { P with regs := { P.regs with chkD0 := w.extractLsb' 0 32, chkD1 := w.extractLsb' 32 4 } }

/-- One command of the window at PR_CHK_ADDR (R459). A decoded read of rubble leaves the data registers free values
(log 2). `fr` numbers the free value. -/
def chkCommand (P : Pier) (now fr op : Nat) : Pier :=
  let a := P.regs.chkAddr.toNat
  let b := bankOf a
  if P.mem.bank[b].owner ≠ 65#7 then chkRefuse P
  else
    let P := settleBank P now b
    if op = 1 then chkDoneP (bankStore P a (P.regs.chkChk ++ P.regs.chkD1 ++ P.regs.chkD0))
    else if op = 2 then
      let c := P.mem.banks.get a
      chkDoneP (chkLoad { P with regs := { P.regs with chkChk := c.extractLsb' 36 7 } } (c.extractLsb' 0 36))
    else
      let res : BitVec 3 := match (eccDecode (P.mem.banks.get a)).1 with
        | .clean => 0
        | .corrected => 1
        | .poison => 2
        | .uncorrectable => 3
      let P := match bankFetch P .checker a with
        | .ok w P => chkLoad P w
        | .held P => P
        | .bus _ P => P
        | .rubble P => chkLoad P (Config.free 36 fr)
      chkDoneP { P with regs := { P.regs with chkRes := res } }

/-- A command of the window from an agent: a sequencer or warden access is ignored; outside TEST it is refused
(R459). -/
def Dev.checker (d : Dev) (p : Fin 16) (by_ : Agent) (op : Nat) : Dev :=
  if by_ ≠ .host then d
  else if d.life.op ≠ .test then d.onReg p chkRefuse
  else (d.onReg p (fun P => chkCommand P d.now d.fresh op)).used

/-- RAW_WRITE (R459). -/
def execRawWrite (p : Fin 16) (by_ : Agent) (s : State) : Host.Outcome State Fault Refusal := s.answer (s.dev.checker p by_ 1)

/-- RAW_READ (R459). -/
def execRawRead (p : Fin 16) (by_ : Agent) (s : State) : Host.Outcome State Fault Refusal := s.answer (s.dev.checker p by_ 2)

/-- DECODED_READ (R459). -/
def execDecodedRead (p : Fin 16) (by_ : Agent) (s : State) : Host.Outcome State Fault Refusal := s.answer (s.dev.checker p by_ 3)

/-! ### Pointing (R461, R462) -/

/-- Words of a bank lap: every bank that is not retired (R461). -/
def bankLapWords (P : Pier) : Nat := 0x20000 * ((List.range 16).filter (fun b => !P.regs.retire.getLsbD b)).length

/-- Lines of a quarry lap: every line, reserve included (R461). -/
def quarryLapLines : Nat := 33554432

/-- Counts one read of a lap, which completes with its last place (R461, R462). -/
def lapCount (total : Nat) (l : Lap) : Lap :=
  if total ≤ l.count + 1 then { l with count := 0, ticks := 0, overdue := false, last := BitVec.ofNat 32 (min l.ticks 0xFFFFFFFF) }
  else { l with count := l.count + 1 }

/-- Pointing reads a place (R461): a word that is corrected is written back at once in an idle cycle. A bank in
retention is woken first; a scour or a lock holds the read. -/
def pointAt (P : Pier) (now : Nat) (loc : MemLoc) : Pier :=
  match loc with
  | .bank a =>
    let b := bankOf a.toNat
    let k := P.mem.bank[b]
    if P.regs.retire.getLsbD b.val || k.scour || k.retn = .waking || P.mem.lockOn = some (BitVec.ofFin b) then P
    else if k.retn = .retained then P.onBank b (fun k => { k with retn := .waking, lastUse := now })
    else
      let P := (bankFetch P .pointing a.toNat).pier
      { P with lapB := lapCount (bankLapWords P) P.lapB }
  | .line l =>
    if P.mem.selfRefresh then P
    else
      let P := (lineFetch P .pointing l.toNat).2
      { P with lapQ := lapCount quarryLapLines P.lapQ }

/-- POINTING_READ (R461). -/
def execPointingRead (p : Fin 16) (loc : MemLoc) (s : State) : Host.Outcome State Fault Refusal :=
  s.answer (s.dev.onPier p (fun P => if P.awake && !P.regs.pause then pointAt P s.dev.now loc else P))

/-- POINTING_LAP_OVERDUE (R462). -/
def execPointingLapOverdue (p : Fin 16) (quarry : Bool) (s : State) : Host.Outcome State Fault Refusal :=
  s.answer (s.dev.onPier p (fun P =>
    let l := if quarry then P.lapQ else P.lapB
    if l.overdue || l.ticks ≤ l.limit.toNat then P
    else
      let l := { l with overdue := true }
      (if quarry then { P with lapQ := l } else { P with lapB := l }).detect 0x14 quarry.toNat 0))

/-! ### Plumb passes and wear levelling (R463) -/

/-- HBM_REFRESH (R463). -/
def execHbmRefresh (p : Fin 16) (s : State) : Host.Outcome State Fault Refusal :=
  s.answer (s.dev.onPier p (fun P =>
    if P.mem.selfRefresh then P else { P with mem := { P.mem with refreshAt := s.dev.now } }))

/-- PHY_RETRAINING: every 200 ms (R463). -/
def execPhyRetraining (p : Fin 16) (s : State) : Host.Outcome State Fault Refusal :=
  s.answer (s.dev.onPier p (fun P =>
    if P.mem.trained && P.mem.retrainAt + 5000000 ≤ s.dev.now then { P with mem := { P.mem with retrainAt := s.dev.now } } else P))

/-- SENSOR_CALIBRATION: every 1 s (R463). -/
def execSensorCalibration (s : State) : Host.Outcome State Fault Refusal :=
  let d := s.dev
  s.answer (if d.fc.calAt + 25000000 ≤ d.now then { d with fc := { d.fc with calAt := d.now } } else d)

/-- The flash region of a sector, with its first sector and its size (R504): 3 seal slots, 4 fault log, 5 key store
log. -/
def Flash.region (f : Flash) (sec : Nat) : Option (Nat × Nat × Nat) :=
  if 0x1100 ≤ sec && sec < 0x1500 then some (3, 0x1100, 0x400)
  else if 0x1500 ≤ sec && sec < 0x1600 then some (4, 0x1500, 0x100)
  else
    let stop := 1024 * (f.size0.toNat + f.size1.toNat)
    if 0x1600 ≤ sec && sec < stop then some (5, 0x1600, stop - 0x1600) else none

/-- Bytes of live content of the key store log (R505): 128 for each entry that is not FREE, 72 for each blob line, and
the keystone image, quotas and TSEQ values within 1 MiB. -/
def Flash.liveBytes (f : Flash) : Nat :=
  ((f.keys.filter (fun e => e.state ≠ 0#3)).map (fun e => 128 + 72 * e.blobLines.length)).sum

/-- Good free sectors of a region: the rings reuse their oldest sectors; the key store log keeps its live content (R463,
R505). -/
def Flash.freeSectors (f : Flash) (r : Nat × Nat × Nat) : Nat :=
  r.2.2 - (f.badSectors.filter (fun s => r.2.1 ≤ s && s < r.2.1 + r.2.2)).length -
    (if r.1 = 5 then (f.liveBytes + 4095) / 4096 else 0)

/-- Retires a flash sector and raises cause 0x22 when its region runs low (R463). -/
def Dev.retireSector (d : Dev) (sec : Nat) : Dev :=
  if d.flash.badSectors.contains sec then d
  else
    let d := { d with flash := { d.flash with badSectors := d.flash.badSectors ++ [sec] } }
    match d.flash.region sec with
    | some r =>
      if d.flash.freeSectors r < 16 then d.detect 0x22 22 (d.flash.freeSectors r) (Config.flashRegion r.1).toNat else d
    | none => d

/-- WEAR_LEVELLING_ERASE: an erase is counted; a sector at 80,000 erases, or one whose erase fails, is retired (R463). -/
def execWearLevellingErase (sector : Nat) (good : Bool) (s : State) : Host.Outcome State Fault Refusal :=
  let d := s.dev
  match d.flash.region sector with
  | none => s.answer d
  | some r =>
    if d.flash.badSectors.contains sector then s.answer d
    else
      let n := assocGet d.flash.erases sector 0 + 1
      let d := { d with flash := { d.flash with erases := assocSet d.flash.erases sector n } }
      let d := if good then d else d.detect 0x21 22 sector (Config.flashRegion r.1).toNat
      s.answer (if !good || 80000 ≤ n then d.retireSector sector else d)

/-! ### PR_TLBI (R318) -/

/-- A write of PR_TLBI: ALL with any other bit is reserved (R318). -/
def prTlbiWrite (P : Pier) (v : DW) : Pier :=
  if v.getLsbD 23 then
    if v.extractLsb' 0 23 ≠ 0#23 then prError P else tlbInvalidate P (fun _ => true)
  else tlbInvalidate P (tagMatches (v.getLsbD 22) (v.extractLsb' 0 22))

/-- PR_TLBI_ALL (R318). -/
def execPrTlbiAll (p : Fin 16) (v : DW) (s : State) : Host.Outcome State Fault Refusal :=
  s.answer (s.dev.onReg p (fun P => prTlbiWrite P v))

/-- PR_TLBI_TAG (R318). -/
def execPrTlbiTag (p : Fin 16) (v : DW) (s : State) : Host.Outcome State Fault Refusal :=
  s.answer (s.dev.onReg p (fun P => prTlbiWrite P v))

end Sys2Proof.Machine
end

