-- ==== Sys2Proof/Machine/Entry.lean ====
section
/-! DEFINITION. Submission entries: opcodes, reserved fields, authority, lengths and the anti-replay window
(R327, R336 to R344, R378, R379, R430 to R433). -/

namespace Sys2Proof.Machine

open Sys2Proof

/-! ### Opcodes (R378, R432) -/

/-- Whether an opcode is defined (R378, R432). -/
def opcDefined (o : Nat) : Bool :=
  o = 0x01 || (0x10 ≤ o && o ≤ 0x15) || o = 0x20 || o = 0x30 || o = 0x31 || o = 0x38 || o = 0x40 || o = 0x48 ||
  (0x50 ≤ o && o ≤ 0x55) || o = 0x60 || o = 0x61 || (0x70 ≤ o && o ≤ 0x72) || o = 0x7E || o = 0x7F ||
  (0x80 ≤ o && o ≤ 0x8D)

/-- Whether an item runs on a pier (R378). -/
def Dev.runsOnPier (d : Dev) (f : FnId) (o : Nat) : Bool :=
  (0x10 ≤ o && o ≤ 0x48) || o = 0x70 || (o = 0x01 && d.takesSession f o)

/-- The defined bits of DW12 to DW15 (R379, R384 to R443). -/
def paramMask (pf0 : Bool) (o : Nat) (w12 : DW) : List Nat :=
  match o with
  | 0x10 => [0xFFF, if w12.toNat % 16 = 5 then 0xFF else 0, 0, 0]
  | 0x11 => [0xFFF, if w12.toNat % 16 = 5 then 0xFF else 0, 0, 0]
  | 0x12 => [0xFFF, if w12.toNat % 16 = 5 then 0xFF else 0, 0, 0]
  | 0x13 => [0xFFF, if w12.toNat % 16 = 5 then 0xFF else 0, 0, 0]
  | 0x14 => [0xFFF, if w12.toNat % 16 = 5 then 0xFF else 0, 0, 0]
  | 0x15 => [0xFFF, if w12.toNat % 16 = 5 then 0xFF else 0, 0, 0]
  | 0x20 => [0x1F03FF, 0, 0, 0]
  | 0x30 => [0x3F3F, 0, 0, 0]
  | 0x31 => [0x3F3F, 0, 0, 0]
  | 0x38 => [0xF1F, 0xFFFF, 0, 0]
  | 0x40 => [0xF, 0, 0, 0]
  | 0x48 => [0x3FF, 0, 0, 0]
  | 0x50 => [0x1FBF, 0xFFFFFFFF, 0xF, 0]
  | 0x51 => [0xFF, 0, 0, 0]
  | 0x52 => [0x1FBF00FF, 0xFFF, 0xFFFFFFFF, 0xF]
  | 0x53 => [0x1FBFFF0F, 0xFFFFFFFF, 0xF, 0]
  | 0x55 => [1, if w12.toNat % 2 = 1 then 0x3FFFFF else 0, 0, 0]
  | 0x60 => [if pf0 then 0x3F3F else 0x3F, 0x3FFFFFFF, 0, 0]
  | 0x70 => [0x3F, 0xFFFFFFFF, 0, 0]
  | 0x71 => [0x3FF0001, 0, 0, 0]
  | 0x72 => [0x3F, 0, 0, 0]
  | 0x7E => [0x31F, 0, 0, 0]
  | 0x7F => [1, 0, 0, 0]
  | 0x80 => [0x3F, 0x1FFF, 0x3FFFFF, 0]
  | 0x81 => [0x3F, 0, 0, 0]
  | 0x82 => [0x33F, 0xFFFFFF, 0, 0]
  | 0x83 => [0xFFFFFFFF, 0xF, 0, 0]
  | 0x84 => [0xF, 0xFFFFFFFF, 0, 0]
  | 0x87 => [1, 0, 0, 0]
  | 0x88 => [0x3FF0000, 0, 0, 0]
  | 0x8A => [0x3FF0001, 0, 0, 0]
  | 0x8C => [0x3FF0001, if w12.toNat % 2 = 1 then 0xFFFF else 0, 0, 0]
  | 0x8D => [1, 0, 0, 0]
  | _ => [0, 0, 0, 0]

/-- Whether an opcode uses KH1 (R337, R400, R443). -/
def usesKh1 (o : Nat) (w12 : DW) : Bool :=
  (0x10 ≤ o && o ≤ 0x15) || o = 0x20 || o = 0x30 || o = 0x31 || o = 0x38 || o = 0x50 || o = 0x51 || o = 0x53 || o = 0x54 ||
  (o = 0x55 && w12.toNat % 2 = 0) || (o = 0x8C && w12.toNat % 2 = 0)

/-- Whether an opcode uses KH2 (R337, R400). -/
def usesKh2 (o : Nat) : Bool := o = 0x20 || o = 0x51

/-! ### Check 2: reserved fields (R336 to R338, R379) -/

/-- A list's descriptor as read: address, DW2, DW3. -/
structure Desc where
  addr : QW
  dw2  : DW
  dw3  : DW

/-- The descriptors that a list's bytes hold, `n` of them (R338). -/
def parseDescs (n : Nat) (bs : List Byte) : List Desc :=
  (List.range n).map (fun k =>
    let b := bs.drop (16 * k)
    ⟨BitVec.ofNat 64 (leNat (b.take 8)), BitVec.ofNat 32 (leNat ((b.drop 8).take 4)), BitVec.ofNat 32 (leNat ((b.drop 12).take 4))⟩)

/-- An entry's list of segments: whether it is a list, its count, its IOVA, and what the read of it
returned (R338). -/
structure SegField where
  isList : Bool
  len    : DW
  addr   : QW
  read   : HostRead

/-- Whether the ring engine reads the list (R338). -/
def SegField.reads (g : SegField) : Bool :=
  g.isList && 1 ≤ g.len.toNat % 32 && g.len.toNat % 32 ≤ 16 && g.addr.toNat % 16 = 0

/-- The descriptors that were read without a host error. -/
def SegField.descs (g : SegField) : List Desc :=
  if g.reads then
    match g.read with
    | .data bs => parseDescs (g.len.toNat % 32) bs
    | .err _ => []
  else []

/-- Whether the read of a list met a host-side error (R338, check 4). -/
def SegField.failed (g : SegField) : Bool :=
  g.reads && match g.read with
    | .data _ => false
    | .err _ => true

/-- Input segments of an entry. -/
def inField (dws : List DW) (rd : HostRead) : SegField :=
  ⟨(dws.getD 0 0).getLsbD 9, dws.getD 8 0, (dws.getD 7 0) ++ (dws.getD 6 0), rd⟩

/-- Output segments of an entry. -/
def outField (dws : List DW) (rd : HostRead) : SegField :=
  ⟨(dws.getD 0 0).getLsbD 10, dws.getD 9 0, (dws.getD 11 0) ++ (dws.getD 10 0), rd⟩

/-- The segments of a field: address and length; a contiguous buffer is one segment, and no length none
(R338). -/
def SegField.segs (g : SegField) : List (QW × Nat) :=
  if g.isList then g.descs.map (fun s => (s.addr, s.dw2.toNat % 2 ^ 25))
  else if g.len = 0 then [] else [(g.addr, g.len.toNat)]

/-- Input packing and output packing (R37). -/
def entryPki (dws : List DW) : Nat := (dws.getD 1 0).toNat / 2 ^ 20 % 4
/-- Output packing. -/
def entryPko (dws : List DW) : Nat := (dws.getD 1 0).toNat / 2 ^ 22 % 4

/-- Check 2: whether every reserved field is zero (R336 to R338, R379, R398, R404). -/
def reservedOk (d : Dev) (f : FnId) (dws : List DW) (gi go : SegField) : Bool :=
  let w (k : Nat) : Nat := (dws.getD k 0).toNat
  let o := w 0 % 256
  let sess := d.takesSession f o
  w 0 / 2 ^ 11 % 32 = 0 && w 1 / 2 ^ 24 = 0 && w 4 / 2 ^ 22 = 0 && w 5 / 2 ^ 22 = 0 &&
  entryPki dws ≠ 3 && entryPko dws ≠ 3 &&
  (!gi.isList || w 8 / 32 = 0) && (!go.isList || w 9 / 32 = 0) &&
  (gi.descs ++ go.descs).all (fun s => s.dw2.toNat / 2 ^ 25 = 0 && s.dw3 = 0) &&
  (sess || (w 1 % 65536 = 0 && w 2 = 0 && w 3 = 0)) &&
  (usesKh1 o (dws.getD 12 0) || w 4 = 0) && (usesKh2 o || w 5 = 0) &&
  ((paramMask (f = .pf0) o (dws.getD 12 0)).zipIdx.all (fun m => w (12 + m.2) &&& (0xFFFFFFFF - m.1) = 0)) &&
  !(o = 0x60 && w 12 / 16 % 4 = 3)

/-! ### Check 3: authority (R327, R430, R432, R433) -/

/-- Functions that may submit an opcode (R327). -/
def fnAllows (f : FnId) (o : Nat) : Bool :=
  if o = 0x01 then true
  else match f with
    | .pf0 => (0x50 ≤ o && o ≤ 0x55) || o = 0x60 || o = 0x61 || o = 0x7F || (0x80 ≤ o && o ≤ 0xBF)
    | .pf1 => o = 0x7E || o = 0x7F
    | .vf _ => (0x10 ≤ o && o ≤ 0x48) || (0x50 ≤ o && o ≤ 0x55) || o = 0x60 || o = 0x61 || (0x70 ≤ o && o ≤ 0x72)

/-- The column of R430: 0 BLANK, 1 PROVISIONED, 2 OPERATIONAL, 3 RECOVERY, 4 DECOMMISSIONED, 5 TEST. -/
def Dev.authState (d : Dev) : Nat := if d.life.op = .test then 5 else d.life.life.toNat

/-- The states that allow an opcode (R430, R432, R433). -/
def stateAllows (st o : Nat) : Bool :=
  let is (l : List Nat) : Bool := l.contains st
  if o = 0x01 then true
  else if 0x10 ≤ o && o ≤ 0x48 then is [2]
  else if 0x50 ≤ o && o ≤ 0x53 then is [1, 2]
  else if o = 0x54 then is [1, 2, 3]
  else if o = 0x55 then is [1, 2, 3, 5]
  else if o = 0x60 then is [1, 2]
  else if o = 0x61 then is [1, 2, 3, 5]
  else if 0x70 ≤ o && o ≤ 0x72 then is [2]
  else if o = 0x7E || o = 0x7F then is [1, 2, 3, 5]
  else if o = 0x81 then is [1, 2, 3, 5]
  else if o = 0x83 || o = 0x84 then is [1, 2, 3, 5]
  else if o = 0x85 then is [0]
  else if o = 0x8C || o = 0x8D then is [2]
  else is [1, 2, 5]

/-- Check 3 (R327, R430). -/
def authorityOk (d : Dev) (f : FnId) (o : Nat) : Bool :=
  fnAllows f o && stateAllows d.authState o &&
  (match f with
   | .vf v => d.partExists v || o = 0x01
   | _ => true)

/-! ### Check 5: lengths (R338, R379) -/

/-- Bytes of a packing that every segment but the last must be a multiple of (R338). -/
def packUnit (pk : Nat) : Nat :=
  match pk with
  | 0 => 4
  | 1 => 9
  | _ => 8

/-- The length rules of R338 and R40 on one field. -/
def SegField.lenOk (g : SegField) (pk : Nat) : Bool :=
  let total := (g.segs.map (·.2)).sum
  if g.isList then
    g.reads && g.descs.all (fun s => 1 ≤ s.dw2.toNat % 2 ^ 25 && s.dw2.toNat % 2 ^ 25 ≤ 16777216) &&
    (g.segs.dropLast).all (fun s => s.2 % packUnit pk = 0) && (pk ≠ 2 || total % 2 = 0)
  else g.len.toNat ≤ 16777216 && (pk ≠ 2 || total % 2 = 0)

/-- Digest length by DALG, or none for a value that the entry check cannot judge (R384). -/
def dalgBytes (v : Nat) : Option Nat :=
  match v with
  | 1 => some 32
  | 2 => some 64
  | 3 => some 32
  | 4 => some 48
  | _ => none

/-- Signature bytes that an entry alone fixes: ECDSA and EdDSA (R384). -/
def sigBytes (algv : Nat) : Nat :=
  match algv with
  | 1 => 64
  | 2 => 96
  | 3 => 64
  | _ => 0

/-- Whether the lengths of an entry are within the limits that depend on the entry alone (R379, R384 to R443); a PARAM value that
gives a RESULT of its own sets no limit here (R380). -/
def opcLenOk (dws : List DW) (li lo : Nat) : Bool :=
  let w (k : Nat) : Nat := (dws.getD k 0).toNat
  let o := w 0 % 256
  let algv := w 12 % 16
  let sig := sigBytes algv
  let signIn (n : Nat) : Bool :=
    if w 12 / 16 % 16 = 1 then 1 ≤ n && n ≤ 65536
    else if 2 ≤ w 12 / 16 % 16 then true
    else match dalgBytes (w 12 / 256 % 16) with
      | some k => n = k
      | none => true
  match o with
  | 0x01 => li ≤ lo
  | 0x10 => signIn li
  | 0x11 => sig ≤ li && signIn (li - sig)
  | 0x12 => true
  | 0x13 => 64 ≤ li
  | 0x14 => signIn li
  | 0x15 => true
  | 0x20 =>
    let blk := if w 12 % 16 = 4 then 16 else 8
    let ksn := if w 12 / 256 % 4 = 1 then 10 else if w 12 / 256 % 4 = 2 then 12 else 0
    let f := w 12 % 16
    (f ≠ 0 && f ≠ 1 && f ≠ 3 && f ≠ 4) || w 12 / 256 % 4 = 3 || li = blk + ksn + w 12 / 65536 % 32
  | 0x30 => li ≤ 65536
  | 0x31 => w 12 / 256 % 64 ≤ li && li ≤ 65536 + w 12 / 256 % 64
  | 0x38 =>
    let a := w 12 / 4 % 4
    a = 3 || li = 18 + (if a = 1 then 2 else if a = 2 then 4 + w 12 / 256 % 16 else 0) + w 13 % 65536
  | 0x40 => li ≤ 16777216
  | 0x48 => 1 ≤ li && li ≤ 8192
  | 0x53 => if w 12 % 16 = 1 || w 12 % 16 = 2 then li = 8 else if w 12 % 16 = 3 then 1 ≤ li && li ≤ 256 else true
  | 0x50 => true
  | 0x70 => true
  | 0x71 => true
  | 0x72 => true
  | 0x7E => if w 12 / 256 % 4 = 1 then li = 0
            else if 2 ≤ w 12 / 256 % 4 then true
            else 640 ≤ li && (li - 576) % 64 = 0 && (li - 576) / 64 ≤ 262135 && 576 ≤ lo
  | 0x82 => li = 24 || li = 32
  | 0x85 => li = 0 && 96 ≤ lo
  | 0x86 => 1 ≤ li && li ≤ 8192
  | 0x89 => true
  | 0x8A => (w 12 % 2 = 0) || li = 0
  | 0x8D => true
  | _ => li = 0

/-! ### Checks 6 and 7 (R342, R343) -/

/-- The session of a number. -/
def Dev.session? (d : Dev) (n : Nat) : Option Session := d.sessions.find? (fun s => s.num = n)

/-- Judges a sequence number by the anti-replay window: the new H and W, or none (R343). -/
def replayJudge (s : Session) (n : Nat) : Option Session :=
  let h := s.h.toNat
  if h = 2 ^ 48 - 1 then none
  else if h < n then
    let w := if n - h < 256 then s.w <<< (n - h) else 0
    some { s with h := BitVec.ofNat 48 n, w := w ||| 1 }
  else if h - n ≤ 255 && !s.w.getLsbD (h - n) then
    some { s with w := s.w ||| (1 <<< (h - n)) }
  else none

/-- What checks 1 to 7 answer: a status, or the entry passes with its session. -/
inductive EntryCheck where
  | fail (status : Nat)
  | pass (s : Option Session)
deriving DecidableEq, Repr

/-- Checks 1 to 7 in their order (R339). -/
def entryCheck7 (d : Dev) (f : FnId) (dws : List DW) (gi go : SegField) : EntryCheck :=
  let o := (dws.getD 0 0).toNat % 256
  let len (g : SegField) : Nat := (g.segs.map (·.2)).sum
  if !opcDefined o then .fail 0x10
  else if !reservedOk d f dws gi go then .fail 0x11
  else if !authorityOk d f o then .fail 0x12
  else if gi.failed || go.failed then .fail 0x20
  else if !(gi.lenOk (entryPki dws) && go.lenOk (entryPko dws) && opcLenOk dws (len gi) (len go)) then .fail 0x17
  else if !d.takesSession f o then .pass none
  else match d.session? ((dws.getD 1 0).toNat % 65536) with
    | none => .fail 0x13
    | some s =>
      if !s.opened || s.fn ≠ f then .fail 0x13
      else match replayJudge s ((dws.getD 2 0).toNat + (dws.getD 3 0).toNat % 65536 * 2 ^ 32) with
        | none => .fail 0x14
        | some s => .pass (some { s with items := s.items + 1 })

end Sys2Proof.Machine
end

