-- ==== Sys2Proof/Machine/Setter.lean ====
section
/-! DEFINITION. The setter: batches, placement, key cache, sleep, preemption and migration (R360 to R377,
R462). -/

namespace Sys2Proof.Machine

open Sys2Proof

/-! ### Batch classes (R360, R378) -/

/-- The modulus size of a key, which the variant of an RSA item names (R378). -/
def Dev.keySize (d : Dev) (h : Nat) : Nat :=
  match d.flash.keys.find? (fun e => e.handle = h) with
  | some e => e.size.toNat
  | none => 0

/-- The variant that completes an item's batch class (R378). -/
def Dev.variant (d : Dev) (i : Item) : List Nat :=
  match i.opc with
  | 0x10 => [i.bits 12 3 0, i.bits 12 7 4, i.bits 12 11 8]
  | 0x11 => [i.bits 12 3 0, i.bits 12 7 4, i.bits 12 11 8]
  | 0x14 => [i.bits 12 3 0, i.bits 12 7 4, i.bits 12 11 8, d.keySize i.kh1]
  | 0x15 => [i.bits 12 3 0, i.bits 12 7 4, i.bits 12 11 8, d.keySize i.kh1]
  | 0x20 => [i.bits 12 3 0, i.bits 12 7 4, i.bits 12 9 8]
  | 0x30 => [i.bits 12 3 0, i.bits 12 5 4, i.bits 12 13 8]
  | 0x31 => [i.bits 12 3 0, i.bits 12 5 4, i.bits 12 13 8]
  | 0x38 => [i.bits 12 1 0, i.bits 12 3 2, i.bits 12 4 4]
  | 0x40 => [i.bits 12 3 0]
  | 0x48 => [(i.part.map (·.val)).getD 64, i.bits 12 9 0]
  | 0x70 => [i.session]
  | _ => []

/-- The batch class of an item (R360). -/
def Dev.classOf (d : Dev) (i : Item) : BatchClass := ⟨i.qos, BitVec.ofNat 8 i.opc, d.variant i⟩

/-- The class maximum of an opcode (R378). -/
def classMax (opc : Nat) : Nat :=
  match opc with
  | 0x48 => 1024
  | 0x70 => 256
  | _ => 4096

/-! ### Parts -/

/-- Replaces a batch. -/
def Dev.onBatch (d : Dev) (b : Nat) (f : Batch → Batch) : Dev :=
  { d with setter := { d.setter with batches := d.setter.batches.map (fun x => if x.id = b then f x else x) } }

/-- A batch by its number. -/
def Dev.batch? (d : Dev) (b : Nat) : Option Batch := d.setter.batches.find? (fun x => x.id = b)

/-- The pier that holds a batch. -/
def Batch.pier? (b : Batch) : Option (Fin 16) :=
  match b.state with
  | .placed p => some p
  | .running p => some p
  | _ => none

/-- Batches that a pier holds, running or queued. -/
def Dev.held (d : Dev) (p : Fin 16) : List Batch := d.setter.batches.filter (fun b => b.pier? = some p)

/-- The batch that runs on a pier. -/
def Dev.runningOn (d : Dev) (p : Fin 16) : Option Batch :=
  d.setter.batches.find? (fun b => b.state = .running p)

/-- The partitions of a batch's items. -/
def Dev.batchParts (d : Dev) (b : Batch) : List (Fin 64) :=
  ((d.items.filter (fun i => b.items.contains i.id)).filterMap (·.part)).eraseDups

/-- Whether a batch's items include one that is still to be finished on its pier. -/
def Item.unfinished (p : Fin 16) (i : Item) : Bool :=
  match i.stage with
  | .pier q => q = p
  | .result c => c.val = p.val
  | .record c => c.val = p.val
  | .overLimit q => q = p
  | _ => false

/-- Closes a batch: it is ready (R361). -/
def Dev.closeBatch (d : Dev) (b : Nat) : Dev :=
  d.onBatch b (fun x => if x.state = .gathering then { x with state := .ready, readyAt := d.now } else x)

/-- When the oldest of some items joined; `t` where there is none. -/
def Dev.firstJoined (d : Dev) (ids : List Nat) (t : Nat) : Nat :=
  match (d.items.filter (fun i => ids.contains i.id)).map (·.joined) with
  | [] => t
  | k :: l => l.foldl min k

/-- Takes an item out of a batch; where the oldest item leaves a batch that waits, the oldest of the others counts (R361,
R362). -/
def Dev.without (d : Dev) (id : Nat) (b : Batch) : Batch :=
  let left := b.items.filter (fun x => x ≠ id)
  let first := b.pier?.isNone && d.items.any (fun i => i.id = id && i.joined = b.oldest)
  { b with items := left, oldest := if first then d.firstJoined left b.oldest else b.oldest }

/-- An item leaves its batch, and an empty batch that no pier holds goes with it. -/
def Dev.leaveBatch (d : Dev) (id : Nat) : Dev :=
  let bs := d.setter.batches.map (fun (b : Batch) => if b.items.contains id then d.without id b else b)
  { d with setter := { d.setter with batches := bs.filter (fun b => !b.items.isEmpty || b.pier?.isSome) } }

/-! ### Allowed piers (R363) -/

/-- Whether a pier is allowed for a set of partitions (R363). -/
def Dev.allowed (d : Dev) (ps : List (Fin 64)) (p : Fin 16) : Bool :=
  d.setter.en.getLsbD p.val && !d.setter.out.getLsbD p.val &&
  ps.all (fun q => d.setter.part[q].piers.getLsbD p.val) &&
  (List.finRange 64).all (fun q => ps.contains q || !(d.setter.part[q].excl && d.setter.part[q].piers.getLsbD p.val))

/-- Whether a lap of a pier is overdue, so that placement on it is thinned (R462). -/
def Pier.lapOverdue (P : Pier) : Bool := P.lapB.overdue || P.lapQ.overdue

/-- Whether the setter places anything: not in HOLD, HALT, a power failure, a zeroize or START-UP (R423, R428, R451,
R452). -/
def Dev.placing (d : Dev) : Bool :=
  !d.fc.hold && !d.fc.halt && d.life.pf = .none && d.life.zero = .none && d.life.op ≠ .startUp

/-- Whether a pier takes another batch by rule 1 of R364, thinned as R462 gives. -/
def Dev.takes (d : Dev) (b : Batch) (p : Fin 16) : Bool :=
  (d.pier p).awake && d.allowed (d.batchParts b) p &&
  (if (d.pier p).lapOverdue then (d.held p).isEmpty && !d.setter.thin.any (fun t => t.1 = p)
   else (d.held p).length < d.setter.qd.toNat + 1) &&
  !d.audit.full.contains p.val

/-- Items that a pier holds. -/
def Dev.heldItems (d : Dev) (p : Fin 16) : Nat := ((d.held p).map (fun b => b.items.length)).sum

/-- The pier of rule 1: fewest items, ties round-robin from the pier chosen last (R364). -/
def Dev.rule1 (d : Dev) (b : Batch) : Option (Fin 16) :=
  let order := (List.range 16).map (fun k => (⟨(d.setter.lastPier + 1 + k) % 16, Nat.mod_lt _ (by decide)⟩ : Fin 16))
  (order.filter (d.takes b)).foldl (fun (m : Option (Fin 16)) p =>
    match m with
    | none => some p
    | some q => if d.heldItems p < d.heldItems q then some p else some q) none

/-! ### Key cache (R367) -/

/-- Writes words from bank address `a` up as the setter; a request that fails ends it (R271). -/
def setterWords (now : Nat) : Nat → List Word → Pier → Pier
  | _, [], P => P
  | a, w :: l, P =>
    match gatewayWrite P now setterIdent a w false with
    | .ok _ P => setterWords now (a + 1) l P
    | r => r.pier

/-- Writes a directory line with its tag into the key cache of a pier, where the cache is in use and lacks it; a line that
cannot be read is left out (R367). -/
def cacheFill (now h : Nat) (P : Pier) : Pier :=
  if !P.kcOn || h = 0 then P
  else
    let put (P : Pier) : Pier :=
      match lineFetch P .gateway (dirLine h) with
      | (none, P) => P
      | (some ws, P) =>
        setterWords now (cacheSlot h) (ws.take 15 ++ [BitVec.ofNat 36 ((parseEntry h ws).version.toNat * 2 ^ 23 + 2 ^ 22 + h)]) P
    match gatewayRead P now setterIdent (cacheSlot h + 15) with
    | .ok w P => if cacheTag w h then P else put P
    | .rubble P => put P
    | r => r.pier

/-- Clears VAL of a handle's cache slot (R163, R367). On a pier that is not awake the word is changed as it stands, in effect by
its wake. -/
def cacheDrop (now h : Nat) (P : Pier) : Pier :=
  if P.mem.bank[15].owner ≠ 64#7 then P
  else if P.awake then
    match gatewayRead P now setterIdent (cacheSlot h + 15) with
    | .ok w P => if cacheTag w h then setterWords now (cacheSlot h + 15) [w &&& ~~~ (0x400000#36)] P else P
    | r => r.pier
  else match bankFetch P .gateway (cacheSlot h + 15) with
    | .ok w P => if cacheTag w h then bankStore P (cacheSlot h + 15) (eccEncode (w &&& ~~~ (0x400000#36))) else P
    | _ => P

/-- A change of KC takes effect on a pier that holds no batch: KC = 1 gives bank 15 back to owner 64 (R367). -/
def Dev.kcSync (d : Dev) (p : Fin 16) : Dev :=
  if !(d.held p).isEmpty || (d.pier p).kcOn = d.setter.kc then d
  else
    let d := d.onPier p (fun P => { P with kcOn := d.setter.kc })
    if d.setter.kc then d.onReg p (fun P => bankOwnWrite P d.now 15 64) else d

/-! ### Placement (R362 to R365) -/

/-- Whether a session of partition `q` is active on a pier (R369). -/
def Dev.partActive (d : Dev) (p : Fin 16) (q : Fin 64) : Bool :=
  (d.held p).any (fun b => b.parts.contains q) ||
  (d.pier p).hod.cur.any (fun c => !c.frontage && (c.tag.extractLsb' 16 6).toNat = q.val) ||
  (d.pier p).hod.queue.any (fun t => !t.frontage &&
    ((eccDecode ((d.pier p).mem.banks.get (64 * t.addr.toNat))).2.extractLsb' 16 6).toNat = q.val)

/-- Clears the PR_S2CFG of partitions that ST_PART has taken from a pier and that are active there no longer (R305, R319). -/
def Dev.s2Late (d : Dev) (p : Fin 16) : Dev :=
  let done := d.setter.s2Due.filter (fun e => e.1 = p && !d.partActive p e.2)
  let d := { d with setter := { d.setter with s2Due := d.setter.s2Due.filter (fun e => !done.contains e) } }
  d.onPier p (fun P => { P with regs := { P.regs with s2cfg := done.foldl (fun c e => c.set e.2 {}) P.regs.s2cfg } })

/-- A pier that has just lost a batch: a PR_S2CFG that waited for it is cleared, and where it holds none now, its idle time begins and
a KC change takes effect (R319, R366, R367). -/
def Dev.emptied (d : Dev) (p : Fin 16) : Dev :=
  let d := d.s2Late p
  if !(d.held p).isEmpty then d
  else ({ d with setter := { d.setter with idleSince := d.setter.idleSince.set p d.now } }).kcSync p

/-- The key handles of a batch, in item order (R367). -/
def Dev.batchHandles (d : Dev) (b : Batch) : List Nat :=
  (d.items.filter (fun (i : Item) => b.items.contains i.id)).flatMap (fun i => [i.kh1, i.kh2])

/-- The setter gives a placed batch to an awake pier: the record, PUT, IPEND bit 2 and the key cache. The record's layout
belongs to the firmware image, and the model holds the batch in its place (R365, R367; log 66). -/
def Dev.announce (d : Dev) (p : Fin 16) (b : Batch) : Dev :=
  (d.onPier p (fun P =>
    (d.batchHandles b).foldl (fun P h => cacheFill d.now h P) { P with regs := { P.regs with put := P.regs.put + 1 } })).pendPier p 2

/-- The batches placed on a pier that it has not started, in the order of their records (R365). -/
def Dev.placedOn (d : Dev) (p : Fin 16) : List Batch :=
  (d.setter.batches.filter (fun b => b.state = .placed p)).mergeSort (fun a b => a.turn ≤ b.turn)

/-- Ends every item of a pier with PIER_LOST on chain 16, and its batches and its preemption request with them (R16, R23,
R375). -/
def Dev.loseItems (d : Dev) (p : Fin 16) : Dev :=
  let lost := d.items.filter (fun i => i.unfinished p)
  let d := { d with setter := { d.setter with
    batches := d.setter.batches.filter (fun (b : Batch) => b.pier? ≠ some p)
    preempts := d.setter.preempts.filter (fun e => e.1 ≠ p) } }
  let d := d.onPier p (fun P => { P with regs := { P.regs with req := false } })
  (lost.foldl (fun d i => d.endItem16 i 0x23 0) d).emptied p

/-- Gives a batch to a pier (R365). One that is being woken gets it when its wake ends (R364); in one that is in reset its
items end at once (R16). -/
def Dev.place (d : Dev) (b : Batch) (p : Fin 16) : Dev :=
  let d := d.onBatch b.id (fun x => { x with
    state := .placed p, snap := some (x.snap.getD d.loaded), turn := d.setter.nextTurn, parts := d.batchParts b })
  let d := { d with
    items := d.items.map (fun (i : Item) => if b.items.contains i.id && i.stage = Stage.setter then { i with stage := .pier p } else i)
    setter := { d.setter with lastPier := p.val, nextTurn := d.setter.nextTurn + 1 } }
  if d.fc.inReset.getLsbD p.val then d.loseItems p
  else if (d.pier p).awake then d.announce p b
  else d

/-- The rank of a ready batch: QoS 15 once it has waited 10 ms (R362). -/
def Batch.rank (b : Batch) : Nat := if b.aged then 15 else b.cls.qos

/-- Ready batches in the order of R362. -/
def Dev.readyOrder (d : Dev) : List Batch :=
  (d.setter.batches.filter (fun b => b.state = .ready)).mergeSort
    (fun a b => b.rank < a.rank || (a.rank = b.rank && a.oldest ≤ b.oldest))

/-- Splits a batch for which no pier is allowed into batches of one partition each (R363). -/
def Dev.splitBatch (d : Dev) (b : Batch) : Dev :=
  let ps := d.batchParts b
  let mine (q : Fin 64) : List Nat :=
    b.items.filter (fun id => d.items.any (fun i => i.id = id && i.part = some q))
  let new := ps.zipIdx.map (fun q => { b with id := d.setter.nextBatch + q.2, items := mine q.1, single := true })
  { d with setter := { d.setter with
      batches := d.setter.batches.flatMap (fun x => if x.id = b.id then new else [x])
      nextBatch := d.setter.nextBatch + ps.length } }

/-- Whether the batch that runs on a pier may be preempted for QoS `q` (R370). -/
def Dev.victimOk (d : Dev) (q : Nat) (b : Batch) (p : Fin 16) : Bool :=
  match d.runningOn p with
  | none => false
  | some v =>
    d.allowed (d.batchParts b) p && v.cls.qos < q && v.started + 25 * d.setter.minrun.toNat < d.now &&
    v.preempted < d.setter.maxp.toNat && !d.setter.preempts.any (fun e => e.1 = p)

/-- Requests preemption on a pier: REQ rises and vector 19 becomes pending (R371). -/
def Dev.preempt (d : Dev) (b v : Batch) (p : Fin 16) : Dev :=
  let d := { d with setter := { d.setter with preempts := d.setter.preempts ++ [(p, b.id, v.id)] } }
  (d.onPier p (fun P => { P with regs := { P.regs with req := true, reqAt := d.now } })).pendPier p 3

/-- Whether a batch waits for a preemption that it has asked for. -/
def Dev.preempting (d : Dev) (b : Nat) : Bool := d.setter.preempts.any (fun e => e.2.1 = b)

/-- The pier that rule 3 preempts: the victim of lowest QoS, then the one that has run longest (R370). -/
def Dev.rule3 (d : Dev) (b : Batch) : Option (Fin 16 × Batch) :=
  if !d.setter.preEn || d.preempting b.id then none
  else
    ((List.finRange 16).filter (d.victimOk b.cls.qos b)).foldl (fun (m : Option (Fin 16 × Batch)) p =>
      match d.runningOn p with
      | none => m
      | some v =>
        match m with
        | none => some (p, v)
        | some (q, w) => if v.cls.qos < w.cls.qos || (v.cls.qos = w.cls.qos && v.started < w.started) then some (p, v) else some (q, w)) none

/-- A pier that rule 2 wakes for a batch (R364, R470). -/
def Dev.rule2 (d : Dev) (b : Batch) : Option (Fin 16 × Dev) :=
  (List.finRange 16).findSome? (fun p =>
    if (d.pier p).awake || !d.allowed (d.batchParts b) p || d.audit.full.contains p.val then none
    else (d.tryWake p).map (fun d => (p, d)))

/-- What the setter does with one ready batch by R363 and R364: `none` is rule 4, it waits. -/
def Dev.placeOne (d : Dev) (b : Batch) : Option Dev :=
  if !(List.finRange 16).any (d.allowed (d.batchParts b)) then
    if 1 < (d.batchParts b).length then some (d.splitBatch b) else none
  else match d.rule1 b with
    | some p => some (d.place b p)
    | none =>
      match d.rule2 b with
      | some (p, d') => some (d'.place b p)
      | none =>
        match d.rule3 b with
        | some (p, v) => some (d.preempt b v p)
        | none => none

/-- Places the first ready batch for which a rule of R364 other than waiting applies. -/
def Dev.placeNext (d : Dev) : Dev :=
  if !d.placing then d else (d.readyOrder.findSome? d.placeOne).getD d

/-! ### Joining and closing (R361) -/

/-- Whether EAGER closes an open batch now: an awake allowed pier holds no batch (R361). -/
def Dev.eagerCloses (d : Dev) (b : Batch) : Bool :=
  d.setter.eager && (List.finRange 16).any (fun p => (d.pier p).awake && d.allowed (d.batchParts b) p && (d.held p).isEmpty)

/-- Closes every open batch that EAGER closes now (R361). -/
def Dev.eagerAll (d : Dev) : Dev :=
  (d.setter.batches.filter (fun b => b.state = .gathering)).foldl (fun d b => if d.eagerCloses b then d.closeBatch b.id else d) d

/-- An item that passed check 7 joins the open batch of its class, or opens one (R361). -/
def Dev.join (d : Dev) (i : Item) : Dev :=
  let c := d.classOf i
  let mx := min d.setter.bmax.toNat (classMax i.opc)
  let (d, id) := match d.setter.batches.find? (fun b => b.state = .gathering && b.cls = c) with
    | some b => (d.onBatch b.id (fun b => { b with items := b.items ++ [i.id] }), b.id)
    | none =>
      let b : Batch := { id := d.setter.nextBatch, cls := c, items := [i.id], oldest := d.now, state := .gathering }
      ({ d with setter := { d.setter with batches := d.setter.batches ++ [b], nextBatch := d.setter.nextBatch + 1 } }, b.id)
  match d.batch? id with
  | some b => if mx ≤ b.items.length || d.eagerCloses b then d.closeBatch id else d
  | none => d

/-- The batch that was placed first on a pier starts where none runs there: its run time counts from now (R365, R370). -/
def Dev.startPlaced (d : Dev) (p : Fin 16) : Dev :=
  if (d.runningOn p).isSome then d
  else match d.placedOn p with
    | b :: _ => d.onBatch b.id (fun b => { b with state := .running p, started := d.now })
    | [] => d

/-- Firmware takes the next record of a pier's ring where no batch runs: it advances GET and starts the batch (R365). -/
def Dev.startBatch (d : Dev) (p : Fin 16) : Dev :=
  if (d.runningOn p).isSome || (d.placedOn p).isEmpty then d
  else (d.onPier p (fun P => { P with regs := { P.regs with get := P.regs.get + 1 } })).startPlaced p

/-- A write of PR_WORK.GET: where it advances GET past a record, firmware starts that batch (R365, R370). -/
def Dev.getWrite (d : Dev) (p : Fin 16) (v : BitVec 4) : Dev :=
  let moved := v ≠ (d.pier p).regs.get
  let d := d.onReg p (fun P => { P with regs := { P.regs with get := v } })
  if moved then d.startPlaced p else d

/-- The setter keeps MINAWAKE piers that it may use in IDLE or RUN, as far as the arbiter grants a wake (R366). -/
def Dev.keepAwake (d : Dev) : Dev :=
  let ps := (List.finRange 16).filter (fun p => d.setter.en.getLsbD p.val && !d.setter.out.getLsbD p.val)
  if !d.placing || d.setter.minawake.toNat ≤ (ps.filter (fun p => (d.pier p).awake || (d.pier p).pw.change ≠ .none)).length then d
  else (ps.findSome? d.tryWake).getD d

/-! ### The commands -/

/-- BATCH_WINDOW_EXPIRY: the oldest item of an open batch has waited WIN µs (R361). -/
def execBatchWindowExpiry (b : Nat) (s : State) : Host.Outcome State Fault Refusal :=
  let d := s.dev
  match d.batch? b with
  | some x => s.answer (if x.oldest + 25 * d.setter.win.toNat ≤ d.now then d.closeBatch b else d)
  | none => s.answer d

/-- DEADLINE_HINT_EXPIRY: min(WIN, ⌊DLH / 2⌋) µs have passed since an item joined (R361). -/
def execDeadlineHintExpiry (it : Nat) (s : State) : Host.Outcome State Fault Refusal :=
  let d := s.dev
  match d.item? it, d.setter.batches.find? (fun b => b.items.contains it) with
  | some i, some b =>
    let h := i.bits 3 31 16
    s.answer (if h ≠ 0 && i.joined + 25 * min d.setter.win.toNat (h / 2) ≤ d.now then d.closeBatch b.id else d)
  | _, _ => s.answer d

/-- BATCH_AGING: a ready batch has waited 10 ms (R362). -/
def execBatchAging (b : Nat) (s : State) : Host.Outcome State Fault Refusal :=
  let d := s.dev
  s.answer (d.onBatch b (fun x => if x.state = .ready && x.readyAt + 250000 ≤ d.now then { x with aged := true } else x))

/-- BATCH_PLACEMENT (R362 to R364). -/
def execBatchPlacement (s : State) : Host.Outcome State Fault Refusal := s.answer s.dev.placeNext.keepAwake

/-- The end of the batch that runs on a pier: it leaves the setter, a thinned pier starts its 1 ms gap, and a pier that now
holds none is idle (R365 to R367, R462). -/
def Dev.endBatch (d : Dev) (p : Fin 16) : Dev :=
  match d.runningOn p with
  | none => d
  | some b =>
    if d.items.any (fun i => b.items.contains i.id && i.unfinished p) then d
    else
      ({ d with setter := { d.setter with
        batches := d.setter.batches.filter (fun (x : Batch) => x.id ≠ b.id)
        thin := if (d.pier p).lapOverdue then d.setter.thin.filter (fun (t : Fin 16 × Nat) => t.1 ≠ p) ++ [(p, d.now + 25000)] else d.setter.thin } }).emptied p

/-- BATCH_END: the batch ends and the waiting batches are reconsidered (R364, R365). -/
def execBatchEnd (p : Fin 16) (s : State) : Host.Outcome State Fault Refusal :=
  let d := s.dev.endBatch p
  s.answer (if d.runningOn p = s.dev.runningOn p then d else d.eagerAll.placeNext)

/-- PIER_WAKE_COMPLETE: the wake ends (log 75); after start-up the core is released, the batches placed meanwhile are given to the
pier, a reclaim that the cap asks for is made (R471),
and the waiting batches are reconsidered (R361, R364, R365, R468, R480). -/
def execPierWakeComplete (p : Fin 16) (s : State) : Host.Outcome State Fault Refusal :=
  match (s.dev.pier p).pw.change with
  | .wake f =>
    if s.dev.now < (s.dev.pier p).pw.since + wakeTicks (s.dev.pier p).pw.st f then s.answer s.dev
    else
      let d := s.dev.wakeDone p f
      let d := if d.life.op = .startUp || !d.mayRelease p then d else d.onPier p (fun P => P.release d.now)
      let d := (d.placedOn p).foldl (fun d b => d.announce p b) d
      s.answer d.reclaim.eagerAll.placeNext
  | _ => s.answer s.dev

/-- Whether the setter counts a pier for MINAWAKE while it is awake (R366). -/
def Dev.counts (d : Dev) (p : Fin 16) : Bool := (d.pier p).awake && d.setter.en.getLsbD p.val && !d.setter.out.getLsbD p.val

/-- Piers awake that the setter counts for MINAWAKE, pier `p` left out (R366). -/
def Dev.awakeBeside (d : Dev) (p : Fin 16) : Nat := ((List.finRange 16).filter (fun q => q ≠ p && d.counts q)).length

/-- PIER_SLEEP_TIMER: no batch for SLEEPT µs (R366). -/
def execPierSleepTimer (p : Fin 16) (s : State) : Host.Outcome State Fault Refusal :=
  let d := s.dev
  s.answer (if (d.pier p).awake && d.holdsNoBatch p.val && d.setter.idleSince[p] + 25 * d.setter.sleept.toNat ≤ d.now &&
      (!d.counts p || d.setter.minawake.toNat ≤ d.awakeBeside p) then d.onPier p (fun P => P.toSleep d.now) else d)

/-- PIER_OFF_TIMER: 100 ms in SLEEP, OFFOK, and no bank but bank 15 owned by a partition (R366). -/
def execPierOffTimer (p : Fin 16) (s : State) : Host.Outcome State Fault Refusal :=
  let d := s.dev
  let P := d.pier p
  s.answer (if P.pw.st = .sleep && P.pw.change = .none && d.setter.offok && P.pw.since + 2500000 ≤ d.now &&
      (List.finRange 15).all (fun b => 64 ≤ (P.mem.bank[b.val]).owner.toNat) then d.onPier p (fun P => P.toOff d.now) else d)

/-- PIER_THIN_DELAY_EXPIRY: the 1 ms gap ends (R462). -/
def execPierThinDelayExpiry (p : Fin 16) (s : State) : Host.Outcome State Fault Refusal :=
  let d := s.dev
  s.answer { d with setter := { d.setter with thin := d.setter.thin.filter (fun (t : Fin 16 × Nat) => !(t.1 = p && t.2 ≤ d.now)) } }

/-- The request on a pier ends: REQ falls (R371). -/
def Dev.endRequest (d : Dev) (p : Fin 16) : Dev :=
  ({ d with setter := { d.setter with preempts := d.setter.preempts.filter (fun e => e.1 ≠ p) } }).onPier p
    (fun P => { P with regs := { P.regs with req := false } })

/-- The items of a batch that its pier has not finished (R374). -/
def Dev.unfinishedOf (d : Dev) (p : Fin 16) (b : Nat) : List Nat :=
  match d.batch? b with
  | some v => v.items.filter (fun id => d.items.any (fun i => i.id = id && i.unfinished p))
  | none => []

/-- An item of a suspended batch waits again for its restart from the input (R374). -/
def Item.restart (i : Item) : Item :=
  { i with stage := .setter, status := 0, result := 0, outLen := 0, output := [], rdata6 := 0, rdata7 := 0, inBytes := [] }

/-- The preempting batch takes the pier by rule 1 of R364, ahead of every other ready batch (R373, R377). -/
def Dev.placeFirst (d : Dev) (b : Nat) (p : Fin 16) : Dev :=
  match d.batch? b with
  | some b => if b.state = .ready && d.placing && d.takes b p then d.place b p else d
  | none => d

/-- A write of ACK = 1: the victim is ready again with its unfinished items, and the preempting batch is placed ahead
of every other (R371, R373, R374). -/
def Dev.ackSuspended (d : Dev) (p : Fin 16) : Dev :=
  match d.setter.preempts.find? (fun e => e.1 = p) with
  | none => d
  | some e =>
    let left := d.unfinishedOf p e.2.2
    let d := d.endRequest p
    let d := { d with items := d.items.map (fun (i : Item) => if left.contains i.id then i.restart else i) }
    let d := d.onBatch e.2.2 (fun v => { v with state := .ready, items := left, readyAt := d.now, preempted := v.preempted + 1 })
    let d := if left.isEmpty then { d with setter := { d.setter with batches := d.setter.batches.filter (fun (x : Batch) => x.id ≠ e.2.2) } } else d
    (d.emptied p).placeFirst e.2.1 p

/-- A write of ACK = 2: the victim has ended before it was suspended (R372, R375). -/
def Dev.ackEnded (d : Dev) (p : Fin 16) : Dev :=
  match d.setter.preempts.find? (fun e => e.1 = p) with
  | none => d
  | some e => (d.endRequest p).placeFirst e.2.1 p

/-- Whether every item of the batch that is to be preempted on a pier has its audit record (R372). -/
def Dev.victimRecorded (d : Dev) (p : Fin 16) : Bool :=
  match d.setter.preempts.find? (fun e => e.1 = p) with
  | some e => (d.unfinishedOf p e.2.2).isEmpty
  | none => false

/-- PREEMPT_TIMEOUT: no ACK within 1 ms; the setter reports cause 0x0E for the pier (R373). -/
def execPreemptTimeout (p : Fin 16) (s : State) : Host.Outcome State Fault Refusal :=
  let d := s.dev
  let P := d.pier p
  s.answer (if P.regs.req && P.regs.reqAt + 25000 ≤ d.now && P.detq.all (fun e => e.cause ≠ 0x0E#8) then
    d.setPier p (P.detect 0x0E 0 0) else d)

/-- MINRUN_EXPIRY: the batch that runs on a pier passes MINRUN, and the first waiting batch that may now preempt it preempts
the victim that R370 chooses among all piers. -/
def execMinrunExpiry (p : Fin 16) (s : State) : Host.Outcome State Fault Refusal :=
  let d := s.dev
  s.answer (if !d.placing || !d.setter.preEn then d else
    match d.readyOrder.find? (fun b => !d.preempting b.id && (d.rule1 b).isNone && (d.rule2 b).isNone && d.victimOk b.cls.qos b p) with
    | some b =>
      (match d.rule3 b with
       | some (q, v) => d.preempt b v q
       | none => d)
    | none => d)

/-- Whether a block may be the new place of a leaf: wholly in banks that the partition owns, or in the partition region,
aligned, not retired (R311, R368, R369). -/
def leafDestOk (P : Pier) (q : Fin 64) (dst size : Nat) : Bool :=
  dst % size = 0 && inMemory dst size && (0x20000 ≤ dst) &&
  (quarryBase ≤ dst || (P.mem.bank[bankOf dst]).owner.toNat = q.val) &&
  P.mem.frames.all (fun f => 64 * f + 64 ≤ dst || dst + size ≤ 64 * f)

/-- The bank that the setter hands to partition `q` for a leaf there: one of banks 0 to 14 at owner 64 that is not retired, within
ST_PART.BANKS, and only while six others stay at owner 64 (R278, R368). -/
def Dev.bankFor (d : Dev) (p : Fin 16) (q : Fin 64) (dst : Nat) : Option (Fin 16) :=
  let P := d.pier p
  let owned (o : Nat) : Nat := ((List.finRange 16).filter (fun b => b.val < 15 && P.mem.bank[b].owner.toNat = o)).length
  let b := bankOf dst
  if dst < quarryBase && b.val < 15 && P.mem.bank[b].owner = 64#7 && !P.regs.retire.getLsbD b.val && (b ≠ 0 || P.core.run = .reset) &&
      owned q.val < d.setter.part[q].banks.toNat && 7 ≤ owned 64 then some b
  else none

/-- MIGRATION_LEAF_MOVE: copies the leaf, rewrites its entry, invalidates the partition's TLB entries and the
instruction cache; the setter then knows the leaf at its new place. A bank that R368 lets the setter give to the partition is handed
over first. A copy that fails leaves the entry as it was (R271,
R369). -/
def execMigrationLeafMove (p : Fin 16) (q : Fin 64) (ipa : BitVec 30) (dest : Word) (s : State) : Host.Outcome State Fault Refusal :=
  let d := s.dev
  let P := match d.bankFor p q dest.toNat with
    | some b => bankOwnWrite (d.pier p) d.now b (BitVec.ofNat 32 q.val)
    | none => d.pier p
  s.answer (if d.partActive p q || !P.awake then d else
    match P.leafOf q ipa.toNat with
    | none => d
    | some f =>
      if 4096 < f.size || f.pte.getLsbD 5 || !leafDestOk P q dest.toNat f.size then d
      else
        match copyLeaf d.now q.val f.size none (f.pte.toNat / 64 * 64) dest.toNat P with
        | (false, P) => d.setPier p P
        | (true, P) =>
          let P := tlbiPartition q (gatewayQuarry P [(f.at_, (f.pte &&& 0x3F#36) ||| dest, false)])
          let d := d.setPier p { P with mem := { P.mem with icache := [] } }
          if f.size ≠ 4096 then d
          else { d with setter := { d.setter with
            leaves := d.setter.leaves.filter (fun l => !(l.pier = p && l.part = q && l.leaf = ipa.toNat / 4096)) ++
              [⟨p, q, ipa.toNat / 4096, dest.toNat⟩] } })

end Sys2Proof.Machine
end

