-- ==== Sys2Proof/Machine/Hod.lean ====
section
/-! DEFINITION. The hod of a pier: tickets, segments, suspension (R347 to R352). -/

namespace Sys2Proof.Machine

open Sys2Proof

/-! ### Who a ticket serves (R277, R303, R325) -/

/-- The function whose requester ID a ticket's requests carry: the session's, or PF0 for a ticket of the frontage
(R325). -/
def Dev.hodFn (d : Dev) (frontage : Bool) (tag : BitVec 22) : FnId :=
  if frontage then .pf0
  else match d.sessions.find? (fun s => s.num = tag.toNat % 65536) with
    | some s => s.fn
    | none => .vf (tag.extractLsb' 16 6).toFin

/-- The translation of a session's ticket: its tag, the width and root of its session context, or of PR_SPACE where
the session has no context any more (R303, R304, R404; log 11). -/
def Dev.hodCtx (d : Dev) (P : Pier) (tag : BitVec 22) : TrCtx :=
  let s2 := P.regs.s2cfg[(tag.extractLsb' 16 6).toFin]
  match d.sessions.find? (fun s => s.num = tag.toNat % 65536) with
  | some s => ⟨tag, s.s1w, s.root, s2, true⟩
  | none => ⟨tag, P.regs.s1w, P.regs.s1root, s2, true⟩

/-- The identity of a ticket's data accesses (R277). -/
def hodIdent (frontage : Bool) (tag : BitVec 22) : Ident := if frontage then .owner 0x40#7 else tagIdent tag

/-- The identity with which the hod reads and writes the ticket block: that of the poster (log 11). -/
def hodPoster (frontage : Bool) : Ident := if frontage then .owner 0x40#7 else .supervisor

/-- What a pier-side access of the hod answers: a result, a wait, or a fault with its cause and address (R350). -/
inductive HodRes (α : Type) where
  | ok (v : α) (P : Pier)
  | held (P : Pier)
  | fault (cause : Nat) (at_ : Word) (P : Pier)

/-- How a segment reaches pier memory: the identity, and the translation context of a session's ticket. -/
structure HodVia where
  ident : Ident
  ctx   : Option TrCtx

/-- The physical address of a pier-side address (R303, R348). -/
def hodAddr (via : HodVia) (now : Nat) (acc : Access) (va : Word) (P : Pier) : HodRes Word :=
  match via.ctx with
  | none => .ok va P
  | some c =>
    match translate c now true acc va P with
    | .ok pa P => .ok pa P
    | .held P => .held P
    | .fault _ _ P => .fault 0x21 va P

/-- Reads `k` words from `va` on (R349, R350). -/
def hodRead (via : HodVia) (now : Nat) : Nat → Word → Pier → HodRes (List Word)
  | 0, _, P => .ok [] P
  | k + 1, va, P =>
    match hodAddr via now .read va P with
    | .held P => .held P
    | .fault c a P => .fault c a P
    | .ok pa P =>
      match physRead P now via.ident .hod pa with
      | .held P => .held P
      | .bus _ P => .fault 0x21 va P
      | .rubble P => .fault 0x22 va P
      | .ok w P =>
        match hodRead via now k (va + 1) P with
        | .ok ws P => .ok (w :: ws) P
        | r => r

/-- Translates and checks the destinations of words from `va` on, before anything is written (R349). The element index
counts the words. -/
def hodDests (via : HodVia) (now : Nat) : List Word → Nat → Word → Pier → HodRes (List (Nat × Word × Elem))
  | [], _, _, P => .ok [] P
  | w :: ws, i, va, P =>
    let go (pa : Word) (P : Pier) : HodRes (List (Nat × Word × Elem)) :=
      match hodDests via now ws (i + 1) (va + 1) P with
      | .ok l P => .ok ((i, pa, ⟨i, w, false⟩) :: l) P
      | r => r
    match hodAddr via now .write va P with
    | .held P => .held P
    | .fault c a P => .fault c a P
    | .ok pa P =>
      match physTarget pa with
      | .bank b _ =>
        match bankGrant P now via.ident .hod b with
        | .ok _ P => go pa P
        | .held P => .held P
        | .bus _ P => .fault 0x21 va P
        | .rubble P => go pa P
      | .quarry _ _ =>
        if reserveBase ≤ pa.toNat && !reserveAllows via.ident then
          .fault 0x21 va (P.detect 0x0A (pa.toNat % 2 ^ 32) (pa.toNat / 2 ^ 32))
        else go pa P
      | _ => .fault 0x21 va P

/-- The first line that a segment covers in part and that reads as poison or uncorrectable (R349). -/
def hodPoison (ws : List (Nat × Word × Elem)) : List Nat → Pier → Option Nat × Pier
  | [], P => (none, P)
  | l :: ls, P =>
    if coversLine (lineOfGroup ws l) then hodPoison ws ls P
    else match lineFetch P .hod l with
      | (none, P) => (some l, P)
      | (some _, P) => hodPoison ws ls P

/-- Writes an inbound segment (R349). -/
def hodStore (ws : List (Nat × Word × Elem)) (P : Pier) : Pier :=
  (groupLines ws).foldl (fun P l => (lineWrite P .hod false l (lineOfGroup ws l)).2) (storeBanks P ws)

/-! ### Tickets (R347, R348, R350, R352) -/

/-- Ends a ticket: words 3 and 4, then the vector and ENDS (R350, R352). Where the bank makes the hod wait, the end waits with it
(R280, R283, R284; log 51). -/
def hodEnd (P : Pier) (now : Nat) (addr : BitVec 15) (frontage iev : Bool) (status cause ridx : Nat) (faddr : Word) : Pier :=
  let a := 64 * addr.toNat
  let w3 : Word := BitVec.ofNat 36 (status * 2 ^ 28 + cause * 2 ^ 20 + ridx * 2 ^ 16)
  let put (P : Pier) : Pier := bankStore (bankStore P (a + 3) (eccEncode w3)) (a + 4) (eccEncode faddr)
  let P := match bankGrant P now (hodPoster frontage) .hod (bankOf a) with
    | .ok _ P => put P
    | .held P => put (settleBank P now (bankOf a))
    | r => r.pier
  let P := if iev || status ≠ 0 then P.pend 1 else P
  { P with hod := { P.hod with cur := none, ends := P.hod.ends + 1 } }

/-- A suspension takes effect (R351, R352). -/
def hodSuspend (P : Pier) : Pier := ({ P with hod := { P.hod with suspd := true, suspReq := false } }).pend 1

/-- A suspension that was asked for takes effect once no ticket runs. -/
def hodAfter (P : Pier) : Pier := if P.hod.suspReq && P.hod.cur.isNone then hodSuspend P else P

/-- A ticket's segments, from its words (R347). -/
def ticketSegs (ws : List Word) (n : Nat) : List (QW × Nat) :=
  (List.range n).map (fun s =>
    let lo := (ws.getD (5 + 3 * s) 0).extractLsb' 0 32
    let hi := (ws.getD (6 + 3 * s) 0).extractLsb' 0 32
    (hi ++ lo, ((ws.getD (7 + 3 * s) 0).extractLsb' 0 25).toNat))

/-- Whether a ticket has a reserved encoding (R347). -/
def ticketReserved (ws : List Word) (n : Nat) : Bool :=
  let w := ws.getD 0 0
  w.getLsbD 35 || w.extractLsb' 32 2 = 3#2 || n ≤ (w.extractLsb' 24 4).toNat || w.extractLsb' 22 2 ≠ 0#2 ||
  (ws.getD 2 0).extractLsb' 0 35 ≠ 0#35 ||
  (List.range n).any (fun s =>
    (ws.getD (5 + 3 * s) 0).extractLsb' 32 4 ≠ 0#4 || (ws.getD (6 + 3 * s) 0).extractLsb' 32 4 ≠ 0#4 ||
    (ws.getD (7 + 3 * s) 0).extractLsb' 25 11 ≠ 0#11)

/-- Whether a ticket's lengths are valid (R40, R347, R348). -/
def ticketLengths (pack : Nat) (segs : List (QW × Nat)) : Bool :=
  segs.zipIdx.all (fun s =>
    1 ≤ s.1.2 && s.1.2 ≤ 16777216 && (pack ≠ 2 || s.1.2 % 2 = 0) &&
    (s.2 + 1 = segs.length || s.1.2 % (if pack = 0 then 4 else if pack = 1 then 9 else 8) = 0))

/-- Reads `k` words of a ticket block. -/
def ticketWords (P : Pier) (now : Nat) (i : Ident) (a : Nat) : Nat → MemRes (List Word)
  | 0 => .ok [] P
  | k + 1 =>
    match ticketWords P now i a k with
    | .ok ws P =>
      match physRead P now i .hod (BitVec.ofNat 36 (a + k)) with
      | .ok w P => .ok (ws ++ [w]) P
      | .held P => .held P
      | .bus n P => .bus n P
      | .rubble P => .rubble P
    | r => r

/-- Takes up the first queued ticket (R348, R351): a reserved encoding is refused before a length. -/
def hodStart (P : Pier) (now : Nat) : Pier :=
  match P.hod.queue with
  | [] => P
  | t :: rest =>
    if P.hod.cur.isSome || P.hod.suspd || !P.awake then P
    else
      let a := 64 * t.addr.toNat
      let i := hodPoster t.frontage
      let Q := { P with hod := { P.hod with queue := rest } }
      match ticketWords Q now i a 5 with
      | .held _ => P
      | .bus _ Q => hodAfter (hodEnd Q now t.addr t.frontage false 0x02 0x21 0 (BitVec.ofNat 36 a))
      | .rubble Q => hodAfter (hodEnd Q now t.addr t.frontage false 0x02 0x22 0 (BitVec.ofNat 36 a))
      | .ok head Q =>
        let n := ((head.getD 0 0).extractLsb' 28 4).toNat + 1
        match ticketWords Q now i a (5 + 3 * n) with
        | .held _ => P
        | .bus _ Q => hodAfter (hodEnd Q now t.addr t.frontage false 0x02 0x21 0 (BitVec.ofNat 36 a))
        | .rubble Q => hodAfter (hodEnd Q now t.addr t.frontage false 0x02 0x22 0 (BitVec.ofNat 36 a))
        | .ok ws Q =>
          let w := ws.getD 0 0
          let segs := ticketSegs ws n
          let iev := (ws.getD 2 0).getLsbD 35
          if ticketReserved ws n then hodAfter (hodEnd Q now t.addr t.frontage iev 0x11 0 0 0)
          else if !ticketLengths (w.extractLsb' 32 2).toNat segs then hodAfter (hodEnd Q now t.addr t.frontage iev 0x17 0 0 0)
          else
            { Q with hod := { Q.hod with cur := some {
                addr := t.addr, frontage := t.frontage, outbound := w.getLsbD 34, pack := w.extractLsb' 32 2,
                tag := w.extractLsb' 0 22, pva := ws.getD 1 0, iev := iev, seg := (w.extractLsb' 24 4).toNat, segs := segs } } }

/-- The pier-side address of a segment (R41, R348). -/
def HodCur.segBase (c : HodCur) : Word :=
  c.pva + BitVec.ofNat 36 (((c.segs.take c.seg).map (fun s => packWords c.pack.toNat s.2)).sum)

/-- A segment has been transferred: the next one, the end of the ticket, or a suspension before the next (R350,
R351). -/
def hodNext (P : Pier) (now : Nat) (c : HodCur) : Pier :=
  if c.seg + 1 = c.segs.length then hodAfter (hodEnd P now c.addr c.frontage c.iev 0 0 0 0)
  else if P.hod.suspReq then hodAfter (hodEnd P now c.addr c.frontage c.iev 0x02 0 (c.seg + 1) 0)
  else { P with hod := { P.hod with cur := some { c with seg := c.seg + 1 } } }

/-- A segment faults (R350). -/
def hodFault (P : Pier) (now : Nat) (c : HodCur) (cause : Nat) (faddr : Word) : Pier :=
  hodAfter (hodEnd P now c.addr c.frontage c.iev 0x02 cause c.seg faddr)

/-- The hod finishes a segment, with what the host returned for an inbound one, whose reads carry the function's requester ID
(R325, R349, R350, R354). An outbound dense segment of 9m + 5 bytes, for which the ticket counts bytes alone, is packed from
as many words as R41 gives inbound, 2m + 2, so the high nibble of its last byte is the next word's low nibble (DESIGN CHOICE
beside R39, log 67). -/
def Dev.hodSegment (d : Dev) (p : Fin 16) (rd : HostRead) : Dev :=
  let P := d.pier p
  match P.hod.cur with
  | none => d
  | some c =>
    let f := d.hodFn c.frontage c.tag
    let seg := c.segs.getD c.seg (0, 0)
    let via : HodVia := ⟨hodIdent c.frontage c.tag, if c.frontage then none else some (d.hodCtx P c.tag)⟩
    let n := packWords c.pack.toNat seg.2
    if !d.canSend f then d.setPier p (hodFault P d.now c 0x20 0)
    else if c.outbound then
      match hodRead via d.now n c.segBase P with
      | .held P => d.setPier p P
      | .fault k a P => d.setPier p (hodFault P d.now c k a)
      | .ok ws P =>
        (d.setPier p (hodNext P d.now c)).write f (.hod p) seg.1 ((packOut c.pack.toNat ws).take seg.2) (d.fn f).relaxed
    else
      match rd with
      | .err _ => (d.readHost f seg.1 seg.2).setPier p (hodFault P d.now c 0x20 0)
      | .data bs =>
        let d' := d.readHost f seg.1 seg.2
        match hodDests via d.now (packIn c.pack.toNat (fitBytes seg.2 bs)) 0 c.segBase P with
        | .held P => d.setPier p P
        | .fault k a P => d'.setPier p (hodFault P d.now c k a)
        | .ok ws P =>
          match hodPoison ws (groupLines ws) P with
          | (some l, P) => d'.setPier p (hodFault P d.now c 0x22 (c.segBase + BitVec.ofNat 36 (lineIndex ws l)))
          | (none, P) => d'.setPier p (hodNext (hodStore ws P) d.now c)

/-! ### Registers and commands (R351) -/

/-- PR_HOD_POST: queues a ticket, or sets OVF when 16 are queued (R351). -/
def hodPost (P : Pier) (frontage : Bool) (v : DW) : Pier :=
  if 16 ≤ P.hod.queue.length + P.hod.cur.toList.length then { P with hod := { P.hod with ovf := true } }
  else { P with hod := { P.hod with queue := P.hod.queue ++ [⟨v.extractLsb' 6 15, frontage⟩] } }

/-- PR_HOD_CTL: SUSP, then RESUME (R351; log 11). A suspension with no ticket running takes effect at once. -/
def hodCtl (P : Pier) (v : DW) : Pier :=
  let P := if v.getLsbD 0 && !P.hod.suspd then hodAfter { P with hod := { P.hod with suspReq := true } } else P
  if v.getLsbD 1 then { P with hod := { P.hod with suspd := false } } else P

/-- PR_HOD_STAT: OVF is W1C (R351). -/
def hodStatWrite (P : Pier) (v : DW) : Pier :=
  if v.getLsbD 31 then { P with hod := { P.hod with ovf := false } } else P

/-- PR_HOD_STAT as read (R351). -/
def hodStat (P : Pier) : DW :=
  BitVec.ofNat 32 ((if P.hod.ovf then 2 ^ 31 else 0) + (if P.hod.suspd then 2 ^ 30 else 0) +
    (if P.hod.cur.isSome then 2 ^ 29 else 0) + (P.hod.queue.length + P.hod.cur.toList.length) * 2 ^ 16 + P.hod.ends.toNat)

/-- Steps 1 to 3 of R372 on a pier: ABORT, SUSP, and once the suspension has taken effect the report's acknowledgement. The
continuation record lists the batch's items, which the model holds in their stages (R372, R374; log 66). -/
def Dev.suspendWork (d : Dev) (p : Fin 16) : Dev :=
  let d := { d.onPier p (fun P => hodCtl (abortRun P d.now d.fresh) 1#32) with fresh := d.fresh + accFrees }
  if (d.pier p).hod.suspd then
    d.onPier p (fun P => { P with runs := { P.runs with rout := 0, unit := 0, index := 0 } })
  else d

/-- PREEMPT_ACK_SUSPENDED: firmware works off R372, and ACK = 1 follows once SUSPD is 1; the same command goes on then. Where
the batch's last item has its record already, firmware writes ACK = 2 instead (R371 to R374). -/
def execPreemptAckSuspended (p : Fin 16) (s : State) : Host.Outcome State Fault Refusal :=
  let d := s.dev
  s.answer (if !(d.pier p).regs.req then d
    else if d.victimRecorded p then (d.ackEnded p).eagerAll
    else
      let d := d.suspendWork p
      if (d.pier p).hod.suspd then (d.ackSuspended p).eagerAll else d)

/-- PREEMPT_ACK_ENDED: firmware writes ACK = 2 only where the batch's last item has its record (R371, R372). -/
def execPreemptAckEnded (p : Fin 16) (s : State) : Host.Outcome State Fault Refusal :=
  s.answer (if (s.dev.pier p).regs.req && s.dev.victimRecorded p then (s.dev.ackEnded p).eagerAll else s.dev)

/-- PR_HOD_POST: resident firmware posts a ticket (R351). -/
def execPrHodPost (p : Fin 16) (v : DW) (s : State) : Host.Outcome State Fault Refusal :=
  s.answer (s.dev.onReg p (fun P => hodPost P false v))

/-- PR_HOD_CTL_SUSP (R351). -/
def execPrHodCtlSusp (p : Fin 16) (v : DW) (s : State) : Host.Outcome State Fault Refusal :=
  s.answer (s.dev.onReg p (fun P => hodCtl P v))

/-- PR_HOD_CTL_RESUME (R351). -/
def execPrHodCtlResume (p : Fin 16) (v : DW) (s : State) : Host.Outcome State Fault Refusal :=
  s.answer (s.dev.onReg p (fun P => hodCtl P v))

/-- HOD_TICKET_START (R348, R351). -/
def execHodTicketStart (p : Fin 16) (s : State) : Host.Outcome State Fault Refusal :=
  s.answer (s.dev.onPier p (fun P => hodStart P s.dev.now))

/-- HOD_SEGMENT_DONE (R349, R350). -/
def execHodSegmentDone (p : Fin 16) (rd : HostRead) (s : State) : Host.Outcome State Fault Refusal :=
  s.answer (s.dev.hodSegment p rd)

end Sys2Proof.Machine
end

