-- ==== Sys2Proof/Machine/Courses.lean ====
section
/-! DEFINITION. Firing of KF0, AU0 and the fixed courses (R155 to R182). -/

namespace Sys2Proof.Machine

open Sys2Proof

/-! ### KF0 (R158 to R164) -/

/-- What KF0 knows beside the pier: the device key-encryption key and the calendar time. -/
structure KeyCtx where
  kek : Option (List Byte)
  cal : Option Nat

/-- The outcome of one lookup: the outputs and the slot to fill, or rubble (R159, R160, R164). -/
inductive LookRes where
  | done (o : LaneOut) (slot : Option KeySlot)
  | rubble
deriving DecidableEq, Repr

/-- A failed lookup (R159). -/
def kfFail (x : Nat) : LookRes := .done { r := 0, s := 0, f := intFlags true false false true false, x := BitVec.ofNat 36 x } none

/-- W of KPUB and KPRIV; none for a reserved value (R158). -/
def kfWidth (p5 : Word) : Option Nat :=
  let w := p5.toNat % 8192
  if w = 0 then some 1 else if w ≤ 4096 then some w else none

/-- What one KF0 firing asks for: operation, required usage (with bit 12 in user mode), component and index (R158). -/
structure KfAsk where
  op    : Nat
  part  : Option (BitVec 6)
  usage : Word
  comp  : Nat
  width : Nat
  idx   : Nat

/-- The request of a firing of KF0 for index `i` (R158, R398). -/
def kfAsk (r : Run) (x : RUnit) (i : Nat) : KfAsk :=
  { op := (x.p 0).toNat, part := if r.fix.user then some (r.fix.tag.extractLsb' 16 6) else none,
    usage := x.p 4 ||| (if r.fix.user then 0x1000 else 0), comp := (x.p 5).toNat / 65536 % 16,
    width := (kfWidth (x.p 5)).getD 1, idx := i }

/-- The first failing reason of R159 for an entry; 0 where none fails. -/
def kfReason (c : KeyCtx) (q : KfAsk) (e : KeyEntry) : Nat :=
  let why := entryReason ⟨q.part, c.cal, q.usage⟩ e
  if why ≠ 0 then why
  else if (q.op = 1) != algSym e.alg.toNat then 6
  else if q.op ≠ 1 && (component [] (q.op = 3) e q.comp).isNone then 7
  else if c.kek.isNone then 8
  else 0

/-- The result of a lookup that every check of R159 passes: a filled slot and its reference, or a limb (R158, R160). -/
def kfResult (kek : List Byte) (q : KfAsk) (e : KeyEntry) : LookRes :=
  if q.op = 1 then
    let alg := e.alg.toNat
    .done (laneInt (BitVec.ofNat 36 (2 ^ 32 + alg * 2 ^ 24 + q.idx % 512)) (BitVec.ofNat 36 (alg * 2 ^ 24 + e.kcv.toNat)) false false)
      (some ⟨q.idx % 512, q.idx, e.alg, e.usage, symKey kek e⟩)
  else
    let n := (component kek (q.op = 3) e q.comp).getD 0
    .done (laneInt (BitVec.ofNat 36 (n / 2 ^ (32 * (q.idx / q.width)) % 2 ^ 32)) (e.kcv.setWidth 36) false false) none

/-- A lookup of the entry whose line has been read: the checks of R159 first, then its blob (R158 to R160, R164). -/
def kfEntry (c : KeyCtx) (q : KfAsk) (x : DirHead) (P : Pier) : LookRes × Pier :=
  match kfReason c q x.entry with
  | 0 =>
    (match readBody x P with
     | (.entry e, P) => (kfResult (c.kek.getD []) q e, P)
     | (.rubble, P) => (.rubble, P))
  | why => (kfFail why, P)

/-- A lookup of handle `h` in its quarry line (R158 to R164). -/
def kfQuarry (c : KeyCtx) (q : KfAsk) (h : Nat) (P : Pier) : LookRes × Pier :=
  match readHead c.kek h P with
  | (some x, P) => kfEntry c q x P
  | (none, P) => (.rubble, P)

/-- A lookup of handle `h`: KREF outside a constant-time run is served from the key cache where it holds the entry, every other
lookup from the quarry; none where the bank holds the access (R158 to R164, R367). -/
def kfLook (c : KeyCtx) (q : KfAsk) (now h : Nat) (ct : Bool) (P : Pier) : Option (LookRes × Pier) × Pier :=
  if q.op ≠ 1 || ct then (some (kfQuarry c q h P), P)
  else match cacheLook now h P with
    | .held P => (none, P)
    | .rubble P => (some (.rubble, P), P)
    | .bus _ P => (some (kfQuarry c q h P), P)
    | .ok none P => (some (kfQuarry c q h P), P)
    | .ok (some ws) P =>
      (match headOf c.kek h ws P with
       | (some x, P) => (some (kfEntry c q x P), P)
       | (none, P) => (some (.rubble, P), P))

/-- The bound of R116 on the key slots: no slot is refilled while an index it serves is still to fire. -/
def slotFree (r : Run) (i : Nat) : Bool :=
  r.units.all (fun u => u.ended || !(u.num = 0x21 || u.num = 0x22 || u.num = 0x23) || !r.fed (mkPort u.num 2) || i < u.fired + 512)

/-- The end of a lookup: its outputs and its slot, or what rubble gives (R126, R160, R164). `fr` numbers the free value of F at
a rubble lookup. -/
def kfEnd (P : Pier) (now fr : Nat) (r : Run) (i : Nat) (l : LookRes) : Pier :=
  match l with
  | .done o slot =>
    let P := match slot with
      | some s => { P with runs := { P.runs with keySlots := P.runs.keySlots.filter (fun y => y.slot ≠ s.slot) ++ [s] } }
      | none => P
    fireEmit P now fr r 0x10 i o false
  | .rubble =>
    if r.sr then faultRun P now fr r 6 8 i none
    else
      let r := { r.observe i 8 with rubIdx := r.rubIdx ++ [i] }
      let r := ((r.take 0x10).emit 0x10 4 ⟨i, 0, true⟩).emit 0x10 5 ⟨i, 0, true⟩
      let r := (r.emit 0x10 6 ⟨i, (Config.free 9 fr).setWidth 36, false⟩).emit 0x10 7 ⟨i, 0, true⟩
      afterRun P now fr r

/-- KF0_LOOKUP (R158 to R164). -/
def kf0Fire (P : Pier) (now fr : Nat) (c : KeyCtx) : Pier :=
  match firing P 0x10 with
  | none => P
  | some (r, x, i) =>
    if !slotFree r i then P else
    let op := (x.p 0).toNat
    if op = 0 || 3 < op || (op = 3 && r.fix.user) || (op ≠ 1 && (kfWidth (x.p 5)).isNone) then
      fireEmit P now fr r 0x10 i laneReserved (r.rubbleIn x)
    else if r.rubbleIn x then fireEmit P now fr r 0x10 i {} true
    else
      let a := r.operand x 0
      if a.extractLsb' 22 14 ≠ 0#14 || a.extractLsb' 0 22 = 0#22 then kfEnd P now fr r i (kfFail 1)
      else match kfLook c (kfAsk r x i) now (a.toNat % 2 ^ 22) r.ct P with
        | (none, P) => P
        | (some (l, P), _) => kfEnd P now fr r i l

/-! ### AU0 (R180 to R182) -/

/-- A record as AU0 completes it: sequence and mark written, and the mark (R180, R414, R416). -/
def auSeal (key : List Byte) (cseq : Nat) (mark : List Byte) (rec : List Byte) : List Byte × List Byte :=
  let body := rec.take 4 ++ leBytes 6 cseq ++ (rec.drop 10).take 38
  let m := (hmacSha256 key (mark ++ body)).take 16
  (body ++ m, m)

/-- Replaces the octets of a word whose bytes changed; a word that is not rewritten keeps its marks. -/
def auWords (old : List Word) (bytes : List Byte) : List Word :=
  List.zipWith (fun (w : Word) (b : Word × Nat) =>
      if b.2 = 1 || b.2 = 2 || 12 ≤ b.2 then b.1 ||| (w &&& 0x804020100#36) else w)
    old ((plainIn bytes).zipIdx)

/-- Whether a run's next record waits on AU0 (R180). -/
def au0Due (P : Pier) : Bool :=
  match firing P 0x11 with
  | none => false
  | some (r, x, _) => x.p 0 = 1 && r.n % 16 = 0 && (r.inputs 0x11).all (fun p => 16 ≤ (r.inAt p).length)

/-- AU0_RECORD in a run: one record of 16 elements (R180 to R182). On an exhausted chain nothing is appended, and the record leaves
as rubble (R416; the outputs are a DESIGN CHOICE, log 59). -/
def au0Fire (P : Pier) (now fr : Nat) : Pier :=
  match firing P 0x11 with
  | none => P
  | some (r, x, i) =>
    if x.p 0 ≠ 1 || r.n % 16 ≠ 0 then fireEmit P now fr r 0x11 i laneReserved (r.rubbleIn x)
    else if !(r.inputs 0x11).all (fun p => 16 ≤ (r.inAt p).length) then P
    else
      let es := (List.range 16).map (fun k =>
        if r.fed (mkPort 0x11 0) then (r.inAt (mkPort 0x11 0)).getD k ⟨i + k, 0, false⟩ else ⟨i + k, x.p 1, false⟩)
      let bad := (r.inputs 0x11).any (fun p => ((r.inAt p).take 16).any (·.rub))
      let old := es.map (·.val)
      let au := P.runs.au0
      let rub := bad || cseqMax ≤ au.cseq
      let seq := au.cseq + 1
      let sealed := auSeal (au.key.getD (List.replicate 32 0)) seq au.mark (plainOut old)
      let ws := if rub then old else auWords old sealed.1
      let P := if bad then P.detect 0x10 (au.cseq % 2 ^ 32) 0
        else if rub then P
        else { P with runs := { P.runs with au0 := { au with cseq := seq, mark := sealed.2 } } }
      let r := r.takeN 0x11 16
      let r := (ws.zipIdx).foldl (fun (r : Run) w =>
        let r := r.emit 0x11 4 ⟨i + w.2, w.1, rub⟩
        r.emit 0x11 6 ⟨i + w.2, (laneInt w.1 0 false false).f, rub⟩) r
      let r := r.emit 0x11 5 ⟨i + 15, BitVec.ofNat 36 seq, rub⟩
      afterRun P now fr r

/-! ### MONT and ECP (R165 to R171) -/

/-- The element of a port for index `i`, or the parameter that stands for it. -/
def tileIn (r : Run) (x : RUnit) (code i : Nat) : Elem :=
  if r.fed (mkPort x.num code) then (r.inAt (mkPort x.num code)).getD i ⟨i, 0, false⟩ else ⟨i, x.p (1 + code), false⟩

/-- The limbs of transaction `t` on a port, `m` of them (R56). -/
def tileColumn (r : Run) (x : RUnit) (code w t m : Nat) : List Elem :=
  (List.range m).map (fun j => tileIn r x code (j * w + t))

/-- Whether an element has a non-zero guard (R44, R167). -/
def guarded (e : Elem) : Bool := e.val.extractLsb' 32 4 ≠ 0#4

/-- The output elements of one transaction: R and F (R166, R167, R170, R171). -/
def tileTrans (r : Run) (x : RUnit) (w l k t : Nat) : List (Elem × Elem) :=
  let m := k * l
  let a := tileColumn r x 0 w t m
  let b := tileColumn r x 1 w t m
  let c := tileColumn r x 2 w t m
  let two := x.p 0 = (if x.num = 0x20 then 1 else 2)
  let used := if x.num = 0x20 then (if two then [a, b, c] else [a, c]) else (if two then [a, b] else [a])
  let rub := (a ++ b ++ (if x.num = 0x20 then c else []) ++
    (if r.fed (mkPort x.num 3) then tileColumn r x 3 w t m else [])).any (·.rub)
  let nat (es : List Elem) : List Nat := es.map (fun e => e.val.toNat % 2 ^ 32)
  let coords (es : List Elem) : List Nat := (chunksOf l (nat es)).map ofLimbs
  let even := x.num = 0x20 && (nat c).headD 0 % 2 = 0
  let res : List Nat :=
    if x.num = 0x20 then montMul (nat a) (if two then nat b else 1 :: List.replicate (l - 1) 0) (nat c)
    else (ecpOp ((x.p 5).toNat % 16) (coords a) (if two then some (coords b) else none)).flatMap (toLimbs l)
  (List.range m).map (fun j =>
    let i := j * w + t
    let v := even || used.any (fun es => guarded (es.getD j ⟨0, 0, false⟩))
    let o := laneInt (BitVec.ofNat 36 (res.getD j 0)) 0 false v
    (⟨i, o.r, rub⟩, ⟨i, o.f, rub⟩))

/-- Puts elements in index order. -/
def byIndex (es : List Elem) : List Elem := es.mergeSort (fun a b => a.idx ≤ b.idx)

/-- MONT_TILE and ECP_TILE: the next tile of 32 transactions; after the last tile every result is emitted in
index order (R165 to R171). Reserved parameters fire element by element (R131). -/
def tileFire (P : Pier) (now fr u : Nat) : Pier :=
  match P.runs.exec with
  | none => P
  | some r =>
    match r.unit? u with
    | none => P
    | some x =>
      match tileShape r.n x with
      | none =>
        (match firing P u with
         | some (r, x, i) => fireEmit P now fr r u i laneReserved (r.rubbleIn x)
         | none => P)
      | some (w, l, k) =>
        let tiles := w / 32
        let need := 32 * ((k * l - 1) * tiles + x.tiles + 1)
        if !P.runs.started || x.ended || tiles ≤ x.tiles || !(r.inputs u).all (fun p => need ≤ (r.inAt p).length) then P
        else
          let outs := (List.range 32).flatMap (fun q => tileTrans r x w l k (32 * x.tiles + q))
          let r := r.onUnit u (fun y => { y with
            tiles := y.tiles + 1, res := y.res ++ outs.map (·.1), resF := y.resF ++ outs.map (·.2) })
          if x.tiles + 1 < tiles then { P with runs := { P.runs with exec := some r } }
          else match r.unit? u with
            | none => P
            | some y =>
              let r := (byIndex y.res).foldl (fun (r : Run) e => r.emit u 4 e) r
              let r := (byIndex y.resF).foldl (fun (r : Run) e => r.emit u 6 e) r
              let ps := r.inputs u
              let r := { r with ins := r.ins.map (fun (e : BitVec 12 × List Elem) => if ps.contains e.1 then (e.1, e.2.drop r.n) else e) }
              afterRun P now fr (r.onUnit u (fun z => { z with res := [], resF := [], fired := r.n }))

/-! ### AES, TDES, HASH (R172 to R177) -/

/-- AES_FIRE, TDES_FIRE and HASH_SEGMENT: one element joins the segment; its last element emits the segment's
outputs (R172 to R177). -/
def segFire (P : Pier) (now fr u : Nat) : Pier :=
  match firing P u with
  | none => P
  | some (r, x, i) =>
    let rub := r.rubbleIn x
    if segReserved r.n x then fireEmit P now fr r u i laneReserved rub
    else
      let y := segGather P.runs.keySlots r.n i x (r.operand x 0) (r.operand x 1) (r.operand x 2) rub
      let r := r.take u
      let r := r.onUnit u (fun z => { z with ga := y.ga, gb := y.gb, gc := y.gc })
      let r := if (i + 1) % segLen r.n x = 0 || i + 1 = r.n then
          match r.unit? u with
          | some z => segEmit r z r.n
          | none => r
        else r
      afterRun P now fr r

/-- HASH_SEGMENT fires the elements that wait up to the end of a segment (R176). -/
def hashFire : Nat → Pier → Nat → Nat → Pier
  | 0, P, _, _ => P
  | k + 1, P, now, fr =>
    match firing P 0x23 with
    | none => P
    | some (r, x, i) =>
      let P' := segFire P now fr 0x23
      if segReserved r.n x || (i + 1) % segLen r.n x = 0 || i + 1 = r.n then P' else hashFire k P' now fr

/-! ### XLAT (R178, R179) -/

/-- The owner of a run's tables: its partition, or 64 for resident firmware (R179). -/
def runOwner (f : RunFix) : BitVec 7 := if f.user then (f.tag.extractLsb' 16 6).setWidth 7 else 64#7

/-- A word of nonets with the flags of its row. -/
def xlatOut (r s : Word) (zn cy v dv : Bool) : LaneOut :=
  { r := r, s := s, f := intFlags (zn && flagZ r) (zn && flagN r) cy v dv }

/-- Nibble `k` of two octets, the high nibble of the first octet first. -/
def nibbleAt (o0 o1 : Nat) (k : Nat) : Nat :=
  match k with
  | 0 => o0 / 16
  | 1 => o0 % 16
  | 2 => o1 / 16
  | _ => o1 % 16

/-- A firing of XLAT beside LTAB (R178). -/
def xlatOp (tabs : List XlatTab) (owner : BitVec 7) (op : Nat) (p4 p5 a b : Word) : LaneOut :=
  let na (i : Nat) : Nonet := nonetOf a i
  let nb (i : Nat) : Nonet := nonetOf b i
  match op with
  | 1 =>
    let t := tabs.getD (p4.toNat % 8) {}
    let mine := t.owner = owner
    let r := wordOfNonets ((List.range 4).map (fun k => if mine then t.tab.get (na k).toNat else 0))
    xlatOut r 0 true false (!mine) false
  | 2 =>
    let src (k : Nat) : Nat := p4.toNat / 16 ^ k % 16
    if (List.range 4).any (fun k => 12 ≤ src k) then laneReserved
    else xlatOut (wordOfNonets ((List.range 4).map (fun k =>
      let j := src k
      if j < 4 then na j else if j < 8 then nb (j - 4) else nonetOf p5 (j - 8)))) 0 true false false false
  | 3 =>
    let mode := p5.toNat % 4
    if mode = 3 then laneReserved
    else
      let d (k : Nat) : Nat := if k < 4 then (na k).toNat else (nb (k - 4)).toNat
      let bad (v : Nat) : Bool := (mode = 1 && !(0x30 ≤ v && v ≤ 0x39)) || (mode = 2 && !(0xF0 ≤ v && v ≤ 0xF9))
      let ns := (List.range 4).map (fun k =>
        BitVec.ofNat 9 ((if bad (d (2 * k)) || bad (d (2 * k + 1)) then 256 else 0) + d (2 * k) % 16 * 16 + d (2 * k + 1) % 16))
      xlatOut (wordOfNonets ns) 0 true false false (ns.any (·.getLsbD 8))
  | 4 =>
    let hi := p5.toNat % 16 * 16
    let oct (i : Nat) : Nat := (na i).toNat % 256
    let mk (i : Nat) : List Nonet := (List.range 4).map (fun k =>
      let n := nibbleAt (oct i) (oct (i + 1)) k
      BitVec.ofNat 9 ((if 9 < n then 256 else 0) + hi + n))
    xlatOut (wordOfNonets (mk 0)) (wordOfNonets (mk 2)) false false false ((mk 0 ++ mk 2).any (·.getLsbD 8))
  | 5 =>
    let hit (i : Nat) : Bool := (na i).toNat % 256 = p4.toNat % 256
    xlatOut (wordOfNonets ((List.range 4).map (fun i => if hit i then na i ||| 0x100#9 else na i))) 0 false
      ((List.range 4).any hit) false false
  | _ => laneReserved

/-- XLAT_FIRE (R178, R179). `fr` numbers the free values that a rubble element of LTAB loads. -/
def xlatFire (P : Pier) (now fr : Nat) : Pier :=
  match firing P 0x24 with
  | none => P
  | some (r, x, i) =>
    let rub := r.rubbleIn x
    let owner := runOwner r.fix
    let a := r.operand x 0
    if x.p 0 = 6 then
      let t := (x.p 4).toNat % 8
      let v : Word := if rub then Config.free 36 fr else a
      let tabs := P.runs.xlat.zipIdx.map (fun (q : XlatTab × Nat) =>
        if q.2 = t then
          { owner := owner, tab := if i < 128 then q.1.tab.setList (4 * i) ((List.range 4).map (nonetOf v)) else q.1.tab }
        else q.1)
      afterRun { P with runs := { P.runs with xlat := tabs } } now fr (r.take 0x24)
    else fireEmit P now fr r 0x24 i (xlatOp P.runs.xlat owner (x.p 0).toNat (x.p 4) (x.p 5) a (r.operand x 1)) rub

end Sys2Proof.Machine
end

