-- ==== Sys2Proof/Machine/RunExec.lean ====
section
/-! DEFINITION. The commands that drive a run: its start, its streams and joints, its stones and courses, and
PR_RUN_CTL (R97 to R182). -/

namespace Sys2Proof.Machine

open Sys2Proof

/-- A step of a pier's run: the pier changes, and the free values that the step may use are spent (log 2). -/
def State.runStep (s : State) (p : Fin 16) (f : Nat → Nat → Pier) : Host.Outcome State Fault Refusal :=
  s.answer { s.dev.setPier p (f s.dev.now s.dev.fresh) with fresh := s.dev.fresh + accFrees }

/-- What KF0 knows beside its pier (R158, R159). -/
def Dev.keyCtx (d : Dev) : KeyCtx := ⟨d.ks.kek, d.calendar⟩

/-- RUN_START: the run at the head of the queue starts (R104, R283, R467). -/
def execRunStart (p : Fin 16) (s : State) : Host.Outcome State Fault Refusal :=
  s.runStep p (fun now fr => runStart (s.dev.pier p) now fr)

/-- LOAD_STREAMER_FIRE: a streamer reads a row and emits its group (R98, R101). -/
def execLoadStreamerFire (p : Fin 16) (u : Fin 4) (s : State) : Host.Outcome State Fault Refusal :=
  s.runStep p (fun now fr => loadFire (s.dev.pier p) now fr u.val)

/-- JOINT_GROUP_ADVANCE: a joint advances a group (R79). -/
def execJointGroupAdvance (p : Fin 16) (port : BitVec 12) (s : State) : Host.Outcome State Fault Refusal :=
  s.runStep p (fun now fr => jointAdvance (s.dev.pier p) now fr port)

/-- STORE_COMMIT: a store streamer commits a group behind the horizon (R116). -/
def execStoreCommit (p : Fin 16) (u : Fin 2) (s : State) : Host.Outcome State Fault Refusal :=
  s.runStep p (fun now fr => storeCommit (s.dev.pier p) now fr (4 + u.val))

/-- IA_FIRE (R135). -/
def execIaFire (p : Fin 16) (u : Fin 2) (s : State) : Host.Outcome State Fault Refusal :=
  s.runStep p (fun now fr => iaFire (s.dev.pier p) now fr u.val)

/-- MC_FIRE (R138, R139). -/
def execMcFire (p : Fin 16) (u : Fin 2) (s : State) : Host.Outcome State Fault Refusal :=
  s.runStep p (fun now fr => mcFire (s.dev.pier p) now fr u.val)

/-- DC_FIRE (R140, R141). -/
def execDcFire (p : Fin 16) (s : State) : Host.Outcome State Fault Refusal :=
  s.runStep p (fun now fr => dcFire (s.dev.pier p) now fr)

/-- FP_FIRE (R143 to R145). -/
def execFpFire (p : Fin 16) (s : State) : Host.Outcome State Fault Refusal :=
  s.runStep p (fun now fr => fpFire (s.dev.pier p) now fr)

/-- RD_FIRE (R146 to R149). -/
def execRdFire (p : Fin 16) (s : State) : Host.Outcome State Fault Refusal :=
  s.runStep p (fun now fr => rdFire (s.dev.pier p) now fr)

/-- CY_FIRE (R150, R151). -/
def execCyFire (p : Fin 16) (s : State) : Host.Outcome State Fault Refusal :=
  s.runStep p (fun now fr => cyFire (s.dev.pier p) now fr)

/-- IX_FIRE (R152). -/
def execIxFire (p : Fin 16) (s : State) : Host.Outcome State Fault Refusal :=
  s.runStep p (fun now fr => ixFire (s.dev.pier p) now fr)

/-- SL_FIRE (R153, R154). -/
def execSlFire (p : Fin 16) (s : State) : Host.Outcome State Fault Refusal :=
  s.runStep p (fun now fr => slFire (s.dev.pier p) now fr)

/-- MONT_TILE (R165 to R168). -/
def execMontTile (p : Fin 16) (s : State) : Host.Outcome State Fault Refusal :=
  s.runStep p (fun now fr => tileFire (s.dev.pier p) now fr 0x20)

/-- ECP_TILE (R169 to R171). -/
def execEcpTile (p : Fin 16) (s : State) : Host.Outcome State Fault Refusal :=
  s.runStep p (fun now fr => tileFire (s.dev.pier p) now fr 0x25)

/-- AES_FIRE (R172, R173). -/
def execAesFire (p : Fin 16) (s : State) : Host.Outcome State Fault Refusal :=
  s.runStep p (fun now fr => segFire (s.dev.pier p) now fr 0x21)

/-- TDES_FIRE (R172, R174). -/
def execTdesFire (p : Fin 16) (s : State) : Host.Outcome State Fault Refusal :=
  s.runStep p (fun now fr => segFire (s.dev.pier p) now fr 0x22)

/-- HASH_SEGMENT (R176, R177). -/
def execHashSegment (p : Fin 16) (s : State) : Host.Outcome State Fault Refusal :=
  s.runStep p (fun now fr => hashFire 65536 (s.dev.pier p) now fr)

/-- XLAT_FIRE (R178, R179). -/
def execXlatFire (p : Fin 16) (s : State) : Host.Outcome State Fault Refusal :=
  s.runStep p (fun now fr => xlatFire (s.dev.pier p) now fr)

/-- A write of PR_RUN_CTL; a pier in reset or OFF takes none (R114; log 69). -/
def State.runCtl (s : State) (p : Fin 16) (v : DW) : Host.Outcome State Fault Refusal :=
  if s.dev.reachable p then s.runStep p (fun now fr => runCtlWrite (s.dev.pier p) now fr v) else s.answer s.dev

/-- PR_RUN_CTL_ABORT: a write of PR_RUN_CTL with ABORT (R114, R128). -/
def execPrRunCtlAbort (p : Fin 16) (v : DW) (s : State) : Host.Outcome State Fault Refusal := s.runCtl p v

/-- PR_RUN_CTL_ACKR: a write of PR_RUN_CTL with ACKR (R114). -/
def execPrRunCtlAckr (p : Fin 16) (v : DW) (s : State) : Host.Outcome State Fault Refusal := s.runCtl p v

/-- PR_RUN_CTL_ACKF: a write of PR_RUN_CTL with ACKF (R114). -/
def execPrRunCtlAckf (p : Fin 16) (v : DW) (s : State) : Host.Outcome State Fault Refusal := s.runCtl p v

/-- PR_RUN_CTL_CLROVF: a write of PR_RUN_CTL with CLROVF (R114). -/
def execPrRunCtlClrovf (p : Fin 16) (v : DW) (s : State) : Host.Outcome State Fault Refusal := s.runCtl p v

/-- KF0_LOOKUP (R158 to R164). -/
def execKf0Lookup (p : Fin 16) (s : State) : Host.Outcome State Fault Refusal :=
  s.runStep p (fun now fr => kf0Fire (s.dev.pier p) now fr s.dev.keyCtx)

end Sys2Proof.Machine
end

