-- ==== Sys2Proof/Machine/Rings.lean ====
section
/-! DEFINITION. Rings, entries, results, records, completions and MSI-X (R19 to R25, R329 to R346, R417, R510). -/

namespace Sys2Proof.Machine

open Sys2Proof

/-! ### Doorbell pages (R329 to R333) -/

/-- Whether the host reaches the configuration space of a function: it exists, and the link is up (R324, R354). -/
def Dev.cfgReached (d : Dev) (f : FnId) : Bool := d.fnExists f && d.host.link = .up

/-- Whether the host reaches the memory space of a function: it is in D0 with its memory space enabled (R324, R354, R355). -/
def Dev.barReached (d : Dev) (f : FnId) : Bool := d.cfgReached f && !(d.fn f).d3 && (d.fn f).memSpace

/-- Whether a doorbell write is taken: not while the function's FLR goes on (R353), in a HALT (R452), after PWRFAIL_N
(R423), or in a zeroize (R439). -/
def Dev.doorbellTaken (d : Dev) (f : FnId) : Bool :=
  d.barReached f && !(d.fn f).flr && !d.fc.halt && d.life.pf = .none && d.life.zero = .none

/-- A write to slot `r` of a function's page; a slot at or above the ring count ignores it (R329). -/
def Dev.onSlot (d : Dev) (f : FnId) (r : Fin 64) (g : Ring → Ring) : Dev :=
  if d.doorbellTaken f && r.val < d.ringCount f then d.onRing f r g else d

/-- SQTAIL (R331). -/
def Ring.writeSqTail (R : Ring) (v : DW) : Ring :=
  let t := v.extractLsb' 0 16
  if t.toNat < R.sqDepth then { R with sqTail := t } else { R with dberr := true }

/-- CQHEAD (R331); an event ring's depth is that of its buffer (R335). -/
def Ring.writeCqHead (R : Ring) (event : Bool) (v : DW) : Ring :=
  let t := v.extractLsb' 0 16
  if t.toNat < (if event then R.sqDepth else R.cqDepth) then { R with cqHead := t } else { R with dberr := true }

/-- The checks of a write that sets EN (R330). -/
def ringStarts (event slot1 : Bool) (vectors : Nat) (R : Ring) : Bool :=
  4 ≤ R.log2sq.toNat && R.log2sq.toNat ≤ 16 && (event || (4 ≤ R.log2cq.toNat && R.log2cq.toNat ≤ 16)) &&
  R.vec.toNat < vectors && slot1

/-- Word 0x18 (R330). -/
def Ring.writeEnable (R : Ring) (event slot1 : Bool) (vectors : Nat) (v : DW) : Ring :=
  let sq := v.extractLsb' 20 5
  let cq := v.extractLsb' 15 5
  let vec := v.extractLsb' 0 6
  let en := v.getLsbD 31
  if R.en then
    if sq = R.log2sq && cq = R.log2cq && vec = R.vec then { R with en := en } else { R with en := en, cfge := true }
  else
    let R := { R with log2sq := sq, log2cq := cq, vec := vec }
    if !en then R
    else if ringStarts event slot1 vectors R then
      { R with en := true, sqTail := 0, sqHead := 0, cqHead := 0, cqTail := 0, phase := true, unsig := 0 }
    else { R with cfge := true }

/-- Word 0x18 of a slot: any slot but PF1 slot 1 needs PF1 slot 1 enabled (R330). -/
def Dev.writeEnable (d : Dev) (f : FnId) (r : Fin 64) (v : DW) : Dev :=
  let slot1 := (f = .pf1 && r.val = 1) || (d.ring .pf1 1).en
  d.onSlot f r (fun R => R.writeEnable (isEvent f r.val) slot1 (vectorCount f) v)

/-- Word 0x1C: FERR, DBERR and CFGE are W1C (R329, R333). -/
def Ring.writeStatus (R : Ring) (v : DW) : Ring :=
  { R with ferr := R.ferr && !v.getLsbD 31, dberr := R.dberr && !v.getLsbD 30, cfge := R.cfge && !v.getLsbD 29 }

/-- SQB and CQB: unchanged with CFGE while EN = 1 and the value would change (R330). -/
def Ring.writeBase (R : Ring) (k : Nat) (v : DW) : Ring :=
  let sqb := if k = 2 then R.sqb.extractLsb' 32 32 ++ (v &&& 0xFFFFFFC0#32) else if k = 3 then v ++ R.sqb.extractLsb' 0 32 else R.sqb
  let cqb := if k = 4 then R.cqb.extractLsb' 32 32 ++ (v &&& 0xFFFFFFE0#32) else if k = 5 then v ++ R.cqb.extractLsb' 0 32 else R.cqb
  if !R.en then { R with sqb := sqb, cqb := cqb }
  else if sqb = R.sqb && cqb = R.cqb then R
  else { R with cfge := true }

/-- Word 0x20: CTIME and CCNT (R345). -/
def Ring.writeCoalesce (R : Ring) (v : DW) : Ring := { R with ctime := v.extractLsb' 16 8, ccnt := v.extractLsb' 0 8 }

/-- A doorbell write that an existing slot takes; it interrupts the warden through vector 22 (R262, R263, R329). -/
def Dev.doorbell (d : Dev) (f : FnId) (r : Fin 64) (g : Ring → Ring) : Dev :=
  if d.doorbellTaken f && r.val < d.ringCount f then (d.onRing f r g).pendWarden 6 else d

/-- The SQ doorbell (R331). -/
def Dev.writeSqTail (d : Dev) (f : FnId) (r : Fin 64) (v : DW) : Dev := d.doorbell f r (fun R => R.writeSqTail v)

/-- The CQ doorbell (R331, R335). -/
def Dev.writeCqHead (d : Dev) (f : FnId) (r : Fin 64) (v : DW) : Dev := d.doorbell f r (fun R => R.writeCqHead (isEvent f r.val) v)

/-- SQTAIL_WRITE (R331). -/
def execSqtailWrite (fn : FnId) (r : Fin 64) (v : DW) (s : State) : Host.Outcome State Fault Refusal :=
  s.answer (s.dev.writeSqTail fn r v)

/-- CQHEAD_WRITE (R331, R335). -/
def execCqheadWrite (fn : FnId) (r : Fin 64) (v : DW) (s : State) : Host.Outcome State Fault Refusal :=
  s.answer (s.dev.writeCqHead fn r v)

/-- RING_ENABLE_WRITE (R330). -/
def execRingEnableWrite (fn : FnId) (r : Fin 64) (v : DW) (s : State) : Host.Outcome State Fault Refusal :=
  s.answer (s.dev.writeEnable fn r v)

/-- FERR_CLEAR (R333). -/
def execFerrClear (fn : FnId) (r : Fin 64) (v : DW) (s : State) : Host.Outcome State Fault Refusal :=
  s.answer (s.dev.onSlot fn r (fun R => R.writeStatus v))

/-! ### Fetching (R332, R333, R344) -/

/-- Whether the ring engine fetches at all (R423, R428, R439, R452). -/
def Dev.fetching (d : Dev) : Bool :=
  d.life.op ≠ .startUp && !d.fc.halt && d.life.pf = .none && d.life.zero = .none

/-- Fetches of a function that are outstanding. -/
def Func.outstanding (F : Func) : Nat := (F.rings.toList.map (fun R => R.fetching.length)).sum

/-- Items that occupy the in-flight tracker, from their fetch on (R344). -/
def Dev.inFlight (d : Dev) : Nat := d.items.length + (d.host.fns.toList.map Func.outstanding).sum

/-- Items and outstanding fetches of one ring. -/
def Dev.ringItems (d : Dev) (f : FnId) (r : Fin 64) : Nat :=
  (d.items.filter (fun i => i.fn = f && i.slot = r.val)).length + (d.ring f r).fetching.length

/-- A word of a slot as the host reads it: EVT, ACT and SQHEAD beside the fields it wrote; base bits below the alignment and
reserved bits are 0 (R7, R329, R330). -/
def Dev.slotRead (d : Dev) (f : FnId) (r : Fin 64) (k : Nat) : DW :=
  let R := d.ring f r
  let bit (b : Bool) (n : Nat) : Nat := if b then 2 ^ n else 0
  match k with
  | 0 => BitVec.ofNat 32 R.sqTail.toNat
  | 1 => BitVec.ofNat 32 R.cqHead.toNat
  | 2 => R.sqb.extractLsb' 0 32 &&& 0xFFFFFFC0#32
  | 3 => R.sqb.extractLsb' 32 32
  | 4 => R.cqb.extractLsb' 0 32 &&& 0xFFFFFFE0#32
  | 5 => R.cqb.extractLsb' 32 32
  | 6 => BitVec.ofNat 32 (bit R.en 31 + bit (isEvent f r.val) 30 + R.log2sq.toNat * 2 ^ 20 + R.log2cq.toNat * 2 ^ 15 + R.vec.toNat)
  | 7 => BitVec.ofNat 32 (bit R.ferr 31 + bit R.dberr 30 + bit R.cfge 29 + bit (d.ringItems f r ≠ 0) 28 + R.sqHead.toNat)
  | 8 => BitVec.ofNat 32 (R.ctime.toNat * 2 ^ 16 + R.ccnt.toNat)
  | _ => 0

/-- A word of a function's doorbell page as the host reads it; a slot at or above the ring count reads 0 (R329). -/
def Dev.pageRead (d : Dev) (f : FnId) (off : Nat) : DW :=
  let r : Fin 64 := ⟨off / 64 % 64, Nat.mod_lt _ (by decide)⟩
  if r.val < d.ringCount f then d.slotRead f r (off % 64 / 4) else 0

/-- Items and outstanding fetches of one function. -/
def Dev.fnItems (d : Dev) (f : FnId) : Nat := (d.items.filter (fun i => i.fn = f)).length + (d.fn f).outstanding

/-- Whether a VF's rings fetch: not in TEST or while SET_STATE 1 waits (R433), and not while PART_DESTROY ends its
partition (R434). -/
def Dev.vfFetches (d : Dev) : FnId → Bool
  | .vf v => d.life.op ≠ .test && d.life.testWait.isNone && !d.life.destroying.any (fun e => e.2 = v)
  | _ => true

/-- Free places of a completion ring (R332). -/
def Ring.cqFree (R : Ring) : Nat := R.cqDepth - 1 - (R.cqTail.toNat + R.cqDepth - R.cqHead.toNat) % R.cqDepth

/-- Whether one more entry of a ring can be fetched (R331, R332, R344). -/
def Dev.canFetch (d : Dev) (f : FnId) (r : Fin 64) : Bool :=
  let R := d.ring f r
  d.fetching && d.canSend f && !(d.fn f).flr && d.vfFetches f && r.val < d.ringCount f && !isEvent f r.val &&
  R.en && !R.ferr && R.sqHead ≠ R.sqTail && d.inFlight < 131072 && d.ringItems f r < R.cqFree &&
  (match f with
   | .vf _ => (d.fn f).infl = 0 || d.fnItems f < 512 * (d.fn f).infl.toNat
   | _ => true)

/-- The function of a number (R332's order). -/
def fnOf (n : Nat) : FnId := if n = 0 then .pf0 else if n = 1 then .pf1 else .vf ⟨(n - 2) % 64, Nat.mod_lt _ (by decide)⟩

/-- The ring that is served next: functions in round-robin order, then the rings of one function (R332). -/
def Dev.nextRing (d : Dev) : Option (FnId × Fin 64) :=
  (List.range 66).findSome? (fun k =>
    let f := fnOf ((d.host.rrFn + k) % 66)
    let s0 := assocGet d.host.rrSlot ((d.host.rrFn + k) % 66) 0
    ((List.range 64).map (fun j => (⟨(s0 + j) % 64, Nat.mod_lt _ (by decide)⟩ : Fin 64))).findSome?
      (fun r => if d.canFetch f r then some (f, r) else none))

/-- Fetches one entry: SQHEAD advances (R332). -/
def Dev.fetchOne (d : Dev) (f : FnId) (r : Fin 64) : Dev :=
  if !d.canFetch f r then d
  else
    let R := d.ring f r
    (d.onRing f r (fun R => { R with
      fetching := R.fetching ++ [R.sqHead], sqHead := BitVec.ofNat 16 ((R.sqHead.toNat + 1) % R.sqDepth) })).send (.fetch f r.val R.sqHead)

/-- ENTRY_FETCH: the next ring's turn, up to four consecutive entries (R332). -/
def execEntryFetch (s : State) : Host.Outcome State Fault Refusal :=
  let d := s.dev
  match d.nextRing with
  | none => s.answer d
  | some (f, r) =>
    let d := (List.range 4).foldl (fun d _ => d.fetchOne f r) d
    s.answer { d with host := { d.host with
      rrFn := ((fnNum f).val + 1) % 66
      rrSlot := assocSet d.host.rrSlot (fnNum f).val ((r.val + 1) % 64) } }

/-- The AER status bit of a host error (R333; PRESUMED, the PCIe base specification's, log 5). -/
def aerBit : HostErr → BitVec 8
  | .unsupported => 20
  | .abort => 15
  | .poisoned => 12
  | .timeout => 14

/-- The AER status bit of an Unsupported Request (R31, R510). -/
def aerUr : BitVec 8 := 20

/-- Logs an error in a function's AER. -/
def Dev.aer (d : Dev) (f : FnId) (b : BitVec 8) : Dev := d.onFn f (fun F => { F with aer := F.aer ++ [b] })

/-- A fetch ends with a host-side error: FERR, and SQHEAD names the failed entry again (R333). -/
def Dev.fetchError (d : Dev) (f : FnId) (r : Fin 64) (b : BitVec 8) : Dev :=
  match (d.ring f r).fetching with
  | [] => d
  | i :: _ => (d.onRing f r (fun R => { R with ferr := true, sqHead := i, fetching := [] })).aer f b

/-! ### Arrival and checks 1 to 7 (R336 to R343, R361) -/

/-- The 16 DWs of an entry (R336). -/
def entryDws (bs : List Byte) : List DW := (List.range 16).map (fun k => BitVec.ofNat 32 (leNat ((bs.drop (4 * k)).take 4)))

/-- The QoS of an item (R337). -/
def itemQos (dws : List DW) (s : Option Session) : Nat :=
  let q := (dws.getD 1 0).toNat / 65536 % 16
  match s with
  | some s => if (dws.getD 0 0).getLsbD 8 then min q s.qos.toNat else s.qos.toNat
  | none => 0

/-- The partition of an item: its session's, or that of its VF where it exists (R404, R414; log 12). -/
def Dev.itemPart (d : Dev) (f : FnId) (s : Option Session) : Option (Fin 64) :=
  match s with
  | some s => some s.part
  | none =>
    match f with
    | .vf v => if d.partExists v then some v else none
    | _ => none

/-- The ring engine reads a segment list with its entry, under the function's requester ID (R325, R338). -/
def Dev.readList (d : Dev) (f : FnId) (g : SegField) : Dev := if g.reads then d.readHost f g.addr (16 * (g.len.toNat % 32)) else d

/-- An entry arrives and is checked: refused, it gets its record on chain 16 (R21); accepted, it joins a batch or waits
for the warden (R361, R378). -/
def Dev.arrive (d : Dev) (f : FnId) (r : Fin 64) (entry inList outList : HostRead) : Dev :=
  match (d.ring f r).fetching with
  | [] => d
  | _ :: rest =>
    match entry with
    | .err e => d.fetchError f r (aerBit e)
    | .data bs =>
      let dws := entryDws (fitBytes 64 bs)
      let gi := inField dws inList
      let go := outField dws outList
      let d := ((d.onRing f r (fun R => { R with fetching := rest })).readList f gi).readList f go
      let res := entryCheck7 d f dws gi go
      let sess := match res with
        | .pass s => s
        | .fail _ => if d.takesSession f ((dws.getD 0 0).toNat % 256) then
            (d.session? ((dws.getD 1 0).toNat % 65536)).filter (fun s => s.opened && s.fn = f) else none
      let it : Item :=
        { id := d.nextItem, fn := f, slot := r.val, dws := dws, inSegs := gi.segs, outSegs := go.segs, stage := .warden,
          part := d.itemPart f sess, qos := itemQos dws sess, joined := d.now }
      let d := { d with nextItem := d.nextItem + 1 }
      match res with
      | .fail st => ({ d with items := d.items ++ [it] }).endItem16 it st 0
      | .pass s =>
        let d := match s with
          | some s => { d with sessions := d.sessions.map (fun (x : Session) => if x.num = s.num then s else x) }
          | none => d
        if d.runsOnPier f it.opc then
          let it := { it with stage := .setter }
          ({ d with items := d.items ++ [it] }).join it
        else { d with items := d.items ++ [it] }

/-- ENTRY_ARRIVAL (R339). -/
def execEntryArrival (fn : FnId) (r : Fin 64) (entry : HostRead) (inList : HostRead) (outList : HostRead) (s : State) :
    Host.Outcome State Fault Refusal :=
  s.answer (s.dev.arrive fn r entry inList outList)

/-- COMPLETION_TIMEOUT: a device read times out: an entry fetch (R333), a list read (R338) or a hod read (R350). -/
def execCompletionTimeout (what : TimeoutOf) (s : State) : Host.Outcome State Fault Refusal :=
  match what with
  | .entry f r => s.answer (s.dev.arrive f r (.err .timeout) (.err .timeout) (.err .timeout))
  | .list f r entry isOut =>
    s.answer (if isOut then s.dev.arrive f r (.data entry) (.data []) (.err .timeout)
      else s.dev.arrive f r (.data entry) (.err .timeout) (.data []))
  | .hod p => s.answer (s.dev.hodSegment p (.err .timeout))

/-! ### Results and records (R19 to R23, R180, R325, R414 to R417) -/

/-- Writes bytes into the segments of an output buffer (R325, R338). -/
def Dev.writeSegs (d : Dev) (f : FnId) (id : Nat) (relaxed : Bool) : List (QW × Nat) → List Byte → Dev
  | [], _ => d
  | _ :: _, [] => d
  | (a, n) :: segs, bs => (d.write f (.result id) a (bs.take n) relaxed).writeSegs f id relaxed segs (bs.drop n)

/-- Writes an item's result bytes to the host (R325); none after an FLR of its function (R353). -/
def Dev.writeResult (d : Dev) (i : Item) : Dev :=
  if i.flr then d else d.writeSegs i.fn i.id (d.fn i.fn).relaxed i.outSegs i.output

/-- Whether an item's results can leave the device now: none are due, or its function may send (R20; log 43). -/
def Dev.resultsGo (d : Dev) (i : Item) : Bool := i.flr || i.output.isEmpty || d.canSend i.fn

/-- The results of an item are written; a warden item's record follows at once on chain 16 (R19, R20, R378). -/
def Dev.passResults (d : Dev) (i : Item) (c : Fin 17) : Dev :=
  if !d.resultsGo i then d.onItem i.id (fun _ => { i with stage := .result c })
  else if c.val < 16 then (d.writeResult i).onItem i.id (fun _ => { i with stage := .record c })
  else (d.writeResult i).record16 i

/-- ITEM_RESULT_WRITE: stage 7 of R19. Results that cannot leave the device wait (R20). -/
def execItemResultWrite (it : Nat) (s : State) : Host.Outcome State Fault Refusal :=
  let d := s.dev
  match d.item? it with
  | some i =>
    (match i.stage with
     | .result c => s.answer (d.passResults i c)
     | _ => s.answer d)
  | none => s.answer d

/-- Appends an item's record to the chain of its pier (stage 8 of R19, R180). The record of an item whose pier's
chain is exhausted goes on chain 16 with PIER_LOST (R416). -/
def Dev.recordPier (d : Dev) (p : Fin 16) (i : Item) : Dev :=
  let i := i.settled
  if !d.recordsAllowed then d.dropItem i.id
  else
    let au := (d.pier p).runs.au0
    if cseqMax ≤ au.cseq then (d.exhaust p).endItem16 i 0x23 0
    else
      let body := recBody p.val (au.cseq + 1) (d.itemFields i)
      let mark := recMark (au.key.getD (List.replicate 32 0)) au.mark body
      let d := d.onPier p (fun P => { P with runs := { P.runs with au0 := { au with cseq := au.cseq + 1, mark := mark } } })
      let c : Fin 17 := ⟨p.val, by omega⟩
      (d.accept ⟨c, au.cseq + 1, mark, body ++ mark, some i.id⟩).onItem i.id
        (fun _ => { i with stage := .recorded c (au.cseq + 1) })

/-- AU0_RECORD: a record of a run, or that of a finished item (R180 to R182, R19). -/
def execAu0Record (p : Fin 16) (source : RecordSource) (s : State) : Host.Outcome State Fault Refusal :=
  match source with
  | .run =>
    let full := cseqMax ≤ (s.dev.pier p).runs.au0.cseq && au0Due (s.dev.pier p)
    let s : State := if full then { s with dev := s.dev.exhaust p } else s
    s.runStep p (fun now fr => au0Fire (s.dev.pier p) now fr)
  | .item id =>
    match s.dev.item? id with
    | some i =>
      if i.stage = .record ⟨p.val, by omega⟩ then
        s.answer ((if i.flr then s.dev.leaveBatch id else s.dev).recordPier p i)
      else s.answer s.dev
    | none => s.answer s.dev

/-- A function's FLR ends once every item of it has ended (R353). -/
def Dev.flrSettle (d : Dev) (f : FnId) : Dev :=
  if (d.fn f).flr && !d.items.any (fun i => i.fn = f) then d.onFn f (fun F => { F with flr := false }) else d

/-- An item leaves the tracker, its batch and, with its function's last item, its function's FLR. -/
def Dev.retire (d : Dev) (i : Item) : Dev := ((d.dropItem i.id).leaveBatch i.id).flrSettle i.fn

/-- Whether a chain's records may be written now: a zeroize, a HALT of cause 0x19 or 0x1B and frozen heads end it (R423,
R439, R452). -/
def Dev.delivering (d : Dev) : Bool := d.recordsAllowed && !d.audit.frozen

/-- Delivers the oldest accepted record of a chain into PF1 slot 1: the head moves, unless PROVISION has set it to genesis
since the record was accepted (R436), an item waits for its completion, and
65,536 records make a seal due (R417, R418). -/
def Dev.deliver (d : Dev) (c : Fin 17) : Dev :=
  match d.audit.recs.find? (fun r => r.chain = c) with
  | none => d
  | some r =>
    if !d.delivering || !d.eventRoom 1 1 then d
    else
      let d := d.eventPut 1 (.audit c.val r.cseq) [r.bytes]
      let recs := d.audit.recs.erase r
      let old : Bool := d.audit.recs.idxOf r < d.audit.older
      let n := d.audit.since.getD c.val 0 + 1
      let d := { d with
        ks := if old then d.ks else d.ks.setHead c.val r.cseq r.mark
        audit := { d.audit with recs := recs, older := d.audit.older - old.toNat, since := d.audit.since.set c.val n,
                                waitAt := if recs.isEmpty then none else some (d.now, false) } }
      let d := if 65536 ≤ n && !d.audit.due && !d.fc.halt then
        ({ d with audit := { d.audit with due := true } }).pendWarden 7 else d
      match r.item.bind d.item? with
      | none => d
      | some i =>
        if i.flr || i.drop then d.retire i
        else d.onItem i.id (fun i => { i with stage := .posted c r.cseq (leNat ((r.bytes.drop 24).take 8)) })

/-- AUDIT_RECORD_WRITE: stage 9 of R19 (R417). -/
def execAuditRecordWrite (chain : Fin 17) (s : State) : Host.Outcome State Fault Refusal := s.answer (s.dev.deliver chain)

/-- AUDIT_RING_FULL_NOTICE: a record has waited 10 ms for room in PF1 slot 1 (R335, cause 0x1C). -/
def execAuditRingFullNotice (s : State) : Host.Outcome State Fault Refusal :=
  let d := s.dev
  match d.audit.waitAt with
  | some (t, false) =>
    s.answer (if !d.audit.recs.isEmpty && !d.eventRoom 1 1 && t + 250000 ≤ d.now then
      ({ d with audit := { d.audit with waitAt := some (t, true) } }).detect 0x1C 16 0 0 else d)
  | _ => s.answer d

/-! ### Completions (R25, R334, R340, R345) -/

/-- The 32 bytes of a completion entry (R340). -/
def completionBytes (i : Item) (c cseq time : Nat) (R : Ring) : List Byte :=
  leBytes 2 (i.bits 0 31 16) ++ [i.status, i.result] ++
  leBytes 4 (if i.status = 0 || i.status = 1 then i.outLen else 0) ++
  leBytes 4 (cseq % 2 ^ 32) ++ leBytes 2 (cseq / 2 ^ 32) ++ leBytes 2 c ++ leBytes 4 (time % 2 ^ 32) ++
  leBytes 4 ((if R.phase then 2 ^ 31 else 0) + i.slot * 65536 + R.sqHead.toNat) ++
  leBytes 4 i.rdata6.toNat ++ leBytes 4 i.rdata7.toNat

/-- Whether an item's turn has come: any item whose record is delivered (R25); in a HALT, the oldest in the tracker
(R452). -/
def Dev.mayComplete (d : Dev) (i : Item) : Bool :=
  d.postsAllowed && d.canSend i.fn && (!d.fc.halt || (d.items.head?.map (·.id)) = some i.id)

/-- Writes an item's completion entry, advances the CQ and signals (R334, R345). -/
def Dev.complete (d : Dev) (i : Item) (c : Fin 17) (cseq time : Nat) : Dev :=
  let r : Fin 64 := ⟨i.slot % 64, Nat.mod_lt _ (by decide)⟩
  let R := d.ring i.fn r
  let t := (R.cqTail.toNat + 1) % R.cqDepth
  let d := d.write i.fn (.completion i.id) (R.cqb + BitVec.ofNat 64 (32 * R.cqTail.toNat)) (completionBytes i c.val cseq time R) false
  let d := d.onRing i.fn r (fun R => { R with cqTail := BitVec.ofNat 16 t, phase := if t = 0 then !R.phase else R.phase })
  (d.retire i).signal i.fn r

/-- COMPLETION_WRITE: stage 10 of R19 (R334). -/
def execCompletionWrite (it : Nat) (s : State) : Host.Outcome State Fault Refusal :=
  let d := s.dev
  match d.item? it with
  | some i =>
    (match i.stage with
     | .posted c cseq time =>
       if i.flr || i.drop then s.answer (d.retire i)
       else if d.mayComplete i then s.answer (d.complete i c cseq time) else s.answer d
     | _ => s.answer d)
  | none => s.answer d

/-- COALESCING_TIMER_EXPIRY: CTIME µs since the oldest unsignalled completion (R345). -/
def execCoalescingTimerExpiry (fn : FnId) (r : Fin 64) (s : State) : Host.Outcome State Fault Refusal :=
  let d := s.dev
  let R := d.ring fn r
  s.answer (if R.unsig ≠ 0 && R.ctime ≠ 0 && R.unsigAt + 25 * R.ctime.toNat ≤ d.now then
    (d.onRing fn r (fun R => { R with unsig := 0 })).raiseMsix fn R.vec.toNat else d)

/-! ### MSI-X tables (R346, R510) -/

/-- Sends every message that is pending and no longer masked (R346). -/
def Dev.msixFlush (d : Dev) (f : FnId) : Dev :=
  (List.range 56).foldl (fun d v =>
    let e := (d.fn f).msix.toList.getD v {}
    if e.pend && !e.mask && !(d.fn f).fmask && (d.fn f).msixEn && d.postsAllowed && d.canSend f then
      (d.onMsix f v (fun e => { e with pend := false })).send (.msix f v e.addr e.data)
    else d) d

/-- DW `k` of an entry (R510, the PCIe base specification's layout). -/
def MsixEntry.get (e : MsixEntry) (k : Nat) : DW :=
  match k with
  | 0 => e.addr.extractLsb' 0 32
  | 1 => e.addr.extractLsb' 32 32
  | 2 => e.data
  | _ => if e.mask then 1 else 0

/-- Writes DW `k` of an entry. -/
def MsixEntry.put (e : MsixEntry) (k : Nat) (v : DW) : MsixEntry :=
  match k with
  | 0 => { e with addr := e.addr.extractLsb' 32 32 ++ (v &&& 0xFFFFFFFC#32) }
  | 1 => { e with addr := v ++ e.addr.extractLsb' 0 32 }
  | 2 => { e with data := v }
  | _ => { e with mask := v.getLsbD 0 }

/-- A DW of BAR2 as read: table, PBA, or 0 (R326, R510). -/
def Dev.bar2Read (d : Dev) (f : FnId) (off : Nat) : DW :=
  let n := off / 16
  if n < vectorCount f then ((d.fn f).msix.toList.getD n {}).get (off / 4 % 4)
  else if 0x2000 ≤ off && off < 0x2008 then
    BitVec.ofNat 32 ((List.range 32).foldl (fun acc k =>
      let v := 32 * ((off - 0x2000) / 4) + k
      if v < vectorCount f && ((d.fn f).msix.toList.getD v {}).pend then acc + 2 ^ k else acc) 0)
  else 0

/-- Writes a DW of the MSI-X table; writes anywhere else are ignored (R510). -/
def Dev.bar2Write (d : Dev) (f : FnId) (off : Nat) (v : DW) : Dev :=
  if off / 16 < vectorCount f then (d.onMsix f (off / 16) (fun e => e.put (off / 4 % 4) v)).msixFlush f else d

/-- Records what a host read returned. -/
def Dev.readBack (d : Dev) (v : Option (BitVec 64)) : Dev := { d with host := { d.host with lastRead := v } }

/-- MSIX_TABLE_ACCESS (R510). -/
def execMsixTableAccess (fn : FnId) (acc : Bar2Access) (s : State) : Host.Outcome State Fault Refusal :=
  let d := s.dev
  let o := acc.off.toNat / 4 * 4
  if !d.barReached fn then s.answer d
  else if acc.write then
    if acc.full && ((acc.dws = 1 && acc.off.toNat % 4 = 0) || (acc.dws = 2 && acc.off.toNat % 8 = 0)) then
      let d := d.bar2Write fn o (acc.value.extractLsb' 0 32)
      s.answer (if acc.dws = 2 then d.bar2Write fn (o + 4) (acc.value.extractLsb' 32 32) else d)
    else s.answer (d.aer fn aerUr)
  else if 2 < acc.dws then s.answer ((d.readBack none).send (.unsupported fn))
  else s.answer (d.readBack (some ((if acc.dws = 2 then d.bar2Read fn (o + 4) else 0) ++ d.bar2Read fn o)))

end Sys2Proof.Machine
end

