-- ==== Sys2Proof/Machine/Port.lean ====
section
/-! DEFINITION. Function level reset, PCIe resets, D3hot, SPDM, IDE, PTM and configuration requests (R324, R346,
R353 to R357, R483). -/

namespace Sys2Proof.Machine

open Sys2Proof

/-! ### Function level reset (R353) -/

/-- Ends an item that an FLR, a lost pier or a HALT ends before its record, on chain 16; what it did is not undone. -/
def Dev.endAny (d : Dev) (i : Item) (status result : Nat) : Dev := (d.leaveBatch i.id).endItem16 i status result

/-- An item of a function that is reset: not yet placed, it ends on chain 16; on a pier, it waits for its next
stopping point; with its record delivered, it leaves without a completion (R353). -/
def Dev.flrItem (d : Dev) (i : Item) : Dev :=
  let j := { i with flr := true }
  let d := d.onItem i.id (fun _ => j)
  match i.stage with
  | .setter => d.endAny j 0x20 0x01
  | .warden => d.endAny j 0x20 0x01
  | .posted _ _ _ => d.retire j
  | _ => d

/-- A function in its reset state: doorbell page, MSI-X state, BARs and configuration; FR_VFCFG is a register of the frontage
and stays (R328, R353, R355), and Max Payload Size stays (PRESUMED, log 5). -/
def Func.cleared (F : Func) : Func :=
  { ({} : Func) with d3 := F.d3, infl := F.infl, ringCnt := F.ringCnt, flr := F.flr, flrAt := F.flrAt, mps := F.mps }

/-- A function at the start of an FLR (R353). -/
def Func.flrReset (F : Func) (now : Nat) : Func := { F.cleared with flr := true, flrAt := now }

/-- The FLR of one function (R353). -/
def Dev.flrOne (d : Dev) (f : FnId) : Dev :=
  if !d.fnExists f then d
  else
    let d := d.onFn f (fun F => F.flrReset d.now)
    let d := { d with sessions := d.sessions.filter (fun s => s.fn ≠ f) }
    ((d.items.filter (fun i => i.fn = f)).foldl (fun d i => d.flrItem i) d).flrSettle f

/-- Every VF. -/
def allVfs : List FnId := (List.finRange 64).map FnId.vf

/-- VF Enable is cleared: an FLR of every VF (R353). -/
def Dev.vfDisable (d : Dev) : Dev :=
  let d := allVfs.foldl (fun d f => d.flrOne f) d
  { d with host := { d.host with vfEn := false } }

/-- An FLR of a function; that of PF0 clears VF Enable (R353). -/
def Dev.flr (d : Dev) (f : FnId) : Dev := if f = .pf0 then (d.vfDisable).flrOne .pf0 else d.flrOne f

/-- FLR (R353). -/
def execFlr (fn : FnId) (s : State) : Host.Outcome State Fault Refusal :=
  s.answer (if s.dev.cfgReached fn then s.dev.flr fn else s.dev)

/-- FLR_ITEM_STOP: an item ends at its next stopping point with HOST_FAULT, on its pier's chain, or on chain 16 where it is with
the warden. One that has its record already leaves when the record is delivered (R353). -/
def execFlrItemStop (it : Nat) (s : State) : Host.Outcome State Fault Refusal :=
  let d := s.dev
  match d.item? it with
  | none => s.answer d
  | some i =>
    if !i.flr then s.answer d
    else
      let onPier (p : Fin 16) : Dev := (d.leaveBatch it).recordPier p i
      let onChain (c : Fin 17) : Dev := if h : c.val < 16 then onPier ⟨c.val, h⟩ else d.endAny i 0x20 0x01
      match i.stage with
      | .pier p => s.answer (onPier p)
      | .overLimit p => s.answer (onPier p)
      | .result c => s.answer (onChain c)
      | .record c => s.answer (onChain c)
      | .recorded _ _ => s.answer d
      | .posted _ _ _ => s.answer (d.retire i)
      | _ => s.answer (d.endAny i 0x20 0x01)

/-- VF_ENABLE_CLEAR (R353). -/
def execVfEnableClear (s : State) : Host.Outcome State Fault Refusal :=
  s.answer (if s.dev.host.vfEn then s.dev.vfDisable else s.dev)

/-! ### Resets of the link (R354, R483) -/

/-- A conventional reset: an FLR of every function, and the configuration space of every function at its reset
values (R354). -/
def Dev.linkReset (d : Dev) : Dev :=
  let d := (d.flr .pf0).flr .pf1
  { d with host := { d.host with
      fns := d.host.fns.map (fun F => { F with d3 := false, mps := 0 }), numVfs := 0, vfEn := false, ptmEn := false, spdm := {} } }

/-- PERST_N_ASSERT (R354). -/
def execPerstNAssert (s : State) : Host.Outcome State Fault Refusal :=
  let d := s.dev.linkReset
  s.answer { d with host := { d.host with perst := true, link := .down } }

/-- PERST_N_RELEASE: the link trains (R483). -/
def execPerstNRelease (s : State) : Host.Outcome State Fault Refusal :=
  let d := s.dev
  s.answer (if d.host.perst then
    { d with host := { d.host with perst := false, link := if d.board.porLow then .down else .training } } else d)

/-- HOT_RESET: the link trains again (R354). -/
def execHotReset (s : State) : Host.Outcome State Fault Refusal :=
  let d := s.dev
  s.answer (if d.host.link = .up then
    (let d := d.linkReset; { d with host := { d.host with link := .training } }) else d)

/-- LINK_DOWN (R354). -/
def execLinkDown (s : State) : Host.Outcome State Fault Refusal :=
  let d := s.dev
  s.answer (if d.host.link = .down then d else
    (let d := d.linkReset; { d with host := { d.host with link := .down } }))

/-- LINK_UP: the link has trained (R483). -/
def execLinkUp (s : State) : Host.Outcome State Fault Refusal :=
  let d := s.dev
  s.answer (if d.board.porLow || d.host.perst then d else { d with host := { d.host with link := .up } })

/-! ### Power states of functions (R355) -/

/-- D3HOT_ENTRY: acts as an FLR of the function, and the function is in D3hot (R355). -/
def execD3hotEntry (fn : FnId) (s : State) : Host.Outcome State Fault Refusal :=
  let d := s.dev
  s.answer (if !d.cfgReached fn || (d.fn fn).d3 then d else (d.flr fn).onFn fn (fun F => { F with d3 := true }))

/-- D0_ENTRY: the function is left in its reset state (R355). -/
def execD0Entry (fn : FnId) (s : State) : Host.Outcome State Fault Refusal :=
  s.answer (s.dev.onFn fn (fun F => if F.d3 then { F.cleared with d3 := false } else F))

/-! ### SPDM and IDE (R324, R356, R333) -/

/-- Sends a response of the SPDM responder and keeps the state of the connection. -/
def Dev.spdmAnswer (d : Dev) (x : Spdm) (m : SpdmResp) : Dev := { d with host := { d.host with spdm := x } }.send (.spdm m)

/-- A free list of `n` bytes (log 2). -/
def Dev.freeBytes (d : Dev) (n : Nat) : List Byte := leBytes n (d.free (8 * n)).toNat

/-- The configuration root (R437). -/
def Keystone.root (k : Keystone) : List Byte := k.bytes 0x30 12

/-- The algorithms offered (R356). -/
def spdmOffer : List SpdmAlg := [.ecdsaP384, .sha384, .ecdheP384, .aes256Gcm]

/-- A signature of the audit identity in a response; SPDM 1.3 gives the message, not the spec (R356, log 2). -/
def Dev.spdmSign (d : Dev) (kind : Nat) (host : List Byte) : List Byte :=
  identitySign d.ks.identity (Config.spdmMessage kind d.fresh host)

/-- One SPDM request (R356). Phases, error codes and the messages that signatures cover are SPDM 1.3's, not the
spec's: an error answers a request out of order (PRESUMED, log 10), and a signature is the audit identity's over a message
that the spec does not give (log 2). -/
def Dev.spdm (d : Dev) (m : SpdmRequest) : Dev :=
  let x := d.host.spdm
  let bad : Dev := d.spdmAnswer x (.error 0x04)
  match m with
  | .getVersion => d.spdmAnswer { phase := 1, ide := x.ide } .version
  | .getCapabilities => if x.phase = 0 then bad else d.spdmAnswer { x with phase := 2 } .capabilities
  | .negotiateAlgorithms ok =>
    if x.phase < 2 then bad
    else d.spdmAnswer { x with phase := if ok then 3 else 2 } (.algorithms (if ok then spdmOffer else []))
  | .getDigests => if x.phase < 3 then bad else d.spdmAnswer x (.digests (sha384 d.flash.cert))
  | .getCertificate off len =>
    if x.phase < 3 then bad else d.spdmAnswer x (.certificate ((d.flash.cert.drop off).take len))
  | .challenge nonce => if x.phase < 3 then bad else (d.spdmAnswer x (.challengeAuth (d.spdmSign 0 nonce))).used
  | .getMeasurements nonce =>
    if x.phase < 3 then bad
    else (d.spdmAnswer x (.measurements Config.bootRomDigest d.ks.root d.ks.root (d.spdmSign 1 nonce))).used
  | .keyExchange hostPub =>
    if x.phase < 3 then bad
    else
      let e := (d.free 384).toNat
      let secret := ecdhX p384 e (beNat (hostPub.take 48)) (beNat ((hostPub.drop 48).take 48))
      (d.used.spdmAnswer { x with kx := true, session := false, secret := secret, transcript := hostPub }
        (.keyExchangeRsp (ecPublic p384 e) (d.used.spdmSign 2 hostPub))).used
  | .finish v =>
    if x.kx && Config.spdmVerify x.secret x.transcript v then d.spdmAnswer { x with session := true } .finishRsp else bad
  | .endSession => if x.session then d.spdmAnswer { x with session := false, kx := false, secret := [] } .endSessionAck else bad
  | .ideKm stream key => if x.session then d.spdmAnswer { x with ide := assocSet x.ide stream.val key } .ideKmAck else bad
  | .other _ => d.spdmAnswer x (.error 0x07)

/-- SPDM_REQUEST: on PF0's DOE mailbox, once configuration space answers (R356, R483). -/
def execSpdmRequest (m : SpdmRequest) (s : State) : Host.Outcome State Fault Refusal :=
  let d := s.dev
  s.answer (if d.host.link = .up && d.host.cfgReady then d.spdm m else d)

/-- IDE_INTEGRITY_FAILURE: the TLP is dropped and logged; on a ring, the ring stops under R333 (R356). -/
def execIdeIntegrityFailure (ring : Option (FnId × Fin 64)) (s : State) : Host.Outcome State Fault Refusal :=
  let d := s.dev
  s.answer (if d.host.spdm.ide.isEmpty then d else
    match ring with
    | none => d.aer .pf0 27
    | some (f, r) =>
      (d.onRing f r (fun R =>
        match R.fetching with
        | i :: _ => { R with ferr := true, sqHead := i, fetching := [] }
        | [] => { R with ferr := true })).aer f 27)

/-! ### PTM (R357) -/

/-- PTM_TIMING_UPDATE: every 10 ms with PTM Enable set, the pair enters the telemetry stream (R357, R455). -/
def execPtmTimingUpdate (master : QW) (s : State) : Host.Outcome State Fault Refusal :=
  let d := s.dev
  s.answer (if d.host.ptmEn && d.host.link = .up && d.host.ptmAt + 250000 ≤ d.now then
    ({ d with host := { d.host with ptmAt := d.now } }).fcEntry 3 (leBytes 8 master.toNat ++ leBytes 8 d.now) else d)

/-! ### Configuration requests (R324, R325, R346, R353, R357, R483) -/

/-- A BAR dword as read: bits below the BAR's size are 0 but for its kind in [3:0] (R326). -/
def barRead (f : FnId) (F : Func) (k : Fin 6) : DW :=
  let size := if k.val = 0 then (if f = .pf0 then 26 else 12) else if k.val = 2 then 14 else 0
  if size = 0 then F.bars[k] else ((F.bars[k] >>> size) <<< size) ||| (Config.barFlags k.val).setWidth 32

/-- What a configuration read returns. The SR-IOV fields stand in PF0 alone; a field that the spec does not describe is a free
value (R324, R326, R354, R355, R358; log 2). -/
def Dev.cfgRead (d : Dev) (f : FnId) (r : CfgField) : BitVec 64 :=
  let F := d.fn f
  let bit (b : Bool) : BitVec 64 := if b then 1 else 0
  let pf0 (v : BitVec 64) : BitVec 64 := if f = .pf0 then v else 0
  match r with
  | .vendor => Config.vendorId.setWidth 64
  | .totalVfs => pf0 64
  | .vfStride => pf0 1
  | .numVfs => pf0 (d.host.numVfs.setWidth 64)
  | .vfEnable => pf0 (bit d.host.vfEn)
  | .busMaster => bit F.busMaster
  | .memSpace => bit F.memSpace
  | .bar k => (barRead f F k).setWidth 64
  | .maxPayload => F.mps.setWidth 64
  | .maxRead => F.mrrs.setWidth 64
  | .noSoftReset => 0
  | .pmeSupport => 0
  | .msixEnable => bit F.msixEn
  | .msixMask => bit F.fmask
  | .other _ => d.free 64

/-- A configuration request that is not answered with retry status. Codes of Max Payload Size above 512 B and of Max Read
Request Size above 4,096 B leave the field (R324; PRESUMED, log 5). -/
def Dev.configure (d : Dev) (f : FnId) (req : CfgRequest) : Dev :=
  match req with
  | .read r => (d.readBack (some (d.cfgRead f r))).used
  | .msixEnable on => (d.onFn f (fun F => { F with msixEn := on })).msixFlush f
  | .msixMask on => (d.onFn f (fun F => { F with fmask := on })).msixFlush f
  | .numVfs n => if f = .pf0 && !d.host.vfEn then { d with host := { d.host with numVfs := n } } else d
  | .vfEnable on =>
    if f ≠ .pf0 then d
    else if on then { d with host := { d.host with vfEn := true } }
    else if d.host.vfEn then d.vfDisable else d
  | .relaxedOrdering on => d.onFn f (fun F => { F with relaxed := on })
  | .ptmEnable on => if f = .pf0 then { d with host := { d.host with ptmEn := on } } else d
  | .busMaster on => d.onFn f (fun F => { F with busMaster := on })
  | .memSpace on => d.onFn f (fun F => { F with memSpace := on })
  | .bar k v => d.onFn f (fun F => { F with bars := F.bars.set k v })
  | .maxPayload c => if 2 < c.toNat then d else d.onFn f (fun F => { F with mps := c })
  | .maxRead c => if 5 < c.toNat then d else d.onFn f (fun F => { F with mrrs := c })

/-- CONFIGURATION_REQUEST: Request Retry Status until configuration space is ready (R483). -/
def execConfigurationRequest (fn : FnId) (req : CfgRequest) (s : State) : Host.Outcome State Fault Refusal :=
  let d := s.dev
  s.answer (if d.host.link ≠ .up || !d.fnExists fn then d
    else if !d.host.cfgReady then d.readBack none
    else d.configure fn req)

end Sys2Proof.Machine
end

