-- ==== Sys2Proof/Machine/Faults.lean ====
section
/-! DEFINITION. The fault collector: detections, records, reactions, recovery, the correction log, telemetry and
temperatures (R445 to R458, R474), and per-pier reset (R23, R282, R468). -/

namespace Sys2Proof.Machine

open Sys2Proof

/-! ### Causes and classes (R447) -/

/-- The class of a cause in a region: 0 NOTE, 1 NOTICE, 2 CONTAIN, 3 HOLD, 4 HALT (R447). -/
def causeClass (cause region : Nat) : Nat :=
  match cause with
  | 0x02 => 0
  | 0x04 => 0
  | 0x07 => 2
  | 0x08 => 0
  | 0x0D => if region < 16 then 2 else 4
  | 0x0E => 2
  | 0x0F => 0
  | 0x15 => if region < 16 then 2 else 4
  | 0x16 => 2
  | 0x17 => 3
  | 0x18 => 0
  | 0x19 => 4
  | 0x1A => 0
  | 0x1B => 4
  | 0x1D => 4
  | 0x1E => 3
  | 0x1F => 4
  | 0x20 => 3
  | 0x24 => 4
  | _ => 1

/-- Whether a cause belongs to a region (R446, R447). Codes that the table does not list belong to none. -/
def causeIn (cause region : Nat) : Bool :=
  let pier := decide (region < 16)
  match cause with
  | 0x01 => region < 23
  | 0x0D => region < 17
  | 0x0F => region < 17
  | 0x15 => pier || region = 21
  | 0x17 => region = 19 || region = 20
  | 0x18 => region = 16
  | 0x19 => region = 16
  | 0x1A => region = 17
  | 0x1B => region = 17
  | 0x1C => region = 16
  | 0x1D => region = 18
  | 0x1E => region = 21
  | 0x1F => region = 21
  | 0x20 => region = 21
  | 0x21 => region = 22
  | 0x22 => region = 22
  | 0x23 => region = 22
  | 0x24 => region = 16
  | c => pier && ((2 ≤ c && c ≤ 0x16) || c = 0x25)

/-- The highest class among the causes of a region, NOTICE at least (R447). -/
def regionClass (region : Nat) : Nat :=
  (((List.range 0x26).filter (fun c => 1 < c && causeIn c region)).map (fun c => causeClass c region)).foldl max 1

/-- The class of a reporting-path fault: that of the cause which the failed pair serves, NOTICE at least; for a local reporter,
which serves every cause of its region (0 stands for it), the highest of them, CONTAIN for a pier's (R447 cause 0x01). -/
def pathClass (served region : Nat) : Nat :=
  if served = 0 then regionClass region else max 1 (causeClass served region)

/-- Whether a cause stands as a level whatever its report says: a reporting-path fault, a PLL out of lock, a temperature above its
threshold (R449). -/
def causeLevel (cause : Nat) : Bool := cause = 0x01 || cause = 0x15 || cause = 0x1E || cause = 0x1F

/-! ### Records (R448 to R450, R455) -/

/-- NOW of a record (R449). -/
def FRec.now (r : FRec) : Bool := !r.levels.isEmpty

/-- REC0 to REC9 of a record (R450). -/
def FRec.dws (r : FRec) : List DW :=
  let t (n : Nat) : List DW := [BitVec.ofNat 32 n, BitVec.ofNat 32 (n / 2 ^ 32)]
  let bit (b : Bool) (k : Nat) : Nat := if b then 2 ^ k else 0
  if !r.val then List.replicate 10 0
  else
    [BitVec.ofNat 32 (2 ^ 31 + bit r.opened 30 + bit r.now 29 + bit r.sec 28 + r.cls.toNat * 2 ^ 25 + r.region.toNat * 2 ^ 20 +
       r.cause.toNat * 2 ^ 8 + r.count),
     BitVec.ofNat 32 (r.rid.toNat * 2 ^ 16 + r.cause2.toNat), r.detail, r.detail2] ++
    t r.tFirst ++ t r.tLast ++ t (if r.now then 0 else r.tClear)

/-- Record slots. -/
def Dev.frec (d : Dev) (k : Fin 64) : FRec := d.fc.recs[k]

/-- Replaces a record. -/
def Dev.setFrec (d : Dev) (k : Fin 64) (r : FRec) : Dev := { d with fc := { d.fc with recs := d.fc.recs.set k r } }

/-- A type 1 entry of the fault stream (R455). -/
def Dev.entry1 (d : Dev) (r : FRec) : Dev := d.fcEntry 1 (r.dws.flatMap (fun w => leBytes 4 w.toNat))

/-- Programs a record of class CONTAIN or above into the fault log, which keeps the newest 4,096 (R450). -/
def Dev.logFault (d : Dev) (r : FRec) : Dev :=
  if r.cls.toNat < 2 then d
  else
    let l := d.flash.faultLog ++ [r.dws]
    { d with flash := { d.flash with faultLog := l.drop (l.length - 4096) } }

/-- The slot of the open record of a region. -/
def Dev.openOf (d : Dev) (region : Nat) : Option (Fin 64) :=
  (List.finRange 64).find? (fun k => (d.frec k).opened && (d.frec k).region.toNat = region)

/-- The slot of the open HALT record. -/
def Dev.haltSlot (d : Dev) : Option (Fin 64) :=
  (List.finRange 64).find? (fun k => (d.frec k).opened && (d.frec k).cls = 4#3)

/-- The slot for a new record: no open record, the one whose record closed earliest (R448). -/
def Dev.freeSlot (d : Dev) : Option (Fin 64) :=
  ((List.finRange 64).filter (fun k => !(d.frec k).opened)).foldl (fun (b : Option (Fin 64)) k =>
    match b with
    | none => some k
    | some j =>
      let t (i : Fin 64) : Nat := if (d.frec i).val then (d.frec i).closedAt + 1 else 0
      if t k < t j then some k else some j) none

/-- What a detection changes in a record while the reaction's shadow lasts: COUNT, T_LAST, SEC and CAUSE2 (R453). -/
def FRec.mergeCount (r : FRec) (x : Detection) (now : Nat) : FRec :=
  let r := { r with count := min 255 (r.count + 1), tLast := now }
  if x.cause = r.cause then r else { r with sec := true, cause2 := x.cause }

/-- Merges a detection into a record (R448, R449): T_CLEAR is the time of a single event while NOW = 0 (DEDUCED,
log 13). -/
def FRec.merge (r : FRec) (x : Detection) (now : Nat) : FRec :=
  let r := r.mergeCount x now
  if x.level then { r with levels := if r.levels.contains x.cause then r.levels else r.levels ++ [x.cause] }
  else if r.now then r else { r with tClear := now }

/-- Writes a new record of a detection, or counts it as lost (R448, R450). -/
def Dev.newRec (d : Dev) (x : Detection) (cls : Nat) (opened : Bool) : Dev :=
  match d.freeSlot with
  | none => { d with fc := { d.fc with lost := min 255 (d.fc.lost + 1) } }
  | some k =>
    let rid := d.fc.newRid + 1
    let r : FRec :=
      { val := true, opened := opened, levels := if x.level then [x.cause] else [], cls := BitVec.ofNat 3 cls, region := x.region,
        cause := x.cause, count := 1, rid := rid, detail := x.detail, detail2 := x.detail2, tFirst := d.now, tLast := d.now,
        tClear := d.now, closedAt := if opened then 0 else d.now }
    let d := d.setFrec k r
    let d := { d with fc := { d.fc with newRid := rid, newSlot := BitVec.ofNat 6 k.val } }
    let d := (d.entry1 { r with opened := true }).logFault r
    if opened then d else d.entry1 r

/-- Closes a record (R449, R455). -/
def Dev.closeRec (d : Dev) (k : Fin 64) : Dev :=
  let r := { d.frec k with opened := false, closedAt := d.now, shadow := none }
  (d.setFrec k r).entry1 r

/-! ### Reactions (R451, R452) -/

/-- Quarantines a pier: the setter places nothing on it, its items end with PIER_LOST and its preemption request with them, its
channel enters self-refresh, and its reset is to be asserted (R18, R23, R375, R451). -/
def Dev.contain (d : Dev) (p : Fin 16) : Dev :=
  let bit := BitVec.ofNat 16 (2 ^ p.val)
  if d.fc.quar.getLsbD p.val then d
  else
    let d := { d with
      fc := { d.fc with quar := d.fc.quar ||| bit, resetDue := d.fc.resetDue ||| bit }
      setter := { d.setter with out := d.setter.out ||| bit } }
    (d.onPier p (fun P => { P with mem := { P.mem with selfRefresh := true } })).loseItems p

/-- Outstanding entry fetches are given up; SQHEAD names the first of them again (log 14). -/
def Ring.abandon (R : Ring) : Ring :=
  match R.fetching with
  | i :: _ => { R with sqHead := i, fetching := [] }
  | [] => R

/-- Every ring gives up its outstanding fetches. -/
def Dev.abandonFetches (d : Dev) : Dev :=
  { d with host := { d.host with fns := d.host.fns.map (fun F => { F with rings := F.rings.map Ring.abandon }) } }

/-- An NMI edge of a core that is not in reset (R264). -/
def Core.nmiEdge (c : Core) : Core := if c.run = .reset then c else { c with nmi := true }

/-- Whether an item already has its audit record. -/
def Item.isRecorded (i : Item) : Bool :=
  match i.stage with
  | .recorded _ _ => true
  | .posted _ _ _ => true
  | _ => false

/-- Drops everything in flight without records or completions (R424, R439, R452 step 3). -/
def Dev.dropAll (d : Dev) : Dev :=
  { d with
    items := [], changes := []
    audit := { d.audit with recs := [], older := 0, seals := [], sealNow := [], waitAt := none }
    setter := { d.setter with batches := [], preempts := [] }
    life := { d.life with testWait := none, destroying := none } }

/-- An NMI edge to every pier sequencer that is not in reset, and Evoari's answer to it: it aborts the pier's run and stops the core
(R264, R452 step 1). -/
def Dev.haltPiers (d : Dev) : Dev :=
  { d.allPiers (fun P =>
      let P := abortRun P d.now d.fresh
      { P with core := if P.core.run = .reset then P.core else { P.core.nmiEdge with run := .stopped } }) with
    fresh := d.fresh + accFrees }

/-- HALT (R452): FAULT_N and READY, no fetching and no placement, every pier's runs and core stopped; then the items end with
DEVICE_HALT in tracker order, or are dropped for causes 0x19 and 0x1B. -/
def Dev.haltNow (d : Dev) (cause : Nat) : Dev :=
  if d.fc.halt then d
  else
    let hard := cause = 0x19 || cause = 0x1B
    let d := (d.alertUp).abandonFetches
    let d := { d with
      fc := { d.fc with halt := true, haltHard := hard, halt1B := cause = 0x1B, haltStep2 := !hard, dieTrip := cause = 0x1F }
      board := { d.board with fault := true, ready := false } }
    let d := d.haltPiers
    if hard then d.dropAll
    else
      let d := { d with
        changes := [], setter := { d.setter with batches := [], preempts := [] }
        audit := { d.audit with sealNow := [] }
        life := { d.life with testWait := none, destroying := none } }
      d.items.foldl (fun d i => if i.isRecorded then d else d.endItem16 i 0x30 0) d

/-- The reaction of a class (R451, R452). -/
def Dev.react (d : Dev) (cls cause region : Nat) : Dev :=
  match cls with
  | 0 => d
  | 1 =>
    let d := d.pendWarden 5
    if h : region < 16 then d.pendPier ⟨region, h⟩ 5 else d
  | 2 => if h : region < 16 then (if d.fc.out.getLsbD region then d else d.contain ⟨region, h⟩) else d
  | 3 => if d.fc.hold then d else ({ d with fc := { d.fc with hold := true } }).alertUp
  | _ => d.haltNow cause

/-! ### The correction log (R457) -/

/-- AON TIME [55:24] (R457). -/
def Dev.coarse (d : Dev) : DW := BitVec.ofNat 32 (d.now / 2 ^ 24)

/-- The entry to use for a location: its own, a free one, or the one of lowest COUNT with ADV = 0, oldest LAST among ties
(R457). -/
def clogSlot (l : Vector CLog 16) (qy : Bool) (addr : Nat) : Option (Fin 16) :=
  match (List.finRange 16).find? (fun e => l[e].val && l[e].qy = qy && l[e].addr.toNat = addr) with
  | some e => some e
  | none =>
    match (List.finRange 16).find? (fun e => !l[e].val) with
    | some e => some e
    | none =>
      ((List.finRange 16).filter (fun e => !l[e].adv)).foldl (fun (b : Option (Fin 16)) e =>
        match b with
        | none => some e
        | some f =>
          if l[e].count < l[f].count || (l[e].count = l[f].count && l[e].last.toNat < l[f].last.toNat) then some e else some f) none

/-- Logs an error of pier `p`; advice raises cause 0x25 (R457). -/
def Dev.clogError (d : Dev) (p : Fin 16) (qy ue : Bool) (addr : Nat) : Dev :=
  let l := d.fc.clog[p]
  match clogSlot l qy addr with
  | none => d
  | some e =>
    let c := l[e]
    let same := c.val && c.qy = qy && c.addr.toNat = addr
    let c : CLog := if same then { c with count := min 255 (c.count + 1), last := d.coarse, ue := c.ue || ue }
      else { val := true, qy := qy, ue := ue, count := 1, addr := BitVec.ofNat 25 addr, first := d.coarse, last := d.coarse }
    let adv := c.adv || ue || (c.count = 4 && c.last.toNat ≤ c.first.toNat + 128)
    let old := same && l[e].adv
    let d := { d with fc := { d.fc with clog := d.fc.clog.set p (l.set e { c with adv := adv }) } }
    if adv && !old then d.onPier p (fun P => P.detect 0x25 e.val 0) else d

/-! ### Detection (R445, R448, R453) -/

/-- Whether a record is in its reaction shadow (R453). -/
def FRec.inShadow (r : FRec) : Bool := r.shadow.isSome

/-- Records a detection and takes its reaction (R448, R451 to R453). In a HALT everything merges into its record. A CONTAIN
detection on an OUT pier closes the record at once (R451). -/
def Dev.record (d : Dev) (x : Detection) (cls : Nat) : Dev :=
  let region := x.region.toNat
  let closed := cls = 2 && region < 16 && d.fc.out.getLsbD region
  if d.fc.halt then
    match d.haltSlot with
    | some k => d.setFrec k ((d.frec k).mergeCount x d.now)
    | none => d
  else match d.openOf region with
    | some k =>
      let r := (d.frec k).merge x d.now
      if (d.frec k).inShadow then d.setFrec k ((d.frec k).mergeCount x d.now)
      else
        let d := if cls ≤ r.cls.toNat then d.setFrec k r
          else
            let r := { r with cls := BitVec.ofNat 3 cls }
            (((d.setFrec k r).entry1 r).logFault r).react cls x.cause.toNat region
        if closed then d.closeRec k else d
    | none =>
      (d.newRec x cls (!closed)).react cls x.cause.toNat region

/-- The keystone repairs a copy that is outvoted (R438, cause 0x1A). -/
def Keystone.repair (k : Keystone) (w : Nat) : Keystone := if k.outvoted w then k.put w (k.word w) else k

/-- The entry that a parity error invalidates (R447 cause 0x08): it is refetched or walked again. -/
def Pier.dropParity (P : Pier) (what e : Nat) : Pier :=
  match what with
  | 1 => { P with mem := { P.mem with icache := P.mem.icache.eraseIdx e } }
  | 2 => { P with mem := { P.mem with tlb := P.mem.tlb.eraseIdx e } }
  | 3 => { P with mem := { P.mem with hodTlb := P.mem.hodTlb.eraseIdx e } }
  | 4 => { P with core := { P.core with btb := P.core.btb.eraseIdx e } }
  | _ => P

/-- A directory line as the key store log has it; a handle without an entry is FREE (R396, R401). -/
def Dev.rewriteEntry (d : Dev) (h : Nat) (P : Pier) : Pier :=
  match d.flash.keys.find? (fun e => e.handle = h), d.ks.kek with
  | some e, some kek => writeEntry kek e P
  | _, _ => zeroLines P (dirLine h) (dirLine h + 1)

/-- What a detection does beside its record: the correction log, a repair, an invalidation, a rewrite (R396, R438, R447,
R457). -/
def Dev.sideEffects (d : Dev) (x : Detection) : Dev :=
  let c := x.cause.toNat
  if h : x.region.toNat < 16 then
    let p : Fin 16 := ⟨x.region.toNat, h⟩
    match c with
    | 0x02 => d.clogError p false false x.detail.toNat
    | 0x03 => d.clogError p false true x.detail.toNat
    | 0x04 => d.clogError p true false x.detail.toNat
    | 0x05 => d.clogError p true true x.detail.toNat
    | 0x08 => d.onPier p (fun P => P.dropParity x.detail.toNat x.detail2.toNat)
    | 0x12 => d.onPier p (fun P => d.rewriteEntry x.detail.toNat P)
    | _ => d
  else if c = 0x1A then { d with ks := d.ks.repair x.detail.toNat }
  else d

/-- A detection reaches the collector. -/
def Dev.detected (d : Dev) (x : Detection) : Dev := (d.record x (causeClass x.cause.toNat x.region.toNat)).sideEffects x

/-- Removes the first detection of a region. -/
def eraseRegion (region : BitVec 5) (l : List Detection) : List Detection :=
  match l.find? (fun x => x.region = region) with
  | some x => l.erase x
  | none => l

/-- The collector takes a detection (R445): the oldest that waits on a region's path, one of the silicon, or what two
consecutive samples of a dual-rail pair say: an Error in either, or a reporting-path fault in both. A detector of a cause that
its region does not have does not exist (R446, R447). -/
def Dev.take (d : Dev) (src : DetectionSource) : Dev :=
  match src with
  | .queued region =>
    if h : region.toNat < 16 then
      let p : Fin 16 := ⟨region.toNat, h⟩
      match (d.pier p).detq with
      | x :: rest => (d.onPier p (fun P => { P with detq := rest })).detected { x with region := region }
      | [] => d
    else
      match d.fc.detq.find? (fun x => x.region = region) with
      | some x => ({ d with fc := { d.fc with detq := eraseRegion region d.fc.detq } }).detected x
      | none => d
  | .physical x =>
    if causeIn x.cause.toNat x.region.toNat then d.detected { x with level := x.level || causeLevel x.cause.toNat } else d
  | .path x a b =>
    let served := x.cause.toNat
    let broken (v : BitVec 2) : Bool := v = 0#2 || v = 3#2
    if 22 < x.region.toNat || (served ≠ 0 && !causeIn served x.region.toNat) then d
    else if broken a && broken b then
      d.record { x with cause := 0x01, detail2 := 0, level := true } (pathClass served x.region.toNat)
    else if served ≠ 0 && (a = 2#2 || b = 2#2) then d.detected { x with level := x.level || causeLevel served }
    else d

/-- FAULT_DETECTION (R445, R448): nothing is collected while POR_N is low. -/
def execFaultDetection (source : DetectionSource) (s : State) : Host.Outcome State Fault Refusal :=
  s.answer (if s.dev.board.porLow then s.dev else s.dev.take source)

/-- The fall of one cause of a record (R449). -/
def FRec.fall (r : FRec) (cause : Byte) (now : Nat) : FRec :=
  if r.levels.contains cause then
    let l := r.levels.erase cause
    { r with levels := l, tClear := if l.isEmpty then now else r.tClear }
  else r

/-- The level of a cause falls in every record that holds it; the ceiling of a die warning ends with it (R449, R474). -/
def Dev.fallOf (d : Dev) (region cause : Nat) : Dev :=
  let d := { d with fc := { d.fc with
    recs := d.fc.recs.map (fun r => if r.opened && r.region.toNat = region then r.fall (BitVec.ofNat 8 cause) d.now else r) } }
  if cause = 0x1E then { d with pw := { d.pw with ceiling := false } } else d

/-- FALL_OF_NOW (R449). -/
def execFallOfNow (slot : Fin 64) (cause : BitVec 8) (s : State) : Host.Outcome State Fault Refusal :=
  let d := s.dev
  let r := d.frec slot
  s.answer (if r.levels.contains cause then
    (let d := d.setFrec slot (r.fall cause d.now)
     if cause = 0x1E#8 then { d with pw := { d.pw with ceiling := false } } else d) else d)

/-! ### Closing and recovery (R449, R454) -/

/-- The start of a record's quiet period (R449, R454). -/
def FRec.quietFrom (r : FRec) : Nat := max (max r.shadowEnd r.tLast) r.tClear

/-- RECORD_CLOSE_TIMER: a NOTE or NOTICE record closes 1 ms after T_LAST and the fall of NOW; a CONTAIN record whose
pier is not quarantined closes (R449). -/
def execRecordCloseTimer (slot : Fin 64) (s : State) : Host.Outcome State Fault Refusal :=
  let d := s.dev
  let r := d.frec slot
  s.answer (if r.opened && ((r.cls.toNat ≤ 1 && !r.now && max r.tLast r.tClear + 25000 ≤ d.now) ||
      (r.cls = 2#3 && !d.fc.quar.getLsbD r.region.toNat)) then d.closeRec slot else d)

/-- Clears a bit of a pier mask. -/
def clearBit (m : BitVec 16) (p : Nat) : BitVec 16 := m &&& ~~~ BitVec.ofNat 16 (2 ^ p)

/-- A pier leaves quarantine: its HBM2E channel leaves self-refresh and its quarry lap starts afresh (R18, R454, R461); a
ninth recovery within the hour leaves it OUT and in OFF instead. -/
def Dev.leaveQuarantine (d : Dev) (p : Fin 16) : Dev :=
  let nine := 8 ≤ d.precOf p.val
  let d := { d with fc := { d.fc with
    quar := clearBit d.fc.quar p.val
    prec := (d.fc.prec.filter (fun (e : Fin 16 × Nat) => d.now < e.2 + 90000000000)) ++ [(p, d.now)] } }
  if nine then
    let d := { d with fc := { d.fc with out := d.fc.out ||| BitVec.ofNat 16 (2 ^ p.val) } }
    d.onPier p (fun P => P.toOff d.now)
  else
    let d := { d with setter := { d.setter with out := clearBit d.setter.out p.val } }
    d.onPier p (fun P => { P with
      mem := { P.mem with selfRefresh := !P.mem.trained || !P.awake }
      lapQ := { limit := P.lapQ.limit, last := P.lapQ.last } })

/-- CONTAIN_QUIET_PERIOD_EXPIRY (R454). -/
def execContainQuietPeriodExpiry (p : Fin 16) (s : State) : Host.Outcome State Fault Refusal :=
  let d := s.dev
  match d.openOf p.val with
  | some k =>
    let r := d.frec k
    s.answer (if r.cls = 2#3 && d.fc.quar.getLsbD p.val && !d.fc.resetDue.getLsbD p.val && !d.fc.inReset.getLsbD p.val &&
        r.shadow.isNone && !r.now && r.quietFrom + 2500000 ≤ d.now then
      ((d.leaveQuarantine p).closeRec k).eagerAll else d)
  | none => s.answer d

/-- The device leaves HOLD; the fifth recovery within 24 hours leaves it into RECOVERY (R415, R454). -/
def Dev.leaveHold (d : Dev) : Dev :=
  let five := 4 ≤ d.drecOf
  let d := ({ d with fc := { d.fc with
    hold := false, drec := (d.fc.drec.filter (fun t => d.now < t + 2160000000000)) ++ [d.now] } }).alertUp
  if five then (d.enterRecovery).recoveryEvent else d

/-- HOLD_QUIET_PERIOD_EXPIRY (R454). -/
def execHoldQuietPeriodExpiry (slot : Fin 64) (s : State) : Host.Outcome State Fault Refusal :=
  let d := s.dev
  let r := d.frec slot
  s.answer (if r.opened && r.cls = 3#3 && !r.now && max r.tLast r.tClear + 25000000 ≤ d.now then
    (let d := d.closeRec slot
     if (List.finRange 64).any (fun k => (d.frec k).opened && (d.frec k).cls = 3#3) then d else d.leaveHold) else d)

/-- FC_RESTORE: each OUT pier that is named returns to service with a clear recovery history (R450, R454). -/
def Dev.restore (d : Dev) (v : DW) : Dev :=
  (List.finRange 16).foldl (fun d p =>
    if v.getLsbD p.val && d.fc.out.getLsbD p.val then
      { d with
        fc := { d.fc with out := clearBit d.fc.out p.val, prec := d.fc.prec.filter (fun (e : Fin 16 × Nat) => e.1 ≠ p) }
        setter := { d.setter with out := clearBit d.setter.out p.val } }
    else d) d

/-- FC_RESTORE_WRITE (R454). -/
def execFcRestoreWrite (v : DW) (s : State) : Host.Outcome State Fault Refusal := s.answer (s.dev.restore v)

/-! ### Per-pier reset (R9, R16, R23, R282, R451, R453, R466, R473) -/

/-- Asserts the reset of a pier: its items end with PIER_LOST on chain 16, the batches and requests on it are gone, and
everything of the pier but its quarry is reinitialised (R16, R23, R282, R375, R466). -/
def Dev.assertReset (d : Dev) (p : Fin 16) : Dev :=
  let d := { d with fc := { d.fc with
    inReset := d.fc.inReset ||| BitVec.ofNat 16 (2 ^ p.val), resetDue := clearBit d.fc.resetDue p.val } }
  let d := d.loseItems p
  d.onPier p (fun P =>
    let Q := P.reinit
    { Q with pw := { Q.pw with change := .none, freq := 4, since := d.now } })

/-- PER_PIER_RESET: the reset that a CONTAIN reaction asserts; its shadow begins (R451, R453). -/
def execPerPierReset (p : Fin 16) (s : State) : Host.Outcome State Fault Refusal :=
  let d := s.dev
  if !d.fc.resetDue.getLsbD p.val then s.answer d
  else
    let d := d.assertReset p
    s.answer (match d.openOf p.val with
      | some k => d.setFrec k { d.frec k with shadow := some 0 }
      | none => d)

/-- PW_PIER.RST: the custodian resets a pier in any state, without a record; a pier that is OUT stays in OFF (R451,
R473). The word's other fields act as PW_PIER_TARGET_WRITE gives. -/
def Dev.writeRst (d : Dev) (p : Fin 16) (a : Agent) (v : DW) : Dev :=
  let d := d.writeTarget p a v
  if v.getLsbD 31 && !d.fc.out.getLsbD p.val then d.assertReset p else d

/-- PW_PIER_RST (R473). -/
def execPwPierRst (p : Fin 16) (by_ : Agent) (v : DW) (s : State) : Host.Outcome State Fault Refusal :=
  s.answer (s.dev.writeRst p by_ v)

/-- PER_PIER_RESET_COMPLETE: the scour of 4,096 cycles at 0.4 GHz has run, 256 ticks; the pier runs at 0.4 GHz with 8 shares, AU0 is
loaded, the setter writes PR_S2CFG again, and the shadow ends 256 ticks later (R181, R282, R305, R453, R466). -/
def execPerPierResetComplete (p : Fin 16) (s : State) : Host.Outcome State Fault Refusal :=
  let d := s.dev
  if !d.fc.inReset.getLsbD p.val || d.now < (d.pier p).pw.since + 256 then s.answer d
  else
    let au := d.au0For p
    let quar := d.fc.quar.getLsbD p.val
    let d := { d with fc := { d.fc with inReset := clearBit d.fc.inReset p.val } }
    let d := (d.onPier p (fun P => { P with
      runs := { P.runs with au0 := au }
      mem := { P.mem with selfRefresh := quar || !P.mem.trained }
      pw := { P.pw with st := .idle, freq := 4, shares := 8, change := .none, since := d.now, lastRun := d.now } })).s2Restore p
    s.answer (match d.openOf p.val with
      | some k =>
        if (d.frec k).shadow = some 0 then d.setFrec k { d.frec k with shadow := some (d.now + 256) } else d
      | none => d.eagerAll)

/-- REACTION_SHADOW_END: 256 ticks after the reset completed (R453). -/
def execReactionShadowEnd (p : Fin 16) (s : State) : Host.Outcome State Fault Refusal :=
  let d := s.dev
  match d.openOf p.val with
  | some k =>
    (match (d.frec k).shadow with
     | some t =>
       s.answer (if t ≠ 0 && t ≤ d.now then d.setFrec k { d.frec k with shadow := none, shadowEnd := t } else d)
     | none => s.answer d)
  | none => s.answer d

/-! ### Correction-log entries (R457, R458) -/

/-- CLOG0 of an entry: writing 1 to VAL frees it (R457). -/
def Dev.clogWrite (d : Dev) (p e : Fin 16) (v : DW) : Dev :=
  if v.getLsbD 31 then { d with fc := { d.fc with clog := d.fc.clog.set p (d.fc.clog[p].set e {}) } } else d

/-- CLOG_ENTRY_FREE (R457). -/
def execClogEntryFree (p : Fin 16) (e : Fin 16) (v : DW) (s : State) : Host.Outcome State Fault Refusal :=
  s.answer (s.dev.clogWrite p e v)

/-- Retires a 64-word frame of a pier (R458). -/
def Dev.retireFrame (d : Dev) (p : Fin 16) (f : Nat) : Dev :=
  let d := d.onPier p (fun P => if P.mem.frames.contains f then P else { P with mem := { P.mem with frames := P.mem.frames ++ [f] } })
  if d.flash.retired.contains (p, f) then d else { d with flash := { d.flash with retired := d.flash.retired ++ [(p, f)] } }

/-- Whether a bank with three retired frames is to be retired: no partition page remains in it; bank 0 is exempt (R458). -/
def Pier.bankDue (P : Pier) (b : Fin 16) : Bool :=
  b.val ≠ 0 && 3 ≤ (P.mem.frames.filter (fun f => 64 * f < 0x200000 && bankOf (64 * f) = b)).length &&
  64 ≤ P.mem.bank[b].owner.toNat && !P.regs.retire.getLsbD b.val

/-- Retires a bank with three retired frames once no partition page remains in it (R458). -/
def Dev.retireFull (d : Dev) (p : Fin 16) (b : Fin 16) : Dev :=
  if !(d.pier p).bankDue b then d
  else
    let d := d.onPier p (fun P => bankRetireWrite P d.now (BitVec.ofNat 32 (2 ^ b.val)))
    { d with flash := { d.flash with retiredBanks := d.flash.retiredBanks ++ [(p, b)] } }

/-- The banks whose partition pages have gone since their third frame was retired (R458). -/
def Dev.retireBanks (d : Dev) (p : Fin 16) : Dev := (List.finRange 16).foldl (fun d b => d.retireFull p b) d

/-- The entries of a partition's stage-2 tables that lie in a line (R305). -/
def Dev.lineEntries (d : Dev) (p : Fin 16) (l : Nat) : List (Nat × Word × Bool) :=
  (d.parts.filter (fun q => d.setter.part[q.part].piers.getLsbD p.val)).flatMap (fun q =>
    (tableEntries q.part.val (15 * q.quarry) (leafAt d.setter.leaves p q)).filter (fun e => (e.1 - quarryBase) / 15 = l))

/-- Rewrites a line of the device tables: the stage-2 entries that it held, with the values that they had, or a line of a course
definition, from a pier that still reads it (R88, R305, R458). -/
def Dev.rewriteTables (d : Dev) (p : Fin 16) (l : Nat) : Dev :=
  if courseLine 0 0 ≤ l then
    let kept := (List.finRange 16).findSome? (fun q => if q = p then none else (lineFetch (d.pier q) .gateway l).1)
    d.onPier p (fun P => gatewayQuarry (zeroLines P l (l + 1)) (wordsAt (quarryBase + 15 * l) (kept.getD [])))
  else d.onPier p (fun P => gatewayQuarry (zeroLines P l (l + 1)) (d.lineEntries p l))

/-- Rewrites a line of the device reserve from flash: a directory line, a blob line of an entry, or a line of the device tables
(R458). -/
def Dev.rewriteReserve (d : Dev) (p : Fin 16) (l : Nat) : Dev :=
  let k := l - partitionLines
  if k < 4194304 then d.onPier p (d.rewriteEntry k)
  else if k < 4194304 + 1048576 then
    match d.flash.keys.find? (fun e => e.state ≠ 0#3 && e.bline ≤ k - 4194304 && k - 4194304 < e.bline + e.blobLines.length) with
    | some e => d.onPier p (d.rewriteEntry e.handle)
    | none => d.onPier p (fun P => zeroLines P l (l + 1))
  else d.rewriteTables p l

/-- RETIREMENT_ACTION: Evoari acts on an entry with ADV = 1 and frees it; one without advice lets it look for banks of the pier
that have come to be retired (R458, log 74). -/
def execRetirementAction (p : Fin 16) (e : Fin 16) (s : State) : Host.Outcome State Fault Refusal :=
  let d := s.dev
  let c := d.fc.clog[p][e]
  if !c.val || !c.adv then s.answer (d.retireBanks p)
  else
    let a := c.addr.toNat
    let d :=
      if !c.qy then (d.retireFrame p (a / 64)).retireFull p (bankOf a)
      else if a < partitionLines then
        (((List.range 15).map (fun i => (quarryBase + 15 * a + i) / 64)).eraseDups).foldl (fun d f => d.retireFrame p f) d
      else d.rewriteReserve p a
    s.answer (d.clogWrite p e 0x80000000#32)

/-! ### Temperatures, current and telemetry (R455, R474) -/

/-- Reports a level once: while it stands in the region's record it is not reported again. -/
def Dev.raiseLevel (d : Dev) (cause region detail detail2 : Nat) : Dev :=
  match d.openOf region with
  | some k =>
    if (d.frec k).levels.contains (BitVec.ofNat 8 cause) then d
    else d.detected { mkDetection cause region detail detail2 with level := true }
  | none => d.detected { mkDetection cause region detail detail2 with level := true }

/-- The hottest die sensor and its reading. -/
def hottest (sm : Sample) : Nat × Int :=
  sm.die.zipIdx.foldl (fun (b : Nat × Int) e => if b.2 < e.1 then (e.2, e.1) else b) (0, sm.die.headD 0)

/-- A reading as it stands in DETAIL2 (two's complement; the spec gives no encoding beyond R455's). -/
def reading (t : Int) : Nat := (BitVec.ofInt 32 t).toNat

/-- TEMPERATURE_SAMPLE: the 1 ms samples against the thresholds of R474, in units of 0.125 °C. -/
def execTemperatureSample (sm : Sample) (s : State) : Host.Outcome State Fault Refusal :=
  let d := s.dev
  let hot := hottest sm
  let cap := d.cap
  let hotRun := if 840 < hot.2 then d.fc.hotRun + 1 else 0
  let overRun := if 525 * cap < 100 * sm.current then d.fc.overRun + 1 else 0
  let d := { d with fc := { d.fc with
    sample := some sm, hotRun := hotRun, overRun := overRun,
    dieMax := some (match d.fc.dieMax with
      | some m => max m hot.2
      | none => hot.2) } }
  let d := if 2 ≤ hotRun then
      let d := d.raiseLevel 0x1E 21 hot.1 (reading hot.2)
      if d.pw.ceiling then d else ({ d with pw := { d.pw with ceiling := true } }).applyCeiling
    else if hot.2 ≤ 800 then d.fallOf 21 0x1E else d
  let d := if 920 < hot.2 then d.raiseLevel 0x1F 21 hot.1 (reading hot.2) else d
  let stack (d : Dev) (region : Nat) (t : Int) : Dev :=
    if 840 < t then d.raiseLevel 0x17 region 0 0 else if t ≤ 760 then d.fallOf region 0x17 else d
  let d := stack (stack d 19 sm.stack0) 20 sm.stack1
  s.answer (if 3 ≤ overRun then d.raiseLevel 0x20 21 sm.current (5 * cap)
    else if sm.current ≤ 5 * cap then d.fallOf 21 0x20 else d)

/-- The power state code of a pier (R455, R473). -/
def PState.code : PState → Nat
  | .off => 0
  | .sleep => 1
  | .idle => 2
  | .run => 3

/-- CURF: 4 during a change, 0 when not clocked (R455, R473). -/
def Pier.curf (P : Pier) : Nat :=
  if !P.awake then 0
  else match P.pw.change with
    | .freq _ _ => 4
    | _ => P.pw.freq

/-- Bytes 16 to 63 of a telemetry entry; the busy fractions are free values (R455, log 2). -/
def Dev.telemetryBody (d : Dev) : List Byte :=
  let sm := d.fc.sample.getD ⟨[], 0, 0, 0, 0⟩
  let t (x : Int) : List Byte := leBytes 2 (BitVec.ofInt 16 x).toNat
  t (d.fc.dieMax.getD 0) ++ t sm.stack0 ++ t sm.stack1 ++ leBytes 2 sm.current ++ leBytes 2 sm.power ++ leBytes 2 d.cap ++
  leBytes 2 d.grant ++ [0, 0] ++
  (List.finRange 16).flatMap (fun p =>
    let P := d.pier p
    let down := d.fc.out.getLsbD p.val || d.fc.quar.getLsbD p.val
    [BitVec.ofNat 8 (P.curf + P.pw.st.code * 32 + (if down then 128 else 0)), Config.free 8 (d.fresh + p.val)])

/-- TELEMETRY_PERIOD: a type 2 entry every FC_TELEM.PERIOD ms (R455). -/
def execTelemetryPeriod (s : State) : Host.Outcome State Fault Refusal :=
  let d := s.dev
  s.answer (if d.fc.telemAt + 25000 * d.fc.period.toNat ≤ d.now && !d.board.porLow then
    (let d := d.fcEntry 2 d.telemetryBody
     { d with fc := { d.fc with telemAt := d.now, dieMax := none }, fresh := d.fresh + 16 }) else d)

end Sys2Proof.Machine
end

