-- ==== Sys2Proof/Machine/Steward.lean ====
section
/-! DEFINITION. The sideband's steward commands, dual control of partition KEKs, and the JTAG port (R358, R359, R431,
R435, R499, R500, R511, R512). -/

namespace Sys2Proof.Machine

open Sys2Proof

/-! ### Dual control (R435) -/

/-- What the arrival of a component gives: the check that refuses it, its becoming pending, or the combined check
value of the pair that it completes. -/
inductive KekRes where
  | refused (code : Nat)
  | pending
  | pair (kcv : Nat)
deriving DecidableEq, Repr

/-- The component that waits for a partition. -/
def Keystone.pendOf (k : Keystone) (q : Nat) : Option KekPend := k.pend.find? (fun e => e.part.val = q)

/-- The bytes of a pending component (R437). -/
def Keystone.pendBytes (k : Keystone) (e : KekPend) : List Byte :=
  (k.bytes (0x340 + 16 * e.slot) 16).take (if e.kalg = 1 then 24 else 32)

/-- Discards a partition's pending component (R434, R435). -/
def Keystone.discard (k : Keystone) (q : Nat) : Keystone :=
  match k.pendOf q with
  | none => k
  | some e =>
    let k := k.putWords (0x340 + 16 * e.slot) (List.replicate 16 0)
    { k with pend := k.pend.filter (fun x => x.part.val ≠ q) }

/-- The first of the four places that holds no component. -/
def Keystone.pendFree (k : Keystone) : Option Nat :=
  (List.range 4).find? (fun i => k.pend.all (fun e => e.slot ≠ i))

/-- The key algorithm code of a KALG (R397, R435). -/
def kalgAlg (kalg : Nat) : Nat := if kalg = 1 then 2 else 5

/-- A component arrives: the checks of R435 in their order, then it becomes pending or completes the pair, whose XOR
replaces the partition's KEK and is persisted. A pending component whose window has ended no longer counts (its
discarding and its record are `expirePend`). -/
def Dev.kekArrive (d : Dev) (q kalg kcv : Nat) (comp : List Byte) (fromPf0 : Bool) : KekRes × Dev :=
  if h : q < 64 then
    if !d.partExists ⟨q, h⟩ || (kalg ≠ 1 && kalg ≠ 2) || comp.length ≠ (if kalg = 1 then 24 else 32) then (.refused 0x01, d)
    else if (symKcv (kalgAlg kalg) comp).toNat ≠ kcv then (.refused 0x52, d)
    else match d.ks.pendOf q with
      | some e =>
        if e.fromPf0 = fromPf0 then (.refused 0x51, d)
        else if e.kalg ≠ kalg then (.refused 0x53, d)
        else
          let key := List.zipWith (· ^^^ ·) (d.ks.pendBytes e) comp
          let d := (d.keyUse (0x340 + 16 * e.slot) 16)
          let k := d.ks.discard q
          if key.all (fun b => b = 0) then (.refused 0x55, { d with ks := k })
          else
            let v := (symKcv (kalgAlg kalg) key).toNat
            let k := (k.putBytes (0x100 + 8 * q) (fitBytes 32 key)).put (0x300 + q) (BitVec.ofNat 32 (kalg + 4 * v))
            (.pair v, Dev.persist { d with ks := k })
      | none =>
        match d.ks.pendFree with
        | none => (.refused 0x54, d)
        | some i =>
          let k := d.ks.putBytes (0x340 + 16 * i) comp
          (.pending, { d with ks := { k with pend := k.pend ++ [⟨i, ⟨q, h⟩, kalg, fromPf0, d.now⟩] } })
  else (.refused 0x01, d)

/-- The end of a pending component's 10-minute window: it is discarded and recorded (R415, R435). -/
def Dev.expirePend (d : Dev) (q : Nat) : Dev :=
  match d.ks.pendOf q with
  | some e =>
    if e.since + 15000000000 ≤ d.now then
      Dev.append16 { d with ks := d.ks.discard q } { kind := 1, opc := 3, time := d.now, idata := bytesOf [q, e.kalg] } none
    else d
  | none => d

/-- The ends of every pending component's window that have passed. -/
def Dev.expireAll (d : Dev) : Dev := d.ks.pend.foldl (fun d e => d.expirePend e.part.val) d

/-- COMPONENT_EXPIRED: the 10-minute window of a pending component ends; it is discarded and recorded (R415, R435). -/
def execComponentExpired (q : Fin 64) (s : State) : Host.Outcome State Fault Refusal :=
  s.answer (s.dev.expirePend q.val)

/-! ### Answers (R511, R512) -/

/-- Whether the warden runs Evoari: from EVOARI_START on (R480, R482, R512). -/
def Dev.evoariRuns (d : Dev) : Bool :=
  match d.life.boot with
  | .evoari => true
  | .tables => true
  | .seals => true
  | .ready => true
  | _ => false

/-- Whether the chains have resumed: records can be appended (R425). -/
def Dev.chainsUp (d : Dev) : Bool := d.life.boot = .seals || d.life.boot = .ready

/-- The bus mode that the first transaction after POR chooses (R499). -/
def Dev.chooseBus (d : Dev) (i3c : Bool) : Dev :=
  if d.board.sbMode.isNone then { d with board := { d.board with sbMode := some i3c } } else d

/-- Whether the sideband target acknowledges a steward message: POR_N is high, and in I3C mode it has a dynamic
address (R499, R512). -/
def Dev.sidebandAnswers (d : Dev) : Bool :=
  !d.board.porLow && !(d.board.sbMode = some true && d.board.dynAddr.isNone)

/-- A steward message: no answer, an answer of the boot ROM or of the stopped device, or Evoari's (R358, R512). Each one
raises vector 24 on the warden (R358). A message in the power-fail sequence finds the warden in its NMI handler and is answered as after it (log 15). -/
def Dev.steward (d : Dev) (isGet : Bool) (serve : Dev → List Byte × Dev) : Dev :=
  if !d.sidebandAnswers then d
  else
    let d := (d.chooseBus false).pendWarden 8
    if d.life.pf ≠ .none && !isGet then d.send (.steward Config.vendorId [0x03])
    else if !d.evoariRuns && !isGet then d.send (.steward Config.vendorId [0x04])
    else
      let r := serve d
      r.2.send (.steward Config.vendorId r.1)

/-- The fault state byte of GET_STATE (R511). -/
def Dev.faultState (d : Dev) : Nat := if d.fc.halt then 2 else if d.fc.hold then 1 else 0

/-- GET_STATE: lifecycle code, fault state, cap and READY; it releases SB_ALERT_N (R359, R499, R511). -/
def execGetState (_inst : Byte) (payload : List Byte) (s : State) : Host.Outcome State Fault Refusal :=
  s.answer (s.dev.steward true (fun d =>
    if payload ≠ [] then ([0x02], d)
    else
      ([0x00] ++ bytesOf [d.life.life.toNat, d.faultState] ++ leBytes 2 d.cap ++ bytesOf [d.board.ready.toNat],
       { d with board := { d.board with alert := false } })))

/-- LOWER_CAP: SCAP takes the value when it lies between the floor and the current cap (R359, R472, R511). -/
def execLowerCap (_inst : Byte) (payload : List Byte) (s : State) : Host.Outcome State Fault Refusal :=
  s.answer (s.dev.steward false (fun d =>
    if payload.length ≠ 2 then ([0x02], d)
    else
      let n := leNat payload
      if 120 ≤ n && n ≤ d.cap then ([0x00], d.setCap d.pw.budget n) else ([0x03], d)))

/-- The record of a steward command on chain 16 (R359, R414). -/
def Dev.stewardRecord (d : Dev) (code : Nat) (inst : Byte) (payload idata answer : List Byte) : Dev :=
  if !d.recordsAllowed || !d.chainsUp then d
  else
    let detail := if (answer.getD 0 0).toNat = 3 then (answer.getD 1 0).toNat else 0
    d.append16
      { kind := 2, opc := code, func := 0xFE, tag := inst.toNat, time := d.now,
        part := if code = 3 then payload.head?.map (fun b => b.toNat % 64) else none,
        status := (answer.getD 0 0).toNat, result := detail, idata := idata, rdata := answer } none

/-- The states in which the steward's KEK_COMPONENT is accepted (R431); START-UP is none of them. -/
def Dev.kekStates (d : Dev) : Bool := d.life.op ≠ .startUp && (d.authState = 1 || d.authState = 2 || d.authState = 5)

/-- STEWARD_KEK_COMPONENT: steward command 0x03 (R359, R431, R435, R511). Before the chains have
resumed no record can be appended (log 15). -/
def execStewardKekComponent (inst : Byte) (payload : List Byte) (s : State) : Host.Outcome State Fault Refusal :=
  s.answer (s.dev.steward false (fun d =>
      let r : List Byte × Dev :=
        if !d.kekStates then ([0x03], d)
        else if payload.length < 5 then ([0x02], d)
        else
          let kcv := leNat ((payload.drop 2).take 3)
          let d := d.expireAll
          (match d.kekArrive (payload.getD 0 0).toNat (payload.getD 1 0).toNat kcv (payload.drop 5) false with
           | (.refused c, d) => (if c = 1 then [0x02] else [0x03, BitVec.ofNat 8 c], d)
           | (.pending, d) => ([0x00], d)
           | (.pair v, d) => ([0x00] ++ leBytes 3 v, d))
      (r.1, r.2.stewardRecord 3 inst payload (payload.take 5) r.1)))

/-- STEWARD_HALT: steward command 0x04, with confirmation 0x5A (R359, R447 cause 0x24). -/
def execStewardHalt (inst : Byte) (payload : List Byte) (s : State) : Host.Outcome State Fault Refusal :=
  s.answer (s.dev.steward false (fun d =>
      let ok := payload = [0x5A]
      let ans : List Byte := if ok then [0x00] else [0x02]
      let d := d.stewardRecord 4 inst payload ([0x04, inst] ++ payload) ans
      (ans, if ok then d.detected (mkDetection 0x24 16 0 0) else d)))

/-- UNKNOWN_COMMAND: any other code is answered 0x01 (R359). -/
def execUnknownCommand (code _inst : Byte) (_payload : List Byte) (s : State) : Host.Outcome State Fault Refusal :=
  s.answer (if 1 ≤ code.toNat && code.toNat ≤ 4 then s.dev else s.dev.steward false (fun d => ([0x01], d)))

/-! ### The I3C bus (R499) -/

/-- The static address (R497, R499). -/
def Dev.staticAddr (d : Dev) : BitVec 7 := 0x58#7 + d.board.sbAddr.setWidth 7

/-- SETDASA: a target with this static address takes a dynamic address (R499). -/
def execSetdasa (staticAddr dynAddr : BitVec 7) (s : State) : Host.Outcome State Fault Refusal :=
  let d := s.dev
  s.answer (if d.board.porLow || d.board.sbMode = some false then d
    else
      let d := d.chooseBus true
      if staticAddr = d.staticAddr && d.board.dynAddr.isNone then { d with board := { d.board with dynAddr := some dynAddr } } else d)

/-- ENTDAA: a target without a dynamic address takes the one that the controller gives (R499). -/
def execEntdaa (dynAddr : BitVec 7) (s : State) : Host.Outcome State Fault Refusal :=
  let d := s.dev
  s.answer (if d.board.porLow || d.board.sbMode = some false then d
    else
      let d := d.chooseBus true
      if d.board.dynAddr.isNone then { d with board := { d.board with dynAddr := some dynAddr } } else d)

/-! ### JTAG (R431, R500) -/

/-- A TAP instruction takes effect; TRST_N is high for it, and EXTEST ends where another instruction is loaded (log 16). -/
def Board.tap (b : Board) (ir : JtagIr) : Board := { b with tapReset := false, ir := ir, extest := ir = .extest }

/-- BYPASS (R431, R500). -/
def execBypass (s : State) : Host.Outcome State Fault Refusal :=
  s.answer { s.dev with board := s.dev.board.tap .bypass }

/-- IDCODE: 0x15216A3B is shifted out (R500). -/
def execIdcode (s : State) : Host.Outcome State Fault Refusal :=
  s.answer ({ s.dev with board := s.dev.board.tap .idcode }.send (.tdo 0x15216A3B#32))

/-- SAMPLE/PRELOAD: the bits shifted in stand in the boundary-scan register (R500). -/
def execSamplePreload (bits : List Bool) (s : State) : Host.Outcome State Fault Refusal :=
  s.answer { s.dev with board := { s.dev.board.tap .sample with bsr := bits } }

/-- EXTEST: the boundary-scan register drives the balls (R431, R500). -/
def execExtest (s : State) : Host.Outcome State Fault Refusal :=
  s.answer { s.dev with board := s.dev.board.tap .extest }

/-- MEMORY_BIST: offered in BLANK and DECOMMISSIONED, with a result that the spec leaves open (log 2); elsewhere the code
is not an instruction of the TAP and selects BYPASS (R431, log 16). -/
def execMemoryBist (s : State) : Host.Outcome State Fault Refusal :=
  let d := s.dev
  s.answer (if d.life.life = 0#3 || d.life.life = 4#3 then
    Dev.used { d with board := { d.board.tap .bist with bist := some (d.free 64) } }
    else { d with board := d.board.tap .bypass })

/-- TRST_N_ASSERT: the TAP is held in reset (R500). -/
def execTrstNAssert (s : State) : Host.Outcome State Fault Refusal :=
  s.answer { s.dev with board := { s.dev.board with tapReset := true, ir := .idcode, extest := false } }

end Sys2Proof.Machine
end

