-- ==== Sys2Proof/Machine/Seals.lean ====
section
/-! DEFINITION. Epoch seals, the power-fail sequence and the zeroize (R418, R421 to R423, R439, R475, R476). -/

namespace Sys2Proof.Machine

open Sys2Proof

/-! ### Epoch seals (R418, R421, R422) -/

/-- Whether the device has an audit identity: not in BLANK or DECOMMISSIONED (R420, R427, R436). -/
def Dev.hasIdentity (d : Dev) : Bool := d.life.life ≠ 0#3 && d.life.life ≠ 4#3

/-- Whether epoch seals fall due and are formed: the chains have resumed, and no HALT, power failure or zeroize runs
(R423, R425, R439, R452). -/
def Dev.sealing (d : Dev) : Bool :=
  d.hasIdentity && d.chainsUp && d.life.pf = .none && d.life.zero = .none && !d.fc.halt

/-- SEAL_DUE: 50 ms after the previous seal, or 65,536 records of a chain (R418). -/
def execSealDue (s : State) : Host.Outcome State Fault Refusal :=
  let d := s.dev
  s.answer (if d.sealing && !d.audit.due && (d.audit.lastSeal + 1250000 ≤ d.now || d.audit.since.any (fun n => 65536 ≤ n)) then
    ({ d with audit := { d.audit with due := true } }).pendWarden 7 else d)

/-- Every pier goes to OFF after the HALT of a die trip (R474). -/
def Dev.haltEnd (d : Dev) : Dev :=
  if d.fc.dieTrip then
    ({ d with fc := { d.fc with dieTrip := false } }).allPiers (fun P => P.toOff d.now)
  else d

/-- Forms the seal of SEAL_NOW's oldest waiting item (R422). -/
def Dev.sealNowForm (d : Dev) : Dev :=
  match d.audit.sealNow with
  | [] => d
  | (it, per) :: rest =>
    let d := { d with audit := { d.audit with sealNow := rest } }
    if (d.item? it).isNone then d
    else
      let d := d.formSeal per
      d.onItem it (fun i => { i with stage := .sealWait d.ks.epoch per })

/-- Whether PF1 slot 2 has no room for a seal (R335). -/
def Dev.slot2Full (d : Dev) : Bool := (d.ring .pf1 2).en && (d.ring .pf1 2).eventFree < 9

/-- SEAL_FORM: the sealer forms the seal that is due, or SEAL_NOW's once 10 ms have passed since the previous one, while it
holds fewer than two, and none that waits for room in slot 2 (R335); in a HALT, the seal of step 2 once every item has
ended (R418, R422, R452). -/
def execSealForm (s : State) : Host.Outcome State Fault Refusal :=
  let d := s.dev
  s.answer (
    if 2 ≤ d.audit.seals.length || (d.audit.seals ≠ [] && d.slot2Full) || d.life.pf ≠ .none || d.life.zero ≠ .none then d
    else if d.fc.halt then
      if d.fc.haltStep2 && d.items.isEmpty && d.audit.recs.isEmpty then
        (let d := { d with fc := { d.fc with haltStep2 := false } }
         if d.hasIdentity && d.chainsUp then d.formSeal true else d.haltEnd)
      else d
    else if !d.sealing then d
    else if !d.audit.sealNow.isEmpty && d.audit.lastSeal + 250000 ≤ d.now then d.sealNowForm
    else if d.audit.due then d.formSeal false
    else d)

/-- The 9 entries of a seal (R418). -/
def sealEntries (s : List Byte) : List (List Byte) := (List.range 9).map (fun k => (s.drop (64 * k)).take 64)

/-- The item of SEAL_NOW ends once its seal is on the ring (R422). -/
def Dev.sealItems (d : Dev) (epoch : Nat) : Dev :=
  match d.items.find? (fun (i : Item) => match i.stage with
    | .sealWait e _ => e = epoch
    | _ => false) with
  | some i =>
    d.record16 { i with rdata6 := BitVec.ofNat 32 epoch, rdata7 := BitVec.ofNat 32 (epoch / 2 ^ 32) }
  | none => d

/-- SEAL_WRITE: the oldest seal goes to PF1 slot 2 as 9 entries when there is room, a persisted one once it is in flash
(R418, R421). -/
def execSealWrite (s : State) : Host.Outcome State Fault Refusal :=
  let d := s.dev
  match d.audit.seals with
  | [] => s.answer d
  | x :: rest =>
    s.answer (if (x.persist && !x.flashed) || !d.delivering || !d.eventRoom 2 9 then d
      else
        let d := d.eventPut 2 (.seal x.epoch) (sealEntries x.bytes)
        Dev.sealItems { d with audit := { d.audit with seals := rest } } x.epoch)

/-- Programs a seal into the next good slot and verifies it; a failure retires the sector with cause 0x21 and moves on to
the next one (R421, R463). -/
def Dev.programSeal (d : Dev) (good : Bool) (s : List Byte) : Dev :=
  let slot := d.flash.goodSlot 4096 d.flash.nextSeal
  if good then { d with flash := d.flash.putSeal s }
  else
    ({ d with flash := { d.flash with nextSeal := (slot / 4 * 4 + 4) % 4096 } }.detect 0x21 22 (sealSector slot)
      (Config.flashRegion 3).toNat).retireSector (sealSector slot)

/-- SEAL_PERSIST: the oldest persisted seal is programmed and verified (R421). With the seal of a HALT of a die trip,
every pier goes to OFF (R474). -/
def execSealPersist (good : Bool) (s : State) : Host.Outcome State Fault Refusal :=
  let d := s.dev
  match d.audit.seals.find? (fun x => x.persist && !x.flashed) with
  | none => s.answer d
  | some x =>
    s.answer (if !d.delivering then d
      else
        let d := d.programSeal good x.bytes
        if !good then d
        else
          let d := { d with audit := { d.audit with
            seals := d.audit.seals.map (fun (y : Seal) => if y.epoch = x.epoch then { y with flashed := true } else y) } }
          if d.fc.halt && !d.fc.haltStep2 then d.haltEnd else d)

/-! ### Power failure (R423, R475, R476) -/

/-- Whether the chain heads stand in the keystone: the chains have resumed, or a warm reset runs that keeps them (R425,
R476, R479). -/
def Dev.headsKnown (d : Dev) : Bool := d.hasIdentity && (d.chainsUp || (d.life.warm && !d.fc.halt1B))

/-- The stopped device: every pier clock stands still until POR (R475). -/
def Dev.stopPiers (d : Dev) : Dev :=
  d.allPiers (fun P => { P with core := { P.core with run := .stopped }, runs := { P.runs with exec := none, queued := none } })

/-- PWRFAIL_N_ASSERT: a low level of two AON ticks or more drives an edge of the warden's NMI, one for each assertion
(R264), and starts the sequence of R423. Nothing is written before the
chain heads are known or in a HALT of cause 0x19 or 0x1B, and a zeroize goes on (R475, R476). -/
def execPwrfailNAssert (ticks : Nat) (s : State) : Host.Outcome State Fault Refusal :=
  let d := s.dev
  s.answer (if ticks < 2 || d.board.porLow then d
    else if d.life.pf ≠ .none || d.life.zero ≠ .none then d.onCore .warden Core.nmiEdge
    else
      let d := d.abandonFetches.onCore .warden Core.nmiEdge
      let quiet := d.fc.haltHard || !d.headsKnown
      let d := if quiet then d.stopPiers else d
      { d with
        board := { d.board with ready := false }
        life := { d.life with pf := if quiet then .done else .stopped, pfAt := d.now } })

/-- HEADS_FREEZE: 100 µs after PWRFAIL_N (R423). Seals not yet written give way to the final seal (log 15). -/
def execHeadsFreeze (s : State) : Host.Outcome State Fault Refusal :=
  let d := s.dev
  s.answer (if d.life.pf = .stopped && d.life.zero = .none && d.life.pfAt + 2500 ≤ d.now then
    { d with life := { d.life with pf := .frozen }, audit := { d.audit with frozen := true, seals := [] } } else d)

/-- FINAL_SEAL_FORM: KIND 2 over the frozen heads (R423); none in a zeroize (R476). -/
def execFinalSealForm (s : State) : Host.Outcome State Fault Refusal :=
  let d := s.dev
  s.answer (if d.life.pf = .frozen && d.life.zero = .none then
    (let e := d.ks.epoch + 1
     { d with
       audit := { d.audit with final := some (e, d.sealBytes 2 e 0 d.heads) }
       ks := d.ks.setEpoch e
       life := { d.life with pf := .sealed } }) else d)

/-- FINAL_SEAL_PROGRAM: the final seal is programmed into the erased slot and verified, and goes to the seal ring if the
link is up; then the device stays stopped until POR (R423, R475). -/
def execFinalSealProgram (good : Bool) (s : State) : Host.Outcome State Fault Refusal :=
  let d := s.dev
  match d.life.pf, d.audit.final with
  | .sealed, some (e, b) =>
    s.answer (if d.life.zero ≠ .none then d
      else
        let d := if good then { d with flash := d.flash.putSeal b } else d
        let d := if good && d.host.link = .up && d.eventRoom 2 9 then d.eventPut 2 (.seal e) (sealEntries b) else d
        Dev.stopPiers { d with life := { d.life with pf := .done } })
  | _, _ => s.answer d

/-! ### Zeroize (R439) -/

/-- What a zeroize clears on a pier within 20 µs: its runs, key slots, staging registers, MC accumulators and AU0. -/
def RunSt.zeroize (r : RunSt) : RunSt :=
  { r with exec := none, queued := none, keySlots := [], stag := [], stagRub := [], stagBad := [], acc := [], accRub := [],
           au0 := {} }

/-- The start of a zeroize: keystone and volatile secrets, items dropped, LIFE 4, READY low, and a zeroize entry with the
count after it (R439, R455). -/
def Dev.zeroizeStart (d : Dev) (decom : Bool) : Dev :=
  if d.life.zero ≠ .none then d
  else
    let d := d.abandonFetches.dropAll
    let d := d.allPiers (fun P => { P with runs := P.runs.zeroize })
    let d := { d with
      ks := { zeroized := true }
      board := { d.board with ready := false, alert := true }
      life := { d.life with life := 4#3, zero := .cleared, decom := decom } }
    d.fcEntry 4 (bytesOf [min 8 (d.life.zcnt + 1)])

/-- ZEROIZE_N_ASSERT: a low level of two AON ticks or more starts the zeroize (R439, R475). -/
def execZeroizeNAssert (ticks : Nat) (s : State) : Host.Outcome State Fault Refusal :=
  let d := s.dev
  s.answer (if ticks < 2 || d.board.porLow then d
    else Dev.zeroizeStart { d with life := { d.life with zeroLow := true } } false)

/-- Programs the next ZCNT fuse of eight. -/
def Life.fuse (l : Life) : Life := { l with zcnt := min 8 (l.zcnt + 1) }

/-- ZCNT_FUSE_PROGRAM: in a zeroize, with the terminal fuse after SET_STATE 6; or step 3 of start-up with ZEROIZE_N low
(R433, R439, R480). -/
def execZcntFuseProgram (s : State) : Host.Outcome State Fault Refusal :=
  let d := s.dev
  s.answer (if d.life.zero = .cleared then
      { d with life := { d.life.fuse with zero := .fused, terminal := d.life.terminal || d.life.decom } }
    else if d.life.zero = .none && d.life.boot = .pll && d.life.zeroLow && !d.life.warm && d.life.pf = .none then
      { d with life := { d.life.fuse with zeroLow := false } }
    else d)

/-- ZEROIZE_MEMORY_CLEAR: all banks and quarries of every pier are zeroed (R439). -/
def execZeroizeMemoryClear (s : State) : Host.Outcome State Fault Refusal :=
  let d := s.dev
  s.answer (if d.life.zero = .fused then
    ({ d with life := { d.life with zero := .zeroed } }).allPiers (fun P =>
      { P with mem := { P.mem with banks := [], wback := [], quarry := [], merge := [] } })
    else d)

/-- KEY_STORE_ERASE: the key store log and the keystone image are erased (R439, R505). -/
def execKeyStoreErase (s : State) : Host.Outcome State Fault Refusal :=
  let d := s.dev
  s.answer (if d.life.zero = .zeroed then
    { d with
      flash := { d.flash with image := none, keys := [], parts := [], tseqOut := 0, tseqIn := [] }
      life := { d.life with zero := .done } }
    else d)

end Sys2Proof.Machine
end

