-- ==== Sys2Proof/Machine/Startup.lean ====
section
/-! DEFINITION. Resets of the whole device, start-up and supply violations (R425, R438, R440, R465, R474, R477 to R483,
R491, R492, R494 to R497, R503). -/

namespace Sys2Proof.Machine

open Sys2Proof

/-! ### POR and supply violations (R477, R492, R494, R496) -/

/-- POR: everything is reinitialised but flash and fuses; the level of PERST_N is an input, and what the device has sent
stands as history (R477). -/
def Dev.por (d : Dev) : Dev :=
  let r := State.reset.dev
  { r with
    flash := d.flash
    fresh := d.fresh
    host := { r.host with perst := d.host.perst, out := d.host.out }
    life := { r.life with zcnt := d.life.zcnt, terminal := d.life.terminal, keyHash := d.life.keyHash, minVer := d.life.minVer } }

/-- POR_N_ASSERT: a low pulse below 100 ns is ignored, one of 1 µs is a POR, one between is either, by a free value
(R496, log 2). -/
def execPorNAssert (ns : Nat) (s : State) : Host.Outcome State Fault Refusal :=
  let d := s.dev
  s.answer (if ns < 100 then d
    else if 1000 ≤ ns then d.por
    else if (d.free 1).getLsbD 0 then d.used.por else d.used)

/-- RAIL_OUT_OF_TOLERANCE: as POR without a final seal; a rail more than 10 % outside its tolerance has no outcome in the
spec and faults (R492). -/
def execRailOutOfTolerance (e : RailEvent) (s : State) : Host.Outcome State Fault Refusal :=
  if e.overTen then .fault .railDamage else s.answer s.dev.por

/-- THERMTRIP: the analog detector passes 120 °C; latched until POR (R474). -/
def execThermtrip (s : State) : Host.Outcome State Fault Refusal :=
  s.answer { s.dev with board := { s.dev.board with therm := true } }

/-! ### Start-up steps 1 to 5 (R480, R481, R497) -/

/-- POR_N_RELEASE: the straps are sampled, AON starts and start-up begins. A release before the rails are ready may stop
start-up in some step, a free value (R480, R492, R497, log 2). -/
def execPorNRelease (board : PorRelease) (s : State) : Host.Outcome State Fault Refusal :=
  let d := s.dev
  s.answer (if !d.board.porLow then d
    else
      let stop : Option Nat := if board.railsReady then none else some (d.free 4).toNat
      let d := if board.railsReady then d else d.used
      { d with
        board := { d.board with porLow := false, bootSel := board.bootSel, sbAddr := board.sbAddr, stuckAt := stop }
        host := { d.host with link := if d.host.perst then .down else .training }
        life := { d.life with boot := .released, zeroLow := board.zeroizeLow } })

/-- Whether start-up goes on: no power failure, no zeroize, no HALT and no stop of R492 in this step. -/
def Dev.bootOk (d : Dev) (step : Nat) : Bool :=
  d.life.pf = .none && d.life.zero = .none && !d.fc.halt && !d.board.porLow && d.board.stuckAt ≠ some step

/-- A step of start-up: its effect when its turn has come; where R492 stops start-up in it, FAULT_N asserts instead. -/
def Dev.bootStep (d : Dev) (step : Nat) (turn : Bool) (f : Dev → Dev) : Dev :=
  if turn && d.bootOk step then f d
  else if turn && d.board.stuckAt = some step then { d with board := { d.board with fault := true, ready := false } }
  else d

/-- FRONTAGE_PLL_LOCK: the warden leaves reset in the boot ROM, with REMAP = 0 (R268, R465, R480 step 2). -/
def execFrontagePllLock (s : State) : Host.Outcome State Fault Refusal :=
  let d := s.dev
  s.answer (d.bootStep 2 (d.life.boot = .released) (fun d =>
    { d with
      warden := { d.warden with core := { d.warden.core.toReset with pc := Config.bootRom 0, run := .running } }
      life := { d.life with boot := .pll, remap := false } }))

/-- The bytes of an image that its signature and the configuration root cover: the security version, then the body
(log 6). -/
def FwImage.bytes (i : FwImage) : List Byte := leBytes 4 i.version ++ i.body

/-- Whether an image passes the checks of R481. -/
def Dev.imageOk (d : Dev) (i : FwImage) : Bool :=
  sha384 i.pubKey = d.life.keyHash && ecdsaVerify p384 i.pubKey (sha384 i.bytes) i.sig = 0 && d.life.minVer ≤ i.version

/-- The flash found at start-up: CS0 of 64 to 256 MiB with readable SFDP tables; CS1 absent, or of up to 256 MiB with CS0's
sector and page sizes (R501, R503). -/
def Dev.flashOk (d : Dev) : Bool :=
  d.flash.sfdp && 16 ≤ d.flash.size0.toNat && d.flash.size0.toNat ≤ 64 &&
  (d.flash.size1 = 0 || (d.flash.match1 && d.flash.size1.toNat ≤ 64))

/-- The first image that passes, in the order that BOOT_SEL gives, and whether it is B (R481). -/
def Dev.pickImage (d : Dev) : Option (FwImage × Bool) :=
  let a := (d.flash.imgA.map (fun i => (i, false))).toList
  let b := (d.flash.imgB.map (fun i => (i, true))).toList
  if d.flashOk then ((if d.board.bootSel then b ++ a else a ++ b).find? (fun e => d.imageOk e.1)) else none

/-- Whether the keystone image is to be loaded: at POR, and at the warm reset after a HALT of cause 0x1B (R479, R480). -/
def Dev.reloads (d : Dev) : Bool := !d.life.warm || d.fc.halt1B

/-- FIRMWARE_IMAGE_VERIFY: the accepted image's SHA-384 becomes the configuration root; with no image, FAULT_N asserts
and start-up stops (R480 step 4, R481). -/
def execFirmwareImageVerify (s : State) : Host.Outcome State Fault Refusal :=
  let d := s.dev
  s.answer (d.bootStep 4 (d.life.boot = .pll && (!d.life.zeroLow || d.life.warm)) (fun d =>
    match d.pickImage with
    | some (i, isB) =>
      { d with
        ks := d.ks.putBytes 0x30 (sha384 i.bytes)
        board := { d.board with img := isB }
        life := { d.life with boot := if d.reloads then .image else .keystone } }
    | none => { d with board := { d.board with fault := true }, life := { d.life with boot := .failed } }))

/-- The keystone after an image has been loaded; the configuration root stays that of the accepted firmware (R437,
R438). -/
def Keystone.load (k : Keystone) (ws : SMem 32) : Keystone :=
  let root := k.bytes 0x30 12
  let k0 : Keystone := { m0 := ws, m1 := ws, m2 := ws, wardReq := k.wardReq }
  k0.putBytes 0x30 root

/-- The start-up that finds no image: BLANK where R440 allows it, else DECOMMISSIONED. -/
def Dev.noImage (d : Dev) : Dev :=
  let again := (match d.flash.life with
    | some r => r.2
    | none => false) && d.life.zcnt < 8 && !d.life.terminal
  { d with
    ks := { d.ks.load [] with zeroized := true }
    flash := { d.flash with image := none }
    life := { d.life with life := if again then 0#3 else 4#3 } }

/-- KEYSTONE_LOAD: the image and the lifecycle record load, or BLANK or DECOMMISSIONED is entered; the terminal fuse
decides before the image is read (R438, R440, R480 step 5). -/
def execKeystoneLoad (s : State) : Host.Outcome State Fault Refusal :=
  let d := s.dev
  s.answer (d.bootStep 5 (d.life.boot = .image) (fun d =>
    let d := { d with life := { d.life with boot := .keystone, reentry := (d.flash.life.map (fun (r : BitVec 3 × Bool) => r.2)).getD false } }
    if d.life.terminal then
      { d with ks := { d.ks.load [] with zeroized := true }, life := { d.life with life := 4#3 } }
    else match d.flash.image with
      | some im =>
        if im.zcnt = d.life.zcnt then
          let k := d.ks.load im.words
          { d with ks := k, life := { d.life with life := (d.flash.life.map (fun (r : BitVec 3 × Bool) => r.1)).getD ((k.word 0x3C).extractLsb' 0 3) } }
        else d.noImage
      | none => d.noImage))

/-! ### Start-up steps 6 to 10 (R458, R480, R482) -/

/-- A pier's memories after the fill: at POR banks and quarry read zero; a warm reset fills the banks alone (R480). -/
def Pier.filledBy (P : Pier) (warm : Bool) : Pier :=
  let Q := P.reinit
  if warm then Q else { Q with mem := { Q.mem with quarry := [], merge := [] } }

/-- PIER_MEMORY_FILL: piers wake in order, within the cap, and fill their memories; a channel that does not train raises
cause 0x16, for either of its pseudo-channels (R17, R447, R470, R480 step 6; a free value, log 2). A pier for which no share is left stays in OFF, its memories reading zero (log 17). -/
def execPierMemoryFill (p : Fin 16) (trained : Bool) (s : State) : Host.Outcome State Fault Refusal :=
  let d := s.dev
  let turn := d.life.boot = .keystone && !(d.pier p).pw.filled &&
    (List.finRange 16).all (fun q => p ≤ q || (d.pier q).pw.filled)
  s.answer (d.bootStep 6 turn (fun d =>
    let P := d.pier p
    let base := 96 + ((d.piers.toList.take p.val).map (fun P => P.pw.shares)).sum
    let f := if d.cap < base then none else fitFreq (d.cap - base) 0 4 16
    let Q := P.filledBy d.life.warm
    let train := if d.life.warm then P.mem.trained else trained
    match f with
    | none => d.setPier p { Q with pw := { ({} : PierPower) with filled := true, since := d.now } }
    | some f =>
      let pw : PierPower :=
        { st := .idle, freq := f, shares := sharesAt f, since := d.now, lastRun := d.now, filled := true }
      let Q := { Q with mem := { Q.mem with trained := train, selfRefresh := !train }, pw := pw }
      let d := { d.setPier p Q with pw := { d.pw with lastStart := some d.now } }
      if train || d.life.warm then d
      else d.used.detected (mkDetection 0x16 p.val (hbmPseudo p (d.free 1).toNat) 0)))

/-- The warden's SRAM after the boot ROM has copied itself and loaded the Evoari image above: the image's body in dense
packing (R482, log 6). -/
def loadEvoari (body : List Byte) : SMem 43 :=
  (((List.range 65536).map (fun i => (i, eccEncode (Config.bootRom i)))).filter (fun e => e.2 ≠ 0)) ++
  ((((denseIn body).take (0x100000 - 65536)).zipIdx.map (fun e => (65536 + e.2, eccEncode e.1))).filter (fun e => e.2 ≠ 0))

/-- The image that runs (SB_STRAP.IMG). -/
def Dev.runImage (d : Dev) : Option FwImage := if d.board.img then d.flash.imgB else d.flash.imgA

/-- EVOARI_START: SRAM is loaded, REMAP set, and the warden runs Evoari from an entry that the spec does not give, a free
value; the configuration space is ready (R480 step 7, R482, R483, log 2). -/
def execEvoariStart (s : State) : Host.Outcome State Fault Refusal :=
  let d := s.dev
  s.answer (d.bootStep 7 (d.life.boot = .keystone && (List.finRange 16).all (fun q => (d.pier q).pw.filled)) (fun d =>
    Dev.used { d with
      warden := { d.warden with
        sram := loadEvoari ((d.runImage.map FwImage.body).getD [])
        core := { d.warden.core with pc := d.free 36 } }
      host := { d.host with cfgReady := true }
      life := { d.life with boot := .evoari, remap := true } }))

/-- The frames and banks that the fault log names, retired again on a pier (R285, R458). -/
def Dev.reapply (d : Dev) (p : Fin 16) (P : Pier) : Pier :=
  let frames := (d.flash.retired.filter (fun e => e.1 = p)).map (·.2)
  let bits := (d.flash.retiredBanks.filter (fun e => e.1 = p)).foldl (fun n e => n ||| 2 ^ e.2.val) 0
  bankRetireWrite { P with mem := { P.mem with frames := frames } } d.now (BitVec.ofNat 32 bits)

/-- The resident course set in a pier's device tables (R88, R480 step 8). -/
def residentSet (P : Pier) : Pier :=
  Config.residentCourses.foldl (fun P c => putCourse 64 (c.1 % 64) c.2 P) (clearCourses 64 P)

/-- DEVICE_TABLES_WRITTEN: course sets, retirements, and at POR the directory replicas from the key store log and the
partitions with their stage-2 tables (R305, R396, R401, R434, R458, R480 step 8). After a warm reset that keeps the chains,
step 9 is passed over. -/
def execDeviceTablesWritten (s : State) : Host.Outcome State Fault Refusal :=
  let d := s.dev
  s.answer (d.bootStep 8 (d.life.boot = .evoari) (fun d =>
    let d := { d with life := { d.life with boot := if d.reloads then .tables else .seals }, parts := d.flash.parts }
    let kek := d.ks.bytes 0 8
    let d := d.keyUse 0 8
    (List.finRange 16).foldl (fun d p =>
      let d := d.onPier p (fun P => d.reapply p (residentSet P))
      let d := if d.life.warm then d
        else (d.parts.foldl (fun d q => if d.setter.part[q.part].piers.getLsbD p.val then d.buildNew q p else d) d).onPier p (fun P =>
          d.flash.keys.foldl (fun P e => writeEntry kek e P) P)
      d.s2Restore p) d))

/-- The valid seal of the highest EPOCH in the slots (R425). -/
def Dev.bestSeal (d : Dev) : Option (List Byte) :=
  let pub := d.identityPub
  let ok := (d.flash.seals.map (·.2)).filter (fun b => sealValid pub b && 1 ≤ sealKind b && sealKind b ≤ 3)
  ok.foldl (fun (best : Option (List Byte)) b =>
    match best with
    | none => some b
    | some x => if sealEpoch x < sealEpoch b then some b else some x) none

/-- Sets every delivered head (R417, R425). -/
def Keystone.setHeads (k : Keystone) (hs : List (Nat × List Byte)) : Keystone :=
  (hs.zipIdx).foldl (fun k h => k.setHead h.2 h.1.1 h.1.2) k

/-- START, the first record of chain 16 after a start-up (R415). -/
def Dev.startRecord (d : Dev) (bytes : List Byte) : Dev :=
  d.append16 { kind := 1, opc := 1, time := d.now, idata := bytes } none

/-- Resumes the chains from the seals: from a final seal directly, else through a gap seal (R425). -/
def Dev.resumeChains (d : Dev) : Dev :=
  let zero : List Byte := List.replicate 16 0
  let highest := (d.flash.seals.map (fun e => sealEpoch e.2)).foldl max 0
  let E : Nat × Nat × List (Nat × List Byte) × List Byte := match d.bestSeal with
    | some b => (sealKind b, sealEpoch b, (List.range 17).map (sealHead b), b)
    | none => (1, highest, List.replicate 17 (0, zero), [])
  if E.1 = 2 then
    let d := { d with
      ks := (d.ks.setHeads E.2.2.1).setEpoch E.2.1
      audit := { d.audit with seals := [⟨E.2.1, 2, E.2.2.2, true, true⟩], lastSeal := d.now } }
    d.startRecord E.2.2.2
  else
    let e := E.2.1 + 40
    let heads := E.2.2.1.zipIdx.map (fun h =>
      (h.1.1 + 2 ^ 28, (hmacSha256 (d.ks.chainKey h.2) (bytesOf [0x47, 0x41, 0x50] ++ leBytes 8 e ++ h.1.2)).take 16))
    let b := d.sealBytes 3 e E.2.1 heads
    let d := { d with
      ks := (d.ks.setHeads heads).setEpoch e
      audit := { d.audit with seals := [⟨e, 3, b, true, false⟩], lastSeal := d.now } }
    (d.append16 { kind := 1, opc := 2, time := d.now, idata := b } none).startRecord b

/-- SEALS_PROCESSED: the chains resume (R425, R480 step 9); without an identity there are none (R436). -/
def execSealsProcessed (s : State) : Host.Outcome State Fault Refusal :=
  let d := s.dev
  s.answer (d.bootStep 9 (d.life.boot = .tables) (fun d =>
    let d := { d with life := { d.life with boot := .seals } }
    if d.hasIdentity then d.resumeChains else d))

/-- READY_ASSERT: AU0 is loaded and each pier's core released, READY asserts and the operating state leaves START-UP
(R181, R428, R480 step 10). -/
def execReadyAssert (s : State) : Host.Outcome State Fault Refusal :=
  let d := s.dev
  s.answer (d.bootStep 10 (d.life.boot = .seals) (fun d =>
    let d := (List.finRange 16).foldl (fun d p =>
      let d := d.onPier p (fun P => { P with runs := { P.runs with au0 := d.au0For p } })
      if d.mayRelease p then d.onPier p (fun P => P.release d.now) else d) d
    let d := if d.life.life = 3#3 then { d with life := { d.life with op := .recovery } } else d.enterService
    { d with
      board := { d.board with ready := true }
      fc := { d.fc with halt1B := false }
      life := { d.life with boot := .ready, warm := false } }))

/-! ### Frontage warm reset (R477 to R479) -/

/-- A function after a frontage warm reset: ring slots, doorbell page, MSI-X table and PBA as after an FLR, FR_VFCFG at its
reset value; the configuration space stays (R477). -/
def Func.warmReset (F : Func) : Func :=
  { ({} : Func) with msixEn := F.msixEn, fmask := F.fmask, relaxed := F.relaxed, memSpace := F.memSpace, bars := F.bars,
                     mps := F.mps, mrrs := F.mrrs, busMaster := F.busMaster, d3 := F.d3, aer := F.aer }

/-- A pier after the per-pier reset of a frontage warm reset: an OFF pier stays in OFF; another one runs at 0.4 GHz (R466,
R477). -/
def Pier.warmReset (P : Pier) (now : Nat) : Pier :=
  let Q := P.reinit
  { Q with
    pw := if P.pw.st = .off then { since := now } else { st := .idle, freq := 4, shares := 8, since := now, lastRun := now }
    mem := { Q.mem with selfRefresh := !P.mem.trained }
    detq := [] }

/-- The keystone across a frontage warm reset: pending components are lost; after a HALT of cause 0x1B every copy of every
word is cleared (R435, R438). -/
def Keystone.warmReset (k : Keystone) (clear : Bool) : Keystone :=
  if clear then { wardReq := k.wardReq }
  else
    let k := k.putWords 0x340 (List.replicate 64 0)
    { k with pend := [] }

/-- The frontage and every pier reinitialised (R9, R27, R450, R454, R477, R479). -/
def Dev.warmReset (d : Dev) : Dev :=
  let r := State.reset.dev
  { d with
    piers := d.piers.map (fun P => P.warmReset d.now)
    warden := { d.warden with core := {} }
    host := { d.host with fns := d.host.fns.map Func.warmReset, rrFn := 0, rrSlot := [] }
    items := [], sessions := [], changes := []
    setter := { r.setter with leaves := d.setter.leaves }
    audit := { r.audit with lastSeal := d.audit.lastSeal, cal := d.audit.cal, eseq := d.audit.eseq, drop := d.audit.drop,
                            full := d.audit.full }
    ks := d.ks.warmReset d.fc.halt1B
    fc := { r.fc with prec := d.fc.prec, drec := d.fc.drec, halt1B := d.fc.halt1B, telemAt := d.now }
    pw := { r.pw with scap := d.pw.scap }
    board := { d.board with fault := false, ready := false, err := false, alert := d.board.alert || d.fc.halt || d.fc.hold }
    life := { d.life with op := .startUp, boot := .released, warm := true, remap := false, frErr := false, testWait := none,
                          destroying := none } }

/-- FR_RESET: KEY 0xA55A with WARM starts a frontage warm reset, after an epoch seal is formed and persisted unless a HALT
of cause 0x19 or 0x1B stands; another KEY sets CFG_ERR (R478, R479). -/
def Dev.frResetWrite (d : Dev) (v : DW) : Dev :=
  if !v.getLsbD 0 then d
  else if v.extractLsb' 16 16 ≠ 0xA55A#16 then { d with life := { d.life with frErr := true } }
  else if d.life.pf ≠ .none || d.life.zero ≠ .none || !d.evoariRuns then d
  else
    let d := if d.fc.haltHard || !d.hasIdentity || !d.chainsUp then d
      else
        let d := d.formSeal true
        { d with flash := (d.audit.seals.getLast?.map (fun x => d.flash.putSeal x.bytes)).getD d.flash }
    d.warmReset

/-- FR_RESET_WARM (R478, R479). -/
def execFrResetWarm (v : DW) (s : State) : Host.Outcome State Fault Refusal := s.answer (s.dev.frResetWrite v)

end Sys2Proof.Machine
end

