-- ==== Sys2Proof/Machine/ItemOps.lean ====
section
/-! DEFINITION. What every resident operation shares: the check order of R380, keys, the deterministic fill, and how an
item leaves its pier or the warden (R378 to R383, R400). -/

namespace Sys2Proof.Machine

open Sys2Proof

/-! ### Items -/

/-- Input bytes that an entry announces (R338). -/
def Item.inLen (i : Item) : Nat := (i.inSegs.map (·.2)).sum

/-- Bytes of an item's output buffer (R338). -/
def Item.room (i : Item) : Nat := (i.outSegs.map (·.2)).sum

/-- PARAM as 16 bytes (R379). -/
def Item.paramBytes (i : Item) : List Byte := (List.range 4).flatMap (fun k => leBytes 4 (i.dw (12 + k)).toNat)

/-- Input packing PKI and output packing PKO (R37). -/
def Item.pki (i : Item) : Nat := entryPki i.dws
/-- PKO. -/
def Item.pko (i : Item) : Nat := entryPko i.dws

/-- The input that the hod fetches: the announced bytes, or the status of a ticket that ends with cause 0x20, 0x21 or 0x22
(R350, R380 order 5). An item without input fetches nothing. -/
def Item.fetch (i : Item) (inp : Fetched) : Except Nat (List Byte) :=
  if i.inLen = 0 then .ok []
  else match inp with
    | .data bs => .ok (fitBytes i.inLen bs)
    | .err _ => .error 0x20
    | .translation => .error 0x21
    | .badData => .error 0x22

/-- The reads of an item's input leave the device with the requester ID of its function (R325). -/
def Dev.fetchInput (d : Dev) (i : Item) : Dev := if i.inLen = 0 then d else d.readSegs i.fn i.inSegs

/-- How an operation ends: STATUS, RESULT, output bytes, RDATA (R340, R341). -/
structure Verdict where
  status : Nat
  result : Nat := 0
  out    : List Byte := []
  d6     : Nat := 0
  d7     : Nat := 0
deriving DecidableEq, Repr

/-- OK with an output. -/
def Verdict.ok (out : List Byte) : Verdict := { status := 0, out := out }

/-- VERIFY_FAIL with a result code (R381). -/
def Verdict.verifyFail (r : Nat) : Verdict := { status := 0x01, result := r }

/-- BAD_DESCRIPTOR with a result code. -/
def Verdict.bad (r : Nat) : Verdict := { status := 0x10, result := r }

/-- A verification's verdict from its result code, 0 meaning valid (R386). -/
def Verdict.ofCode (r : Nat) : Verdict := if r = 0 then .ok [] else .verifyFail r

/-- LENGTH. -/
def Verdict.length : Verdict := { status := 0x17 }

/-- KEY_HANDLE for reasons 1 and 2, KEY_USAGE for reasons 3 to 8 (R380). -/
def Verdict.key (reason plus : Nat) : Verdict := { status := if reason ≤ 2 then 0x15 else 0x16, result := reason + plus }

/-- An item with a verdict. -/
def Item.withVerdict (i : Item) (v : Verdict) (inBytes : List Byte) : Item :=
  { i with status := BitVec.ofNat 8 v.status, result := BitVec.ofNat 8 v.result, output := v.out, outLen := v.out.length,
           rdata6 := BitVec.ofNat 32 v.d6, rdata7 := BitVec.ofNat 32 v.d7, inBytes := inBytes }

/-! ### Keys (R159, R380, R400) -/

/-- What an operation needs of a key: its handle, the usage bits, the algorithms. -/
structure KeyNeed where
  handle : Nat
  usage  : Nat
  alg    : Nat → Bool

/-- The reason that refuses an entry, 1 to 6; 0 where none does (R159, R400). -/
def keyReason (d : Dev) (i : Item) (n : KeyNeed) (e : KeyEntry) : Nat :=
  let r := entryReason ⟨i.part.map (fun q => BitVec.ofNat 6 q.val), d.calendar, BitVec.ofNat 36 n.usage⟩ e
  if r ≠ 0 then r else if n.alg e.alg.toNat then 0 else 6

/-- Reads and checks the keys of an item on its pier, KH1 before KH2, each by the reasons of R159 in their order and then its blob;
an entry that reads as rubble gives DATA_ERROR (R164, R380). `plus` is added to the reason of KH2. -/
def Dev.pierKeys (d : Dev) (p : Fin 16) (i : Item) : Nat → List KeyNeed → Except Verdict (List KeyEntry) × Dev
  | _, [] => (.ok [], d)
  | plus, n :: ns =>
    if n.handle = 0 then (.error (.key 1 plus), d)
    else match readHead d.ks.kek n.handle (d.pier p) with
      | (none, P) => (.error { status := 0x22 }, d.setPier p P)
      | (some x, P) =>
        let r := keyReason d i n x.entry
        if r ≠ 0 then (.error (.key r plus), d.setPier p P)
        else if d.ks.kek.isNone then (.error (.key 8 plus), d.setPier p P)
        else match readBody x P with
          | (.rubble, P) => (.error { status := 0x22 }, d.setPier p P)
          | (.entry e, P) =>
            match Dev.pierKeys (d.setPier p P) p i (plus + 0x10) ns with
            | (.ok es, d) => (.ok (e :: es), d)
            | (.error v, d) => (.error v, d)

/-- The entry of a handle in the key store log; a handle without one is FREE (R396, R401). -/
def Dev.entryOf (d : Dev) (h : Nat) : Option KeyEntry := d.flash.keys.find? (fun e => e.handle = h)

/-- Checks a key of a warden item (R380). -/
def Dev.wardenKey (d : Dev) (i : Item) (plus : Nat) (n : KeyNeed) : Except Verdict KeyEntry :=
  match d.entryOf n.handle with
  | none => .error (.key 1 plus)
  | some e =>
    if n.handle = 0 then .error (.key 1 plus)
    else
      let r := keyReason d i n e
      if r ≠ 0 then .error (.key r plus) else if d.ks.zeroized then .error (.key 8 plus) else .ok e

/-! ### The deterministic fill (R383) -/

/-- What DF is computed over: opcode, handles with versions, PARAM and input. -/
def dfMessage (i : Item) (vs : List Nat) (input : List Byte) : List Byte :=
  bytesOf [i.opc] ++ leBytes 3 i.kh1 ++ bytesOf [vs.getD 0 0] ++ leBytes 3 i.kh2 ++ bytesOf [vs.getD 1 0] ++ i.paramBytes ++ input

/-- The first `n` bytes of DF for a partition: the HMAC-SHA-256 stream in counter mode under the partition's fill key, whose
derivation and counter encoding the spec leaves open. -/
def dfBytes (kek : List Byte) (part : Nat) (msg : List Byte) (n : Nat) : List Byte :=
  ((List.range (n / 32 + 1)).flatMap (fun k => hmacSha256 (Config.fillKey kek part) (Config.dfInput k msg))).take n

/-! ### Operations on a pier (R19, R380) -/

/-- What an operation works on. -/
structure OpIn where
  item  : Item
  keys  : List KeyEntry
  kek   : List Byte
  input : List Byte

/-- DF of an operation (R383). -/
def OpIn.df (x : OpIn) (n : Nat) : List Byte :=
  dfBytes x.kek ((x.item.part.map (·.val)).getD 64) (dfMessage x.item (x.keys.map (fun e => e.version.toNat)) x.input) n

/-- The first or second key of an operation. -/
def OpIn.key (x : OpIn) (k : Nat) : KeyEntry := x.keys.getD k (parseEntry 0 [])

/-- The key bytes of the first or second key, a symmetric one (R396). -/
def OpIn.sym (x : OpIn) (k : Nat) : List Byte := symKey x.kek (x.key k)

/-- An operation: its PARAM check, its keys, the lengths that depend on keys with the output size, and what it computes
(R380 orders 1 to 4 and 6). -/
structure OpDef where
  param : Item → Option Nat
  needs : Item → List KeyNeed
  lens  : Item → List KeyEntry → Bool
  run   : OpIn → Verdict

/-- Whether firmware runs on a pier and may launch runs: not on a quarantined pier, whose items are lost (R23, R423, R439). -/
def Dev.pierServes (d : Dev) (p : Fin 16) : Bool :=
  (d.pier p).awake && (d.pier p).core.run = .running && !d.fc.quar.getLsbD p.val && !d.fc.inReset.getLsbD p.val && d.life.pf = .none && d.life.zero = .none

/-- An item on a pier with an opcode, whose batch runs there, starting the pier's oldest batch where none runs (R365). -/
def Dev.pierItem (d : Dev) (it opc : Nat) : Option (Item × Fin 16 × Dev) :=
  match d.item? it with
  | none => none
  | some i =>
    match i.stage with
    | .pier p =>
      if i.opc ≠ opc || !d.pierServes p then none
      else
        let d := d.startBatch p
        if (d.runningOn p).any (fun b => b.items.contains it) then some (i, p, d) else none
    | _ => none

/-- An item's work on its pier ends with a verdict; its results are written next (R19). -/
def Dev.finishPier (d : Dev) (i : Item) (p : Fin 16) (v : Verdict) (inBytes : List Byte) : Dev :=
  d.onItem i.id (fun _ => { i.withVerdict v inBytes with stage := .result ⟨p.val, by omega⟩ })

/-- An operation on a pier, by the check order of R380. -/
def Dev.pierOp (d : Dev) (it opc : Nat) (inp : Fetched) (o : OpDef) : Dev :=
  match d.pierItem it opc with
  | none => d
  | some (i, p, d) =>
    match o.param i with
    | some r => d.finishPier i p (.bad r) []
    | none =>
      match d.pierKeys p i 0 (o.needs i) with
      | (.error v, d) => d.finishPier i p v []
      | (.ok es, d) =>
        if !o.lens i es then d.finishPier i p .length []
        else
          let d := d.fetchInput i
          match i.fetch inp with
          | .error c => d.finishPier i p { status := c } []
          | .ok bs => d.finishPier i p (o.run ⟨i, es, (d.ks.kek).getD [], bs⟩) bs

/-! ### Operations on the warden (R378, R380) -/

/-- Whether the warden serves items (R423, R439, R452, R480). -/
def Dev.wardenServes (d : Dev) : Bool :=
  d.evoariRuns && d.life.pf = .none && d.life.zero = .none && !d.fc.halt

/-- Whether an item is with the warden: new, or waiting for something to end (R433, R434, R443). -/
def Item.atWarden (i : Item) : Bool := i.stage = .warden || i.stage = .stateWait || i.stage = .destroyWait

/-- An item with an opcode that the warden may serve now. -/
def Dev.wardenItem (d : Dev) (it opc : Nat) : Option Item :=
  (d.item? it).filter (fun i => i.atWarden && i.opc = opc && d.wardenServes)

/-- A warden item ends: its results are written, or wait where they cannot leave the device, and its record goes on chain 16
(R20, R378). -/
def Dev.finishWarden (d : Dev) (i : Item) (v : Verdict) (inBytes : List Byte) : Dev :=
  d.passResults (i.withVerdict v inBytes) 16

/-- Keystone words that the operations of a class work with: the device KEK and the ward's keys for key and ward operations, and
the identity and chain root for AUDIT_ATTEST and the ward (R403, R426, R441; R438). -/
def Dev.opKeys (d : Dev) (opc : Nat) : Dev :=
  let d := if 0x50 ≤ opc && opc ≤ 0x58 then d.keyUse 0 8 else d
  let d := if 0x88 ≤ opc || opc = 0x7E then d.keyUse 8 0x14 else d
  if 0x88 ≤ opc then (d.keyUse 0x20 11).keyUse 0x380 12 else d

/-- A warden operation: PARAM, then input, then what `f` does with both (R380 orders 1, 5 and 6). `early` is the verdict of
the checks before the fetch. -/
def Dev.wardenOp (d : Dev) (it opc : Nat) (inp : Fetched) (early : Dev → Item → Option Verdict)
    (f : Dev → Item → List Byte → Dev) : Dev :=
  match d.wardenItem it opc with
  | none => d
  | some i =>
    match early d i with
    | some v => d.finishWarden i v []
    | none =>
      let d := d.fetchInput i
      match i.fetch inp with
      | .error c => d.finishWarden i { status := c } []
      | .ok bs => f (d.opKeys opc) i bs

end Sys2Proof.Machine
end

