-- ==== Sys2Proof/Machine/SignOps.lean ====
section
/-! DEFINITION. ECHO and the signature operations (R384 to R386, R392). -/

namespace Sys2Proof.Machine

open Sys2Proof

/-! ### ECHO (R378, R392) -/

/-- ECHO's packing rule (R392). -/
def echoParam (i : Item) : Option Nat := if i.pki = i.pko then none else some 0x02

/-- ECHO on a pier. -/
def echoDef : OpDef where
  param := echoParam
  needs := fun _ => []
  lens := fun i _ => i.inLen ≤ i.room
  run := fun x => .ok x.input

/-- ECHO: on the pier of a VF with a partition, on the warden otherwise (R378, R392). -/
def execEcho (it : Nat) (inp : Fetched) (s : State) : Host.Outcome State Fault Refusal :=
  let d := s.dev
  s.answer (match d.wardenItem it 0x01 with
    | some _ => d.wardenOp it 0x01 inp
        (fun _ i => (echoParam i).map Verdict.bad <|> if i.room < i.inLen then some .length else none)
        (fun d i bs => d.finishWarden i (.ok bs) bs)
    | none => d.pierOp it 0x01 inp echoDef)

/-! ### Parameters (R379, R384) -/

/-- ALGV, HSEL, DALG and SLEN. -/
def Item.algv (i : Item) : Nat := i.bits 12 3 0
/-- HSEL. -/
def Item.hsel (i : Item) : Nat := i.bits 12 7 4
/-- DALG. -/
def Item.dalg (i : Item) : Nat := i.bits 12 11 8
/-- SLEN. -/
def Item.slen (i : Item) : Nat := i.bits 13 7 0

/-- The packing rule of R379 for the operations on a pier. -/
def plainOnly (i : Item) : Option Nat := if i.pki = 0 && i.pko = 0 then none else some 0x02

/-- The first failing PARAM check, then the packing rule (R379, R380). -/
def paramChecks (i : Item) (cs : List (Bool × Nat)) : Option Nat :=
  ((cs.find? (fun c => c.1)).map (·.2)) <|> plainOnly i

/-- The PARAM check of the signature opcodes (R384). -/
def signParam (i : Item) : Option Nat :=
  let o := i.opc
  let family := if o ≤ 0x11 then i.algv = 1 || i.algv = 2 else if o ≤ 0x13 then i.algv = 3 else i.algv = 4 || i.algv = 5
  let ed := o = 0x12 || o = 0x13
  paramChecks i
    [(!family, 0x01), (if ed then i.hsel ≠ 0 else 1 < i.hsel, 0x02),
     (if ed then i.dalg ≠ 0 else i.dalg = 0 || 4 < i.dalg || (i.dalg = 4 && i.hsel = 1), 0x03),
     (i.algv = 5 && 64 < i.slen, 0x04)]

/-- Algorithms that match ALGV: pairs, and for verification public keys too (R397, R400). -/
def algvKey (algv : Nat) (verify : Bool) (a : Nat) : Bool :=
  let pair := match algv with
    | 1 => 0x10
    | 2 => 0x12
    | 3 => 0x14
    | _ => 0x18
  a = pair || (verify && a = pair + 1)

/-- KH1 of a signature opcode (R400). -/
def signNeed (verify : Bool) (i : Item) : List KeyNeed :=
  [⟨i.kh1, if verify then 2 ^ 4 else 2 ^ 3, algvKey i.algv verify⟩]

/-- The digest that is signed: given, or made from the message (R384). -/
def signDigest (i : Item) (m : List Byte) : List Byte := if i.hsel = 1 then dalgHash i.dalg m else m

/-- Signature bytes of ALGV under a key (R384). -/
def sigLen (i : Item) (e : KeyEntry) : Nat :=
  match i.algv with
  | 1 => 64
  | 2 => 96
  | 3 => 64
  | _ => 4 * e.size.toNat

/-- Whether the length of the signed data is right (R384). -/
def dataOk (i : Item) (n : Nat) : Bool :=
  if i.algv = 3 then true else if i.hsel = 1 then 1 ≤ n && n ≤ 65536 else n = dalgLen i.dalg

/-- Lengths of a SIGN opcode. -/
def signLens (i : Item) (es : List KeyEntry) : Bool :=
  let n := (es.head?.map (sigLen i)).getD 0
  dataOk i i.inLen && n ≤ i.room

/-- Lengths of a VERIFY opcode. -/
def verifyLens (i : Item) (es : List KeyEntry) : Bool :=
  let n := (es.head?.map (sigLen i)).getD 0
  n ≤ i.inLen && dataOk i (i.inLen - n)

/-- The curve of an ECDSA algorithm. -/
def curveOf (algv : Nat) : Curve := if algv = 1 then p256 else p384

/-! ### RSA keys (R396) -/

/-- n and e of an RSA entry (R396). -/
def rsaPublic (e : KeyEntry) : Nat × Nat :=
  let l := 4 * e.size.toNat
  (beNat (e.pub.take l), beNat (e.pub.drop l))

/-- The five CRT parts of an RSA secret, k = 0 to 4: p, q, dP, dQ, qInv (R396). -/
def rsaPart (sec : List Byte) (l k : Nat) : Nat := beNat ((sec.drop (l + k * (l / 2))).take (l / 2))

/-- The encoded message of an RSA signature (R384, R385). -/
def rsaEncode (x : OpIn) (n l : Nat) (digest : List Byte) : Nat :=
  beNat (if x.item.algv = 5 then pssEncode n.log2 x.item.dalg digest (x.df x.item.slen) else pkcs1Encode l x.item.dalg digest)

/-- The RSA signature, and whether it verifies with the public exponent (R385). -/
def rsaSign (x : OpIn) : List Byte × Bool :=
  let e := x.key 0
  let l := 4 * e.size.toNat
  let pk := rsaPublic e
  let sec := asymSecret x.kek e
  let m := rsaEncode x pk.1 l (signDigest x.item x.input)
  let sig := rsaCrt (rsaPart sec l 0) (rsaPart sec l 1) (rsaPart sec l 2) (rsaPart sec l 3) (rsaPart sec l 4) m
  (beBytes l sig, powMod sig pk.2 pk.1 = m % pk.1)

/-! ### The operations -/

/-- The SIGN operations: the signature as output; an RSA signature that fails its self-check is DATA_ERROR with RESULT
0x01 (R384, R385). -/
def signRun (x : OpIn) : Verdict :=
  match x.item.algv with
  | 3 => .ok (edSign (asymSecret x.kek (x.key 0)) x.input)
  | 1 => .ok (ecdsaSign p256 (beNat (asymSecret x.kek (x.key 0))) (signDigest x.item x.input))
  | 2 => .ok (ecdsaSign p384 (beNat (asymSecret x.kek (x.key 0))) (signDigest x.item x.input))
  | _ => let r := rsaSign x; if r.2 then .ok r.1 else { status := 0x22, result := 0x01 }

/-- The VERIFY operations (R384, R386). -/
def verifyRun (x : OpIn) : Verdict :=
  let e := x.key 0
  let n := sigLen x.item e
  let m := x.input.take (x.input.length - n)
  let sig := x.input.drop (x.input.length - n)
  .ofCode (match x.item.algv with
    | 3 => edVerify e.pub m sig
    | 1 => ecdsaVerify p256 e.pub (signDigest x.item m) sig
    | 2 => ecdsaVerify p384 e.pub (signDigest x.item m) sig
    | _ =>
      let pk := rsaPublic e
      rsaVerify pk.1 pk.2 (x.item.algv = 5) x.item.dalg x.item.slen (signDigest x.item m) sig)

/-- A SIGN opcode. -/
def signDef : OpDef where
  param := signParam
  needs := signNeed false
  lens := signLens
  run := signRun

/-- A VERIFY opcode. -/
def verifyDef : OpDef where
  param := signParam
  needs := signNeed true
  lens := verifyLens
  run := verifyRun

/-- SIGN_ECDSA (R384, R385). -/
def execSignEcdsa (it : Nat) (inp : Fetched) (s : State) : Host.Outcome State Fault Refusal :=
  s.answer (s.dev.pierOp it 0x10 inp signDef)

/-- VERIFY_ECDSA (R384, R386). -/
def execVerifyEcdsa (it : Nat) (inp : Fetched) (s : State) : Host.Outcome State Fault Refusal :=
  s.answer (s.dev.pierOp it 0x11 inp verifyDef)

/-- SIGN_EDDSA (R384, R385). -/
def execSignEddsa (it : Nat) (inp : Fetched) (s : State) : Host.Outcome State Fault Refusal :=
  s.answer (s.dev.pierOp it 0x12 inp signDef)

/-- VERIFY_EDDSA (R384, R386). -/
def execVerifyEddsa (it : Nat) (inp : Fetched) (s : State) : Host.Outcome State Fault Refusal :=
  s.answer (s.dev.pierOp it 0x13 inp verifyDef)

/-- The NOTICE of a signature that failed its self-check (R385, R447 cause 0x11). -/
def Dev.selfCheckNotice (d : Dev) (it : Nat) : Dev :=
  match d.item? it with
  | some i =>
    (match i.stage with
     | .result c =>
       if h : c.val < 16 then
         (if i.status = 0x22#8 && i.result = 0x01#8 then d.onPier ⟨c.val, h⟩ (fun P => P.detect 0x11 i.kh1 0) else d)
       else d
     | _ => d)
  | none => d

/-- SIGN_RSA, with its self-check (R384, R385). -/
def execSignRsa (it : Nat) (inp : Fetched) (s : State) : Host.Outcome State Fault Refusal :=
  match s.dev.pierItem it 0x14 with
  | some _ => s.answer ((s.dev.pierOp it 0x14 inp signDef).selfCheckNotice it)
  | none => s.answer s.dev

/-- VERIFY_RSA (R384, R386). -/
def execVerifyRsa (it : Nat) (inp : Fetched) (s : State) : Host.Outcome State Fault Refusal :=
  s.answer (s.dev.pierOp it 0x15 inp verifyDef)

end Sys2Proof.Machine
end

