-- ==== Sys2Proof/Machine/PayOps.lean ====
section
/-! DEFINITION. PIN translation, MACs, EMV cryptograms and digests (R387 to R391). DUKPT, the ISO 9564 formats and the EMV
derivations are those of the standards that the spec names (PRESUMED, log 10). -/

namespace Sys2Proof.Machine

open Sys2Proof

/-! ### DUKPT (R387; ANSI X9.24-3) -/

/-- The variant mask of TDES DUKPT, over as many bytes as a key has. -/
def dukptMask (n : Nat) : List Byte := (List.range n).map (fun i => if i % 8 < 4 then 0xC0#8 else 0#8)

/-- The initial key of a TDES BDK for a KSN, whose low 21 bits count transactions. -/
def tdesInitialKey (bdk : List Byte) (ksn : Nat) : List Byte :=
  let blk := (beBytes 10 (ksn / 2 ^ 21 * 2 ^ 21)).take 8
  tdesEnc bdk blk ++ tdesEnc (xorBytes bdk (dukptMask bdk.length)) blk

/-- The non-reversible key generation of TDES DUKPT: half of the new key from a half-key pair and the register. -/
def dukptHalf (key r : List Byte) : List Byte :=
  xorBytes (desEnc (key.take 8) (xorBytes r (key.drop 8))) (key.drop 8)

/-- One step of TDES DUKPT: the new key for a register value. -/
def dukptStep (key : List Byte) (r : Nat) : List Byte :=
  let rb := beBytes 8 r
  dukptHalf (xorBytes key (dukptMask 16)) rb ++ dukptHalf key rb

/-- The key after the counter bits below `k`, the highest first. -/
def dukptWalk (ksn base : Nat) : Nat → Nat → List Byte → List Byte
  | 0, _, key => key
  | k + 1, r, key =>
    if (ksn / 2 ^ k) % 2 = 1 then dukptWalk ksn base k (r + 2 ^ k) (dukptStep key (r + 2 ^ k))
    else dukptWalk ksn base k r key

/-- The PIN key of a TDES BDK for a 10-byte KSN. -/
def tdesDukptPin (bdk ksnBytes : List Byte) : List Byte :=
  let ksn := beNat ksnBytes
  let r0 := ksn % 2 ^ 64 / 2 ^ 21 * 2 ^ 21
  let key := dukptWalk ksn r0 21 r0 (tdesInitialKey bdk ksn)
  xorBytes key ((List.replicate 7 0#8 ++ [0xFF#8]) ++ (List.replicate 7 0#8 ++ [0xFF#8]))

/-- The algorithm indicator and length in bits of an AES key of `n` bytes in AES DUKPT. -/
def aesDukptType (n : Nat) : Nat := if n = 16 then 2 else if n = 24 then 3 else 4

/-- AES DUKPT key derivation: `n` bytes under a key, for a usage indicator and the last 8 bytes of derivation data. -/
def aesDukptDerive (key : List Byte) (usage n : Nat) (tail : List Byte) : List Byte :=
  ((List.range ((n + 15) / 16)).flatMap (fun b =>
    aesEnc (aesKeys key) (bytesOf [1, b + 1] ++ beBytes 2 usage ++ beBytes 2 (aesDukptType n) ++ beBytes 2 (8 * n) ++ tail))).take n

/-- The initial key of an AES BDK for an 8-byte initial key ID, of `n` bytes. -/
def aesInitialKey (bdk ikid : List Byte) (n : Nat) : List Byte := aesDukptDerive bdk 0x8001 n ikid

/-- The derivation key after the counter bits below `k`, the highest first. -/
def aesDukptWalk (ikid : List Byte) (n ctr : Nat) : Nat → Nat → List Byte → List Byte
  | 0, _, key => key
  | k + 1, w, key =>
    if (ctr / 2 ^ k) % 2 = 1 then
      aesDukptWalk ikid n ctr k (w + 2 ^ k) (aesDukptDerive key 0x8000 n (ikid.drop 4 ++ beBytes 4 (w + 2 ^ k)))
    else aesDukptWalk ikid n ctr k w key

/-- The AES-128 PIN encryption key of an AES BDK for a 12-byte KSN (R387). -/
def aesDukptPin (bdk ksn : List Byte) : List Byte :=
  let ikid := ksn.take 8
  let ctr := beNat (ksn.drop 8)
  let key := aesDukptWalk ikid bdk.length ctr 32 0 (aesInitialKey bdk ikid bdk.length)
  aesDukptDerive key 0x1000 16 (ikid.drop 4 ++ beBytes 4 ctr)

/-! ### PIN blocks (R387, R388; ISO 9564) -/

/-- The nibbles of bytes, high nibble first. -/
def nibblesOf (bs : List Byte) : List Nat := bs.flatMap (fun b => [b.toNat / 16, b.toNat % 16])

/-- Bytes of nibbles. -/
def ofNibbles (ns : List Nat) : List Byte := (chunksOf 2 ns).map (fun c => BitVec.ofNat 8 (c.getD 0 0 * 16 + c.getD 1 0))

/-- The PAN field of formats 0 and 3: the 12 rightmost digits without the check digit. -/
def panField8 (pan : List Nat) : List Byte :=
  let ds := pan.dropLast
  let low := ds.drop (ds.length - 12)
  ofNibbles (List.replicate (16 - low.length) 0 ++ low)

/-- The PAN field of format 4. -/
def panField16 (pan : List Nat) : List Byte :=
  let ns := [pan.length - 12] ++ pan
  ofNibbles (ns ++ List.replicate (32 - ns.length) 0)

/-- The PIN in a plain field of `n` leading nibbles, with its control and its fill checked (R388). -/
def pinOf (ctl n : Nat) (fill : Nat → Bool) (ns : List Nat) : Option (List Nat) :=
  let len := ns.getD 1 0
  let pin := (ns.drop 2).take len
  if ns.getD 0 0 = ctl && 4 ≤ len && len ≤ 12 && pin.all (fun x => x ≤ 9) && ((ns.take n).drop (2 + len)).all fill then some pin
  else none

/-- The PIN of an encrypted block of a format, or none where R388 refuses it. -/
def pinDecode (fmt : Nat) (key : List Byte) (pan : List Nat) (blk : List Byte) : Option (List Nat) :=
  match fmt with
  | 0 => pinOf 0 16 (fun x => x = 15) (nibblesOf (xorBytes (tdesDec key blk) (panField8 pan)))
  | 1 => pinOf 1 16 (fun _ => true) (nibblesOf (tdesDec key blk))
  | 3 => pinOf 3 16 (fun x => 10 ≤ x) (nibblesOf (xorBytes (tdesDec key blk) (panField8 pan)))
  | _ =>
    let c := aesCipher key
    pinOf 4 16 (fun x => x = 10) (nibblesOf (c.dec (xorBytes (c.dec blk) (panField16 pan))))

/-- The encrypted block of a PIN in a format, with its random nibbles from DF (R383, R387, log 18). -/
def pinEncode (fmt : Nat) (key : List Byte) (pan pin : List Nat) (df : List Byte) : List Byte :=
  let fill := nibblesOf df
  let head := [fmt, pin.length] ++ pin
  let pad (l : List Nat) : List Nat := (head ++ l).take 16
  match fmt with
  | 0 => tdesEnc key (xorBytes (ofNibbles (pad (List.replicate 16 15))) (panField8 pan))
  | 1 => tdesEnc key (ofNibbles (pad fill))
  | 3 => tdesEnc key (xorBytes (ofNibbles (pad (fill.map (fun x => 10 + x % 6)))) (panField8 pan))
  | _ =>
    let c := aesCipher key
    c.enc (xorBytes (c.enc (ofNibbles (pad (List.replicate 16 10) ++ fill.take 16))) (panField16 pan))

/-- SFMT, DFMT, SKD and PLEN. -/
def Item.sfmt (i : Item) : Nat := i.bits 12 3 0
/-- DFMT. -/
def Item.dfmt (i : Item) : Nat := i.bits 12 7 4
/-- SKD. -/
def Item.skd (i : Item) : Nat := i.bits 12 9 8
/-- PLEN. -/
def Item.plen (i : Item) : Nat := i.bits 12 20 16

/-- A PIN format that the device knows (R387). -/
def pinFmt (f : Nat) : Bool := f = 0 || f = 1 || f = 3 || f = 4

/-- The PARAM check of PIN_TRANSLATE (R387). -/
def pinParam (i : Item) : Option Nat :=
  paramChecks i
    [(!pinFmt i.sfmt || !pinFmt i.dfmt, 0x01), (i.skd = 3, 0x02),
     (if i.sfmt = 1 && i.dfmt = 1 then i.plen ≠ 0 else i.plen < 12 || 19 < i.plen, 0x03)]

/-- The keys of PIN_TRANSLATE (R387, R400). -/
def pinNeeds (i : Item) : List KeyNeed :=
  let fits (f a : Nat) : Bool := if f = 4 then algAes a else algTdes a
  [⟨i.kh1, if i.skd = 0 then 2 ^ 5 else 2 ^ 10,
    fun a => fits i.sfmt a && (i.skd ≠ 1 || algTdes a) && (i.skd ≠ 2 || algAes a)⟩,
   ⟨i.kh2, 2 ^ 5, fits i.dfmt⟩]

/-- The operation of PIN_TRANSLATE (R387, R388). -/
def pinRun (x : OpIn) : Verdict :=
  let i := x.item
  let n := if i.sfmt = 4 then 16 else 8
  let k := if i.skd = 1 then 10 else if i.skd = 2 then 12 else 0
  let blk := x.input.take n
  let ksn := (x.input.drop n).take k
  let pan := (x.input.drop (n + k)).map (fun b => b.toNat % 16)
  let src := if i.skd = 1 then tdesDukptPin (x.sym 0) ksn else if i.skd = 2 then aesDukptPin (x.sym 0) ksn else x.sym 0
  match pinDecode i.sfmt src pan blk with
  | none => .verifyFail 0x11
  | some pin => .ok (pinEncode i.dfmt (x.sym 1) pan pin (x.df 16))

/-- PIN_TRANSLATE (R387, R388). -/
def execPinTranslate (it : Nat) (inp : Fetched) (s : State) : Host.Outcome State Fault Refusal :=
  s.answer (s.dev.pierOp it 0x20 inp
    { param := pinParam, needs := pinNeeds, lens := fun i _ => (if i.dfmt = 4 then 16 else 8) ≤ i.room, run := pinRun })

/-! ### MACs (R389) -/

/-- MALG, PAD and MLEN. -/
def Item.malg (i : Item) : Nat := i.bits 12 3 0
/-- PAD. -/
def Item.mpad (i : Item) : Nat := i.bits 12 5 4
/-- MLEN. -/
def Item.mlen (i : Item) : Nat := i.bits 12 13 8

/-- The PARAM check of the MAC opcodes (R389). -/
def macParam (i : Item) : Option Nat :=
  let a := i.malg
  let top := if a ≤ 2 then 8 else if a = 3 then 16 else 32
  paramChecks i
    [(a = 0 || 4 < a, 0x01), (if a ≤ 2 then i.mpad = 0 || i.mpad = 3 else i.mpad ≠ 0, 0x02), (i.mlen < 4 || top < i.mlen, 0x03)]

/-- The key of the MAC opcodes (R389, R400). -/
def macNeed (i : Item) : List KeyNeed :=
  [⟨i.kh1, 2 ^ 2, fun a => match i.malg with
    | 1 => algTdes a
    | 2 => a = 1
    | 3 => algAes a
    | _ => a = 8⟩]

/-- The MAC of a message (R389). -/
def macOf (x : OpIn) (m : List Byte) : List Byte :=
  (match x.item.malg with
    | 1 => macAlg1 (x.sym 0) x.item.mpad m
    | 2 => macAlg3 (x.sym 0) x.item.mpad m
    | 3 => cmac (aesCipher (x.sym 0)) m
    | _ => hmacSha256 (x.sym 0) m).take x.item.mlen

/-- MAC_GENERATE (R389). -/
def execMacGenerate (it : Nat) (inp : Fetched) (s : State) : Host.Outcome State Fault Refusal :=
  s.answer (s.dev.pierOp it 0x30 inp
    { param := macParam, needs := macNeed, lens := fun i _ => i.mlen ≤ i.room, run := fun x => .ok (macOf x x.input) })

/-- MAC_VERIFY (R389). -/
def execMacVerify (it : Nat) (inp : Fetched) (s : State) : Host.Outcome State Fault Refusal :=
  s.answer (s.dev.pierOp it 0x31 inp
    { param := macParam, needs := macNeed, lens := fun i _ => i.mlen ≤ i.inLen
      run := fun x =>
        let n := x.input.length - x.item.mlen
        .ofCode (if macOf x (x.input.take n) = x.input.drop n then 0 else 0x01) })

/-! ### ARQC (R390; EMV Book 2 A1.3, A1.4, 8.2) -/

/-- CALG, ARPC, PAD, PDLEN and CDLEN. -/
def Item.calg (i : Item) : Nat := i.bits 12 1 0
/-- ARPC. -/
def Item.arpc (i : Item) : Nat := i.bits 12 3 2
/-- PDLEN. -/
def Item.pdlen (i : Item) : Nat := i.bits 12 11 8
/-- CDLEN. -/
def Item.cdlen (i : Item) : Nat := i.bits 13 15 0

/-- The PARAM check of ARQC_VERIFY (R390). -/
def arqcParam (i : Item) : Option Nat :=
  paramChecks i
    [(1 < i.calg, 0x01), (i.arpc = 3, 0x02), (if i.arpc = 2 then 8 < i.pdlen else i.pdlen ≠ 0, 0x03),
     (i.cdlen = 0 || 256 < i.cdlen, 0x04)]

/-- The odd-parity form of a TDES key. -/
def oddParity (k : List Byte) : List Byte :=
  k.map (fun b => let n := b.toNat / 2; BitVec.ofNat 8 (2 * n + (if ((List.range 7).filter (fun j => n / 2 ^ j % 2 = 1)).length % 2 = 0 then 1 else 0)))

/-- Bytes inverted. -/
def notBytes (bs : List Byte) : List Byte := bs.map (fun b => ~~~ b)

/-- The ICC master key by option A of EMV A1.4. -/
def emvMaster (aes : Bool) (imk y : List Byte) : List Byte :=
  if aes then
    let b := List.replicate 8 0#8 ++ y
    (aesEnc (aesKeys imk) b ++ aesEnc (aesKeys imk) (notBytes b)).take imk.length
  else oddParity (tdesEnc imk y ++ tdesEnc imk (notBytes y))

/-- The common session key of EMV A1.3 for an ATC. -/
def emvSession (aes : Bool) (mk atc : List Byte) : List Byte :=
  let r (n x : Nat) : List Byte := fitBytes n (atc ++ [BitVec.ofNat 8 x])
  if aes then
    if mk.length = 16 then aesEnc (aesKeys mk) (r 16 0)
    else (aesEnc (aesKeys mk) (r 16 0xF0) ++ aesEnc (aesKeys mk) (r 16 0x0F)).take mk.length
  else tdesEnc mk (r 8 0xF0) ++ tdesEnc mk (r 8 0x0F)

/-- The 8-byte cryptogram of data under a session key (R390). -/
def emvMac (aes : Bool) (sk : List Byte) (method : Nat) (m : List Byte) : List Byte :=
  if aes then (cmac (aesCipher sk) m).take 8 else macAlg3 sk method m

/-- The ARPC of a verified ARQC (R390). -/
def emvArpc (aes : Bool) (sk arqc : List Byte) (mode : Nat) (extra : List Byte) : List Byte :=
  match mode with
  | 1 =>
    let y := xorBytes arqc (fitBytes 8 extra)
    if aes then (aesEnc (aesKeys sk) (fitBytes 16 y)).take 8 else tdesEnc sk y
  | 2 => (emvMac aes sk 2 (arqc ++ extra)).take 4
  | _ => []

/-- ARPC bytes (R390). -/
def arpcLen (i : Item) : Nat := if i.arpc = 1 then 8 else if i.arpc = 2 then 4 else 0

/-- The operation of ARQC_VERIFY (R390). -/
def arqcRun (x : OpIn) : Verdict :=
  let i := x.item
  let aes := i.calg = 1
  let n := if i.arpc = 1 then 2 else if i.arpc = 2 then 4 + i.pdlen else 0
  let sk := emvSession aes (emvMaster aes (x.sym 0) (x.input.take 8)) ((x.input.drop 8).take 2)
  let arqc := (x.input.drop 10).take 8
  let extra := (x.input.drop 18).take n
  if emvMac aes sk (1 + i.bits 12 4 4) (x.input.drop (18 + n)) = arqc then .ok (emvArpc aes sk arqc i.arpc extra)
  else .verifyFail 0x01

/-- ARQC_VERIFY (R390). -/
def execArqcVerify (it : Nat) (inp : Fetched) (s : State) : Host.Outcome State Fault Refusal :=
  s.answer (s.dev.pierOp it 0x38 inp
    { param := arqcParam
      needs := fun i => [⟨i.kh1, 2 ^ 9, fun a => if i.calg = 0 then a = 1 else algAes a⟩]
      lens := fun i _ => arpcLen i ≤ i.room
      run := arqcRun })

/-! ### HASH (R391) -/

/-- HASH (R391). -/
def execHash (it : Nat) (inp : Fetched) (s : State) : Host.Outcome State Fault Refusal :=
  s.answer (s.dev.pierOp it 0x40 inp
    { param := fun i => paramChecks i [(i.bits 12 3 0 = 0 || 3 < i.bits 12 3 0, 0x01)]
      needs := fun _ => []
      lens := fun i _ => dalgLen (i.bits 12 3 0) ≤ i.room
      run := fun x => .ok (dalgHash (x.item.bits 12 3 0) x.input) })

end Sys2Proof.Machine
end

