-- ==== Sys2Proof/Machine/MsgOps.lean ====
section
/-! DEFINITION. Message translation, LOAD_PROGRAM and DEFINE_COURSE (R89 to R91, R393 to R395, R406, R407, R410, R411). -/

namespace Sys2Proof.Machine

open Sys2Proof

/-! ### Maps (R394) -/

/-- Bits [hi:lo] of a map record. -/
def recBits (x hi lo : Nat) : Nat := x / 2 ^ lo % 2 ^ (hi + 1 - lo)

/-- A rule of a map (R394). -/
structure MapRule where
  sfld   : Nat
  dfld   : Nat
  slt    : Nat
  dlt    : Nat
  scd    : Nat
  dcd    : Nat
  maxlen : Nat
  act    : Nat
  tab    : Option Nat
  dig    : Bool
deriving DecidableEq, Repr

/-- A map (R394). -/
structure MsgMap where
  sver  : Nat
  shex  : Bool
  dhex  : Bool
  rules : List MapRule
  tabs  : List (List Byte)
deriving DecidableEq, Repr

/-- Record `k` of a map's bytes. -/
def mapRecord (bs : List Byte) (k : Nat) : Nat := leNat ((bs.drop (8 * k)).take 8)

/-- A rule from its record (R394). -/
def parseRule (x : Nat) : MapRule :=
  { sfld := recBits x 7 0, dfld := recBits x 15 8, slt := recBits x 18 16, dlt := recBits x 21 19, scd := recBits x 23 22,
    dcd := recBits x 25 24, maxlen := recBits x 35 26, act := recBits x 37 36,
    tab := if recBits x 41 41 = 1 then some (recBits x 40 38) else none, dig := recBits x 42 42 = 1 }

/-- A map from its bytes (R394). -/
def parseMap (bs : List Byte) : MsgMap :=
  let h := mapRecord bs 0
  let n := recBits h 23 16
  { sver := recBits h 9 8, shex := recBits h 12 12 = 1, dhex := recBits h 13 13 = 1,
    rules := (List.range n).map (fun k => parseRule (mapRecord bs (1 + k)))
    tabs := (List.range (recBits h 27 24)).map (fun t => (bs.drop (8 + 8 * n + 256 * t)).take 256) }

/-- A field number that a rule may name (R394). -/
def fieldOk (f : Nat) : Bool := f = 0 || (2 ≤ f && f ≤ 64) || (66 ≤ f && f ≤ 128) || (130 ≤ f && f ≤ 192)

/-- Whether the values of a rule are defined ones (R394, R395). A TAB counts where TABEN is 1. -/
def ruleOk (ntab x : Nat) : Bool :=
  let r := parseRule x
  fieldOk r.sfld && fieldOk r.dfld && r.slt ≤ 5 && r.dlt ≤ 5 && 1 ≤ r.maxlen && r.maxlen ≤ 999 && r.act ≤ 1 &&
  recBits x 63 43 = 0 && !r.tab.any (fun t => ntab ≤ t)

/-- Whether LOAD_PROGRAM accepts a map (R395). -/
def mapOk (bs : List Byte) : Bool :=
  let h := mapRecord bs 0
  let n := recBits h 23 16
  let t := recBits h 27 24
  let rs := (List.range n).map (fun k => parseRule (mapRecord bs (1 + k)))
  8 ≤ bs.length && bs.length = 8 + 8 * n + 256 * t &&
  recBits h 7 0 = 1 && recBits h 9 8 ≠ 3 && recBits h 11 10 ≠ 3 && 1 ≤ n && n ≤ 193 && t ≤ 8 &&
  recBits h 15 14 = 0 && recBits h 63 28 = 0 &&
  (List.range n).all (fun k => ruleOk t (mapRecord bs (1 + k))) &&
  (rs.zip rs.tail).all (fun p => p.1.sfld < p.2.sfld) &&
  (rs.map (·.dfld)).eraseDups.length = n

/-! ### Reading a message (R393, R395) -/

/-- Why a translation fails: RESULT and the source field (R393). -/
structure MsgFail where
  code  : Nat
  field : Nat
deriving DecidableEq, Repr

/-- Bytes of a length prefix of a coding (R394): digits, packed digits, or as many bytes in binary (log 19). -/
def prefixBytes (lt cd : Nat) : Nat :=
  match lt with
  | 0 => 0
  | 4 => 1
  | 5 => 2
  | _ => if cd ≤ 1 then lt + 1 else (lt + 2) / 2

/-- A decimal digit of a character in a coding (R178, R394). -/
def digitOf (cd x : Nat) : Option Nat :=
  match cd with
  | 0 => if 0x30 ≤ x && x ≤ 0x39 then some (x - 0x30) else none
  | 1 => if 0xF0 ≤ x && x ≤ 0xF9 then some (x - 0xF0) else none
  | _ => if x ≤ 9 then some x else none

/-- The number that digits spell, where all are digits. -/
def digitsNum (cd : Nat) (xs : List Nat) : Option Nat :=
  xs.foldl (fun n x => n.bind (fun n => (digitOf cd x).map (fun d => 10 * n + d))) (some 0)

/-- The value of a length prefix, or none where a character of it is no digit. -/
def prefixValue (lt cd : Nat) (bs : List Byte) : Option Nat :=
  if lt = 4 || lt = 5 || cd = 3 then some (beNat bs)
  else if cd = 2 then digitsNum 2 (nibblesOf bs)
  else digitsNum cd (bs.map (·.toNat))

/-- Bytes that a length in units of a coding takes (R394). -/
def codedBytes (cd n : Nat) : Nat := if cd = 2 then (n + 1) / 2 else n

/-- The characters of a field's bytes: octets, or the digits of packed BCD, right-justified (log 19). -/
def charsOf (cd n : Nat) (bs : List Byte) : List Nat :=
  if cd = 2 then (nibblesOf bs).drop (2 * ((n + 1) / 2) - n) else bs.map (·.toNat)

/-- A field as the message holds it: its characters and the bytes after it (R393 causes 0x21 to 0x23). -/
def readField (field lt cd maxlen : Nat) (m : List Byte) : Except MsgFail (List Nat × List Byte) :=
  let k := prefixBytes lt cd
  if m.length < k then .error ⟨0x23, field⟩
  else match (if lt = 0 then some maxlen else prefixValue lt cd (m.take k)) with
    | none => .error ⟨0x22, field⟩
    | some n =>
      let b := codedBytes cd n
      let body := (m.drop k).take b
      if maxlen < n then .error ⟨0x21, field⟩
      else if body.length < b then .error ⟨if lt = 0 then 0x21 else 0x23, field⟩
      else if cd = 2 && (nibblesOf body).any (fun x => 9 < x) then .error ⟨0x22, field⟩
      else .ok (charsOf cd n body, m.drop (k + b))

/-- The value of a hexadecimal ASCII character (R394). -/
def hexOf (b : Byte) : Option Nat :=
  let x := b.toNat
  if 0x30 ≤ x && x ≤ 0x39 then some (x - 0x30)
  else if 0x41 ≤ x && x ≤ 0x46 then some (x - 0x37)
  else if 0x61 ≤ x && x ≤ 0x66 then some (x - 0x57)
  else none

/-- Reads one bitmap: its 64 bits, the first field's first, and the bytes after it. -/
def readBitmap (hex : Bool) (field : Nat) (m : List Byte) : Except MsgFail (List Bool × List Byte) :=
  let n := if hex then 16 else 8
  let b := m.take n
  if b.length < n then .error ⟨0x23, field⟩
  else if hex then
    if b.any (fun x => (hexOf x).isNone) then .error ⟨0x22, field⟩
    else .ok (bitsOfBytes (ofNibbles (b.map (fun x => (hexOf x).getD 0))), m.drop n)
  else .ok (bitsOfBytes b, m.drop n)

/-- Reads the bitmaps: one behind the other while the first bit of each marks the next, four at most (R394, log 19). -/
def readBitmaps (hex : Bool) : Nat → Nat → List Byte → Except MsgFail (List Nat × List Byte)
  | 0, _, m => .ok ([], m)
  | k + 1, base, m =>
    match readBitmap hex base m with
    | .error e => .error e
    | .ok (bits, m) =>
      let own := (bits.zipIdx.filter (fun b => b.1 && b.2 ≠ 0)).map (fun b => base + b.2)
      if bits.headD false then
        (match readBitmaps hex k (base + 64) m with
         | .error e => .error e
         | .ok (fs, m) => .ok (own ++ fs, m))
      else .ok (own, m)

/-! ### Writing a message (R393, R395) -/

/-- A character in the destination coding: through the rule's table, kept, as a digit, or as the model leaves open
(R394, log 19). -/
def convertChar (mp : MsgMap) (r : MapRule) (x : Nat) : Nat :=
  let y := match r.tab with
    | some t => ((mp.tabs.getD t []).getD x 0).toNat
    | none =>
      if r.scd = r.dcd then x
      else match digitOf r.scd x with
        | some g => if r.dcd = 0 then 0x30 + g else if r.dcd = 1 then 0xF0 + g else g
        | none => if r.dcd = 2 then x % 16 else Config.msgChar r.scd r.dcd x % 256
  if r.dcd = 2 then y % 16 else y

/-- The bytes of characters in a coding. -/
def codeChars (cd : Nat) (cs : List Nat) : List Byte :=
  if cd = 2 then ofNibbles (if cs.length % 2 = 1 then 0 :: cs else cs) else bytesOf cs

/-- Digits of a number, `k` of them, the highest first. -/
def decDigits (k n : Nat) : List Nat := (List.range k).map (fun i => n / 10 ^ (k - 1 - i) % 10)

/-- A length prefix, or none where the type cannot hold the length. -/
def codePrefix (lt cd n : Nat) : Option (List Byte) :=
  let k := prefixBytes lt cd
  match lt with
  | 0 => some []
  | 4 => if n < 256 then some (beBytes 1 n) else none
  | 5 => some (beBytes 2 n)
  | _ =>
    if 10 ^ (lt + 1) ≤ n || (cd = 3 && 256 ^ k ≤ n) then none
    else some (match cd with
      | 0 => bytesOf ((decDigits (lt + 1) n).map (0x30 + ·))
      | 1 => bytesOf ((decDigits (lt + 1) n).map (0xF0 + ·))
      | 2 => codeChars 2 (decDigits (lt + 1) n)
      | _ => beBytes k n)

/-- A field in its destination form (R393 causes 0x22 and 0x24). -/
def writeField (mp : MsgMap) (r : MapRule) (cs : List Nat) : Except MsgFail (List Byte) :=
  if r.dig && cs.any (fun x => (digitOf r.scd x).isNone) then .error ⟨0x22, r.sfld⟩
  else
    let ds := cs.map (convertChar mp r)
    let ds := if r.dlt = 0 && ds.length < r.maxlen then
        ((Config.msgPad r.dcd r.maxlen ds).map (· % (if r.dcd = 2 then 10 else 256)) ++ List.replicate r.maxlen 0).take r.maxlen else ds
    if r.dcd = 2 && ds.any (fun x => 9 < x) then .error ⟨0x22, r.sfld⟩
    else match codePrefix r.dlt r.dcd ds.length with
      | none => .error ⟨0x24, r.sfld⟩
      | some p => if r.maxlen < ds.length then .error ⟨0x24, r.sfld⟩ else .ok (p ++ codeChars r.dcd ds)

/-- What a translation has made so far: written fields (destination, source, bytes), and the counts of R393. -/
structure MsgState where
  out        : List (Nat × Nat × List Byte) := []
  translated : Nat := 0
  dropped    : Nat := 0
deriving DecidableEq, Repr

/-- One source field: read by its rule, or by the layout of a field without one; then dropped or converted (R395). The MTI
counts as no field (log 19). -/
def translateField (mp : MsgMap) (st : MsgState) (f : Nat) (m : List Byte) :
    Except (MsgFail × MsgState) (MsgState × List Byte) :=
  let one := if f = 0 then 0 else 1
  match mp.rules.find? (fun r => r.sfld = f) with
  | none =>
    let l := Config.isoField mp.sver f
    (match readField f l.1 l.2.1 l.2.2 m with
     | .error e => .error (e, st)
     | .ok (_, m) => .ok ({ st with dropped := st.dropped + one }, m))
  | some r =>
    match readField f r.slt r.scd r.maxlen m with
    | .error e => .error (e, st)
    | .ok (cs, m) =>
      if r.act = 1 then .ok ({ st with dropped := st.dropped + one }, m)
      else match writeField mp r cs with
        | .error e => .error (e, st)
        | .ok bs => .ok ({ st with out := st.out ++ [(r.dfld, f, bs)], translated := st.translated + one }, m)

/-- All source fields in their order. -/
def translateFields (mp : MsgMap) : List Nat → MsgState → List Byte → Except (MsgFail × MsgState) (MsgState × List Byte)
  | [], st, m => .ok (st, m)
  | f :: fs, st, m =>
    match translateField mp st f m with
    | .error e => .error e
    | .ok (st, m) => translateFields mp fs st m

/-- The bitmaps of the fields that are written: three at most, each with the field that it stands for (R394, R395). -/
def buildBitmaps (hex : Bool) (fs : List Nat) : List (Nat × List Byte) :=
  let third := fs.any (fun f => 129 ≤ f)
  let second := third || fs.any (fun f => 65 ≤ f)
  let one (base : Nat) (more : Bool) : Nat × List Byte :=
    let bits := (List.range 64).map (fun i => if i = 0 then more else fs.contains (base + i))
    let bs := bytesOfBits bits
    (base, if hex then (nibblesOf bs).map (fun x => BitVec.ofNat 8 (if x < 10 then 0x30 + x else 0x37 + x)) else bs)
  [one 1 second] ++ (if second then [one 65 third] else []) ++ (if third then [one 129 false] else [])

/-- The first piece that does not fit into `room` bytes: the source field it belongs to. -/
def overflowsAt (room : Nat) : Nat → List (Nat × List Byte) → Option Nat
  | _, [] => none
  | used, (f, bs) :: ps => if room < used + bs.length then some f else overflowsAt room (used + bs.length) ps

/-- A translation's verdict (R393). -/
def translateMsg (mp : MsgMap) (room : Nat) (m : List Byte) : Verdict :=
  let fail (e : MsgFail) (st : MsgState) : Verdict :=
    { status := 0x01, result := e.code, d6 := st.translated + st.dropped * 65536, d7 := e.field }
  match translateField mp {} 0 m with
  | .error (e, st) => fail e st
  | .ok (st, m) =>
    match readBitmaps mp.shex 4 1 m with
    | .error e => fail e st
    | .ok (fs, m) =>
      match translateFields mp fs st m with
      | .error (e, st) => fail e st
      | .ok (st, rest) =>
        if rest ≠ [] then fail ⟨0x23, (fs.getLast?).getD 0⟩ st
        else
          let outs := st.out.mergeSort (fun a b => a.1 ≤ b.1)
          let pieces := (outs.filter (fun o => o.1 = 0)).map (fun o => (o.2.1, o.2.2)) ++
            buildBitmaps mp.dhex ((outs.filter (fun o => o.1 ≠ 0)).map (·.1)) ++
            (outs.filter (fun o => o.1 ≠ 0)).map (fun o => (o.2.1, o.2.2))
          match overflowsAt room 0 pieces with
          | some f => fail ⟨0x25, f⟩ st
          | none => { status := 0, out := pieces.flatMap (·.2), d6 := st.translated + st.dropped * 65536 }

/-! ### MSG_TRANSLATE (R393, R395, R410) -/

/-- The programs and maps of an item's batch: those that it used from its first placement on (R410). -/
def Dev.snapOf (d : Dev) (it : Nat) : List Loaded :=
  match d.setter.batches.find? (fun b => b.items.contains it) with
  | some b => b.snap.getD d.loaded
  | none => d.loaded

/-- A loaded program or map of a partition. -/
def findLoaded (ls : List Loaded) (part : Option (Fin 64)) (isMap : Bool) (slot : Nat) : Option Loaded :=
  ls.find? (fun l => some l.part = part && l.isMap = isMap && l.slot = slot)

/-- The map's tables stand in XLAT tables T0 to T7 under the partition's ownership (R179, R395). -/
def loadTables (q : Fin 64) (tabs : List (List Byte)) (P : Pier) : Pier :=
  { P with runs := { P.runs with xlat := P.runs.xlat.zipIdx.map (fun (t : XlatTab × Nat) =>
      match tabs[t.2]? with
      | some bs => ⟨BitVec.ofNat 7 q.val, SMem.setList [] 0 (bs.map (fun b => b.setWidth 9))⟩
      | none => t.1) } }

/-- MSG_TRANSLATE (R393, R395). -/
def execMsgTranslate (it : Nat) (inp : Fetched) (s : State) : Host.Outcome State Fault Refusal :=
  let d := s.dev
  let map (i : Item) : Option Loaded := findLoaded (d.snapOf it) i.part true (i.bits 12 9 0)
  let d := match d.pierItem it 0x48 with
    | some (i, p, _) =>
      (match map i, i.part with
       | some l, some q => if (plainOnly i).isSome then d else d.onPier p (loadTables q (parseMap l.bytes).tabs)
       | _, _ => d)
    | none => d
  s.answer (d.pierOp it 0x48 inp
    { param := fun i => paramChecks i [((map i).isNone, 0x30)]
      needs := fun _ => []
      lens := fun _ _ => true
      run := fun x => (match map x.item with
        | some l => translateMsg (parseMap l.bytes) x.item.room x.input
        | none => .bad 0x30) })

/-! ### LOAD_PROGRAM (R406, R407, R410) -/

/-- A program image: its header and its code words (R407). -/
structure Image where
  base  : Nat
  entry : Nat
  zero  : Nat
  inA   : Nat
  inCap : Nat
  outA  : Nat
  outCap : Nat
  sp    : Word
  code  : List Word
deriving DecidableEq, Repr

/-- CODE of a header. -/
def imageCode (ws : List Word) : Nat := (ws.headD 0).toNat % 2 ^ 24

/-- A program image from its words (R407). -/
def parseImage (ws : List Word) : Image :=
  let w (k : Nat) : Nat := (ws.getD k 0).toNat
  { base := w 1, entry := w 2, zero := w 3, inA := w 4, inCap := w 5, outA := w 6, outCap := w 7, sp := ws.getD 8 0,
    code := (ws.drop 9).take (imageCode ws) }

/-- Words of a partition's IPA space (R305, R434). -/
def Dev.ipaWords (d : Dev) (q : Fin 64) : Nat :=
  61440 * ((d.parts.find? (fun p => p.part = q)).map (·.quarry)).getD 0

/-- Whether two ranges of words meet. -/
def rangesMeet (a na b nb : Nat) : Bool := a < b + nb && b < a + na && na ≠ 0 && nb ≠ 0

/-- The RESULT that refuses a program image, or none (R407). -/
def imageRefused (space : Nat) (ws : List Word) : Option Nat :=
  let g := parseImage ws
  let n := imageCode ws + g.zero
  if (ws.headD 0).toNat / 2 ^ 32 ≠ 1 then some 0x41
  else if ws.length < 9 + imageCode ws || 1048576 < n || space < g.base + n || space < g.inA + g.inCap ||
      space < g.outA + g.outCap || rangesMeet g.base n g.inA g.inCap || rangesMeet g.base n g.outA g.outCap ||
      rangesMeet g.inA g.inCap g.outA g.outCap then some 0x42
  else none

/-- Writes words at an IPA of a partition on a pier; an IPA without a leaf takes nothing (R406). -/
def writeIpa (now : Nat) (q : Fin 64) : Nat → List Word → Pier → Pier
  | _, [], P => P
  | a, w :: ws, P =>
    let P := match P.leafOf q a with
      | some l => (gatewayWrite P now .supervisor (l.word a) w false).pier
      | none => P
    writeIpa now q (a + 1) ws P

/-- Writes a program's image and its zero area on a pier (R406, R408). -/
def writeImage (now : Nat) (q : Fin 64) (g : Image) (P : Pier) : Pier :=
  writeIpa now q g.base (g.code ++ List.replicate g.zero 0) P

/-- Writes a program on every pier of its partition (R406). -/
def Dev.writeImages (d : Dev) (q : Fin 64) (g : Image) : Dev :=
  { d with piers := Vector.ofFn (fun (p : Fin 16) =>
      if d.setter.part[q].piers.getLsbD p.val then writeImage d.now q g (d.pier p) else d.pier p) }

/-- LOAD_PROGRAM's PARAM checks (R379, R406). -/
def loadParam (i : Item) : Option Nat :=
  let map := i.bits 12 0 0 = 1
  if !map && 63 < i.bits 12 25 16 then some 0x01
  else if i.inLen ≠ 0 && i.pki ≠ (if map then 0 else 1) then some 0x02
  else none

/-- LOAD_PROGRAM: a program, a map, or the clearing of a slot (R406, R407, R410). -/
def execLoadProgram (it : Nat) (inp : Fetched) (s : State) : Host.Outcome State Fault Refusal :=
  s.answer (s.dev.wardenOp it 0x71 inp (fun _ i => (loadParam i).map Verdict.bad)
    (fun d i bs =>
      let map := i.bits 12 0 0 = 1
      let slot := i.bits 12 25 16
      (match i.part with
       | none => d.finishWarden i (.bad 0x01) bs
       | some q =>
         let others := d.loaded.filter (fun l => !(l.part = q && l.isMap = map && l.slot = slot))
         if i.inLen = 0 then ({ d with loaded := others }).finishWarden i (.ok []) bs
         else if map then
           if mapOk bs then ({ d with loaded := others ++ [Loaded.mk q true slot bs []] }).finishWarden i (.ok []) bs
           else d.finishWarden i (.bad 0x43) bs
         else
           let ws := denseIn bs
           match imageRefused (d.ipaWords q) ws with
           | some r => d.finishWarden i (.bad r) bs
           | none =>
             let d := d.writeImages q (parseImage ws)
             ({ d with loaded := others ++ [Loaded.mk q false slot [] (ws.take (9 + imageCode ws))] }).finishWarden i (.ok []) bs)))

/-! ### DEFINE_COURSE (R89 to R91, R411) -/

/-- DEFINE_COURSE: reserved bits, length, the checks of R90, then all 16 piers (R90, R91, R411). -/
def execDefineCourse (it : Nat) (inp : Fetched) (s : State) : Host.Outcome State Fault Refusal :=
  s.answer (s.dev.wardenOp it 0x72 inp (fun _ i => if i.pki = 1 then none else some (.bad 0x02))
    (fun d i bs =>
      let ws := denseIn bs
      let slot := i.bits 12 5 0
      (match i.part with
       | none => d.finishWarden i (.bad 0x01) bs
       | some q =>
         if ws ≠ [] && defReserved ws then d.finishWarden i { status := 0x11 } bs
         else if ws = [] || 128 < ws.length || ws.length < defWords ws then d.finishWarden i .length bs
         else
           let cs := wholeSet q.val (d.pier 0)
           let d := d.onPier 0 (fun _ => cs.2)
           match courseCheck cs.1 slot (ws.take (defWords ws)) with
           | some r => d.finishWarden i (.bad r) bs
           | none => (d.allPiers (putCourse q.val slot (ws.take (defWords ws)))).finishWarden i (.ok []) bs)))

end Sys2Proof.Machine
end

