-- ==== Sys2Proof/Machine/KeyBlock.lean ====
section
/-! DEFINITION. Key blocks of ANSI X9.143, versions B and D (R403). The standard is PRESUMED (log 20): header, derivation by
CMAC, encryption in CBC mode with the MAC as its IV, and the codes of usage, algorithm and mode. -/

namespace Sys2Proof.Machine

open Sys2Proof

/-! ### Characters -/

/-- Hexadecimal ASCII of bytes, in capitals. -/
def hexChars (bs : List Byte) : List Byte :=
  (nibblesOf bs).map (fun x => BitVec.ofNat 8 (if x < 10 then 0x30 + x else 0x37 + x))

/-- Bytes of hexadecimal ASCII, or none where a character is no digit. -/
def unhexChars (cs : List Byte) : Option (List Byte) :=
  if cs.length % 2 = 0 && cs.all (fun c => (hexOf c).isSome) then some (ofNibbles (cs.map (fun c => (hexOf c).getD 0))) else none

/-- A number in decimal ASCII. -/
def decChars (k n : Nat) : List Byte := bytesOf ((decDigits k n).map (0x30 + ·))

/-- The number of decimal ASCII. -/
def undecChars (cs : List Byte) : Option Nat := digitsNum 0 (cs.map (·.toNat))

/-- The bytes of a text. -/
def ascii (s : String) : List Byte := s.toList.map (fun c => BitVec.ofNat 8 c.toNat)

/-! ### Keys of a block -/

/-- The block cipher of a key block protection key: TDES for version B, AES for version D. -/
def kbCipher (aes : Bool) (key : List Byte) : BlockCipher := if aes then aesCipher key else tdesCipher key

/-- The algorithm code of a protection key in the derivation data. -/
def kbAlg (aes : Bool) (n : Nat) : Nat :=
  if aes then (if n = 16 then 2 else if n = 24 then 3 else 4) else (if n = 16 then 0 else 1)

/-- A key derived from the protection key: usage 0 encrypts, usage 1 authenticates. -/
def kbDerive (aes : Bool) (kbpk : List Byte) (usage : Nat) : List Byte :=
  let n := kbpk.length
  let c := kbCipher aes kbpk
  ((List.range ((n + c.size - 1) / c.size)).flatMap (fun k =>
    cmac c (bytesOf [k + 1] ++ beBytes 2 usage ++ bytesOf [0] ++ beBytes 2 (kbAlg aes n) ++ beBytes 2 (8 * n)))).take n

/-- The MAC of a header and the plain key data. -/
def kbMac (aes : Bool) (kbpk header data : List Byte) : List Byte :=
  cmac (kbCipher aes (kbDerive aes kbpk 1)) (header ++ data)

/-- The key data field encrypted. -/
def kbEnc (aes : Bool) (kbpk mac data : List Byte) : List Byte :=
  let c := kbCipher aes (kbDerive aes kbpk 0)
  (cbcEnc c mac (chunksOf c.size data)).flatten

/-- The key data field decrypted. -/
def kbDec (aes : Bool) (kbpk mac ct : List Byte) : List Byte :=
  let c := kbCipher aes (kbDerive aes kbpk 0)
  (cbcDec c mac (chunksOf c.size ct)).flatten

/-! ### Headers -/

/-- A block's header as read. -/
structure KbHeader where
  aes    : Bool
  usage  : List Byte
  alg    : Byte
  mode   : Byte
  export_ : Byte
  bytes  : List Byte
deriving DecidableEq, Repr

/-- The end of the optional blocks, `n` of them from `at_` on: each has an identifier and its length in hexadecimal. -/
def optEnd (cs : List Byte) : Nat → Nat → Option Nat
  | 0, at_ => some at_
  | n + 1, at_ =>
    match unhexChars ((cs.drop (at_ + 2)).take 2) with
    | some [l] => if 4 ≤ l.toNat && at_ + l.toNat ≤ cs.length then optEnd cs n (at_ + l.toNat) else none
    | _ => none

/-- The header of a block whose form is that of version B or D and whose length field is right. -/
def kbHeader (cs : List Byte) : Option KbHeader :=
  let v := (cs.headD 0).toNat
  let aes := v = 0x44
  let unit := if aes then 16 else 8
  if cs.length < 16 || (v ≠ 0x42 && v ≠ 0x44) || undecChars ((cs.drop 1).take 4) ≠ some cs.length then none
  else match undecChars ((cs.drop 12).take 2) with
    | none => none
    | some n =>
      match optEnd cs n 16 with
      | none => none
      | some e =>
        let rest := cs.length - e
        if e % unit ≠ 0 || rest < 2 * unit + 2 * unit || (rest - 2 * unit) % (2 * unit) ≠ 0 then none
        else some ⟨aes, (cs.drop 5).take 2, cs.getD 7 0, cs.getD 8 0, cs.getD 11 0, cs.take e⟩

/-! ### Usages (log 20) -/

/-- Whether a mode of use is one of the characters of a text. -/
def modeIn (m : Byte) (s : String) : Bool := (ascii s).contains m

/-- The USAGE bits that a header permits; none for a usage that the device does not support. -/
def kbUsage (h : KbHeader) : Option Nat :=
  let bit (b : Nat) (s : String) : Nat := if modeIn h.mode s then 2 ^ b else 0
  let base : Option Nat :=
    if h.usage = ascii "B0" then some (bit 10 "XN")
    else if h.usage = ascii "B1" then some (bit 8 "XN")
    else if h.usage = ascii "D0" then some (bit 0 "BEN" + bit 1 "BDN")
    else if h.usage = ascii "E0" then some (bit 9 "XN")
    else if h.usage = ascii "K0" || h.usage = ascii "K1" then some (bit 7 "BDEN")
    else if h.usage = ascii "M0" || h.usage = ascii "M1" || h.usage = ascii "M3" || h.usage = ascii "M6" || h.usage = ascii "M7" then
      some (bit 2 "CGVN")
    else if h.usage = ascii "P0" then some (bit 5 "BDEN")
    else if h.usage = ascii "S0" then some (bit 3 "SCN" + bit 4 "VCN")
    else none
  if !modeIn h.mode "BCDEGNSTVXY" then none
  else base.map (fun u => u + 2 ^ 12 + (if modeIn h.export_ "ES" then 2 ^ 11 else 0))

/-- The algorithm, SIZE, public components and secret of a block's key data (log 20). -/
structure KbKey where
  alg    : Nat
  size   : Nat
  pub    : List Byte
  secret : List Byte
deriving DecidableEq, Repr

/-- The key of a block by its algorithm and mode characters, or none. -/
def kbKey (alg mode : Byte) (k : List Byte) : Option KbKey :=
  let n := k.length
  let sym (a : Nat) : Option KbKey := some ⟨a, n / 4, [], k⟩
  let v := modeIn mode "V"
  if modeIn alg "T" then (if n = 16 then sym 1 else if n = 24 then sym 2 else none)
  else if modeIn alg "A" then (if n = 16 then sym 3 else if n = 24 then sym 4 else if n = 32 then sym 5 else none)
  else if modeIn alg "H" then (if n % 4 = 0 && 4 ≤ n && n ≤ 64 then sym 8 else none)
  else if modeIn alg "E" then
    (if v then
      (if n = 64 then some ⟨0x11, 8, k, []⟩ else if n = 96 then some ⟨0x13, 12, k, []⟩
       else if n = 32 then some ⟨0x15, 8, k, []⟩ else none)
     else
      (if n = 96 then some ⟨0x10, 8, k.take 64, k.drop 64⟩ else if n = 144 then some ⟨0x12, 12, k.take 96, k.drop 96⟩
       else if n = 64 then some ⟨0x14, 8, k.take 32, k.drop 32⟩ else none))
  else if modeIn alg "R" then
    (let l := if v then n - 4 else (n - 4) * 2 / 9
     if l < 256 || 512 < l || l % 8 ≠ 0 then none
     else if v then (if n = l + 4 then some ⟨0x19, l / 4, k, []⟩ else none)
     else if n = l + 4 + l + 5 * l / 2 then some ⟨0x18, l / 4, k.take (l + 4), k.drop (l + 4)⟩ else none)
  else none

/-! ### Import -/

/-- What an import of a block gives: the RESULT that refuses it, or the key (R403). -/
def kbOpen (kbpkAes : Bool) (kbpk : List Byte) (usage : Nat) (cs : List Byte) : Except Nat KbKey :=
  match kbHeader cs with
  | none => .error 0x32
  | some h =>
    if h.aes ≠ kbpkAes then .error 0x32
    else
      let unit := if h.aes then 16 else 8
      match unhexChars (cs.drop h.bytes.length) with
      | none => .error 0x32
      | some body =>
        let ct := body.take (body.length - unit)
        let mac := body.drop (body.length - unit)
        let data := kbDec h.aes kbpk mac ct
        let bits := beNat (data.take 2)
        if kbMac h.aes kbpk h.bytes data ≠ mac || bits % 8 ≠ 0 || data.length < 2 + bits / 8 then .error 0x31
        else match kbUsage h, kbKey h.alg h.mode ((data.drop 2).take (bits / 8)) with
          | some u, some k => if usage &&& u ≠ usage then .error 0x33 else .ok k
          | _, _ => .error 0x32

/-! ### Export -/

/-- The usage code of an entry's USAGE (log 20). -/
def kbUsageCode (alg usage : Nat) : String :=
  let has (b : Nat) : Bool := usage / 2 ^ b % 2 = 1
  if has 10 then "B0" else if has 9 then "E0" else if has 8 then "B1" else if has 7 then "K0" else if has 5 then "P0"
  else if has 2 then (if algAes alg then "M6" else if alg = 8 then "M7" else if alg = 1 then "M3" else "M1")
  else if has 3 || has 4 || 0x10 ≤ alg then "S0" else "D0"

/-- The mode of use of an entry (log 20): V for a public key. -/
def kbModeCode (alg usage : Nat) : String :=
  let has (b : Nat) : Bool := usage / 2 ^ b % 2 = 1
  if algPublic alg then "V"
  else if has 8 || has 9 || has 10 then "X" else if has 7 || has 5 then "B" else if has 2 then "C"
  else if has 3 && has 4 then "C" else if has 3 then "S" else if has 4 then "N"
  else if has 0 && !has 1 then "E" else if has 1 && !has 0 then "D" else if has 0 then "B" else "N"

/-- The algorithm character of an entry. -/
def kbAlgCode (alg : Nat) : String :=
  if algTdes alg then "T" else if algAes alg then "A" else if alg = 8 then "H" else if alg < 0x18 then "E" else "R"

/-- Bytes of the key data field of a key of `n` bytes. -/
def kbDataLen (aes : Bool) (n : Nat) : Nat := let u := if aes then 16 else 8; (2 + n + u - 1) / u * u

/-- Characters of a block for a key of `n` bytes. -/
def kbTotal (aes : Bool) (n : Nat) : Nat := 16 + 2 * kbDataLen aes n + (if aes then 32 else 16)

/-- The block of a key: header, key data encrypted, MAC; padded from `fill` (R383, R403). -/
def kbMake (aes : Bool) (kbpk : List Byte) (alg usage : Nat) (key fill : List Byte) : List Byte :=
  let header := ascii (if aes then "D" else "B") ++ decChars 4 (kbTotal aes key.length) ++ ascii (kbUsageCode alg usage) ++
    ascii (kbAlgCode alg) ++ ascii (kbModeCode alg usage) ++ ascii "00" ++ ascii (if usage / 2 ^ 11 % 2 = 1 then "E" else "N") ++
    ascii "0000"
  let data := fitBytes (kbDataLen aes key.length) (beBytes 2 (8 * key.length) ++ key ++ fill)
  let mac := kbMac aes kbpk header data
  header ++ hexChars (kbEnc aes kbpk mac data) ++ hexChars mac

/-- The key bytes that a block carries for an entry: the key, or public components and secret (log 20). -/
def kbKeyBytes (kek : List Byte) (e : KeyEntry) : List Byte :=
  if algSym e.alg.toNat then symKey kek e else e.pub ++ (if algPublic e.alg.toNat then [] else asymSecret kek e)

/-- How many they are. -/
def kbKeyLen (e : KeyEntry) : Nat :=
  if algSym e.alg.toNat then 4 * e.size.toNat else e.pub.length + secretLen e.alg.toNat e.size.toNat

end Sys2Proof.Machine
end

