-- ==== Sys2Proof/Machine/KeyOps.lean ====
section
/-! DEFINITION. Key management: KEY_IMPORT to KEY_INFO, and key changes in the key store log (R396 to R403, R463, R505). -/

namespace Sys2Proof.Machine

open Sys2Proof

/-! ### The directory (R401, R403, R505) -/

/-- The lowest handle from `h` on whose entry is FREE or DESTROYED (R403). -/
def lowestHandle (keys : List KeyEntry) : Nat → Nat → Nat
  | 0, h => h
  | k + 1, h => if keys.any (fun e => e.handle = h && e.state = 1#3) then lowestHandle keys k (h + 1) else h

/-- The handle that a new entry takes. -/
def Dev.newHandle (d : Dev) : Nat := lowestHandle d.flash.keys d.flash.keys.length 1

/-- The first blob line from `l` on behind which `n` lines are free; the blob of the entry that gives way counts as free. -/
def freeBlob (keys : List KeyEntry) (n : Nat) : Nat → Nat → Nat
  | 0, l => l
  | k + 1, l =>
    match keys.find? (fun e => 0 < e.blen && e.bline < l + n && l < e.bline + e.blen) with
    | some e => freeBlob keys n k (e.bline + e.blen)
    | none => l

/-- Bytes that the live content of the key store log may take for entries: half its region, less 1 MiB (R505). -/
def Flash.logLimit (f : Flash) : Nat := (1024 * (f.size0.toNat + f.size1.toNat) - 0x1600) * 4096 / 2 - 1048576

/-- Bytes of an entry in the key store log (R505). -/
def KeyEntry.logBytes (e : KeyEntry) : Nat := 128 + 72 * e.blen

/-- A new ACTIVE entry at a handle, with the next VERSION and its blob lines; none where the directory, the quota, the blob
region or the log is full (R403, R505). -/
def Dev.placeEntry (d : Dev) (h : Nat) (e : KeyEntry) : Option KeyEntry :=
  let old := d.entryOf h
  let others := d.flash.keys.filter (fun x => x.handle ≠ h)
  let e := { e with handle := h, version := ((old.map KeyEntry.version).getD 0) + 1, state := 1#3 }
  let bl := if e.blen = 0 then 0 else freeBlob others e.blen others.length 0
  let active := (others.filter (fun x => x.owner = e.owner && x.state = 1#3)).length
  let quota := ((d.parts.find? (fun p => p.part.val = e.owner.toNat)).map (·.keys)).getD 0
  if 4194303 < h || quota ≤ active || 1048576 < bl + e.blen || d.flash.logLimit < (others.map KeyEntry.logBytes).sum + e.logBytes then none
  else some { e with bline := bl }

/-! ### Key changes (R401) -/

/-- Whether an opcode changes keys. -/
def changesKeys (i : Item) : Bool :=
  i.opc = 0x50 || i.opc = 0x52 || i.opc = 0x53 || i.opc = 0x54 || (i.opc = 0x8D && i.bits 12 0 0 = 0)

/-- Whether an item's key change is the next: none is in progress, and no earlier item waits with one (R401). -/
def Dev.keyTurn (d : Dev) (i : Item) : Bool :=
  d.changes.isEmpty && !d.items.any (fun j => j.id < i.id && j.atWarden && changesKeys j)

/-- An item's key change goes to the key store log; its verdict holds once the log is programmed (R401). -/
def Dev.startChange (d : Dev) (i : Item) (v : Verdict) (inBytes : List Byte) (e : KeyEntry) : Dev :=
  let j := { i.withVerdict v inBytes with stage := .keyChange }
  { d.onItem i.id (fun _ => j) with changes := d.changes ++ [⟨i.id, e⟩] }

/-- Writes an entry into all 16 replicas and clears it from every key cache (R163, R367, R401). -/
def Dev.writeReplicas (d : Dev) (e : KeyEntry) : Dev :=
  let kek := (d.ks.kek).getD []
  d.allPiers (fun P => cacheDrop d.now e.handle (writeEntry kek e P))

/-- Sets an entry of the key store log. -/
def Flash.putKey (f : Flash) (e : KeyEntry) : Flash :=
  { f with keys := f.keys.filter (fun x => x.handle ≠ e.handle) ++ [e] }

/-- The item of a key change ends on chain 16. -/
def Dev.endChange (d : Dev) (it : Nat) (good : Bool) : Dev :=
  match d.item? it with
  | none => d
  | some i =>
    if good then d.passResults i 16
    else d.endItem16 i 0x22 0x60

/-- KEY_STORE_LOG_PROGRAM: the oldest key change is programmed and verified, written to the replicas, recorded and completed;
where it fails after retries, the sector is retired and the change is not made (R401, R463). -/
def execKeyStoreLogProgram (good : Bool) (s : State) : Host.Outcome State Fault Refusal :=
  let d := s.dev
  match d.changes with
  | [] => s.answer d
  | c :: rest =>
    s.answer (if !d.wardenServes then d
      else
        let d := { d with changes := rest }
        if good then (Dev.writeReplicas { d with flash := d.flash.putKey c.entry } c.entry).endChange c.item true
        else
          let sec := 0x1600 + (d.free 32).toNat % (1024 * (d.flash.size0.toNat + d.flash.size1.toNat) - 0x1600)
          ((d.used.detect 0x21 22 sec (Config.flashRegion 5).toNat).retireSector sec).endChange c.item false)

/-! ### New entries (R399, R403) -/

/-- An entry without a key: owner, algorithm, usage, expiry and size. -/
def blankEntry (owner : Fin 64) (alg usage : Nat) (expiry : Word) (size : Nat) : KeyEntry :=
  { handle := 0, owner := BitVec.ofNat 6 owner.val, alg := BitVec.ofNat 8 alg, version := 0, state := 1#3,
    usage := BitVec.ofNat 16 usage, expiry := expiry, size := BitVec.ofNat 12 size, kcv := 0, bline := 0, wrap := [], pub := [],
    blob := [] }

/-- An entry with its key and KCV (R396, R399). -/
def filledEntry (kek : List Byte) (e : KeyEntry) (k : KbKey) : KeyEntry :=
  if algSym k.alg then { symEntry kek e k.secret with kcv := symKcv k.alg k.secret }
  else { asymEntry kek e k.pub k.secret with kcv := pubKcv k.pub }

/-- The verdict of a creating opcode: handle, KCV and ALG in RDATA (R403). -/
def createdVerdict (e : KeyEntry) (out : List Byte) : Verdict :=
  { status := 0, out := out, d6 := e.handle, d7 := e.kcv.toNat + e.alg.toNat * 2 ^ 24 }

/-- KEY_HANDLE with RESULT 0x09 (R403, R505). -/
def Verdict.full : Verdict := { status := 0x15, result := 0x09 }

/-- A new key at the next handle, or the refusal (R403). -/
def Dev.create (d : Dev) (i : Item) (owner : Fin 64) (usage : Nat) (expiry : Word) (k : KbKey) (out bs : List Byte) : Dev :=
  match d.ks.kek with
  | none => d.finishWarden i (.key 8 0) bs
  | some kek =>
    let e := filledEntry kek (blankEntry owner k.alg usage expiry k.size) k
    match d.placeEntry d.newHandle e with
    | none => d.finishWarden i .full bs
    | some e => d.startChange i (createdVerdict e out) bs e

/-- EXPIRY of two DWs of PARAM (R403). -/
def Item.expiry (i : Item) (k : Nat) : Word := BitVec.ofNat 36 ((i.dw k).toNat + i.bits (k + 1) 3 0 * 2 ^ 32)

/-! ### KEY_IMPORT and KEY_EXPORT (R400, R403) -/

/-- The protection key of KEY_IMPORT: KH1, or the partition's KEK (R400, log 20): whether it is AES, and its bytes. -/
def Dev.importKey (d : Dev) (i : Item) (q : Fin 64) : Except Verdict (Bool × List Byte) :=
  if i.kh1 = 0 then
    (if d.ks.kalg q.val = 0 then .error (.key 1 0) else .ok (d.ks.kalg q.val = 2, d.ks.partKek q.val))
  else match d.wardenKey i 0 ⟨i.kh1, 2 ^ 7, fun a => algTdes a || algAes a⟩ with
    | .error v => .error v
    | .ok e => .ok (algAes e.alg.toNat, symKey ((d.ks.kek).getD []) e)

/-- KEY_IMPORT: an X9.143 key block becomes an entry of the session's partition (R403). -/
def execKeyImport (it : Nat) (inp : Fetched) (s : State) : Host.Outcome State Fault Refusal :=
  let early (d : Dev) (i : Item) : Option Verdict :=
    match i.part with
    | none => some (.bad 0x01)
    | some q => (match d.importKey i q with
      | .error v => some v
      | .ok _ => none)
  s.answer (match s.dev.wardenItem it 0x50 with
    | none => s.dev
    | some i =>
      if !s.dev.keyTurn i then s.dev
      else s.dev.wardenOp it 0x50 inp early (fun d i bs =>
        match i.part with
        | none => d.finishWarden i (.bad 0x01) bs
        | some q =>
          (match d.importKey i q with
           | .error v => d.finishWarden i v bs
           | .ok (aes, kbpk) =>
             match kbOpen aes kbpk (i.bits 12 15 0) bs with
             | .error r => d.finishWarden i (.verifyFail r) bs
             | .ok k => d.create i q (i.bits 12 15 0) (i.expiry 13) k [] bs)))

/-- The keys of KEY_EXPORT: KH1 with EXPORT, KH2 with KWRAP and the algorithm of the version (R400). -/
def Dev.exportKeys (d : Dev) (i : Item) (aes : Bool) : Except Verdict (KeyEntry × KeyEntry) :=
  match d.wardenKey i 0 ⟨i.kh1, 2 ^ 11, fun _ => true⟩ with
  | .error v => .error v
  | .ok e =>
    match d.wardenKey i 0x10 ⟨i.kh2, 2 ^ 7, if aes then algAes else algTdes⟩ with
    | .error v => .error v
    | .ok w => .ok (e, w)

/-- KEY_EXPORT: the key block of KH1 under KH2 (R403). -/
def execKeyExport (it : Nat) (inp : Fetched) (s : State) : Host.Outcome State Fault Refusal :=
  let aes (i : Item) : Bool := i.bits 12 7 0 = 0x44
  s.answer (s.dev.wardenOp it 0x51 inp
    (fun d i =>
      if i.bits 12 7 0 ≠ 0x42 && i.bits 12 7 0 ≠ 0x44 then some (.bad 0x01)
      else match d.exportKeys i (aes i) with
        | .error v => some v
        | .ok (e, _) => if i.room < kbTotal (aes i) (kbKeyLen e) then some .length else none)
    (fun d i bs =>
      match d.exportKeys i (aes i) with
      | .error v => d.finishWarden i v bs
      | .ok (e, w) =>
        let kek := (d.ks.kek).getD []
        let df := dfBytes kek ((i.part.map (·.val)).getD 64) (dfMessage i [e.version.toNat, w.version.toNat] bs) 16
        d.finishWarden i (.ok (kbMake (aes i) (symKey kek w) e.alg.toNat e.usage.toNat (kbKeyBytes kek e) df)) bs))

/-! ### KEY_GENERATE (R383, R403) -/

/-- A free value as bytes (log 2): what the DRBG gives. -/
def freshBytes (d : Dev) (n : Nat) : List Byte := leBytes n (d.free (8 * n)).toNat

/-- The first number from `n` on that is a prime fit for e = 65,537 and differs from `other`; `k` numbers at most. -/
def primeUp (other : Nat) : Nat → Nat → Option Nat
  | 0, _ => none
  | k + 1, n => if n ≠ other && decide (Nat.Prime n) && Nat.gcd 65537 (n - 1) = 1 then some n else primeUp other k (n + 1)

/-- A prime of `bits` bits, high enough for a product of two to have twice as many (R403): the first one from a free place on, and
from the lowest again after the highest. -/
def rsaPrime (bits seed other : Nat) : Nat :=
  let lo := Nat.sqrt (2 ^ (2 * bits - 1)) + 1
  let at_ := lo + seed % (2 ^ bits - lo)
  match primeUp other (2 ^ bits - at_) at_ with
  | some p => p
  | none => (primeUp other (at_ - lo) lo).getD 0

/-- An RSA key pair of two primes, as the DRBG gives them (log 2): e = 65,537; n and the private parts follow from them. -/
def rsaPair (size p q : Nat) : KbKey :=
  let l := 4 * size
  let e := 65537
  let n := p * q
  let lam := Nat.lcm (p - 1) (q - 1)
  let x := invMod e lam
  ⟨0x18, size, beBytes l n ++ beBytes 4 e,
   beBytes l x ++ beBytes (l / 2) p ++ beBytes (l / 2) q ++ beBytes (l / 2) (x % (p - 1)) ++ beBytes (l / 2) (x % (q - 1)) ++
     beBytes (l / 2) (invMod q p)⟩

/-- A generated key of an algorithm (R403); the random parts are free values (log 2). -/
def generateKey (d : Dev) (alg size : Nat) : KbKey :=
  let d2 := d.used
  match alg with
  | 0x10 => let x := 1 + (d.free 256).toNat % (p256.n - 1); ⟨0x10, 8, ecPublic p256 x, beBytes 32 x⟩
  | 0x12 => let x := 1 + (d.free 384).toNat % (p384.n - 1); ⟨0x12, 12, ecPublic p384 x, beBytes 48 x⟩
  | 0x14 => let x := freshBytes d 32; ⟨0x14, 8, edPublic x, x⟩
  | 0x18 =>
    let p := rsaPrime (16 * size) (d.free (16 * size)).toNat 0
    rsaPair size p (rsaPrime (16 * size) (d2.free (16 * size)).toNat p)
  | 0x08 => ⟨0x08, size, [], freshBytes d (4 * size)⟩
  | _ => ⟨alg, algKeyLen alg / 4, [], freshBytes d (algKeyLen alg)⟩

/-- Whether SIZE is one that an algorithm allows (R403). -/
def sizeOk (alg size : Nat) : Bool :=
  if alg = 0x18 then size % 2 = 0 && 64 ≤ size && size ≤ 128 else if alg = 0x08 then 8 ≤ size && size ≤ 16 else size = 0

/-- Bytes of the public key that KEY_GENERATE writes (R403). -/
def generatedLen (alg size : Nat) : Nat := if algPair alg then pubLen alg size else 0

/-- KEY_GENERATE (R403). -/
def execKeyGenerate (it : Nat) (inp : Fetched) (s : State) : Host.Outcome State Fault Refusal :=
  let alg (i : Item) : Nat := i.bits 12 7 0
  let size (i : Item) : Nat := i.bits 13 11 0
  s.answer (match s.dev.wardenItem it 0x52 with
    | none => s.dev
    | some i =>
      if !s.dev.keyTurn i then s.dev
      else s.dev.wardenOp it 0x52 inp
        (fun _ i =>
          if !(algSym (alg i) || algPair (alg i)) then some (.bad 0x01)
          else if !sizeOk (alg i) (size i) then some (.bad 0x02)
          else if i.room < generatedLen (alg i) (size i) then some .length else none)
        (fun d i bs =>
          match i.part with
          | none => d.finishWarden i (.bad 0x01) bs
          | some q =>
            let k := generateKey d (alg i) (size i)
            d.used.used.create i q (i.bits 12 31 16) (i.expiry 14) k k.pub bs))

/-! ### KEY_DERIVE (R400, R403) -/

/-- METHOD and ALG of KEY_DERIVE. -/
def Item.method (i : Item) : Nat := i.bits 12 3 0
/-- The new entry's algorithm. -/
def Item.newAlg (i : Item) : Nat := i.bits 12 15 8

/-- Bytes of a derived key: those of its algorithm, 32 for HMAC (log 21). -/
def derivedLen (alg : Nat) : Nat := if alg = 8 then 32 else algKeyLen alg

/-- KEY_DERIVE's PARAM checks (R403, log 21). -/
def deriveParam (i : Item) : Option Verdict :=
  let a := i.newAlg
  let fits := match i.method with
    | 1 => algAes a
    | 2 => a = 1 || algAes a
    | _ => algSym a
  if i.method = 0 || 3 < i.method then some (.bad 0x01) else if !fits then some (.bad 0x02) else none

/-- The key of KEY_DERIVE (R400, R403). -/
def deriveNeed (i : Item) : KeyNeed :=
  match i.method with
  | 1 => ⟨i.kh1, 2 ^ 10, algAes⟩
  | 2 => ⟨i.kh1, 2 ^ 9, fun a => a = i.newAlg⟩
  | _ => ⟨i.kh1, 2 ^ 8, fun a => algTdes a || algAes a⟩

/-- The counter-mode KDF of SP 800-108 with CMAC: 32-bit counter, the input as label and context, 32-bit length (log 21). -/
def kdfCounter (c : BlockCipher) (input : List Byte) (n : Nat) : List Byte :=
  ((List.range ((n + c.size - 1) / c.size)).flatMap (fun k => cmac c (beBytes 4 (k + 1) ++ input ++ beBytes 4 (8 * n)))).take n

/-- The derived key (R403). -/
def derivedKey (i : Item) (alg : Nat) (key input : List Byte) : List Byte :=
  match i.method with
  | 1 => aesInitialKey key (input.take 8) (derivedLen i.newAlg)
  | 2 => emvMaster (algAes alg) key (input.take 8)
  | _ => kdfCounter (kbCipher (algAes alg) key) input (derivedLen i.newAlg)

/-- KEY_DERIVE (R403). -/
def execKeyDerive (it : Nat) (inp : Fetched) (s : State) : Host.Outcome State Fault Refusal :=
  s.answer (match s.dev.wardenItem it 0x53 with
    | none => s.dev
    | some i =>
      if !s.dev.keyTurn i then s.dev
      else s.dev.wardenOp it 0x53 inp
        (fun d i => match deriveParam i with
          | some v => some v
          | none => (match d.wardenKey i 0 (deriveNeed i) with
            | .error v => some v
            | .ok _ => none))
        (fun d i bs =>
          match i.part, d.wardenKey i 0 (deriveNeed i) with
          | some q, .ok e =>
            let k := derivedKey i e.alg.toNat (symKey ((d.ks.kek).getD []) e) bs
            d.create i q (i.bits 12 31 16) (i.expiry 13) ⟨i.newAlg, k.length / 4, [], k⟩ [] bs
          | _, .error v => d.finishWarden i v bs
          | none, _ => d.finishWarden i (.bad 0x01) bs))

/-! ### KEY_DESTROY and KEY_INFO (R400, R403) -/

/-- The entry of KH1 by reasons 1 and 2 alone (R400). -/
def Dev.anyEntry (d : Dev) (i : Item) : Except Verdict KeyEntry :=
  match d.entryOf i.kh1 with
  | none => .error (.key 1 0)
  | some e =>
    if i.kh1 = 0 || e.state = 0#3 then .error (.key 1 0)
    else if i.part.any (fun q => BitVec.ofNat 6 q.val ≠ e.owner) then .error (.key 2 0)
    else .ok e

/-- An entry destroyed: STATE, VERSION, and zeroes in WRAP and every blob line (R396, R403). -/
def KeyEntry.destroyed (e : KeyEntry) : KeyEntry :=
  { e with state := 2#3, version := e.version + 1, wrap := List.replicate e.wrap.length 0,
           pub := List.replicate e.pub.length 0, blob := List.replicate e.blob.length 0 }

/-- KEY_DESTROY (R403). -/
def execKeyDestroy (it : Nat) (inp : Fetched) (s : State) : Host.Outcome State Fault Refusal :=
  s.answer (match s.dev.wardenItem it 0x54 with
    | none => s.dev
    | some i =>
      if !s.dev.keyTurn i then s.dev
      else s.dev.wardenOp it 0x54 inp
        (fun d i => match d.anyEntry i with
          | .error v => some v
          | .ok _ => none)
        (fun d i bs => match d.anyEntry i with
          | .error v => d.finishWarden i v bs
          | .ok e => if e.state = 2#3 then d.finishWarden i (.ok []) bs else d.startChange i (.ok []) bs e.destroyed))

/-- A KEY_INFO record (R403). -/
def KeyEntry.info (e : KeyEntry) : List Byte :=
  leBytes 4 e.handle ++ leBytes 1 e.owner.toNat ++ leBytes 1 e.alg.toNat ++ leBytes 2 e.size.toNat ++ leBytes 2 e.usage.toNat ++
  leBytes 1 e.version.toNat ++ leBytes 1 e.state.toNat ++ leBytes 8 e.expiry.toNat ++ leBytes 4 e.kcv.toNat ++ List.replicate 8 0

/-- The entries that ENUM lists, in ascending order (R403). -/
def Dev.enumKeys (d : Dev) (i : Item) : List KeyEntry :=
  ((d.flash.keys.filter (fun e => e.state ≠ 0#3 && i.part.any (fun q => BitVec.ofNat 6 q.val = e.owner) &&
    i.bits 13 21 0 < e.handle)).mergeSort (fun a b => a.handle ≤ b.handle)).take (i.room / 32)

/-- KEY_INFO (R403). -/
def execKeyInfo (it : Nat) (inp : Fetched) (s : State) : Host.Outcome State Fault Refusal :=
  let enum (i : Item) : Bool := i.bits 12 0 0 = 1
  s.answer (s.dev.wardenOp it 0x55 inp
    (fun d i =>
      if enum i then none
      else match d.anyEntry i with
        | .error v => some v
        | .ok _ => if i.room < 32 then some .length else none)
    (fun d i bs =>
      if enum i then d.finishWarden i (.ok ((d.enumKeys i).flatMap KeyEntry.info)) bs
      else match d.anyEntry i with
        | .error v => d.finishWarden i v bs
        | .ok e => d.finishWarden i (.ok e.info) bs))

end Sys2Proof.Machine
end

