-- ==== Sys2Proof/Machine/AdminOps.lean ====
section
/-! DEFINITION. Sessions, AUDIT_ATTEST, SEAL_NOW and the administration opcodes on partitions, time, state and secrets
(R404, R405, R422, R426, R432 to R436, R440). -/

namespace Sys2Proof.Machine

open Sys2Proof

/-! ### Sessions (R404, R405) -/

/-- Whether an item is one that passed check 7 for a session (R339, R405). -/
def Dev.sessionItem (d : Dev) (n : Nat) (i : Item) : Bool :=
  d.takesSession i.fn i.opc && i.session = n && i.status ≠ 0x13#8 && i.status ≠ 0x14#8

/-- Whether a session number is taken: by an open session, or a closed one with items in flight (R405). -/
def Dev.sessionTaken (d : Dev) (n : Nat) : Bool :=
  d.sessions.any (fun s => s.num = n && (s.opened || d.items.any (d.sessionItem n)))

/-- The lowest free session number from `n` on. -/
def Dev.lowestSession (d : Dev) : Nat → Nat → Nat
  | 0, n => n
  | k + 1, n => if d.sessionTaken n then Dev.lowestSession d k (n + 1) else n

/-- Adds a session in the place of its number. -/
def addSession (x : Session) (ss : List Session) : List Session :=
  ss.filter (fun s => s.num < x.num) ++ [x] ++ ss.filter (fun s => x.num < s.num)

/-- Opens a session at the lowest free number: the number, or none (R404). -/
def Dev.openSession (d : Dev) (x : Nat → Session) : Option (Nat × Dev) :=
  let n := d.lowestSession d.sessions.length 0
  if 65535 < n then none else some (n, { d with sessions := addSession (x n) d.sessions })

/-- The session that PARAM describes (R404). -/
def paramSession (i : Item) (q : Fin 64) (n : Nat) : Session :=
  { num := n, fn := i.fn, part := q, qos := BitVec.ofNat 4 (i.bits 12 3 0), s1w := BitVec.ofNat 2 (i.bits 12 5 4),
    root := BitVec.ofNat 30 (i.bits 13 29 0), h := 0, w := 1, items := 0 }

/-- SESSION with RESULT 0x01: no free number (R404). -/
def Verdict.noSession : Verdict := { status := 0x13, result := 0x01 }

/-- A partition number in range. -/
def partOf (n : Nat) : Fin 64 := ⟨n % 64, Nat.mod_lt _ (by decide)⟩

/-- SESSION_OPEN (R404). -/
def execSessionOpen (it : Nat) (inp : Fetched) (s : State) : Host.Outcome State Fault Refusal :=
  let part (i : Item) : Fin 64 := match i.fn with
    | .vf v => v
    | _ => partOf (i.bits 12 13 8)
  s.answer (s.dev.wardenOp it 0x60 inp
    (fun d i => if d.partExists (part i) then none else some (.bad 0x01))
    (fun d i bs => match d.openSession (paramSession i (part i)) with
      | none => d.finishWarden i .noSession bs
      | some (n, d) => d.finishWarden i { status := 0, d6 := n } bs))

/-- SESSION_CLOSE (R405). -/
def execSessionClose (it : Nat) (inp : Fetched) (s : State) : Host.Outcome State Fault Refusal :=
  s.answer (s.dev.wardenOp it 0x61 inp (fun _ _ => none) (fun d i bs =>
    let n := ((d.session? i.session).map (fun x => x.items.toNat % 2 ^ 32)).getD 0
    ({ d with sessions := d.sessions.map (fun (x : Session) => if x.num = i.session then { x with opened := false } else x) }).finishWarden i
      { status := 0, d6 := n } bs))

/-! ### AUDIT_ATTEST and SEAL_NOW (R422, R426) -/

/-- Whether a seal may anchor an attestation of a chain (R426): signed by this identity, KIND 1 to 4; a KIND 4 seal carries the
head of its own chain alone. -/
def anchorOk (pub : List Byte) (c : Nat) (b : List Byte) : Bool :=
  sealValid pub b && 1 ≤ sealKind b && sealKind b ≤ 4 &&
  (sealKind b ≠ 4 || (List.range 17).all (fun k => k = c || sealHead b k = (0, List.replicate 16 0)))

/-- Checks records from a head on: the number of the first that fails, or the head after the last (R426). -/
def attestRecords (key : List Byte) (c : Nat) : Nat → Nat × List Byte → List (List Byte) → Nat ⊕ (Nat × List Byte)
  | _, h, [] => .inr h
  | k, h, r :: rs =>
    if (r.getD 0 0).toNat = 1 && (r.getD 2 0).toNat = c && leNat ((r.drop 4).take 6) = h.1 + 1 &&
        recMark key h.2 (r.take 48) = (r.drop 48).take 16 then
      attestRecords key c (k + 1) (h.1 + 1, (r.drop 48).take 16) rs
    else .inl k

/-- AUDIT_ATTEST (R426). -/
def execAuditAttest (it : Nat) (inp : Fetched) (s : State) : Host.Outcome State Fault Refusal :=
  let chain (i : Item) : Nat := i.bits 12 4 0
  let mode (i : Item) : Nat := i.bits 12 9 8
  s.answer (s.dev.wardenOp it 0x7E inp
    (fun d i =>
      if 16 < chain i then some (.bad 0x01) else if 1 < mode i then some (.bad 0x02)
      else if mode i = 1 && i.room < d.flash.cert.length then some .length else none)
    (fun d i bs =>
      if mode i = 1 then d.finishWarden i (.ok d.flash.cert) bs
      else
        let c := chain i
        let anchor := bs.take 576
        if !anchorOk d.identityPub c anchor then d.finishWarden i (.verifyFail 0x02) bs
        else match attestRecords (d.ks.chainKey c) c 0 (sealHead anchor c) (chunksOf 64 (bs.drop 576)) with
          | .inl k => d.finishWarden i { status := 0x01, result := 0x01, d6 := k } bs
          | .inr h =>
            let heads := (List.range 17).map (fun k => if k = c then h else (0, List.replicate 16 0#8))
            d.finishWarden i { status := 0, out := d.sealBytes 4 d.ks.epoch (sealEpoch anchor) heads, d6 := (bs.length - 576) / 64 } bs))

/-- SEAL_NOW: the item waits for the seal that the sealer forms for it (R422). -/
def execSealNow (it : Nat) (inp : Fetched) (s : State) : Host.Outcome State Fault Refusal :=
  s.answer (s.dev.wardenOp it 0x7F inp (fun _ _ => none) (fun d i bs =>
    let per : Bool := i.bits 12 0 0 = 1
    let d := { d with audit := { d.audit with sealNow := d.audit.sealNow ++ [(it, per)] } }
    d.onItem it (fun i => { i with inBytes := bs, stage := .sealWait 0 per })))

/-! ### Partitions (R432, R434) -/

/-- Writes the partitions into the key store log, and PR_S2CFG on every pier (R305, R434). -/
def Dev.partsChanged (d : Dev) : Dev :=
  (List.finRange 16).foldl (fun d p => d.s2Restore p) { d with flash := { d.flash with parts := d.parts } }

/-- Builds a partition's tables on every pier of its ST_PART.PIERS (R305, R434). -/
def Dev.buildAll (d : Dev) (q : Partition) : Dev :=
  (List.finRange 16).foldl (fun d p => if d.setter.part[q.part].piers.getLsbD p.val then d.buildNew q p else d) d

/-- PART_CREATE's refusal, or none (R432, log 22). -/
def Dev.createRefused (d : Dev) (q : Fin 64) (quarry keys : Nat) : Option Nat :=
  if d.partExists q then some 0x01
  else if quarry = 0 || keys = 0 then some 0x03
  else if 6656 < quarry + (d.parts.map (·.quarry)).sum then some 0x02
  else none

/-- PART_CREATE (R432, R434). -/
def execPartCreate (it : Nat) (inp : Fetched) (s : State) : Host.Outcome State Fault Refusal :=
  s.answer (s.dev.wardenOp it 0x80 inp (fun _ _ => none) (fun d i bs =>
    let q := partOf (i.bits 12 5 0)
    let n := i.bits 13 12 0
    match d.createRefused q n (i.bits 14 21 0) with
    | some r => d.finishWarden i (.bad r) bs
    | none =>
      let x : Partition := ⟨q, n, i.bits 14 21 0, d.freeUnits n⟩
      ((Dev.buildAll { d with parts := d.parts ++ [x] } x).partsChanged).finishWarden i (.ok []) bs))

/-- Whether items of a partition are still in flight, or fetches of its VF (R434 step 1). -/
def Dev.partBusy (d : Dev) (q : Fin 64) (it : Nat) : Bool :=
  d.items.any (fun i => i.id ≠ it && i.part = some q) || (d.fn (.vf q)).outstanding ≠ 0

/-- Hands every bank of a partition on a pier to owner 127 (R280, R434 step 5). -/
def banksFreed (q : Fin 64) (now : Nat) (P : Pier) : Pier :=
  (List.finRange 16).foldl (fun P b =>
    if P.mem.bank[b].owner = BitVec.ofNat 7 q.val then handOver P now b 127#7 else P) P

/-- Steps 2 to 5 of PART_DESTROY (R434). -/
def Dev.destroyPart (d : Dev) (q : Partition) : Dev :=
  let d := { d with sessions := d.sessions.filter (fun s => s.part ≠ q.part) }
  let keys := d.flash.keys.filter (fun e => e.owner.toNat = q.part.val && e.state = 1#3)
  let d := keys.foldl (fun d e => Dev.writeReplicas { d with flash := d.flash.putKey e.destroyed } e.destroyed) d
  let k := ((d.ks.putWords (0x100 + 8 * q.part.val) (List.replicate 8 0)).put (0x300 + q.part.val) 0).discard q.part.val
  let d := { d with ks := k, loaded := d.loaded.filter (fun l => l.part ≠ q.part) }
  let d := d.allPiers (fun P =>
    clearRegion q (banksFreed q.part d.now (clearCourses q.part.val P)))
  let d := { d with
    parts := d.parts.filter (fun p => p.part ≠ q.part)
    setter := { d.setter with
      leaves := d.setter.leaves.filter (fun l => l.part ≠ q.part)
      s2Due := d.setter.s2Due.filter (fun e => e.2 ≠ q.part) }
    life := { d.life with destroying := none } }
  Dev.persist d.partsChanged

/-- PART_DESTROY: it stops fetching from the VF and waits for the partition's items; the same command goes on when they have
completed (R434, log 4). -/
def execPartDestroy (it : Nat) (inp : Fetched) (s : State) : Host.Outcome State Fault Refusal :=
  s.answer (s.dev.wardenOp it 0x81 inp (fun _ _ => none) (fun d i bs =>
    let q := partOf (i.bits 12 5 0)
    if d.life.destroying.any (fun e => e.1 ≠ it) then d
    else match d.parts.find? (fun p => p.part = q) with
      | none => d.finishWarden i (.bad 0x01) bs
      | some x =>
        let d := { d with life := { d.life with destroying := some (it, q) } }
        if d.partBusy q it then d.onItem it (fun i => { i with stage := .destroyWait })
        else (d.destroyPart x).finishWarden i (.ok []) bs))

/-! ### KEK_COMPONENT and SET_TIME (R432, R435) -/

/-- KEK_COMPONENT on PF0 (R435). -/
def execKekComponent (it : Nat) (inp : Fetched) (s : State) : Host.Outcome State Fault Refusal :=
  let q (i : Item) : Nat := i.bits 12 5 0
  let kalg (i : Item) : Nat := i.bits 12 9 8
  s.answer (s.dev.wardenOp it 0x82 inp
    (fun d i =>
      if !d.partExists (partOf (q i)) || (kalg i ≠ 1 && kalg i ≠ 2) || i.inLen ≠ (if kalg i = 1 then 24 else 32) then some (.bad 0x01)
      else none)
    (fun d i bs =>
      match d.expireAll.kekArrive (q i) (kalg i) (i.bits 13 23 0) bs true with
      | (.refused c, d) => d.finishWarden i (if c = 0x52 || c = 0x55 then .verifyFail c else .bad c) []
      | (.pending, d) => d.finishWarden i (.ok []) []
      | (.pair v, d) => d.finishWarden i { status := 0, d7 := v } []))

/-- SET_TIME (R432). -/
def execSetTime (it : Nat) (inp : Fetched) (s : State) : Host.Outcome State Fault Refusal :=
  s.answer (s.dev.wardenOp it 0x83 inp (fun _ _ => none) (fun d i bs =>
    ({ d with audit := { d.audit with cal := some ((i.expiry 12).toNat, d.now) } }).finishWarden i (.ok []) bs))

/-! ### SET_STATE (R433, R440) -/

/-- Whether VF items are in flight (R433). -/
def Dev.vfBusy (d : Dev) : Bool :=
  (d.items.any (fun i => match i.fn with
    | .vf _ => true
    | _ => false)) || (List.finRange 64).any (fun v => (d.fn (.vf v)).outstanding ≠ 0)

/-- SET_STATE 1: TEST once every VF item has completed; until then the item waits (R433). -/
def Dev.enterTest (d : Dev) (i : Item) (bs : List Byte) : Dev :=
  if d.life.op ≠ .service then ({ d with life := { d.life with testWait := none } }).finishWarden i (.bad 0x01) bs
  else if d.vfBusy then
    ({ d with life := { d.life with testWait := some i.id } }).onItem i.id (fun i => { i with stage := .stateWait })
  else
    let d := d.finishWarden i (.ok []) bs
    { d with life := { d.life with op := .test, testWait := none } }

/-- The transitions of R433: whether target `t` may be entered. -/
def Dev.stateMay (d : Dev) (t : Nat) : Bool :=
  match t with
  | 1 => d.life.op = .service && (d.life.testWait.isNone)
  | 2 => d.life.op = .test
  | 3 => d.authState = 3
  | 4 => d.authState = 1 || d.authState = 2
  | 5 => d.authState = 1
  | 6 => d.life.life ≠ 0#3 && d.life.life ≠ 4#3
  | _ => false

/-- The transition that a completed SET_STATE makes, when its record is appended (R433). SET_STATE 3 clears the device
recovery history (R454); SET_STATE 2 writes PR_S2CFG again (R305). -/
def Dev.stateMove (d : Dev) (t : Nat) : Dev :=
  match t with
  | 2 => (List.finRange 16).foldl (fun d p => d.s2Restore p) d.enterService
  | 3 =>
    let d := (d.setLife 2).enterService
    { d with fc := { d.fc with drec := [] } }
  | 4 => d.enterRecovery
  | 5 => d.setLife 2
  | _ => d

/-- SET_STATE (R433). -/
def execSetState (it : Nat) (inp : Fetched) (s : State) : Host.Outcome State Fault Refusal :=
  let target (i : Item) : Nat := i.bits 12 3 0
  s.answer (s.dev.wardenOp it 0x84 inp
    (fun d i =>
      if i.stage = .stateWait then none
      else if !d.stateMay (target i) then some (.bad 0x01)
      else if target i = 6 && i.dw 13 ≠ 0xDEC00DED#32 then some (.bad 0x02) else none)
    (fun d i bs =>
      if target i = 1 then d.enterTest i bs
      else if target i = 6 then (d.finishWarden i (.ok []) bs).zeroizeStart true
      else (d.finishWarden i (.ok []) bs).stateMove (target i)))

/-! ### PROVISION, SET_CERT, SET_REENTRY (R432, R436, R440) -/

/-- The secrets that PROVISION generates (free values, log 2), and the genesis heads (R416, R436). A record that waits for
PF1 slot 1 at that moment keeps its number and moves no head (log 68). -/
def Dev.provision (d : Dev) : Dev :=
  let d1 := d.used
  let d2 := d1.used
  let kek := freshBytes d 32
  let root := freshBytes d1 32
  let x := 1 + (d2.free 384).toNat % (p384.n - 1)
  let k := (((({} : Keystone).putBytes 0 kek).putBytes 8 root).putBytes 0x10 (leBytes 48 x)).putBytes 0x30 (d.ks.bytes 0x30 12)
  let d := d2.used
  let d := { d with
    ks := k.setEpoch d.ks.epoch
    audit := { d.audit with older := d.audit.recs.length, lastSeal := d.now, full := [] } }
  let d := d.setLife 1
  { d with piers := Vector.ofFn (fun (p : Fin 16) =>
      let P := d.pier p
      { P with runs := { P.runs with au0 := d.au0For p } }) }

/-- PROVISION (R436): the output is the identity's public key. -/
def execProvision (it : Nat) (inp : Fetched) (s : State) : Host.Outcome State Fault Refusal :=
  s.answer (s.dev.wardenOp it 0x85 inp (fun _ _ => none) (fun d i bs =>
    let d := d.provision
    d.finishWarden i (.ok d.identityPub) bs))

/-- SET_CERT (R432). -/
def execSetCert (it : Nat) (inp : Fetched) (s : State) : Host.Outcome State Fault Refusal :=
  s.answer (s.dev.wardenOp it 0x86 inp (fun _ _ => none) (fun d i bs =>
    if Config.certLeaf bs = d.identityPub then ({ d with flash := { d.flash with cert := bs } }).finishWarden i (.ok []) bs
    else d.finishWarden i (.verifyFail 0x01) bs))

/-- SET_REENTRY (R432, R440). -/
def execSetReentry (it : Nat) (inp : Fetched) (s : State) : Host.Outcome State Fault Refusal :=
  s.answer (s.dev.wardenOp it 0x87 inp (fun _ _ => none) (fun d i bs =>
    (Dev.writeLife { d with life := { d.life with reentry := i.bits 12 0 0 = 1 } }).finishWarden i (.ok []) bs))

end Sys2Proof.Machine
end

