-- ==== Sys2Proof/Machine/Regs.lean ====
section
/-! DEFINITION. Set-up registers: the windows of R28 and R29, reading and writing every register, the doorbell pages, and
REGISTER_WRITE (R7 to R11, R28 to R34, R329). -/

namespace Sys2Proof.Machine

open Sys2Proof

/-! ### Windows (R28, R29) -/

/-- A register by its block and index (R28). -/
inductive RegAt where
  | fr (k : Nat)
  | st (k : Nat)
  | fc (k : Nat)
  | pw (k : Nat)
  | au (k : Nat)
  | sb (k : Nat)
  | pr (p : Fin 16) (k : Nat)
  | qy (p : Fin 16) (k : Nat)
  | pt (p : Fin 16) (k : Nat)
deriving DecidableEq, Repr

/-- The register at index `n` of the 32-bit words of PF0 BAR0; none for a reserved range (R28). -/
def windowAt (n : Nat) : Option RegAt :=
  let k := n % 0x40000
  if n < 0x40000 then some (.fr k)
  else if n < 0x80000 then some (.st k)
  else if n < 0xC0000 then some (.fc k)
  else if n < 0x100000 then some (.pw k)
  else if n < 0x140000 then some (.au k)
  else if n < 0x180000 then some (.sb k)
  else if n < 0x400000 || 0x800000 ≤ n then none
  else
    let p : Fin 16 := ⟨(n - 0x400000) / 0x40000 % 16, Nat.mod_lt _ (by decide)⟩
    if k < 0x8000 then some (.pr p k)
    else if k < 0xC000 then some (.qy p (k - 0x8000))
    else if k < 0x10000 then some (.pt p (k - 0xC000))
    else none

/-- The register that a core reaches at a physical word address: a sequencer its own pier's blocks, the warden every
window (R28, R29). -/
def coreWindow (c : CoreId) (a : Word) : Option RegAt :=
  match c with
  | .pier p =>
    (match physTarget a with
     | .pr k => some (.pr p k)
     | .qy k => some (.qy p k)
     | .pt k => some (.pt p k)
     | _ => none)
  | .warden => if 0x40000000 ≤ a.toNat then windowAt (a.toNat - 0x40000000) else none

/-- The agent that a core's access is (R305, R459, R473). -/
def coreAgent : CoreId → Agent
  | .pier _ => .sequencer
  | .warden => .warden

/-! ### CFG_ERR (R34) -/

/-- Bit 31 of a word. -/
def bit31 (b : Bool) : Nat := if b then 2 ^ 31 else 0

/-- The CFG_ERR bit of a register's block rises. -/
def Dev.blockError (d : Dev) : RegAt → Dev
  | .fr _ => { d with life := { d.life with frErr := true } }
  | .st _ => { d with setter := { d.setter with err := true } }
  | .fc _ => { d with fc := { d.fc with err := true } }
  | .pw _ => { d with pw := { d.pw with err := true } }
  | .au _ => { d with audit := { d.audit with err := true } }
  | .sb _ => { d with board := { d.board with err := true } }
  | .pr p _ => d.onReg p prError
  | .qy p _ => d.onReg p (fun P => { P with regs := { P.regs with qyErr := true } })
  | .pt p _ => d.onReg p (fun P => { P with regs := { P.regs with ptErr := true } })

/-- CFG_ERR after a write of the block's first register: W1C (R34). -/
def w1c (old : Bool) (v : DW) : Bool := old && !v.getLsbD 31

/-! ### The core timer (R267) -/

/-- A write of PR_TMR or FR_WTMR: a count starts, or stops without an interrupt (R267). -/
def Core.writeTimer (c : Core) (v : DW) : Core := { c with tmr := v, tmrRun := v ≠ 0 }

/-! ### The PR_, QY_ and PT_ blocks -/

/-- PR_BANK_PWR (R11, R283). -/
def bankPwrWrite (P : Pier) (v : DW) : Pier :=
  let P := { P with regs := { P.regs with reten := v.extractLsb' 0 16 } }
  if v.extractLsb' 16 16 = 0#16 then prError P else { P with regs := { P.regs with idle := v.extractLsb' 16 16 } }

/-- PR_SPACE (R11, R304). -/
def spaceWrite (P : Pier) (v : DW) : Pier :=
  let P := { P with regs := { P.regs with tag := v.extractLsb' 0 22 } }
  if v.extractLsb' 22 2 = 3#2 then prError P else { P with regs := { P.regs with s1w := v.extractLsb' 22 2 } }

/-- PR_S2CFG of partition `q` (R8, R305): a host write acts only in TEST; elsewhere one that would change the register
changes nothing and sets CFG_ERR. -/
def Dev.s2cfgWrite (d : Dev) (a : Agent) (p : Fin 16) (q : Fin 64) (v : DW) : Dev :=
  let c : S2Cfg := ⟨v.extractLsb' 30 2, v.extractLsb' 0 30⟩
  d.onReg p (fun P =>
    if P.regs.s2cfg[q] = c then P
    else if a = .host && d.life.op ≠ .test then prError P
    else { P with regs := { P.regs with s2cfg := P.regs.s2cfg.set q c } })

/-- PR_PREEMPT.ACK (R11, R371): it acts while REQ is 1. -/
def Dev.preemptWrite (d : Dev) (p : Fin 16) (v : DW) : Dev :=
  let ack := (v.extractLsb' 8 2).toNat
  if ack = 3 then d.onReg p prError
  else if !(d.pier p).regs.req then d
  else if ack = 1 then (d.ackSuspended p).eagerAll
  else if ack = 2 then (d.ackEnded p).eagerAll
  else d

/-- The checker window of R459: accesses of a core are ignored. -/
def Dev.chkWrite (d : Dev) (a : Agent) (p : Fin 16) (k : Nat) (v : DW) : Dev :=
  if a ≠ .host then d
  else match k with
    | 0x30 =>
      let op := (v.extractLsb' 0 2).toNat
      if op = 0 then d else d.checker p a op
    | 0x31 => d.onReg p (fun P => { P with regs := { P.regs with chkAddr := v.extractLsb' 0 21 } })
    | 0x32 => d.onReg p (fun P => { P with regs := { P.regs with chkD0 := v } })
    | 0x33 => d.onReg p (fun P => { P with regs := { P.regs with chkChk := v.extractLsb' 8 7, chkD1 := v.extractLsb' 0 4 } })
    | _ => d

/-- A write of PR_BANK_OWN, PR_S2CFG or an index that holds no register (R33). -/
def Dev.prWriteHigh (d : Dev) (a : Agent) (p : Fin 16) (k : Nat) (v : DW) : Dev :=
  if 0x40 ≤ k && k < 0x50 then
    d.onReg p (fun P => bankOwnWrite P d.now ⟨k % 16, Nat.mod_lt _ (by decide)⟩ v)
  else if 0x80 ≤ k && k < 0xC0 then d.s2cfgWrite a p ⟨k % 64, Nat.mod_lt _ (by decide)⟩ v
  else d

/-- A write of a PR_ register (R111 to R114, R241, R267, R278 to R285, R297, R304, R305, R318, R351, R365, R371, R459). -/
def Dev.prWrite (d : Dev) (a : Agent) (p : Fin 16) (k : Nat) (v : DW) : Dev :=
  match k with
  | 0x00 => d.onReg p (fun P => { P with regs := { P.regs with prErr := w1c P.regs.prErr v } })
  | 0x08 => { d.onReg p (fun P => runCtlWrite P d.now d.fresh v) with fresh := d.fresh + accFrees }
  | 0x09 => d.onReg p (fun P => if v.getLsbD 0 then { P with mem := { P.mem with icache := [] } } else P)
  | 0x0A => d.onReg p (fun P => { P with core := P.core.writeTimer v })
  | 0x0C => d.onReg p (fun P => bankPwrWrite P v)
  | 0x0D => d.onReg p (fun P => { P with regs := { P.regs with xbPrio := v.extractLsb' 0 18 } })
  | 0x0E => d.onReg p (fun P => { P with regs := { P.regs with xbQos := v.extractLsb' 0 4 } })
  | 0x0F => d.onReg p (fun P => bankRetireWrite P d.now v)
  | 0x10 => d.onReg p (fun P => spaceWrite P v)
  | 0x11 => d.onReg p (fun P => { P with regs := { P.regs with s1root := v.extractLsb' 0 30 } })
  | 0x12 => d.onReg p (fun P => prTlbiWrite P v)
  | 0x20 => d.onReg p (fun P => hodPost P (a ≠ .sequencer) v)
  | 0x21 => d.onReg p (fun P => hodStatWrite P v)
  | 0x22 => d.onReg p (fun P => hodCtl P v)
  | 0x28 => d.getWrite p (v.extractLsb' 0 4)
  | 0x2A => d.preemptWrite p v
  | 0x30 => d.chkWrite a p k v
  | 0x31 => d.chkWrite a p k v
  | 0x32 => d.chkWrite a p k v
  | 0x33 => d.chkWrite a p k v
  | _ => d.prWriteHigh a p k v

/-- The value of a QY_ register: a core reads the injectors as 0 (R459, R460). -/
def Dev.qyRead (d : Dev) (a : Agent) (p : Fin 16) (k : Nat) : Nat :=
  let R := (d.pier p).regs
  if k = 0 then bit31 R.qyErr
  else if a ≠ .host then 0
  else if 0x10 ≤ k && k < 0x13 then
    let i := R.inj[(⟨(k - 0x10) % 3, Nat.mod_lt _ (by decide)⟩ : Fin 3)]
    bit31 i.arm + i.nonet.toNat * 2 ^ 16 + i.mask.toNat
  else if k = 0x13 then R.injLine.toNat
  else 0

/-- The bits of a QY_ register that a write may change (R460). -/
def qyFields (k : Nat) : DW := if 0x10 ≤ k && k < 0x13 then 0x803F01FF#32 else if k = 0x13 then 0x01FFFFFF#32 else 0

/-- A write of a QY_ register: the injectors obey PF0 in TEST alone, and outside TEST a write of PF0 that would change one is a
locked write (R8, R460). -/
def Dev.qyWrite (d : Dev) (a : Agent) (p : Fin 16) (k : Nat) (v : DW) : Dev :=
  let test : Bool := a = .host && d.life.op = .test
  if k = 0 then d.onReg p (fun P => { P with regs := { P.regs with qyErr := w1c P.regs.qyErr v } })
  else if !test then
    (if a = .host && (v &&& qyFields k).toNat ≠ d.qyRead .host p k && qyFields k ≠ 0 then
      d.onReg p (fun P => { P with regs := { P.regs with qyErr := true } }) else d)
  else if 0x10 ≤ k && k < 0x13 then
    let j : Fin 3 := ⟨(k - 0x10) % 3, Nat.mod_lt _ (by decide)⟩
    d.onReg p (fun P => { P with regs := { P.regs with
      inj := P.regs.inj.set j ⟨v.getLsbD 31, v.extractLsb' 16 6, v.extractLsb' 0 9⟩ } })
  else if k = 0x13 then
    d.onReg p (fun P =>
      if partitionLines ≤ (v.extractLsb' 0 25).toNat then { P with regs := { P.regs with qyErr := true } }
      else { P with regs := { P.regs with injLine := v.extractLsb' 0 25 } })
  else d

/-- A write of PT_CTL: PAUSE is RWL, CFG_ERR is W1C (R8, R34, R461). -/
def Dev.ptCtlWrite (d : Dev) (P : Pier) (v : DW) : Pier :=
  let change : Bool := v.getLsbD 2 ≠ P.regs.pause
  let P := if !change then P
    else if d.unlocked then { P with regs := { P.regs with pause := v.getLsbD 2 } }
    else { P with regs := { P.regs with ptErr := true } }
  { P with regs := { P.regs with ptErr := w1c P.regs.ptErr v } }

/-- A lap limit: 0 is reserved (R11, R461). -/
def limitWrite (P : Pier) (quarry : Bool) (v : DW) : Pier :=
  if v = 0 then { P with regs := { P.regs with ptErr := true } }
  else if quarry then { P with lapQ := { P.lapQ with limit := v } }
  else { P with lapB := { P.lapB with limit := v } }

/-- A write of a PT_ register (R8, R461). -/
def Dev.ptWrite (d : Dev) (p : Fin 16) (k : Nat) (v : DW) : Dev :=
  match k with
  | 0 => d.onReg p (fun P => d.ptCtlWrite P v)
  | 3 => d.onReg p (fun P => limitWrite P false v)
  | 4 => d.onReg p (fun P => limitWrite P true v)
  | _ => d

/-! ### The FR_ block (R267, R301, R328, R429, R478) -/

/-- The VFs' total ring count, VF `v` left out (R328). -/
def Dev.ringsBeside (d : Dev) (v : Fin 64) : Nat :=
  (((List.finRange 64).filter (fun w => w ≠ v)).map (fun w => (d.fn (.vf w)).ringCnt.toNat)).sum

/-- FR_VFCFG of VF `v` + 1 (R11, R328). -/
def Dev.vfcfgWrite (d : Dev) (v : Fin 64) (w : DW) : Dev :=
  let f := FnId.vf v
  let n := w.extractLsb' 0 7
  let d := d.onFn f (fun F => { F with infl := w.extractLsb' 16 8 })
  if n = (d.fn f).ringCnt then d
  else if 64 < n.toNat || 4076 < d.ringsBeside v + n.toNat || (d.fn f).rings.toList.any (·.en) then d.blockError (.fr 0)
  else d.onFn f (fun F => { F with ringCnt := n })

/-- FR_BOOT: REMAP is RWL (R8, R301). -/
def Dev.bootWrite (d : Dev) (v : DW) : Dev :=
  if v.getLsbD 0 = d.life.remap then d
  else if d.unlocked then { d with life := { d.life with remap := v.getLsbD 0 } }
  else d.blockError (.fr 0)

/-- A write of a FR_ register. -/
def Dev.frWrite (d : Dev) (k : Nat) (v : DW) : Dev :=
  match k with
  | 0x00 => { d with life := { d.life with frErr := w1c d.life.frErr v } }
  | 0x01 => d.bootWrite v
  | 0x03 => d.frResetWrite v
  | 0x0A => d.onCore .warden (fun c => c.writeTimer v)
  | _ => if 0x100 ≤ k && k < 0x140 then d.vfcfgWrite ⟨k % 64, Nat.mod_lt _ (by decide)⟩ v else d

/-! ### The ST_ block (R367, R368, R376, R377) -/

/-- ST_CTL: a QD of 0 is reserved; a change of KC waits for each pier to hold no batch (R11, R361, R367, R376). -/
def Dev.stCtlWrite (d : Dev) (v : DW) : Dev :=
  let qd := v.extractLsb' 3 2
  let d := { d with setter := { d.setter with
    qd := if qd = 0#2 then d.setter.qd else qd, kc := v.getLsbD 2, eager := v.getLsbD 1
    err := w1c (d.setter.err || qd = 0#2) v } }
  (List.finRange 16).foldl (fun d p => d.kcSync p) d

/-- Banks 0 to 14 of a pier at owner 64 or at partition `q`, which the partition's quota takes from (R285, R368). -/
def Pier.banksFree (P : Pier) (q : Fin 64) : Nat :=
  ((List.finRange 16).filter (fun b => b.val < 15 && !P.regs.retire.getLsbD b.val &&
    (P.mem.bank[b].owner = 64#7 || P.mem.bank[b].owner.toNat = q.val))).length

/-- ST_PART of partition `q` (R11, R305, R368, R376, R377, R406): a pier added to PIERS gets the partition's tables and
its loaded programs, and every PR_S2CFG of the partition follows PIERS, on a pier where the partition is active once it no
longer is (R319). -/
def Dev.stPartWrite (d : Dev) (q : Fin 64) (v : DW) : Dev :=
  let old := d.setter.part[q]
  let piers := v.extractLsb' 0 16
  let banks := v.extractLsb' 16 4
  let clash : Bool := v.getLsbD 31 && (List.finRange 64).any (fun o =>
    o ≠ q && d.setter.part[o].excl && (d.setter.part[o].piers &&& piers) ≠ 0)
  if clash then d.blockError (.st 0)
  else
    let few : Bool := (List.finRange 16).any (fun p => piers.getLsbD p.val && (d.pier p).banksFree q < banks.toNat + 6)
    let bad : Bool := 9 < banks.toNat || few
    let new : StPart := ⟨v.getLsbD 31, if bad then old.banks else banks, piers⟩
    let d := { d with setter := { d.setter with part := d.setter.part.set q new, err := d.setter.err || bad } }
    match d.parts.find? (fun x => x.part = q) with
    | none => d
    | some x =>
      let progs := d.loaded.filter (fun l => l.part = q && !l.isMap)
      (List.finRange 16).foldl (fun d p =>
        if piers.getLsbD p.val = old.piers.getLsbD p.val then d
        else if d.setter.s2Due.contains (p, q) then
          { d with setter := { d.setter with s2Due := d.setter.s2Due.filter (fun e => e ≠ (p, q)) } }
        else if !piers.getLsbD p.val && d.partActive p q then { d with setter := { d.setter with s2Due := d.setter.s2Due ++ [(p, q)] } }
        else
          let d := d.onPier p (fun P => { P with regs := { P.regs with s2cfg := P.regs.s2cfg.set q (s2CfgFor (piers.getLsbD p.val) q.val) } })
          if piers.getLsbD p.val then
            (d.buildNew x p).onPier p (fun P => progs.foldl (fun P l => writeImage d.now q (parseImage l.words) P) P)
          else d) d

/-- What a write of a ST_ register changes (R376). -/
def Dev.stPut (d : Dev) (k : Nat) (v : DW) : Dev :=
  let s := d.setter
  match k with
  | 0x00 => d.stCtlWrite v
  | 0x01 =>
    let w := v.extractLsb' 0 16
    if w = 0#16 then d.blockError (.st 0) else { d with setter := { s with win := w } }
  | 0x02 =>
    let b := v.extractLsb' 0 13
    if b.toNat < 32 || 4096 < b.toNat || b.toNat % 32 ≠ 0 then d.blockError (.st 0) else { d with setter := { s with bmax := b } }
  | 0x03 =>
    let m := v.extractLsb' 8 8
    let d := { d with setter := { s with preEn := v.getLsbD 31, maxp := v.extractLsb' 0 4 } }
    if m.toNat < 20 then d.blockError (.st 0) else { d with setter := { d.setter with minrun := m } }
  | 0x04 =>
    let m := v.extractLsb' 16 5
    let t := v.extractLsb' 0 16
    { d with setter := { s with
      offok := v.getLsbD 31, minawake := if 16 < m.toNat then s.minawake else m, sleept := if t = 0#16 then s.sleept else t
      err := s.err || decide (16 < m.toNat) || t = 0#16 } }
  | 0x05 => { d with setter := { s with en := v.extractLsb' 0 16 } }
  | _ => if 0x40 ≤ k && k < 0x80 then d.stPartWrite ⟨k % 64, Nat.mod_lt _ (by decide)⟩ v else d

/-- A write of a ST_ register, which may change the policy: open batches and the waiting batches are reconsidered (R361, R364
rule 4, R376). -/
def Dev.stWrite (d : Dev) (k : Nat) (v : DW) : Dev := (d.stPut k v).eagerAll.placeNext

/-! ### The FC_, PW_, AU_ and SB_ blocks -/

/-- A write of a FC_ register (R450, R454, R457). -/
def Dev.fcWrite (d : Dev) (k : Nat) (v : DW) : Dev :=
  match k with
  | 0x00 => { d with fc := { d.fc with err := w1c d.fc.err v } }
  | 0x02 => d.restore v
  | 0x08 =>
    let n := v.extractLsb' 0 10
    if n.toNat = 0 || 1000 < n.toNat then d.blockError (.fc 0) else { d with fc := { d.fc with period := n } }
  | _ =>
    if 0x800 ≤ k && k < 0xC00 && k % 4 = 0 then
      d.clogWrite ⟨(k - 0x800) / 64 % 16, Nat.mod_lt _ (by decide)⟩ ⟨k % 64 / 4 % 16, Nat.mod_lt _ (by decide)⟩ v
    else d

/-- A write of a PW_ register (R473). -/
def Dev.pwWrite (d : Dev) (a : Agent) (k : Nat) (v : DW) : Dev :=
  match k with
  | 0x00 => { d with pw := { d.pw with err := w1c d.pw.err v } }
  | 0x01 => d.writeBudget v
  | _ => if 0x10 ≤ k && k < 0x20 then d.writeRst ⟨k % 16, Nat.mod_lt _ (by decide)⟩ a v else d

/-- A write of a register by an agent (R7, R28, R33, R34); a pier in reset or OFF takes none (log 69). -/
def Dev.regWrite (d : Dev) (a : Agent) (r : RegAt) (v : DW) : Dev :=
  match r with
  | .fr k => d.frWrite k v
  | .st k => d.stWrite k v
  | .fc k => d.fcWrite k v
  | .pw k => d.pwWrite a k v
  | .au k => if k = 0 then { d with audit := { d.audit with err := w1c d.audit.err v } } else d
  | .sb k => if k = 0 then { d with board := { d.board with err := w1c d.board.err v } } else d
  | .pr p k => if d.reachable p then d.prWrite a p k v else d
  | .qy p k => if d.reachable p then d.qyWrite a p k v else d
  | .pt p k => if d.reachable p then d.ptWrite p k v else d

/-! ### Reading (R7, R10, R33) -/

/-- The value of a PR_ register; the checker window reads 0 to a core (R459). -/
def Dev.prRead (d : Dev) (a : Agent) (p : Fin 16) (k : Nat) : Nat :=
  let P := d.pier p
  let R := P.regs
  match k with
  | 0x00 => bit31 R.prErr + p.val
  | 0x08 => if P.runs.ovf then 16 else 0
  | 0x0A => P.core.tmr.toNat
  | 0x0C => R.idle.toNat * 2 ^ 16 + R.reten.toNat
  | 0x0D => R.xbPrio.toNat
  | 0x0E => R.xbQos.toNat
  | 0x0F => R.retire.toNat
  | 0x10 => R.s1w.toNat * 2 ^ 22 + R.tag.toNat
  | 0x11 => R.s1root.toNat
  | 0x21 => (hodStat P).toNat
  | 0x28 => R.put.toNat * 16 + R.get.toNat
  | 0x2A => bit31 R.req
  | 0x30 => if a ≠ .host then 0 else (if R.chkRefused then 2 ^ 9 else 0) + (if R.chkDone then 2 ^ 8 else 0) + R.chkRes.toNat * 16
  | 0x31 => if a ≠ .host then 0 else R.chkAddr.toNat
  | 0x32 => if a ≠ .host then 0 else R.chkD0.toNat
  | 0x33 => if a ≠ .host then 0 else R.chkChk.toNat * 2 ^ 8 + R.chkD1.toNat
  | _ =>
    if 0x40 ≤ k && k < 0x50 then
      let b := P.mem.bank[(⟨k % 16, Nat.mod_lt _ (by decide)⟩ : Fin 16)]
      (if b.scour then 2 ^ 17 else 0) + (if b.retn ≠ .awake then 2 ^ 16 else 0) + b.content.toNat * 2 ^ 8 + b.owner.toNat
    else if 0x80 ≤ k && k < 0xC0 then
      let c := R.s2cfg[(⟨k % 64, Nat.mod_lt _ (by decide)⟩ : Fin 64)]
      c.s2w.toNat * 2 ^ 30 + c.root.toNat
    else 0

/-- The value of a PT_ register (R461). -/
def Dev.ptRead (d : Dev) (p : Fin 16) (k : Nat) : Nat :=
  let P := d.pier p
  match k with
  | 0 => bit31 P.regs.ptErr + (if P.regs.pause then 4 else 0) + (if P.lapQ.overdue then 2 else 0) + (if P.lapB.overdue then 1 else 0)
  | 1 => P.lapB.last.toNat
  | 2 => P.lapQ.last.toNat
  | 3 => P.lapB.limit.toNat
  | 4 => P.lapQ.limit.toNat
  | _ => 0

/-- OPST (R428, R429). -/
def opCode : OpState → Nat
  | .startUp => 0
  | .service => 1
  | .test => 2
  | .recovery => 3

/-- FR_STATE (R429). -/
def Dev.stateWord (d : Dev) : Nat :=
  (if d.ks.ward then 2 ^ 26 else 0) + d.ks.node * 2 ^ 16 + d.life.zcnt * 2 ^ 8 + opCode d.life.op * 16 + d.life.life.toNat

/-- The value of a FR_ register. -/
def Dev.frRead (d : Dev) (k : Nat) : Nat :=
  match k with
  | 0x00 => bit31 d.life.frErr
  | 0x01 => if d.life.remap then 1 else 0
  | 0x02 => d.stateWord
  | 0x0A => d.warden.core.tmr.toNat
  | _ =>
    if 0x100 ≤ k && k < 0x140 then
      let F := d.fn (.vf ⟨k % 64, Nat.mod_lt _ (by decide)⟩)
      F.infl.toNat * 2 ^ 16 + F.ringCnt.toNat
    else 0

/-- The value of a ST_ register (R376). -/
def Dev.stRead (d : Dev) (k : Nat) : Nat :=
  let s := d.setter
  match k with
  | 0x00 => bit31 s.err + s.qd.toNat * 8 + (if s.kc then 4 else 0) + (if s.eager then 2 else 0)
  | 0x01 => s.win.toNat
  | 0x02 => s.bmax.toNat
  | 0x03 => bit31 s.preEn + s.minrun.toNat * 2 ^ 8 + s.maxp.toNat
  | 0x04 => bit31 s.offok + s.minawake.toNat * 2 ^ 16 + s.sleept.toNat
  | 0x05 => s.out.toNat * 2 ^ 16 + s.en.toNat
  | _ =>
    if 0x40 ≤ k && k < 0x80 then
      let x := s.part[(⟨k % 64, Nat.mod_lt _ (by decide)⟩ : Fin 64)]
      bit31 x.excl + x.banks.toNat * 2 ^ 16 + x.piers.toNat
    else 0

/-- A word of the correction log (R457). -/
def CLog.word (e : CLog) : Nat → Nat
  | 0 => bit31 e.val + (if e.adv then 2 ^ 30 else 0) + (if e.qy then 2 ^ 29 else 0) + (if e.ue then 2 ^ 28 else 0) + e.count
  | 1 => e.addr.toNat
  | 2 => e.first.toNat
  | _ => e.last.toNat

/-- FC_STAT (R450). -/
def Dev.fcStat (d : Dev) : Nat :=
  bit31 d.fc.err + (if d.fc.halt then 2 ^ 30 else 0) + (if d.fc.hold then 2 ^ 29 else 0) + d.fc.lost * 2 ^ 16 +
  (d.fc.recs.toList.filter (·.opened)).length * 2 ^ 8 + (d.fc.recs.toList.filter (·.val)).length

/-- The value of a FC_ register (R450, R457). -/
def Dev.fcRead (d : Dev) (k : Nat) : Nat :=
  match k with
  | 0x00 => d.fcStat
  | 0x01 => d.fc.quar.toNat * 2 ^ 16 + d.fc.out.toNat
  | 0x03 => d.fc.newRid.toNat * 2 ^ 16 + d.fc.newSlot.toNat
  | 0x04 => ((List.range 8).map (fun m => min 9 (d.precOf m) * 16 ^ m)).sum
  | 0x05 => ((List.range 8).map (fun m => min 9 (d.precOf (8 + m)) * 16 ^ m)).sum
  | 0x06 => min 5 d.drecOf
  | 0x08 => d.fc.period.toNat
  | _ =>
    if 0x100 ≤ k && k < 0x500 then
      ((d.frec ⟨(k - 0x100) / 16 % 64, Nat.mod_lt _ (by decide)⟩).dws.getD (k % 16) 0).toNat
    else if 0x800 ≤ k && k < 0xC00 then
      (d.fc.clog[(⟨(k - 0x800) / 64 % 16, Nat.mod_lt _ (by decide)⟩ : Fin 16)][
        (⟨k % 64 / 4 % 16, Nat.mod_lt _ (by decide)⟩ : Fin 16)]).word (k % 4)
    else 0

/-- The value of a PW_ register (R473). -/
def Dev.pwRead (d : Dev) (k : Nat) : Nat :=
  match k with
  | 0x00 => bit31 d.pw.err
  | 0x01 => d.pw.scap * 2 ^ 16 + d.pw.budget
  | 0x02 => d.cap * 2 ^ 16 + d.grant
  | _ =>
    if 0x10 ≤ k && k < 0x20 then
      let P := d.pier ⟨k % 16, Nat.mod_lt _ (by decide)⟩
      P.curf * 2 ^ 24 + P.pw.st.code * 2 ^ 22 + (if P.pw.change ≠ .none then 2 ^ 21 else 0) + P.pw.shares * 2 ^ 13 +
      P.pw.tst.toNat * 2 ^ 8 + P.pw.tfreq.toNat
    else 0

/-- The value of a SB_ register (R498). -/
def Dev.sbRead (d : Dev) (k : Nat) : Nat :=
  if k = 0 then bit31 d.board.err
  else if k = 1 then
    d.flash.size0.toNat * 2 ^ 16 + d.flash.size1.toNat * 2 ^ 8 + (if d.board.img then 2 ^ 7 else 0) +
    (if d.board.bootSel then 8 else 0) + d.board.sbAddr.toNat
  else 0

/-- The value of a register as an agent reads it (R7, R33). DESIGN CHOICE: a pier that is in reset or OFF reads 0 and takes no
write; R16 names its registers and does not say what an access to them gives (log 69). -/
def Dev.regRead (d : Dev) (a : Agent) (r : RegAt) : DW :=
  BitVec.ofNat 32 (match r with
  | .fr k => d.frRead k
  | .st k => d.stRead k
  | .fc k => d.fcRead k
  | .pw k => d.pwRead k
  | .au k => if k = 0 then bit31 d.audit.err else 0
  | .sb k => d.sbRead k
  | .pr p k => if d.reachable p then d.prRead a p k else 0
  | .qy p k => if d.reachable p then d.qyRead a p k else 0
  | .pt p k => if d.reachable p then d.ptRead p k else 0)

/-! ### Host and core writes (R30 to R32, R329) -/

/-- A write to the doorbell page of a function (R31, R329). -/
def Dev.pageWrite (d : Dev) (f : FnId) (off : Nat) (v : DW) (be : BitVec 4) (dws : Nat) : Dev :=
  let r : Fin 64 := ⟨off / 64 % 64, Nat.mod_lt _ (by decide)⟩
  let o := off % 64
  if dws ≠ 1 then
    let d := if o < 0x24 then d.onSlot f r (fun R => { R with cfge := true }) else d
    d.aer f aerUr
  else if be ≠ 0xF#4 then (if o < 0x24 then d.onSlot f r (fun R => { R with cfge := true }) else d)
  else match o / 4 with
    | 0 => d.writeSqTail f r v
    | 1 => d.writeCqHead f r v
    | 6 => d.writeEnable f r v
    | 7 => d.onSlot f r (fun R => R.writeStatus v)
    | 8 => d.onSlot f r (fun R => R.writeCoalesce v)
    | k => d.onSlot f r (fun R => R.writeBase k v)

/-- Whether a byte offset of a function's BAR0 lies in its doorbell page, and where (R28, R30). -/
def pageOffset (f : FnId) (off : Nat) : Option Nat :=
  if f ≠ .pf0 then (if off < 0x1000 then some off else none)
  else if 0x2000000 ≤ off && off < 0x2001000 then some (off - 0x2000000) else none

/-- A host write to a function's BAR0 (R30, R31, R33): reserved ranges take nothing, a register takes one whole DW. -/
def Dev.hostWrite (d : Dev) (f : FnId) (off : Nat) (v : DW) (be : BitVec 4) (dws : Nat) : Dev :=
  if !d.barReached f then d
  else match pageOffset f off with
    | some o => d.pageWrite f o v be dws
    | none =>
      if f ≠ .pf0 then d
      else match windowAt (off / 4) with
        | none => d
        | some r =>
          if dws ≠ 1 then d.aer f aerUr
          else if be ≠ 0xF#4 then d.blockError r
          else d.regWrite .host r v

/-- A host read of a function's BAR0: one whole DW of a doorbell page or of a register, by any byte enables, after every earlier
write; a reserved range and an empty offset read 0, and a longer read of a register ends with Unsupported Request (R30, R31,
R33, R34, R329). -/
def Dev.hostRead (d : Dev) (f : FnId) (off dws : Nat) : Dev :=
  if !d.barReached f then d.readBack none
  else
    let v : Option DW := match pageOffset f off with
      | some o => some (d.pageRead f o)
      | none => if f ≠ .pf0 then none else (windowAt (off / 4)).map (d.regRead .host)
    match v with
    | none => d.readBack (some 0)
    | some w => if dws ≠ 1 then (d.readBack none).send (.unsupported f) else d.readBack (some (w.setWidth 64))

/-- A reading of a PLDM sensor through the sideband: from the last 1 ms sample, or the lifecycle code; a free value before the
first sample, and none for a die sensor that does not exist (R358, R455, R474; log 2). -/
def Dev.sensorRead (d : Dev) (n : Sensor) : Dev :=
  if !d.sidebandAnswers then d.readBack none
  else
    let d := d.chooseBus false
    let out (v : Sample → Option Int) : Dev := match d.fc.sample with
      | none => (d.readBack (some (d.free 64))).used
      | some m => d.readBack ((v m).map (BitVec.ofInt 64))
    match n with
    | .die k => if 24 ≤ k then d.readBack none else out (fun m => m.die[k]?)
    | .stack k => out (fun m => some (if k = 0 then m.stack0 else m.stack1))
    | .current => out (fun m => some m.current)
    | .power => out (fun m => some m.power)
    | .lifecycle => d.readBack (some (d.life.life.setWidth 64))

/-- A core's store that reaches a register window: bits 35 to 32 are ignored (R32). -/
def Dev.coreWrite (d : Dev) (c : CoreId) (a v : Word) : Dev :=
  match coreWindow c a with
  | none => d
  | some r => d.regWrite (coreAgent c) r (v.extractLsb' 0 32)

/-- REGISTER_WRITE: an access that reaches a set-up register or a doorbell page, or the reading of a sensor (R28 to R34, R329,
R358; log 53). -/
def execRegisterWrite (w : RegWrite) (s : State) : Host.Outcome State Fault Refusal :=
  match w with
  | .host f off v be dws => s.answer (s.dev.hostWrite f off.toNat v be dws)
  | .core c addr v => s.answer (s.dev.coreWrite c addr v)
  | .hostRead f off dws => s.answer (s.dev.hostRead f off.toNat dws)
  | .sensor n => s.answer (s.dev.sensorRead n)

/-- CORE_TIMER_WRITE: PR_TMR or FR_WTMR (R267). -/
def execCoreTimerWrite (c : CoreId) (v : DW) (s : State) : Host.Outcome State Fault Refusal :=
  match c with
  | .pier p => s.answer (s.dev.onReg p (fun P => { P with core := P.core.writeTimer v }))
  | .warden => s.answer (s.dev.onCore .warden (fun c => c.writeTimer v))

/-- CORE_TIMER_EXPIRY: the count has reached 0; it stops and sets IPEND bit 4 (R267). -/
def execCoreTimerExpiry (c : CoreId) (s : State) : Host.Outcome State Fault Refusal :=
  s.answer (s.dev.onCore c (fun k =>
    if k.tmrRun && k.tmr = 0 then { k with tmrRun := false, ipend := k.ipend ||| 0x010#9 } else k))

/-- PR_IC_CTL_INV: every line of the instruction cache is invalid before a later fetch (R241). -/
def execPrIcCtlInv (p : Fin 16) (s : State) : Host.Outcome State Fault Refusal :=
  s.answer (s.dev.onReg p (fun P => { P with mem := { P.mem with icache := [] } }))

end Sys2Proof.Machine
end

