-- ==== Sys2Proof/Machine/CoreMem.lean ====
section
/-! DEFINITION. Memory as a Goilo-36 core sees it: translation, the decode of addresses, the store buffer, loads, stores and
atomic accesses, of a pier sequencer and of the warden (R32, R221, R236, R249 to R252, R270, R271, R276 to R279, R300, R303,
R320, R321). -/

namespace Sys2Proof.Machine

open Sys2Proof

/-! ### Outcomes -/

/-- What an access of a core answers: a value; a hold, so that the instruction has done nothing yet; or a synchronous
exception with the FLT and FCS of its entry. -/
inductive CRes (α : Type) where
  | ok (v : α) (d : Dev)
  | held (d : Dev)
  | exc (vec : BitVec 7) (syn : Option (Word × Word)) (d : Dev)
deriving Repr

/-- Goes on with the value of an access that succeeded. -/
def CRes.bind {α β : Type} (r : CRes α) (f : α → Dev → CRes β) : CRes β :=
  match r with
  | .ok v d => f v d
  | .held d => .held d
  | .exc v s d => .exc v s d

/-! ### Mode and identity (R200, R277, R303) -/

/-- SW.U. -/
def Core.user (k : Core) : Bool := k.sw.getLsbD 6

/-- SW.TE. -/
def Core.te (k : Core) : Bool := k.sw.getLsbD 13

/-- The identity of a core's accesses: user mode has that of the current partition (R277). -/
def Dev.coreIdent (d : Dev) (c : CoreId) : Ident :=
  match c with
  | .pier p => if (d.core c).user then tagIdent (d.pier p).regs.tag else .supervisor
  | .warden => .supervisor

/-- The syndrome of a bus or data error (R320, R321). -/
def busFcs (user : Bool) (acc : Access) (kind : Nat) : Word := mkFcs user acc 0 false 0 kind

/-- A data-access exception: 8 for a bus error, 7 for a data error (R321). -/
def Dev.dataExc {α : Type} (d : Dev) (c : CoreId) (acc : Access) (va : Word) (kind : Nat) : CRes α :=
  .exc (if kind = 0xF then 7 else 8) (some (va, busFcs (d.core c).user acc kind)) d

/-- Translates an address of a core (R303). -/
def Dev.xlate (d : Dev) (c : CoreId) (acc : Access) (va : Word) : CRes Word :=
  match c with
  | .warden => .ok va d
  | .pier p =>
    let k := d.core c
    if k.user || k.te then
      match translate (pierTrCtx (d.pier p) k.user) d.now false acc va (d.pier p) with
      | .ok pa P => .ok pa (d.setPier p P)
      | .held P => .held (d.setPier p P)
      | .fault vec fcs P => .exc vec (some (va, fcs)) (d.setPier p P)
    else .ok va d

/-! ### The warden's word space (R300) -/

/-- Where a word address of the warden leads (R300). -/
inductive WTarget where
  | rom (k : Nat)
  | sram (k : Nat)
  | key (k : Nat)
  | reg (r : RegAt)
  | none
deriving DecidableEq, Repr

/-- The target of a word address of the warden, by REMAP (R300). -/
def wardenTarget (remap : Bool) (a : Word) : WTarget :=
  let n := a.toNat
  if n < 0x200000 then
    let k := n % 0x100000
    if decide (n < 0x100000) = remap then .sram k else if k < 0x10000 then .rom k else .none
  else if 0x30000000 ≤ n && n < 0x30000400 then .key (n - 0x30000000)
  else match coreWindow .warden a with
    | some r => .reg r
    | none => .none

/-- Reads a word of the warden's SRAM: a corrected word is written back (R456). `none` is an uncorrectable word. -/
def Dev.sramRead (d : Dev) (k : Nat) : Option Word × Dev :=
  let r := eccDecode (d.warden.sram.get k)
  match r.1 with
  | .clean => (some r.2, d)
  | .corrected =>
    (some r.2, ({ d with warden := { d.warden with sram := d.warden.sram.set k (eccEncode r.2) } }).detect 0x18 16 1 k)
  | .poison => (none, d.detect 0x19 16 1 k)
  | .uncorrectable => (none, d.detect 0x19 16 1 k)

/-- Reads a word of the keystone: an outvoted copy and a word with three different copies are reported (R438). -/
def Dev.keyRead (d : Dev) (k : Nat) : Word × Dev :=
  let d' := if d.ks.split k then d.detect 0x1B 17 k 0 else if d.ks.outvoted k then d.detect 0x1A 17 k 0 else d
  ((d.ks.word k).setWidth 36, d')

/-! ### Decode (R32, R261 step 4, R271, R279, R293) -/

/-- Whether a physical address is a word of a register window of the core. -/
def isWindow (c : CoreId) (a : Word) : Bool := (coreWindow c a).isSome

/-- The KIND of the bus error that the decode of an address gives, or none: the default target, a register window that the
access may not reach, an owner that does not match, the device reserve. `whole` says that the access is a whole-word load or
store (R32). A mismatch and a refusal are reported (R279, R293). -/
def Dev.decodeAddr (d : Dev) (c : CoreId) (acc : Access) (whole : Bool) (pa : Word) : Option Nat × Dev :=
  let user := (d.core c).user
  match c with
  | .pier p =>
    let P := d.pier p
    let i := d.coreIdent c
    (match physTarget pa with
     | .bank b _ =>
       if identMatches i P.mem.bank[b].owner then (none, d) else (some 0xD, d.setPier p (P.detect 0x09 b.val (identCode i)))
     | .quarry _ _ =>
       if reserveBase ≤ pa.toNat && !reserveAllows i then
         (some 0xD, d.setPier p (P.detect 0x0A (pa.toNat % 2 ^ 32) (pa.toNat / 2 ^ 32)))
       else (none, d)
     | .none => (some 0xC, d)
     | _ => (if whole && !user then none else some 0xE, d))
  | .warden =>
    (match wardenTarget d.life.remap pa with
     | .rom _ => if acc = .read then (none, d) else (some 0xC, d)
     | .sram _ => (none, d)
     | .key _ => (if acc = .atomic then some 0xC else none, d)
     | .reg _ => (if whole && !user then none else some 0xE, d)
     | .none => (some 0xC, d))

/-! ### The store buffer (R249 to R251) -/

/-- A store that drains meets an error: it is discarded, and vector 8 or 7 becomes pending, or a NOTE is made where one is
pending already (R250). -/
def Dev.storeError (d : Dev) (c : CoreId) (e : SbEntry) (kind : Nat) : Dev :=
  if (d.core c).imprecise.isSome then
    match c with
    | .pier p => d.onPier p (fun P => P.detect 0x0F e.flt.toNat 0)
    | .warden => d.detect 0x0F 16 e.flt.toNat 0
  else
    d.onCore c (fun k => { k with
      imprecise := some ⟨if kind = 0xF then 7 else 8, e.flt, busFcs e.user .write kind ||| 0x4000#36⟩ })

/-- What the drain of the oldest entry answers. -/
inductive Drained where
  | done (d : Dev)
  | held (d : Dev)
deriving Repr

/-- Drains one store of a pier sequencer, already taken out of the buffer in `d` (R249, R250). -/
def Dev.drainPier (d : Dev) (p : Fin 16) (e : SbEntry) : Drained :=
  if isWindow (.pier p) e.pa then .done (d.coreWrite (.pier p) e.pa e.data)
  else match physWrite (d.pier p) d.now e.ident .seqData false e.pa e.data e.en false with
    | .ok _ P => .done (d.setPier p P)
    | .held P => .held (d.setPier p P)
    | .bus k P => .done ((d.setPier p P).storeError (.pier p) e k)
    | .rubble P => .done ((d.setPier p P).storeError (.pier p) e 0xF)

/-- Drains one store of the warden, already taken out of the buffer in `d` (R236, R249, R300, R438, R456). -/
def Dev.drainWarden (d : Dev) (e : SbEntry) : Dev :=
  match wardenTarget d.life.remap e.pa with
  | .sram k =>
    (match if e.en = 0xF#4 then (some 0, d) else d.sramRead k with
     | (some old, d) =>
       { d with warden := { d.warden with sram := d.warden.sram.set k (eccEncode (mergeNonets e.en old e.data)) } }
     | (none, d) => d.storeError .warden e 0xF)
  | .key k =>
    { d with ks := d.ks.put k ((mergeNonets e.en ((d.ks.word k).setWidth 36) e.data).extractLsb' 0 32) }
  | .reg _ => d.coreWrite .warden e.pa e.data
  | .rom _ => d.storeError .warden e 0xC
  | .none => d.storeError .warden e 0xC

/-- Drains the oldest entry of a core's store buffer (R249). -/
def Dev.drainHead (d : Dev) (c : CoreId) : Drained :=
  match (d.core c).sbuf with
  | [] => .done d
  | e :: rest =>
    let d' := d.onCore c (fun k => { k with sbuf := rest })
    match c with
    | .pier p =>
      (match d'.drainPier p e with
       | .done x => .done x
       | .held x => .held (x.onCore c (fun k => { k with sbuf := e :: rest })))
    | .warden => .done (d'.drainWarden e)

/-- Drains until at most `n` entries are left; `fuel` entries at most. -/
def Dev.drainTo (c : CoreId) (n : Nat) : Nat → Dev → CRes Unit
  | 0, d => .ok () d
  | fuel + 1, d =>
    if (d.core c).sbuf.length ≤ n then .ok () d
    else match d.drainHead c with
      | .done d => Dev.drainTo c n fuel d
      | .held d => .held d

/-- Drains the whole buffer (R102, R249, R251). -/
def Dev.drainAll (d : Dev) (c : CoreId) : CRes Unit := Dev.drainTo c 0 8 d

/-- Puts a store into the buffer (R249). -/
def Dev.enqueue (d : Dev) (c : CoreId) (pa va data : Word) (en : BitVec 4) : Dev :=
  let e : SbEntry := ⟨pa, data, en, d.coreIdent c, va, (d.core c).user⟩
  d.onCore c (fun k => { k with sbuf := k.sbuf ++ [e] })

/-! ### Loads (R32, R60, R249, R271) -/

/-- Reads a word at a physical address that has passed the decode (R60, R271, R300). -/
def Dev.readPhys (d : Dev) (c : CoreId) (acc : Access) (va pa : Word) : CRes Word :=
  match c with
  | .pier p =>
    (match coreWindow c pa with
     | some r => .ok ((d.regRead .sequencer r).setWidth 36) d
     | none =>
       match physRead (d.pier p) d.now (d.coreIdent c) .seqData pa with
       | .ok w P => .ok w (d.setPier p P)
       | .held P => .held (d.setPier p P)
       | .bus k P => (d.setPier p P).dataExc c acc va k
       | .rubble P => (d.setPier p P).dataExc c acc va 0xF)
  | .warden =>
    (match wardenTarget d.life.remap pa with
     | .rom k => .ok (Config.bootRom k) d
     | .sram k =>
       (match d.sramRead k with
        | (some w, d) => .ok w d
        | (none, d) => d.dataExc c acc va 0xF)
     | .key k => .ok (d.keyRead k).1 (d.keyRead k).2
     | .reg r => .ok ((d.regRead .warden r).setWidth 36) d
     | .none => d.dataExc c acc va 0xC)

/-- Translates and decodes an address: the physical address, or the exception (R250, R252, R261). -/
def Dev.probe (d : Dev) (c : CoreId) (acc : Access) (whole : Bool) (va : Word) : CRes Word :=
  (d.xlate c acc va).bind (fun pa d =>
    match d.decodeAddr c acc whole pa with
    | (some k, d) => d.dataExc c acc va k
    | (none, d) => .ok pa d)

/-- Reads a probed word through the store buffer: the youngest entry is forwarded if it is whole; otherwise entries for the
word drain first, and a register read waits for stores to register windows (R249). -/
def Dev.readVia (d : Dev) (c : CoreId) (va pa : Word) : CRes Word :=
  let buf := (d.core c).sbuf
  match (buf.filter (fun e => e.pa = pa)).getLast? with
  | some e =>
    if e.en = 0xF#4 && !isWindow c pa then .ok e.data d
    else (d.drainAll c).bind (fun _ d => d.readPhys c .read va pa)
  | none =>
    if isWindow c pa && buf.any (fun e => isWindow c e.pa) then
      (d.drainAll c).bind (fun _ d => d.readPhys c .read va pa)
    else d.readPhys c .read va pa

/-- A scalar load (R211, R249). -/
def Dev.load (d : Dev) (c : CoreId) (whole : Bool) (va : Word) : CRes Word :=
  (d.probe c .read whole va).bind (fun pa d => d.readVia c va pa)

/-! ### Stores and atomics (R221, R249, R250, R276) -/

/-- A scalar store of the enabled nonets into the buffer; the address is translated and checked first (R250). -/
def Dev.store (d : Dev) (c : CoreId) (whole : Bool) (va data : Word) (en : BitVec 4) : CRes Unit :=
  (d.probe c .write whole va).bind (fun pa d =>
    (Dev.drainTo c 7 8 d).bind (fun _ d => .ok () (d.enqueue c pa va data en)))

/-- The KIND of the bus error of an atomic access to the quarry, or to a memory of the warden that has no adder: one of the
bus-error codes, which the spec does not name (R221, R321; log 2). -/
def Dev.atomicKind (d : Dev) : Nat := 0xC + (d.free 2).toNat % 3

/-- Whether an atomic access is performed at a physical address: banks, and the warden's SRAM (R221, R236). -/
def Dev.atomicOk (d : Dev) (c : CoreId) (pa : Word) : Bool :=
  match c with
  | .pier _ =>
    (match physTarget pa with
     | .bank _ _ => true
     | _ => false)
  | .warden =>
    (match wardenTarget d.life.remap pa with
     | .sram _ => true
     | _ => false)

/-- XADD and XSWP: the buffer drains, then `f` of the word is written at once; the word read is the value (R221, R249,
R276). -/
def Dev.atomic (d : Dev) (c : CoreId) (va : Word) (f : Word → Word) : CRes Word :=
  (d.drainAll c).bind (fun _ d =>
    (d.probe c .atomic false va).bind (fun pa d =>
      if !d.atomicOk c pa then (d.used.dataExc c .atomic va d.atomicKind : CRes Word)
      else (d.readPhys c .atomic va pa).bind (fun t d =>
        match c with
        | .pier p =>
          (match physTarget pa with
           | .bank _ a => .ok t (d.onPier p (fun P => bankStore P a (eccEncode (f t))))
           | _ => .ok t d)
        | .warden =>
          (match wardenTarget d.life.remap pa with
           | .sram k => .ok t { d with warden := { d.warden with sram := d.warden.sram.set k (eccEncode (f t)) } }
           | _ => .ok t d))))

end Sys2Proof.Machine
end

