-- ==== Sys2Proof/Machine/Operands.lean ====
section
/-! DEFINITION. What the instructions of a Goilo-36 core share: the status word, guards, illegal encodings, special
registers, operand forms, the boundary before and after an instruction, branches and exceptions (R199 to R214, R223, R225,
R226, R233 to R235, R243, R244, R258 to R266). -/

namespace Sys2Proof.Machine

open Sys2Proof

/-! ### The status word (R200, R201) -/

/-- A word with bit `i` set to `b`. -/
def putBit (w : Word) (i : Nat) (b : Bool) : Word :=
  if b then w ||| BitVec.ofNat 36 (2 ^ i) else w &&& ~~~ BitVec.ofNat 36 (2 ^ i)

/-- Whether SW.TC may be 1: START-UP, TEST and RECOVERY (R200). -/
def Dev.tcAllowed (d : Dev) : Bool := d.unlocked

/-- A word as SW holds it on a core: reserved bits and BDS 0, TC 0 outside its states, TE 0 on the warden (R200, R201,
R236). -/
def Dev.swHeld (d : Dev) (c : CoreId) (w : Word) : Word :=
  let w := w &&& 0x3BFF#36
  let w := if d.tcAllowed then w else putBit w 9 false
  match c with
  | .warden => putBit w 13 false
  | .pier _ => w

/-- Z, N, CY and V written (R217). -/
def Core.zncv (k : Core) (z n cy v : Bool) : Core :=
  { k with sw := putBit (putBit (putBit (putBit k.sw 0 z) 1 n) 2 cy) 3 v }

/-- Z, N and V written, CY kept (R220). -/
def Core.znv (k : Core) (z n v : Bool) : Core := { k with sw := putBit (putBit (putBit k.sw 0 z) 1 n) 3 v }

/-- CY. -/
def Core.cy (k : Core) : Bool := k.sw.getLsbD 2

/-- Delivers the pending long operation, if any: MQ, MH, flags, sticky bits (R186, R198, R218, R247). -/
def Core.deliver (k : Core) : Core :=
  match k.longop with
  | none => k
  | some o =>
    let k := { k with
      longop := none, mq := o.mq, mh := o.mh.getD k.mh, fpcr := k.fpcr ||| o.fp.setWidth 36
      sw := if o.dc then putBit k.sw 5 true else k.sw }
    match o.flags with
    | some f => k.zncv (f.getLsbD 0) (f.getLsbD 1) (f.getLsbD 2) (f.getLsbD 3)
    | none => k

/-- Delivers a pending MUL, MULU, DIV or DIVU, for which a guard on Z, N, CY or V and a port that writes them wait (R238). -/
def Core.deliverFlags (k : Core) : Core := if k.longop.any (fun o => !o.f36) then k.deliver else k

/-- Delivers a pending F36 operation, for which an access to FPCR waits (R238). -/
def Core.deliverF36 (k : Core) : Core := if k.longop.any (fun o => o.f36) then k.deliver else k

/-! ### Guards and illegal encodings (R209, R210, R223, R226, R235) -/

/-- The condition that guard G tests; guard 0 always holds (R209). -/
def Core.cond (k : Core) (g : BitVec 3) : Bool :=
  match g.toNat with
  | 1 => k.sw.getLsbD 0
  | 2 => k.sw.getLsbD 1
  | 3 => k.sw.getLsbD 2
  | 4 => k.sw.getLsbD 3
  | 5 => k.c1
  | 6 => k.c2
  | 7 => k.c3
  | _ => true

/-- Whether the instruction executes (R209, R210). -/
def Core.guardOk (k : Core) (f : Fld) : Bool := k.cond f.guard != f.sense

/-- Whether the guard waits for a pending multiplication or division (R210, R238). -/
def guardWaits (f : Fld) : Bool := f.guard = 1#3 || f.guard = 2#3 || f.guard = 3#3 || f.guard = 4#3

/-- The source port of a port-mode operand (R211). -/
def srcPort (f : Fld) : Nat := (f.src.extractLsb' 18 6).toNat

/-- The index field of a memory operand (R211). -/
def srcIdx (f : Fld) : BitVec 2 := f.src.extractLsb' 22 2

/-- The numbers of JMP, JMPR, CALL and CALLR (R215). -/
def isBranchPort (n : Nat) : Bool := 0x34 ≤ n && n ≤ 0x37

/-- The address-taking ports (R214). -/
def isAddressPort (n : Nat) : Bool := (0x2B ≤ n && n ≤ 0x33) || n = 0x13 || n = 0x3E

/-- The immediates that an immediate-only port takes (R219, R224, R227, R230, R232, R235). -/
def immediateOk (n src : Nat) : Bool :=
  match n with
  | 0x28 => src ≤ 2
  | 0x38 => src % 0x1000 ≠ 0
  | 0x39 => src ≤ 63
  | 0x3D => 1 ≤ src && src ≤ 6
  | _ => src = 0

/-- The ports that accept only the immediate mode (R235). -/
def isImmediatePort (n : Nat) : Bool := n = 0x28 || n = 0x38 || n = 0x39 || n = 0x3A || n = 0x3D || n = 0x3F

/-- The rows of R235 that the word alone decides, for destination port `n`. -/
def illegalWord (n : Nat) (f : Fld) : Bool :=
  let src := f.src.toNat
  (f.guard = 0#3 && f.sense) ||
  (f.mode = 3#2 && (src % 0x40000 ≠ 0 || !(srcPort f ≤ 0x0A || srcPort f = 0x3C))) ||
  (f.mode = 2#2 && srcIdx f = 0#2) ||
  (isAddressPort n && (f.mode = 3#2 || (f.mode = 0#2 && n ≠ 0x13))) ||
  (n = 0x13 && f.mode = 0#2 && f.src.getLsbD 23 && src % 0x800000 ≠ 0) ||
  (isImmediatePort n && (f.mode ≠ 0#2 || !immediateOk n src))

/-- Whether SRI names a reserved special register: 16 to 63, and LOCK on the warden (R202, R236). -/
def Core.sriReserved (k : Core) (c : CoreId) : Bool := 16 ≤ k.sri.toNat || (c = .warden && k.sri = 9#6)

/-- The rows of R235 that the state decides: delay slot, loop end, resumed string, special register, BOND on the warden. -/
def Core.illegalHere (k : Core) (c : CoreId) (n : Nat) (f : Fld) : Bool :=
  let lp := k.sw.getLsbD 12
  (k.slot.isSome && (isBranchPort n || n = 0x38 || n = 0x39 || n = 0x3A || n = 0x3E)) ||
  (lp && n = 0x38) ||
  (lp && k.pc = k.le && (isBranchPort n || n = 0x39 || n = 0x3A)) ||
  (lp && k.pc + 1 = k.le && isBranchPort n) ||
  (n = 0x3D && k.sw.getLsbD 11 && (f.src = 3#24 || f.src = 4#24) && k.mh.extractLsb' 33 3 ≠ f.src.extractLsb' 0 3) ||
  ((n = 0x3C || (f.mode = 3#2 && srcPort f = 0x3C)) && k.sriReserved c) ||
  (n = 0x3E && c = .warden)

/-- Whether an instruction raises illegal instruction, vector 2 (R235). -/
def Core.illegal (k : Core) (c : CoreId) (n : Nat) (f : Fld) : Bool := illegalWord n f || k.illegalHere c n f

/-! ### Special registers (R202 to R208) -/

/-- The special registers that user mode may not access (R202). -/
def srSupervisor (i : Nat) : Bool := !(i = 0 || i = 7 || i = 8 || i = 10 || i = 11 || i = 12)

/-- An SRV access of user mode to a supervisor-only register (R202, R234). -/
def Core.srPrivileged (k : Core) : Bool := k.user && srSupervisor k.sri.toNat

/-- The value of the special register that SRI names, and the core after the read: it waits for what R238 says, and a read of
TIME low latches the high part (R111, R202 to R206, R236). -/
def Dev.srRead (d : Dev) (c : CoreId) : Word × Dev :=
  let k := d.core c
  match k.sri.toNat with
  | 0 => (k.deliver.sw, d.setCore c k.deliver)
  | 1 => (k.vbr, d)
  | 2 => (k.ls, d)
  | 3 => (k.le, d)
  | 4 => (k.lc.setWidth 36, d)
  | 5 => (k.flt, d)
  | 6 => (k.fcs, d)
  | 7 => (d.time.extractLsb' 0 36, d.setCore c { k with timeHi := some (d.time.extractLsb' 36 28) })
  | 8 => ((k.timeHi.getD (d.time.extractLsb' 36 28)).setWidth 36, d)
  | 9 => (k.lock.setWidth 36, d)
  | 10 => (k.deliverF36.fpcr, d.setCore c k.deliverF36)
  | 11 => (k.tre, d)
  | 12 =>
    (match c with
     | .pier p => runstWord (d.pier p)
     | .warden => 0, d)
  | 13 => (k.icause.setWidth 36, d)
  | 14 => (k.imask.setWidth 36, d)
  | 15 => (k.ipend.setWidth 36, d)
  | _ => (0, d)

/-! ### Operand forms (R211 to R214, R233) -/

/-- An index register: 1 X1, 2 X2, 3 SP (R211). -/
def Core.idx (k : Core) (i : BitVec 2) : Word :=
  match i.toNat with
  | 1 => k.x1
  | 2 => k.x2
  | 3 => k.sp
  | _ => 0

/-- Steps an index register (R213). -/
def Core.stepIdx (k : Core) (i : BitVec 2) (by_ : Word) : Core :=
  match i.toNat with
  | 1 => { k with x1 := k.x1 + by_ }
  | 2 => { k with x2 := k.x2 + by_ }
  | 3 => { k with sp := k.sp + by_ }
  | _ => k

/-- The index register that the operand steps: none but in the post-increment mode (R213). -/
def stepOf (f : Fld) : BitVec 2 := if f.mode = 2#2 then srcIdx f else 0

/-- The effective address (R212). -/
def Core.ea (k : Core) (f : Fld) : Word :=
  if srcIdx f = 0#2 then (f.src.extractLsb' 0 22).setWidth 36
  else k.idx (srcIdx f) + (f.src.extractLsb' 0 22).signExtend 36

/-- The value of a source port (R233): a read of MQ or MH waits for the long operation; user mode may not read a
supervisor-only special register (R234). -/
def Dev.readPort (d : Dev) (c : CoreId) (n : Nat) : CRes Word :=
  let k := d.core c
  match n with
  | 0x01 => .ok k.a d
  | 0x02 => .ok k.x1 d
  | 0x03 => .ok k.x2 d
  | 0x04 => .ok k.sp d
  | 0x05 => .ok k.lk d
  | 0x06 => .ok (boolWord k.c1) d
  | 0x07 => .ok (boolWord k.c2) d
  | 0x08 => .ok (boolWord k.c3) d
  | 0x09 => .ok k.deliver.mq (d.setCore c k.deliver)
  | 0x0A => .ok k.deliver.mh (d.setCore c k.deliver)
  | 0x3C => if k.srPrivileged then .exc 3 none d else .ok (d.srRead c).1 (d.srRead c).2
  | _ => .ok 0 d

/-- The source value (R211). -/
def Dev.operand (d : Dev) (c : CoreId) (f : Fld) : CRes Word :=
  if f.mode = 0#2 then .ok (f.src.signExtend 36) d
  else if f.mode = 3#2 then d.readPort c (srcPort f)
  else d.load c true ((d.core c).ea f)

/-! ### What an instruction does -/

/-- What the effect of an instruction answers: it completes; it completes as a taken branch; it has loaded PC itself; it
completes and raises a trap 9 to 12; it is held and has done nothing; it raises a synchronous exception, with the distance of
the pushed PC and whether it stops a string operation. -/
inductive Act where
  | next (d : Dev)
  | branch (target : Word) (d : Dev)
  | jump (d : Dev)
  | trap (vec : BitVec 7) (d : Dev)
  | held (d : Dev)
  | exc (vec : BitVec 7) (syn : Option (Word × Word)) (off : Word) (res : Bool) (d : Dev)
deriving Repr

/-- Goes on with a value, or ends with what the access answered. -/
def CRes.act {α : Type} (r : CRes α) (f : α → Dev → Act) : Act :=
  match r with
  | .ok v d => f v d
  | .held d => .held d
  | .exc v s d => .exc v s 0 false d

/-- An instruction that takes a source value: the index steps, then the core changes, so that a destination index register
wins (R213). -/
def valueAct (g : Core → Word → Core) (c : CoreId) (f : Fld) (d : Dev) : Act :=
  (d.operand c f).act (fun v d => .next (d.onCore c (fun k => g (k.stepIdx (stepOf f) 1) v)))

/-- An instruction that takes a source value and may take a trap after its results (R196). -/
def trapAct (g : Core → Word → Core × Option (BitVec 7)) (c : CoreId) (f : Fld) (d : Dev) : Act :=
  (d.operand c f).act (fun v d =>
    let r := g ((d.core c).stepIdx (stepOf f) 1) v
    match r.2 with
    | some vec => .trap vec (d.setCore c r.1)
    | none => .next (d.setCore c r.1))

/-! ### Boundaries (R258 to R266) -/

/-- Whether the boundary before the next instruction is interruptible: not before a delay slot and not after a move to SRI
(R260). -/
def Core.interruptible (k : Core) : Bool := k.slot.isNone && !k.sriHold

/-- The lowest of vectors 16 to 24 that is pending and enabled, as its number less 16 (R261, R262). -/
def lowestPending (p : BitVec 9) : Option Nat := (List.range 9).find? (fun k => p.getLsbD k)

/-- The highest event of ranks 3 to 6 that the boundary accepts with interrupt enable `ie`: its vector (R261). -/
def Core.eventOf (k : Core) (ie : Bool) : Option (BitVec 7) :=
  if k.nmi then some 1
  else match k.imprecise with
    | some e => some e.vec
    | none =>
      if k.runFault then some 14
      else if ie then (lowestPending (k.ipend &&& k.imask)).map (fun j => BitVec.ofNat 7 (16 + j))
      else none

/-- The event of ranks 3 to 6 that waits, with the live SW.IE. -/
def Core.event (k : Core) : Option (BitVec 7) := k.eventOf (k.sw.getLsbD 7)

/-- Whether an instruction may execute: the core runs, no exception waits for its entry, and no event is accepted at the
boundary before it (R260, R261). -/
def Core.ready (k : Core) : Bool :=
  k.run = .running && k.raised.isNone && (!k.interruptible || (k.traps.isEmpty && k.event.isNone))

/-- A synchronous exception of the instruction about to execute (R258, R259). In a delay slot, the branch's held effects are
discarded and the branch is pushed; what a stopped string operation has left in X1 and X2 stays, less the branch's step. -/
def Core.raise (k : Core) (vec : BitVec 7) (syn : Option (Word × Word)) (off : Word) (res : Bool) : Core :=
  match k.slot with
  | some sl =>
    let back := k.stepIdx sl.stepped (-1)
    { k with
      slot := none, pc := sl.branchPc, lk := sl.oldLk, sp := sl.oldSp
      x1 := if res then back.x1 else sl.oldX1, x2 := if res then back.x2 else sl.oldX2
      raised := some ⟨vec, sl.branchPc, true, res, syn⟩ }
  | none => { k with raised := some ⟨vec, k.pc + off, false, res, syn⟩ }

/-- The next instruction after one at PC that is no branch, with the loop end of R225, which squashes what was fetched behind
it (R242). A COUNT of 0 has no stated
decrement: it becomes a free value (log 2). -/
def Core.advance (k : Core) (fr : Nat) : Core :=
  if k.sw.getLsbD 12 && k.pc = k.le then
    let lc := if k.lc = 0#13 then Config.free 13 fr else k.lc - 1
    if lc ≠ 0#13 then { k with lc := lc, pc := k.ls, fetchFaults := [] }
    else { k with lc := lc, sw := putBit k.sw 12 false, pc := k.le + 1 }
  else { k with pc := k.pc + 1 }

/-- The boundary after an instruction that completes: the next PC; after the slot of a taken branch, its target, which ends a
hardware loop that it leaves, and squashes what was fetched before (R223, R225, R242). -/
def Core.complete (k : Core) (fr : Nat) : Core :=
  let k := { k with sriHold := false }
  match k.slot with
  | none => k.advance fr
  | some sl =>
    let k := { k with slot := none }
    match sl.target with
    | none => k.advance fr
    | some t =>
      let out := t.toNat < k.ls.toNat || k.le.toNat < t.toNat
      { k with
        pc := t, fetchFaults := []
        sw := if k.sw.getLsbD 12 && out then putBit k.sw 12 false else k.sw }

/-- Completes an instruction of core `c`. -/
def Dev.complete1 (d : Dev) (c : CoreId) : Dev := (d.onCore c (fun k => k.complete d.fresh)).used

/-! ### Branches (R223, R243, R244, R259) -/

/-- Whether a branch is predicted taken (R243). -/
def predictTaken (n : Nat) (f : Fld) (pc : Word) : Bool :=
  if f.guard = 0#3 then true
  else if f.mode ≠ 0#2 then false
  else
    let off := f.src.extractLsb' 0 23
    let t := if n = 0x34 || n = 0x36 then off.setWidth 36 else pc + off.signExtend 36
    t.toNat ≤ pc.toNat

/-- Puts a branch target at the front of the buffer of 64 entries (R244). -/
def btbPut (b : List (Word × Word)) (pc t : Word) : List (Word × Word) :=
  ((pc, t) :: b.filter (fun e => e.1 ≠ pc)).take 64

/-- The branch target buffer of a pier after a branch in X; a branch in constant-time mode leaves it (R244). -/
def Core.btbBranch (k : Core) (c : CoreId) (n : Nat) (f : Fld) (taken : Option Word) : List (Word × Word) :=
  if c = .warden || k.sw.getLsbD 8 then k.btb
  else match taken with
    | some t => btbPut k.btb k.pc t
    | none =>
      if predictTaken n f k.pc then
        match k.btb.find? (fun e => e.1 = k.pc) with
        | some e => btbPut k.btb k.pc e.2
        | none => k.btb
      else k.btb

/-- The branch at PC has executed: its delay slot is next (R223, R259). `old` is the core before the branch. -/
def Core.branched (k old : Core) (c : CoreId) (n : Nat) (f : Fld) (target : Option Word) : Core :=
  { k with
    btb := old.btbBranch c n f target, sriHold := false, pc := old.pc + 1
    slot := some ⟨old.pc, target, f.mode = 0#2 && f.src.getLsbD 23 && target.isNone, old.lk, old.x1, old.x2, old.sp,
      if target.isSome then stepOf f else 0⟩ }

/-! ### One instruction -/

/-- Records a fault with a fetched word; a later fetch of the address supersedes an earlier one (R242). -/
def Core.recordFetch (k : Core) (va : Word) (vec : BitVec 7) (fcs : Word) : Core :=
  { k with fetchFaults := k.fetchFaults.filter (fun e => e.pc ≠ va) ++ [⟨va, vec, va, fcs⟩] }

/-- A fetch that meets no fault supersedes an earlier one of the address; an annulled word raises nothing (R242). -/
def Core.dropFetch (k : Core) (va : Word) : Core := { k with fetchFaults := k.fetchFaults.filter (fun e => e.pc ≠ va) }

/-- The fetch of the word at PC by the warden, which has no instruction cache: from SRAM or the boot ROM, and a fault of it is
recorded with the word (R240, R242, R271, R301). A pier sequencer's fetches are commands of their own. -/
def Dev.fetchAt (d : Dev) : CoreId → Dev
  | .pier _ => d
  | .warden =>
    let k := d.warden.core
    let note (d : Dev) (vec : BitVec 7) (kind : Nat) : Dev :=
      d.onCore .warden (fun k => k.recordFetch k.pc vec (mkFcs k.user .execute 0 false 0 kind))
    match wardenTarget d.life.remap k.pc with
    | .rom _ => d
    | .sram a =>
      (match d.sramRead a with
       | (some _, d) => d
       | (none, d) => note d 7 0xF)
    | _ => note d 8 0xC

/-- Applies what the effect of the instruction at PC answered; `old` is the core before it (R196, R223, R239, R258). -/
def Dev.conclude (old : Core) (c : CoreId) (n : Nat) (f : Fld) : Act → Dev
  | .next d =>
    let d := d.complete1 c
    if n = 0x3B then d.onCore c (fun k => { k with sriHold := true }) else d
  | .branch t d => d.onCore c (fun k => k.branched old c n f (some t))
  | .jump d => d
  | .trap vec d => (d.complete1 c).onCore c (fun k => { k with traps := k.traps ++ [vec] })
  | .held d => d
  | .exc vec syn off res d => d.onCore c (fun k => k.raise vec syn off res)

/-- Executes the instruction with destination port `n` and fields `f` at PC of core `c`, whose effect is `body` (R209, R210,
R223, R242, R261; log 1): nothing where the core does not run or an exception or event comes first; nothing but the advance of
PC where the slot is annulled or the guard fails; else a recorded fetch fault, illegal instruction, or the effect. -/
def Dev.instr (d : Dev) (c : CoreId) (n : Nat) (f : Fld) (body : CoreId → Fld → Dev → Act) : Dev :=
  if !(d.core c).ready then d
  else
    let d := d.onCore c (fun k => { k with sw := d.swHeld c k.sw })
    let k := d.core c
    if k.slot.any (·.annul) then (d.onCore c (fun k => k.dropFetch k.pc)).complete1 c
    else
      let d := d.fetchAt c
      match (d.core c).fetchFaults.find? (fun e => e.pc = k.pc) with
      | some e => d.onCore c (fun k => (k.dropFetch e.pc).raise e.vec (some (e.flt, e.fcs)) 0 false)
      | none =>
        if k.illegal c n f then d.onCore c (fun k => k.raise 2 none 0 false)
        else
          let d := if guardWaits f then d.onCore c Core.deliverFlags else d
          let k := d.core c
          if k.guardOk f then Dev.conclude k c n f (body c f d)
          else if isBranchPort n then d.onCore c (fun k => k.branched k c n f none)
          else d.complete1 c

/-- An instruction as a command (log 1). -/
def State.instr (s : State) (c : CoreId) (n : Nat) (f : Fld) (body : CoreId → Fld → Dev → Act) :
    Host.Outcome State Fault Refusal :=
  s.answer (s.dev.instr c n f body)

/-- The fields of a row that fixes the immediate (R219, R227, R231). -/
def immFld (g : Gd) (src : BitVec 24) : Fld := ⟨g.guard, g.sense, 0, src⟩

end Sys2Proof.Machine
end

