-- ==== Sys2Proof/Machine/CoreArith.lean ====
section
/-! DEFINITION. The register ports, the arithmetic and logic ports, the long operations, decimal and F36 ports of a Goilo-36
core (R184 to R198, R216 to R220). -/

namespace Sys2Proof.Machine

open Sys2Proof

/-! ### Shared effects -/

/-- Sets A. -/
def Core.setA (k : Core) (w : Word) : Core := { k with a := w }

/-- Trap 9 where V is set and TRE.OVE is 1 (R195). -/
def Core.ovTrap (k : Core) (v : Bool) : Option (BitVec 7) := if v && k.tre.getLsbD 0 then some 9 else none

/-- A result of ADD, ADC, SUB, SBB or NEG: A, flags, trap 9 (R195, R217). -/
def Core.arith (k : Core) (r : IntRes) : Core × Option (BitVec 7) :=
  ((k.setA r.r).zncv (flagZ r.r) (flagN r.r) r.cy r.v, k.ovTrap r.v)

/-- A result of AND, OR or XOR: CY and V are 0 (R217). -/
def Core.logic (k : Core) (r : Word) : Core := (k.setA r).zncv (flagZ r) (flagN r) false false

/-- A shift or rotate: a count of 0 leaves CY (R187, R217). -/
def Core.shift (op : ShiftOp) (k : Core) (src : Word) : Core :=
  let k := k.deliverFlags
  let r := intShift op k.a src k.cy
  (k.setA r.1).zncv (flagZ r.1) (flagN r.1) r.2 false

/-- Starts a long operation, once the pending one has delivered (R218). -/
def Core.issue (k : Core) (o : LongOp) : Core := { k.deliver with longop := some o }

/-- Z, N, CY and V of a long operation in the places of SW. -/
def flagNibble (z n cy v : Bool) : BitVec 4 :=
  BitVec.ofNat 4 ((if z then 1 else 0) + (if n then 2 else 0) + (if cy then 4 else 0) + (if v then 8 else 0))

/-- MUL and MULU: Z on the whole product, N is MH[35] for MUL and 0 for MULU (R185). -/
def Core.multiply (signed : Bool) (k : Core) (src : Word) : Core :=
  let k := k.deliver
  let p := intMul signed k.a src
  k.issue ⟨false, p.extractLsb' 0 36, some (p.extractLsb' 36 36), some (flagNibble (p = 0) (signed && p.getLsbD 71) false false), false, 0⟩

/-- DIV and DIVU: Z and N follow MQ; a trap for divide check or overflow is taken at once (R185, R186, R195). -/
def Core.divide (signed : Bool) (k : Core) (src : Word) : Core × Option (BitVec 7) :=
  let k := k.deliver
  let r := intDiv signed k.a src
  (k.issue ⟨false, r.q, some r.r, some (flagNibble (flagZ r.q) (flagN r.q) false r.v), r.dc, 0⟩,
   if r.dc && k.tre.getLsbD 1 then some 10 else k.ovTrap r.v)

/-- A decimal invalid on a scalar port: A and CY stay, V is 0, Z and N follow A, DV is set, and trap 11 is taken if it is
enabled (R51, R195, R220). -/
def Core.decInvalid (k : Core) : Core × Option (BitVec 7) :=
  let k' := k.znv (flagZ k.a) (flagN k.a) false
  ({ k' with sw := putBit k'.sw 4 true }, if k.tre.getLsbD 2 then some 11 else none)

/-- DADD and DSUB (R188, R220). -/
def Core.decimal (op : Word → Word → Bool → Word × Bool) (k : Core) (src : Word) : Core × Option (BitVec 7) :=
  let k := k.deliverFlags
  if decOk k.a && decOk src then
    let r := op k.a src k.cy
    ((k.setA r.1).zncv (flagZ r.1) (flagN r.1) r.2 false, none)
  else k.decInvalid

/-- FPCR.RM. -/
def Core.rm (k : Core) : Nat := (k.fpcr.extractLsb' 16 3).toNat

/-- Trap 12 for raised flags whose FPCR enable is set (R195). -/
def Core.fpTrap (k : Core) (flags : Nat) : Option (BitVec 7) :=
  if k.fpcr.extractLsb' 8 5 &&& BitVec.ofNat 5 flags ≠ 0#5 then some 12 else none

/-- An F36 operation: a long operation without flags; while any trap is enabled the next instruction waits for its delivery,
so that its trap is precise (R196, R197, R218). -/
def Core.f36 (op : Nat → Word → Word → Word × Nat) (k : Core) (src : Word) : Core × Option (BitVec 7) :=
  let k := k.deliver
  let r := op k.rm k.a src
  let k' := k.issue ⟨true, r.1, none, none, false, BitVec.ofNat 5 r.2⟩
  if k.fpcr.extractLsb' 8 5 ≠ 0#5 then (k'.deliver, k.fpTrap r.2) else (k', none)

/-- FCMP: Z, N and V by the order, CY 0; NV is its only F36 flag (R194). -/
def Core.fcmp (k : Core) (src : Word) : Core × Option (BitVec 7) :=
  let k := k.deliverFlags
  let r := fCmp k.a src
  let k' := k.zncv (r.1 = .eq) (r.1 = .lt) false (r.1 = .un)
  ({ k' with fpcr := k'.fpcr ||| BitVec.ofNat 36 r.2 }, k.fpTrap r.2)

/-! ### The ports -/

/-- NULL: the source is read and discarded (R216). -/
def portNull : CoreId → Fld → Dev → Act := valueAct (fun k _ => k)

/-- A (R216). -/
def portA : CoreId → Fld → Dev → Act := valueAct (fun k w => k.setA w)

/-- X1 (R216). -/
def portX1 : CoreId → Fld → Dev → Act := valueAct (fun k w => { k with x1 := w })

/-- X2 (R216). -/
def portX2 : CoreId → Fld → Dev → Act := valueAct (fun k w => { k with x2 := w })

/-- SP (R216). -/
def portSp : CoreId → Fld → Dev → Act := valueAct (fun k w => { k with sp := w })

/-- LK (R216). -/
def portLk : CoreId → Fld → Dev → Act := valueAct (fun k w => { k with lk := w })

/-- C1 (R216). -/
def portC1 : CoreId → Fld → Dev → Act := valueAct (fun k w => { k with c1 := w ≠ 0 })

/-- C2 (R216). -/
def portC2 : CoreId → Fld → Dev → Act := valueAct (fun k w => { k with c2 := w ≠ 0 })

/-- C3 (R216). -/
def portC3 : CoreId → Fld → Dev → Act := valueAct (fun k w => { k with c3 := w ≠ 0 })

/-- MQ, once a long operation has delivered (R216). -/
def portMq : CoreId → Fld → Dev → Act := valueAct (fun k w => { k.deliver with mq := w })

/-- MH, once a long operation has delivered (R216). -/
def portMh : CoreId → Fld → Dev → Act := valueAct (fun k w => { k.deliver with mh := w })

/-- LDHI: A[35:18] (R216). -/
def portLdhi : CoreId → Fld → Dev → Act := valueAct (fun k w => k.setA (w.extractLsb' 0 18 ++ k.a.extractLsb' 0 18))

/-- ADD (R217). -/
def portAdd : CoreId → Fld → Dev → Act := trapAct (fun k w => k.deliverFlags.arith (intAdd k.deliverFlags.a w false))

/-- ADC (R217). -/
def portAdc : CoreId → Fld → Dev → Act := trapAct (fun k w => k.deliverFlags.arith (intAdd k.deliverFlags.a w k.deliverFlags.cy))

/-- SUB (R217). -/
def portSub : CoreId → Fld → Dev → Act := trapAct (fun k w => k.deliverFlags.arith (intSub k.deliverFlags.a w false))

/-- SBB (R217). -/
def portSbb : CoreId → Fld → Dev → Act := trapAct (fun k w => k.deliverFlags.arith (intSub k.deliverFlags.a w k.deliverFlags.cy))

/-- NEG (R217). -/
def portNeg : CoreId → Fld → Dev → Act := trapAct (fun k w => k.deliverFlags.arith (intNeg w))

/-- AND (R217). -/
def portAnd : CoreId → Fld → Dev → Act := valueAct (fun k w => k.deliverFlags.logic (k.a &&& w))

/-- OR (R217). -/
def portOr : CoreId → Fld → Dev → Act := valueAct (fun k w => k.deliverFlags.logic (k.a ||| w))

/-- XOR (R217). -/
def portXor : CoreId → Fld → Dev → Act := valueAct (fun k w => k.deliverFlags.logic (k.a ^^^ w))

/-- SHL (R217). -/
def portShl : CoreId → Fld → Dev → Act := valueAct (Core.shift .shl)

/-- SHR (R217). -/
def portShr : CoreId → Fld → Dev → Act := valueAct (Core.shift .shr)

/-- SAR (R217). -/
def portSar : CoreId → Fld → Dev → Act := valueAct (Core.shift .sar)

/-- ROL (R217). -/
def portRol : CoreId → Fld → Dev → Act := valueAct (Core.shift .rol)

/-- CMP: A stays, and V never traps (R217). -/
def portCmp : CoreId → Fld → Dev → Act := valueAct (fun k w => let r := intSub k.a w false; k.deliverFlags.zncv (flagZ r.r) (flagN r.r) r.cy r.v)

/-- SEQ (R217). -/
def portSeq : CoreId → Fld → Dev → Act := valueAct (fun k w => k.setA (boolWord (k.a = w)))

/-- SLT (R217). -/
def portSlt : CoreId → Fld → Dev → Act := valueAct (fun k w => k.setA (boolWord (sltWord k.a w)))

/-- SLTU (R217). -/
def portSltu : CoreId → Fld → Dev → Act := valueAct (fun k w => k.setA (boolWord (k.a.toNat < w.toNat)))

/-- MUL (R218). -/
def portMul : CoreId → Fld → Dev → Act := valueAct (Core.multiply true)

/-- MULU (R218). -/
def portMulu : CoreId → Fld → Dev → Act := valueAct (Core.multiply false)

/-- DIV (R218). -/
def portDiv : CoreId → Fld → Dev → Act := trapAct (Core.divide true)

/-- DIVU (R218). -/
def portDivu : CoreId → Fld → Dev → Act := trapAct (Core.divide false)

/-- DADD (R220). -/
def portDadd : CoreId → Fld → Dev → Act := trapAct (Core.decimal decAdd)

/-- DSUB (R220). -/
def portDsub : CoreId → Fld → Dev → Act := trapAct (Core.decimal decSub)

/-- DCHK checks only the source; CY and V stay (R220). -/
def portDchk : CoreId → Fld → Dev → Act := trapAct (fun k w =>
  let k := k.deliverFlags
  if decOk w then (((k.setA w).zncv (flagZ w) (flagN w) k.cy (k.sw.getLsbD 3)), none) else k.decInvalid)

/-- FADD (R218). -/
def portFadd : CoreId → Fld → Dev → Act := trapAct (Core.f36 fAdd)

/-- FSUB (R218). -/
def portFsub : CoreId → Fld → Dev → Act := trapAct (Core.f36 fSub)

/-- FMUL (R218). -/
def portFmul : CoreId → Fld → Dev → Act := trapAct (Core.f36 fMul)

/-- FDIV (R218). -/
def portFdiv : CoreId → Fld → Dev → Act := trapAct (Core.f36 fDiv)

/-- FCMP (R194, R218). -/
def portFcmp : CoreId → Fld → Dev → Act := trapAct (Core.fcmp)

/-- FCVT #0 (R219). -/
def portFtoi : CoreId → Fld → Dev → Act := trapAct (Core.f36 (fun rm a _ => fToInt rm a))

/-- FCVT #1 (R219). -/
def portItof : CoreId → Fld → Dev → Act := trapAct (Core.f36 (fun rm a _ => fOfInt rm a.toInt))

/-- FCVT #2 (R219). -/
def portUtof : CoreId → Fld → Dev → Act := trapAct (Core.f36 (fun rm a _ => fOfInt rm a.toNat))

/-- FINT (R218). -/
def portFint : CoreId → Fld → Dev → Act := trapAct (Core.f36 (fun rm _ b => fInt rm b))

/-! ### The commands -/

/-- The instruction NULL (R216). -/
def execNull (c : CoreId) (f : Fld) (s : State) : Host.Outcome State Fault Refusal := s.instr c 0x00 f portNull

/-- The instruction A (R216). -/
def execA (c : CoreId) (f : Fld) (s : State) : Host.Outcome State Fault Refusal := s.instr c 0x01 f portA

/-- The instruction X1 (R216). -/
def execX1 (c : CoreId) (f : Fld) (s : State) : Host.Outcome State Fault Refusal := s.instr c 0x02 f portX1

/-- The instruction X2 (R216). -/
def execX2 (c : CoreId) (f : Fld) (s : State) : Host.Outcome State Fault Refusal := s.instr c 0x03 f portX2

/-- The instruction SP (R216). -/
def execSp (c : CoreId) (f : Fld) (s : State) : Host.Outcome State Fault Refusal := s.instr c 0x04 f portSp

/-- The instruction LK (R216). -/
def execLk (c : CoreId) (f : Fld) (s : State) : Host.Outcome State Fault Refusal := s.instr c 0x05 f portLk

/-- The instruction C1 (R216). -/
def execC1 (c : CoreId) (f : Fld) (s : State) : Host.Outcome State Fault Refusal := s.instr c 0x06 f portC1

/-- The instruction C2 (R216). -/
def execC2 (c : CoreId) (f : Fld) (s : State) : Host.Outcome State Fault Refusal := s.instr c 0x07 f portC2

/-- The instruction C3 (R216). -/
def execC3 (c : CoreId) (f : Fld) (s : State) : Host.Outcome State Fault Refusal := s.instr c 0x08 f portC3

/-- The instruction MQ (R216). -/
def execMq (c : CoreId) (f : Fld) (s : State) : Host.Outcome State Fault Refusal := s.instr c 0x09 f portMq

/-- The instruction MH (R216). -/
def execMh (c : CoreId) (f : Fld) (s : State) : Host.Outcome State Fault Refusal := s.instr c 0x0A f portMh

/-- The instruction LDHI (R216). -/
def execLdhi (c : CoreId) (f : Fld) (s : State) : Host.Outcome State Fault Refusal := s.instr c 0x2A f portLdhi

/-- The instruction ADD (R217). -/
def execAdd (c : CoreId) (f : Fld) (s : State) : Host.Outcome State Fault Refusal := s.instr c 0x0B f portAdd

/-- The instruction ADC (R217). -/
def execAdc (c : CoreId) (f : Fld) (s : State) : Host.Outcome State Fault Refusal := s.instr c 0x0C f portAdc

/-- The instruction SUB (R217). -/
def execSub (c : CoreId) (f : Fld) (s : State) : Host.Outcome State Fault Refusal := s.instr c 0x0D f portSub

/-- The instruction SBB (R217). -/
def execSbb (c : CoreId) (f : Fld) (s : State) : Host.Outcome State Fault Refusal := s.instr c 0x0E f portSbb

/-- The instruction NEG (R217). -/
def execNeg (c : CoreId) (f : Fld) (s : State) : Host.Outcome State Fault Refusal := s.instr c 0x0F f portNeg

/-- The instruction AND (R217). -/
def execAnd (c : CoreId) (f : Fld) (s : State) : Host.Outcome State Fault Refusal := s.instr c 0x10 f portAnd

/-- The instruction OR (R217). -/
def execOr (c : CoreId) (f : Fld) (s : State) : Host.Outcome State Fault Refusal := s.instr c 0x11 f portOr

/-- The instruction XOR (R217). -/
def execXor (c : CoreId) (f : Fld) (s : State) : Host.Outcome State Fault Refusal := s.instr c 0x12 f portXor

/-- The instruction SHL (R217). -/
def execShl (c : CoreId) (f : Fld) (s : State) : Host.Outcome State Fault Refusal := s.instr c 0x14 f portShl

/-- The instruction SHR (R217). -/
def execShr (c : CoreId) (f : Fld) (s : State) : Host.Outcome State Fault Refusal := s.instr c 0x15 f portShr

/-- The instruction SAR (R217). -/
def execSar (c : CoreId) (f : Fld) (s : State) : Host.Outcome State Fault Refusal := s.instr c 0x16 f portSar

/-- The instruction ROL (R217). -/
def execRol (c : CoreId) (f : Fld) (s : State) : Host.Outcome State Fault Refusal := s.instr c 0x17 f portRol

/-- The instruction CMP (R217). -/
def execCmp (c : CoreId) (f : Fld) (s : State) : Host.Outcome State Fault Refusal := s.instr c 0x18 f portCmp

/-- The instruction SEQ (R217). -/
def execSeq (c : CoreId) (f : Fld) (s : State) : Host.Outcome State Fault Refusal := s.instr c 0x19 f portSeq

/-- The instruction SLT (R217). -/
def execSlt (c : CoreId) (f : Fld) (s : State) : Host.Outcome State Fault Refusal := s.instr c 0x1A f portSlt

/-- The instruction SLTU (R217). -/
def execSltu (c : CoreId) (f : Fld) (s : State) : Host.Outcome State Fault Refusal := s.instr c 0x1B f portSltu

/-- The instruction MUL (R218). -/
def execMul (c : CoreId) (f : Fld) (s : State) : Host.Outcome State Fault Refusal := s.instr c 0x1C f portMul

/-- The instruction MULU (R218). -/
def execMulu (c : CoreId) (f : Fld) (s : State) : Host.Outcome State Fault Refusal := s.instr c 0x1D f portMulu

/-- The instruction DIV (R218). -/
def execDiv (c : CoreId) (f : Fld) (s : State) : Host.Outcome State Fault Refusal := s.instr c 0x1E f portDiv

/-- The instruction DIVU (R218). -/
def execDivu (c : CoreId) (f : Fld) (s : State) : Host.Outcome State Fault Refusal := s.instr c 0x1F f portDivu

/-- The instruction DADD (R220). -/
def execDadd (c : CoreId) (f : Fld) (s : State) : Host.Outcome State Fault Refusal := s.instr c 0x20 f portDadd

/-- The instruction DSUB (R220). -/
def execDsub (c : CoreId) (f : Fld) (s : State) : Host.Outcome State Fault Refusal := s.instr c 0x21 f portDsub

/-- The instruction DCHK (R220). -/
def execDchk (c : CoreId) (f : Fld) (s : State) : Host.Outcome State Fault Refusal := s.instr c 0x22 f portDchk

/-- The instruction FADD (R218). -/
def execFadd (c : CoreId) (f : Fld) (s : State) : Host.Outcome State Fault Refusal := s.instr c 0x23 f portFadd

/-- The instruction FSUB (R218). -/
def execFsub (c : CoreId) (f : Fld) (s : State) : Host.Outcome State Fault Refusal := s.instr c 0x24 f portFsub

/-- The instruction FMUL (R218). -/
def execFmul (c : CoreId) (f : Fld) (s : State) : Host.Outcome State Fault Refusal := s.instr c 0x25 f portFmul

/-- The instruction FDIV (R218). -/
def execFdiv (c : CoreId) (f : Fld) (s : State) : Host.Outcome State Fault Refusal := s.instr c 0x26 f portFdiv

/-- The instruction FCMP (R194, R218). -/
def execFcmp (c : CoreId) (f : Fld) (s : State) : Host.Outcome State Fault Refusal := s.instr c 0x27 f portFcmp

/-- The instruction FCVT #0 (R219). -/
def execFtoi (c : CoreId) (g : Gd) (s : State) : Host.Outcome State Fault Refusal :=
  s.instr c 0x28 (immFld g 0) portFtoi

/-- The instruction FCVT #1 (R219). -/
def execItof (c : CoreId) (g : Gd) (s : State) : Host.Outcome State Fault Refusal :=
  s.instr c 0x28 (immFld g 1) portItof

/-- The instruction FCVT #2 (R219). -/
def execUtof (c : CoreId) (g : Gd) (s : State) : Host.Outcome State Fault Refusal :=
  s.instr c 0x28 (immFld g 2) portUtof

/-- The instruction FINT (R218). -/
def execFint (c : CoreId) (f : Fld) (s : State) : Host.Outcome State Fault Refusal := s.instr c 0x29 f portFint

end Sys2Proof.Machine
end

