-- ==== Sys2Proof/Machine/CoreMemPorts.lean ====
section
/-! DEFINITION. The memory ports of a Goilo-36 core and TLBI (R221, R231, R252, R317). -/

namespace Sys2Proof.Machine

open Sys2Proof

/-- Completes an address-taking instruction: the index steps by `by_` and then the core changes, so that a destination wins
(R213). -/
def Dev.memDone (d : Dev) (c : CoreId) (f : Fld) (by_ : Word) (g : Core → Core) : Act :=
  .next (d.onCore c (fun k => g (k.stepIdx (stepOf f) by_)))

/-- A whole-word store of a register (R221). -/
def portStore (r : Core → Word) (c : CoreId) (f : Fld) (d : Dev) : Act :=
  let k := d.core c
  (d.store c true (k.ea f) (r k) 0xF#4).act (fun _ d => d.memDone c f 1 id)

/-- STA. -/
def portSta : CoreId → Fld → Dev → Act := portStore (fun k => k.a)

/-- STX1. -/
def portStx1 : CoreId → Fld → Dev → Act := portStore (fun k => k.x1)

/-- STX2. -/
def portStx2 : CoreId → Fld → Dev → Act := portStore (fun k => k.x2)

/-- LDD: both words are translated and checked before either is read (R221, R252). -/
def portLdd (c : CoreId) (f : Fld) (d : Dev) : Act :=
  let d := d.onCore c Core.deliver
  let ea := (d.core c).ea f
  (d.probe c .read false ea).act (fun p0 d =>
    (d.probe c .read false (ea + 1)).act (fun p1 d =>
      (d.readVia c ea p0).act (fun w0 d =>
        (d.readVia c (ea + 1) p1).act (fun w1 d =>
          d.memDone c f 2 (fun k => { k with a := w0, mq := w1 })))))

/-- STD: two entries of the store buffer (R221, R249, R252). MQ is a read of MQ, which waits for its delivery. -/
def portStd (c : CoreId) (f : Fld) (d : Dev) : Act :=
  let d := d.onCore c Core.deliver
  let k := d.core c
  let ea := k.ea f
  (d.probe c .write false ea).act (fun p0 d =>
    (d.probe c .write false (ea + 1)).act (fun p1 d =>
      (Dev.drainTo c 6 8 d).act (fun _ d =>
        ((d.enqueue c p0 ea k.a 0xF#4).enqueue c p1 (ea + 1) k.mq 0xF#4).memDone c f 2 id)))

/-- XADD and XSWP: `g` gives the word written from A and the word read (R221). -/
def portAtomic (g : Word → Word → Word) (c : CoreId) (f : Fld) (d : Dev) : Act :=
  let k := d.core c
  (d.atomic c (k.ea f) (g k.a)).act (fun t d => d.memDone c f 1 (fun k => k.setA t))

/-- XADD. -/
def portXadd : CoreId → Fld → Dev → Act := portAtomic (fun a t => t + a)

/-- XSWP. -/
def portXswp : CoreId → Fld → Dev → Act := portAtomic (fun a _ => a)

/-- The word of a nonet address (R221). -/
def nonetWord (ea : Word) : Word := ea >>> 2

/-- The nonet of a nonet address within its word (R221). -/
def nonetIdx (ea : Word) : Nat := ea.toNat % 4

/-- LDN (R221). -/
def portLdn (c : CoreId) (f : Fld) (d : Dev) : Act :=
  let ea := (d.core c).ea f
  (d.load c false (nonetWord ea)).act (fun w d =>
    d.memDone c f 1 (fun k => k.setA ((w >>> (9 * nonetIdx ea)) &&& 0x1FF#36)))

/-- STN (R221). -/
def portStn (c : CoreId) (f : Fld) (d : Dev) : Act :=
  let k := d.core c
  let ea := k.ea f
  (d.store c false (nonetWord ea) ((k.a &&& 0x1FF#36) <<< (9 * nonetIdx ea)) (BitVec.ofNat 4 (2 ^ nonetIdx ea))).act
    (fun _ d => d.memDone c f 1 id)

/-- Whether a TLBI in the immediate form with source `src` selects an entry (R231). -/
def tlbiSelects (src : BitVec 24) (e : TlbEntry) : Bool :=
  src.getLsbD 23 || tagMatches (src.getLsbD 22) (src.extractLsb' 0 22) e

/-- TLBI: vector 3 in user mode; drains the store buffer, then invalidates in both TLBs of the pier (R231, R234, R317). On the
warden it completes with no effect (R236). -/
def portTlbi (c : CoreId) (f : Fld) (d : Dev) : Act :=
  if (d.core c).user then .exc 3 none 0 false d
  else match c with
    | .warden => d.memDone c f 1 id
    | .pier p =>
      (d.drainAll c).act (fun _ d =>
        let ea := (d.core c).ea f
        let sel (P : Pier) : TlbEntry → Bool := if f.mode = 0#2 then tlbiSelects f.src else tlbHit P.regs.tag ea
        (d.onPier p (fun P => tlbInvalidate P (sel P))).memDone c f 1 id)

/-- STA: [ea] := A (R221). -/
def execSta (c : CoreId) (f : Fld) (s : State) : Host.Outcome State Fault Refusal := s.instr c 0x2B f portSta

/-- STX1: [ea] := X1 (R221). -/
def execStx1 (c : CoreId) (f : Fld) (s : State) : Host.Outcome State Fault Refusal := s.instr c 0x2C f portStx1

/-- STX2: [ea] := X2 (R221). -/
def execStx2 (c : CoreId) (f : Fld) (s : State) : Host.Outcome State Fault Refusal := s.instr c 0x2D f portStx2

/-- LDD: A and MQ from two words (R221, R252). -/
def execLdd (c : CoreId) (f : Fld) (s : State) : Host.Outcome State Fault Refusal := s.instr c 0x2E f portLdd

/-- STD: A and MQ into two words (R221, R252). -/
def execStd (c : CoreId) (f : Fld) (s : State) : Host.Outcome State Fault Refusal := s.instr c 0x2F f portStd

/-- XADD (R221). -/
def execXadd (c : CoreId) (f : Fld) (s : State) : Host.Outcome State Fault Refusal := s.instr c 0x30 f portXadd

/-- XSWP (R221). -/
def execXswp (c : CoreId) (f : Fld) (s : State) : Host.Outcome State Fault Refusal := s.instr c 0x31 f portXswp

/-- LDN (R221). -/
def execLdn (c : CoreId) (f : Fld) (s : State) : Host.Outcome State Fault Refusal := s.instr c 0x32 f portLdn

/-- STN (R221). -/
def execStn (c : CoreId) (f : Fld) (s : State) : Host.Outcome State Fault Refusal := s.instr c 0x33 f portStn

/-- TLBI_MEMORY: the entries of the current space tag that contain ea (R231, R317). -/
def execTlbiMemory (c : CoreId) (f : Fld) (s : State) : Host.Outcome State Fault Refusal :=
  s.instr c 0x13 f portTlbi

/-- TLBI_ALL: every entry (R231). SRC[23] = 1 with other bits set is illegal (R235). -/
def execTlbiAll (c : CoreId) (g : Gd) (low : BitVec 23) (s : State) : Host.Outcome State Fault Refusal :=
  s.instr c 0x13 (immFld g (1#1 ++ low)) portTlbi

/-- TLBI_TAG: the entries of a space tag, or of its partition (R231). -/
def execTlbiTag (c : CoreId) (g : Gd) (ponly : Bool) (tag : BitVec 22) (s : State) : Host.Outcome State Fault Refusal :=
  s.instr c 0x13 (immFld g (0#1 ++ (BitVec.ofBool ponly ++ tag))) portTlbi

end Sys2Proof.Machine
end

