-- ==== Sys2Proof/Machine/CoreControl.lean ====
section
/-! DEFINITION. Branches, hardware loops, traps, exception entry and return, special registers, BOND and SYNC of a Goilo-36
core (R102 to R110, R201 to R208, R222 to R226, R230, R232, R255 to R258, R262 to R266, R284). -/

namespace Sys2Proof.Machine

open Sys2Proof

/-! ### Branches and loops (R222 to R226) -/

/-- A branch: `rel` adds the branch address, `link` writes LK (R222). -/
def portBranch (rel link : Bool) (c : CoreId) (f : Fld) (d : Dev) : Act :=
  let pc := (d.core c).pc
  let off : Word := if rel then pc else 0
  let src : CRes Word :=
    if f.mode = 0#2 then
      .ok (if rel then (f.src.extractLsb' 0 23).signExtend 36 else (f.src.extractLsb' 0 23).setWidth 36) d
    else d.operand c f
  src.act (fun v d => .branch (off + v) (d.onCore c (fun k =>
    let k := k.stepIdx (stepOf f) 1
    if link then { k with lk := pc + 2 } else k)))

/-- JMP. -/
def portJmp : CoreId → Fld → Dev → Act := portBranch false false

/-- JMPR. -/
def portJmpr : CoreId → Fld → Dev → Act := portBranch true false

/-- CALL. -/
def portCall : CoreId → Fld → Dev → Act := portBranch false true

/-- CALLR. -/
def portCallr : CoreId → Fld → Dev → Act := portBranch true true

/-- LOOP: a count of 0 means 4,096 (R224). -/
def portLoop (c : CoreId) (f : Fld) (d : Dev) : Act :=
  .next (d.onCore c (fun k =>
    let n := f.src.extractLsb' 12 12
    { k with
      ls := k.pc + 1, le := k.pc + (f.src.extractLsb' 0 12).setWidth 36
      lc := if n = 0#12 then 4096#13 else n.setWidth 13
      sw := putBit k.sw 12 true }))

/-- TRAP: vector 64 + n, with the pushed PC behind it (R230). -/
def portTrap (_c : CoreId) (f : Fld) (d : Dev) : Act := .exc (64#7 + f.src.extractLsb' 0 7) none 1 false d

/-! ### Special registers (R201 to R208, R284) -/

/-- SRI (R203). -/
def portSri : CoreId → Fld → Dev → Act := valueAct (fun k w => { k with sri := w.extractLsb' 0 6 })

/-- The IMASK bits of a core (R204). -/
def imaskBits : CoreId → BitVec 9
  | .pier _ => 0x03F#9
  | .warden => 0x1FF#9

/-- SW after a write through SRV (R201). -/
def Dev.swWritten (d : Dev) (c : CoreId) (v : Word) : Word :=
  let sw := (d.core c).sw
  if (d.core c).user then (sw &&& ~~~ 0x13F#36) ||| (v &&& 0x13F#36) else d.swHeld c v

/-- FPCR after a write: RM codes 5 to 7 leave RM (R206, R208). -/
def fpcrWritten (old v : Word) : Word :=
  if 5 ≤ (v.extractLsb' 16 3).toNat then (v &&& 0x01F1F#36) ||| (old &&& 0x70000#36) else v &&& 0x71F1F#36

/-- A write of LOCK: EN = 0 and a new BANK release the lock held; EN = 1 is held until the lock has started (R284). -/
def Dev.lockWrite (d : Dev) (p : Fin 16) (v : Word) : CRes Unit :=
  let b : BitVec 4 := v.extractLsb' 0 4
  let release (P : Pier) : Pier :=
    match P.mem.lockOn with
    | some x => if x = b && v.getLsbD 4 then P else unlockBank P x.toFin
    | none => P
  let d := d.onPier p release
  if v.getLsbD 4 then
    if (d.pier p).mem.lockOn = some b then .ok () (d.onPier p (fun P => { P with core := { P.core with lock := v.extractLsb' 0 5 } }))
    else .held (d.onPier p (fun P => { P with mem := { P.mem with lockWait := some b } }))
  else .ok () (d.onPier p (fun P => { P with
    core := { P.core with lock := v.extractLsb' 0 5 }, mem := { P.mem with lockWait := none } }))

/-- Writes the special register that SRI names (R201 to R208). -/
def Dev.srWrite (d : Dev) (c : CoreId) (v : Word) : CRes Unit :=
  let set (g : Core → Core) : CRes Unit := .ok () (d.onCore c g)
  match (d.core c).sri.toNat with
  | 0 =>
    let d := d.onCore c Core.deliverFlags
    .ok () (d.onCore c (fun k => { k with sw := d.swWritten c v, fetchFaults := [] }))
  | 1 => set (fun k => { k with vbr := v &&& 0xFFFFFFF80#36 })
  | 2 => set (fun k => { k with ls := v })
  | 3 => set (fun k => { k with le := v })
  | 4 => set (fun k => { k with lc := v.extractLsb' 0 13 })
  | 5 => set (fun k => { k with flt := v })
  | 6 => set (fun k => { k with fcs := v &&& 0xFFFF#36 })
  | 9 =>
    (match c with
     | .pier p => d.lockWrite p v
     | .warden => .ok () d)
  | 10 => set (fun k => { k.deliverF36 with fpcr := fpcrWritten k.deliverF36.fpcr v })
  | 11 => set (fun k => { k with tre := v &&& 7#36 })
  | 14 => set (fun k => { k with imask := v.extractLsb' 0 9 &&& imaskBits c })
  | _ => .ok () d

/-- SRV: privilege comes before the operand (R202, R203, R261). -/
def portSrv (c : CoreId) (f : Fld) (d : Dev) : Act :=
  if (d.core c).srPrivileged then .exc 3 none 0 false d
  else (d.operand c f).act (fun v d =>
    let d' := d.onCore c (fun k => k.stepIdx (stepOf f) 1)
    match d'.srWrite c v with
    | .ok _ d => .next d
    | .held x =>
      (match c with
       | .pier p => .held (d.onPier p (fun P => { P with
          mem := { P.mem with lockOn := (x.pier p).mem.lockOn, lockWait := (x.pier p).mem.lockWait }
          core := { P.core with lock := (x.pier p).core.lock } }))
       | .warden => .held d)
    | .exc v s d => .exc v s 0 false d)

/-! ### Taking an exception (R255, R256, R258, R262) -/

/-- A word with the fields that exception entry clears: TE, LP, RES, BDS, IE and U (R201). -/
def entrySw (w : Word) : Word := w &&& ~~~ 0x3CC0#36

/-- An event of ranks 3 to 6 is accepted: its pending state is cleared, and an imprecise store error writes FLT and FCS
(R250, R262). -/
def Core.accept (k : Core) (ie : Bool) : Core :=
  if k.nmi then { k with nmi := false }
  else match k.imprecise with
    | some e => { k with imprecise := none, flt := e.flt, fcs := e.fcs }
    | none =>
      if k.runFault then { k with runFault := false }
      else if ie then
        match lowestPending (k.ipend &&& k.imask) with
        | some j => { k with ipend := k.ipend &&& ~~~ BitVec.ofNat 9 (2 ^ j) }
        | none => k
      else k

/-- What entry goes for: the vector, the pushed PC, BDS and RES, and the core with the source cleared (R258, R261). -/
structure Entry where
  vec  : BitVec 7
  pc   : Word
  bds  : Bool
  res  : Bool
  core : Core
deriving Repr

/-- The entry of a synchronous exception that waits. -/
def Core.entryRaised (k : Core) (e : Exc) : Entry :=
  let k := { k with raised := none }
  ⟨e.vec, e.pc, e.bds, e.res, match e.syn with
    | some (flt, fcs) => { k with flt := flt, fcs := fcs }
    | none => k⟩

/-- The entry that a core makes at its boundary, by rank (R260, R261). The boundary before a delay slot and the one after a
move to SRI accept nothing but the synchronous exception of the instruction. An event at the boundary of an instruction that
has raised a synchronous exception comes first; that exception arises again after the return. -/
def Core.entryOf (k : Core) : Option Entry :=
  let sync : Option Entry := k.raised.map k.entryRaised
  if k.raised.any (·.bds) || !k.interruptible then sync
  else
    let res := k.raised.any (·.res)
    match k.traps with
    | v :: ts => some ⟨v, k.pc, false, res, { k with traps := ts, raised := none }⟩
    | [] =>
      match k.event with
      | some v => some ⟨v, k.pc, false, res, { k.accept (k.sw.getLsbD 7) with raised := none }⟩
      | none => sync

/-- The word of the vector table for vector `n`, read at its physical address with the supervisor identity (R255, R277). It is a
read of the core's own, which sees the store buffer (R251, log 71). The core's SW is already that of the handler. -/
def Dev.vectorWord (d : Dev) (c : CoreId) (n : BitVec 7) : CRes Word :=
  let pa := (d.core c).vbr + n.setWidth 36
  match d.decodeAddr c .read false pa with
  | (some k, d) => d.dataExc c .read pa k
  | (none, d) => d.readVia c pa pa

/-- Keeps of a held access only what the hold itself does: a bank in retention begins to wake (R238, R283). -/
def Dev.heldFrom (d x : Dev) (c : CoreId) : Dev :=
  match c with
  | .pier p => d.onPier p (fun P => { P with mem := { P.mem with bank := (x.pier p).mem.bank } })
  | .warden => d

/-- Entry fails: the core executes nothing further, SP and memory stay, and the local fault reporter raises 0x0D (R256). What
the failed access itself reported stays. -/
def Dev.entryFail (d x : Dev) (c : CoreId) (n : BitVec 7) : Dev :=
  let sp := (d.core c).sp.toNat % 2 ^ 32
  match c with
  | .pier p =>
    d.onPier p (fun P =>
      { P with detq := (x.pier p).detq, core := { P.core with run := .stopped } }.detect 0x0D n.toNat sp)
  | .warden =>
    ({ d with
        fc := { d.fc with detq := x.fc.detq }
        warden := { d.warden with core := { d.warden.core with run := .stopped } } }).detect 0x0D 16 n.toNat sp

/-- The pushed SW: the live SW with the BDS and RES of the entry (R228, R258). -/
def Entry.pushed (e : Entry) (sw : Word) : Word := putBit (putBit sw 10 e.bds) 11 (sw.getLsbD 11 || e.res)

/-- The core in its handler: R255 steps 2, 4 and 5, with the handler's address in PC. -/
def Core.entered (k : Core) (n : BitVec 7) (handler : Word) : Core :=
  { k with
    sp := k.sp - 2, pc := handler, icause := n, sw := entrySw k.sw, slot := none, sriHold := false, fetchFaults := [] }

/-- TAKING AN EXCEPTION: pushes PC and SW below SP, reads the handler's address and enters it (R255). The pushes are
translated and checked in the interrupted mode, and go into the store buffer behind the stores that wait there, which entry does
not drain; a buffer without two free entries holds it (R238, R251, log 71). A LOCK write that was held is abandoned. -/
def Dev.takeException (d : Dev) (c : CoreId) (e : Entry) : Dev :=
  let sp := (d.core c).sp
  let sw := (d.core c).sw
  let body : CRes Word :=
    ((d.setCore c e.core).probe c .write false (sp - 1)).bind (fun p1 d =>
      (d.probe c .write false (sp - 2)).bind (fun p2 d =>
        (Dev.drainTo c 6 8 d).bind (fun _ d =>
          ((d.enqueue c p1 (sp - 1) e.pc 0xF#4).enqueue c p2 (sp - 2) (e.pushed sw) 0xF#4
            |>.onCore c (fun k => { k with sw := entrySw sw })).vectorWord c e.vec)))
  match body with
  | .ok h x =>
    let x := x.onCore c (fun k => k.entered e.vec h)
    (match c with
     | .pier p => x.onPier p (fun P => { P with mem := { P.mem with lockWait := none } })
     | .warden => x)
  | .held x => d.heldFrom x c
  | .exc _ _ x => d.entryFail x c e.vec

/-- EXCEPTION_ENTRY: the core accepts the highest-ranked event at its boundary (R255, R260, R261). -/
def execExceptionEntry (c : CoreId) (s : State) : Host.Outcome State Fault Refusal :=
  let k := s.dev.core c
  s.answer (if k.run ≠ .running then s.dev else
    match k.entryOf with
    | some e => s.dev.takeException c e
    | none => s.dev)

/-! ### Return (R201, R257, R265) -/

/-- RTT: pops SW and PC, or chains to the handler of an event that would be accepted after the return (R257, R265). -/
def portRtt (c : CoreId) (_f : Fld) (d : Dev) : Act :=
  if (d.core c).user then .exc 3 none 0 false d
  else
    let d := d.onCore c Core.deliverFlags
    let sp := (d.core c).sp
    (d.load c false sp).act (fun w d =>
      let sw := d.swHeld c w
      let k := d.core c
      let ie := sw.getLsbD 7
      match (if k.sw.getLsbD 9 then k.eventOf ie else none) with
      | some v =>
        let d' := d.onCore c (fun k => { k.accept ie with sw := entrySw sw, icause := v, sriHold := false, fetchFaults := [] })
        (match d'.vectorWord c v with
         | .ok h x => .jump (x.onCore c (fun k => { k with pc := h }))
         | .held x => .held (d.heldFrom x c)
         | .exc _ _ x => .jump (d.entryFail x c v))
      | none =>
        (d.load c false (sp + 1)).act (fun pc d =>
          .jump (d.onCore c (fun k => { k with sw := sw, pc := pc, sp := sp + 2, sriHold := false, fetchFaults := [] }))))

/-! ### BOND and SYNC (R102 to R110, R232) -/

/-- Reads words `i` up to `i + k` of a script (R102). -/
def Dev.scriptWords (c : CoreId) (ea : Word) : Nat → Nat → Dev → CRes (List Word)
  | 0, _, d => .ok [] d
  | k + 1, i, d =>
    (d.load c false (ea + BitVec.ofNat 36 i)).bind (fun w d =>
      (Dev.scriptWords c ea k (i + 1) d).bind (fun ws d => .ok (w :: ws) d))

/-- What a run fixes at its launch (R105, R295). -/
def Dev.runFix (d : Dev) (p : Fin 16) : RunFix :=
  let P := d.pier p
  let k := P.core
  { user := k.user, te := k.te, tag := P.regs.tag, s1w := P.regs.s1w, s1root := P.regs.s1root,
    s2 := P.regs.s2cfg[(P.regs.tag.extractLsb' 16 6).toFin], rm := k.fpcr.extractLsb' 16 3, fpEn := k.fpcr.extractLsb' 8 5,
    dve := k.tre.getLsbD 2, qos := P.regs.xbQos }

/-- The set of courses of a run: resident firmware's in supervisor mode, the current partition's in user mode (R88, R105). -/
def Pier.runSet (P : Pier) : Nat := if P.core.user then (P.regs.tag.extractLsb' 16 6).toNat else 64

/-- The courses that a script names, and the device once its launch has read them (R88, R102). -/
def Dev.runCourses (d : Dev) (p : Fin 16) (s : Script) : CourseSet × Dev :=
  let r := scriptCourses (d.pier p).runSet s (d.pier p)
  (r.1, d.onPier p (fun _ => r.2))

/-- A run enters the queue, and a pier in IDLE ramps its lanes (R102, R104, R467). -/
def Dev.launch (d : Dev) (p : Fin 16) (r : Run) : Dev :=
  d.onPier p (fun P =>
    let P := enqueueRun P r
    if P.pw.st = .idle && P.pw.change = .none then { P with pw := { P.pw with change := .ramp, since := d.now } } else P)

/-- BOND: drains, reads and checks the script, and queues its run (R102, R103, R110). It is held while the power-fail
sequence runs (R423) and while the queue is full. -/
def portBond (c : CoreId) (f : Fld) (d : Dev) : Act :=
  match c with
  | .warden => .exc 2 none 0 false d
  | .pier p =>
    if d.life.pf ≠ .none then .held d
    else
      let ea := (d.core c).ea f
      (d.drainAll c).act (fun _ d =>
        (d.load c false ea).act (fun h d =>
          (Dev.scriptWords c ea (bondWords h - 1) 1 d).act (fun ws d =>
            let s := parseScript (h :: ws)
            let (cs, d) := d.runCourses p s
            match bondCheck cs (d.core c).user s with
            | some (cause, word) => .exc 13 none 0 false (d.onPier p (fun P => refuseReport P cause word))
            | none =>
              if queueFull (d.pier p) then .held d
              else (d.launch p (mkRun s cs (d.runFix p))).memDone c f 1 id)))

/-- SYNC: completes when no run is executing or queued; at once on the warden (R106, R232, R236). -/
def portSync (c : CoreId) (_f : Fld) (d : Dev) : Act :=
  match c with
  | .pier p => if (d.pier p).runs.exec.isSome || (d.pier p).runs.queued.isSome then .held d else .next d
  | .warden => .next d

/-! ### The commands -/

/-- JMP (R222). -/
def execJmp (c : CoreId) (f : Fld) (s : State) : Host.Outcome State Fault Refusal := s.instr c 0x34 f portJmp

/-- JMPR (R222). -/
def execJmpr (c : CoreId) (f : Fld) (s : State) : Host.Outcome State Fault Refusal := s.instr c 0x35 f portJmpr

/-- CALL (R222). -/
def execCall (c : CoreId) (f : Fld) (s : State) : Host.Outcome State Fault Refusal := s.instr c 0x36 f portCall

/-- CALLR (R222). -/
def execCallr (c : CoreId) (f : Fld) (s : State) : Host.Outcome State Fault Refusal := s.instr c 0x37 f portCallr

/-- LOOP (R224). -/
def execLoop (c : CoreId) (f : Fld) (s : State) : Host.Outcome State Fault Refusal := s.instr c 0x38 f portLoop

/-- TRAP (R230). -/
def execTrap (c : CoreId) (f : Fld) (s : State) : Host.Outcome State Fault Refusal := s.instr c 0x39 f portTrap

/-- RTT (R230, R257). -/
def execRtt (c : CoreId) (f : Fld) (s : State) : Host.Outcome State Fault Refusal := s.instr c 0x3A f portRtt

/-- SRI (R203). -/
def execSri (c : CoreId) (f : Fld) (s : State) : Host.Outcome State Fault Refusal := s.instr c 0x3B f portSri

/-- SRV (R203). -/
def execSrv (c : CoreId) (f : Fld) (s : State) : Host.Outcome State Fault Refusal := s.instr c 0x3C f portSrv

/-- BOND (R102, R232). -/
def execBond (c : CoreId) (f : Fld) (s : State) : Host.Outcome State Fault Refusal := s.instr c 0x3E f portBond

/-- SYNC (R232). -/
def execSync (c : CoreId) (f : Fld) (s : State) : Host.Outcome State Fault Refusal := s.instr c 0x3F f portSync

end Sys2Proof.Machine
end

