-- ==== Sys2Proof/Machine/CoreString.lean ====
section
/-! DEFINITION. The string operations of STRG (R189, R227 to R229, R253). One command runs the operation over its A words;
an interrupt, a fault or a hold stops it at a word boundary with X1, X2, A and MH describing the rest. -/

namespace Sys2Proof.Machine

open Sys2Proof

/-! ### Shared steps (R227, R228) -/

/-- SW.RES. -/
def Core.resuming (k : Core) : Bool := k.sw.getLsbD 11

/-- A word is done: X1 and X2 step and A counts down. -/
def Core.strStep (k : Core) (both : Bool) : Core :=
  { k with x1 := if both then k.x1 + 1 else k.x1, x2 := k.x2 + 1, a := k.a - 1 }

/-- Words that an execution with `n` words left works on before `stop`, the interrupt, if one comes; in a delay slot none is
accepted (R228, R260). -/
def Core.strWords (k : Core) (stop : Option Nat) (n : Nat) : Nat := if k.slot.isSome then n else min (stop.getD n) n

/-- Repeats a word's work `n` times, or until it is stopped. -/
def Dev.strLoop (c : CoreId) (word : Dev → CRes Unit) : Nat → Dev → CRes Unit
  | 0, d => .ok () d
  | n + 1, d => (word d).bind (fun _ d => Dev.strLoop c word n d)

/-- Whether a kept memo is that of a string operation with these registers. -/
def StrKept.is (e : StrKept) (k : Core) : Bool := e.pc = k.pc && e.x1 = k.x1 && e.x2 = k.x2 && e.a = k.a

/-- What a stopped string operation with these registers has left, if they stand as it left them (R228, log 26). -/
def Core.strFound (k : Core) : Option StrMemo := (k.strKept.find? (·.is k)).map (·.memo)

/-- A STRG starts: afresh with RES = 0, else where it was stopped; one that finds no memo takes it that a word has been
processed (R228, log 26). -/
def Core.strBegin (k : Core) : Core :=
  if k.resuming then
    { k with strNow := k.strFound.getD { first := false }, strKept := k.strKept.filter (fun e => !e.is k) }
  else { k with strNow := {} }

/-- A stop leaves the memo behind (R228, R253). -/
def Core.strKeep (k : Core) : Core :=
  { k with strNow := {}, strKept := k.strKept.filter (fun e => !e.is k) ++ [⟨k.pc, k.x1, k.x2, k.a, k.strNow⟩] }

/-- SW.RES is cleared at completion (R228). -/
def Dev.strEnd (d : Dev) (c : CoreId) : Dev := d.onCore c (fun k => { k with sw := putBit k.sw 11 false, strNow := {} })

/-- What the instruction answers: completion, a hold or an interrupt that leaves RES at 1, or an exception that stops it
(R228). -/
def CRes.strAct {α : Type} (c : CoreId) (r : CRes α) (f : α → Dev → Act) : Act :=
  match r with
  | .ok v d => f v (d.strEnd c)
  | .held d => .held (d.onCore c (fun k => { k.strKeep with sw := putBit k.sw 11 true }))
  | .exc v s d => .exc v s 0 true (d.onCore c Core.strKeep)

/-- A string operation that works word by word from its start or its stop on. -/
def Dev.strRun (d : Dev) (stop : Option Nat) (c : CoreId) (word : Dev → CRes Unit) : Act :=
  let d := d.onCore c Core.strBegin
  let n := (d.core c).a.toNat
  let m := (d.core c).strWords stop n
  ((Dev.strLoop c word m d).bind (fun _ d => if m < n then .held d else .ok () d)).strAct c (fun _ d => .next d)

/-! ### MOVS, FILLS, XLTS (R227) -/

/-- One word of MOVS. -/
def movsWord (c : CoreId) (d : Dev) : CRes Unit :=
  (d.load c false (d.core c).x1).bind (fun w d =>
    (d.store c false (d.core c).x2 w 0xF#4).bind (fun _ d => .ok () (d.onCore c (·.strStep true))))

/-- MOVS. -/
def portMovs (stop : Option Nat) (c : CoreId) (_f : Fld) (d : Dev) : Act := d.strRun stop c (movsWord c)

/-- One word of FILLS. -/
def fillsWord (c : CoreId) (d : Dev) : CRes Unit :=
  (d.store c false (d.core c).x2 (d.core c).mq 0xF#4).bind (fun _ d => .ok () (d.onCore c (·.strStep false)))

/-- FILLS: a read of MQ waits for a long operation. -/
def portFills (stop : Option Nat) (c : CoreId) (_f : Fld) (d : Dev) : Act :=
  let d := if (d.core c).a = 0 then d else d.onCore c Core.deliver
  d.strRun stop c (fillsWord c)

/-- The four nonets of a word, looked up in the table at MQ, from nonet `j` on. -/
def xltsNonets (c : CoreId) (w : Word) : Nat → Nat → Word → Dev → CRes Word
  | 0, _, acc, d => .ok acc d
  | k + 1, j, acc, d =>
    (d.load c false ((d.core c).mq + (w.extractLsb' (9 * j) 9).setWidth 36)).bind (fun t d =>
      xltsNonets c w k (j + 1) (acc ||| ((t &&& 0x1FF#36) <<< (9 * j))) d)

/-- One word of XLTS. -/
def xltsWord (c : CoreId) (d : Dev) : CRes Unit :=
  (d.load c false (d.core c).x1).bind (fun w d =>
    (xltsNonets c w 4 0 0 d).bind (fun t d =>
      (d.store c false (d.core c).x2 t 0xF#4).bind (fun _ d => .ok () (d.onCore c (·.strStep true)))))

/-- XLTS. -/
def portXlts (stop : Option Nat) (c : CoreId) (_f : Fld) (d : Dev) : Act :=
  let d := if (d.core c).a = 0 then d else d.onCore c Core.deliver
  d.strRun stop c (xltsWord c)

/-! ### CMPS (R227, R253) -/

/-- Whether CMPS has its answer: an unequal pair, outside constant-time mode (R253). -/
def Core.cmpsDone (k : Core) : Bool := k.strNow.hit.isSome && !k.sw.getLsbD 8

/-- CMPS: reads pairs until the first unequal one, or all of them in constant-time mode; the first unequal pair stays noted. -/
def cmpsLoop (c : CoreId) : Nat → Dev → CRes Unit
  | 0, d => .ok () d
  | n + 1, d =>
    if (d.core c).cmpsDone then .ok () d
    else
      (d.load c false (d.core c).x1).bind (fun u d =>
        (d.load c false (d.core c).x2).bind (fun v d =>
          cmpsLoop c n (d.onCore c (fun k =>
            let hit := if k.strNow.hit.isSome || u = v then k.strNow.hit else some ⟨k.x1, k.x2, k.a, u.toNat < v.toNat⟩
            { k.strStep true with strNow := { k.strNow with hit := hit } }))))

/-- The registers and flags that CMPS leaves (R227). -/
def Core.cmpsEnd (k : Core) : Core :=
  match k.strNow.hit with
  | some h => { (k.zncv false h.less false false) with x1 := h.x1, x2 := h.x2, a := h.a }
  | none => k.zncv true false false false

/-- CMPS. -/
def portCmps (stop : Option Nat) (c : CoreId) (_f : Fld) (d : Dev) : Act :=
  if (d.core c).a = 0 then .next (d.strEnd c)
  else
    let d := d.onCore c (fun k => k.deliverFlags.strBegin)
    let n := (d.core c).a.toNat
    let m := (d.core c).strWords stop n
    match cmpsLoop c m d with
    | .ok _ d =>
      if m < n && !(d.core c).cmpsDone then (CRes.held d : CRes Unit).strAct c (fun _ d => .next d)
      else .next ((d.onCore c Core.cmpsEnd).strEnd c)
    | r => r.strAct c (fun _ d => .next d)

/-! ### DADDS and DSUBS (R48 to R50, R140, R189, R229) -/

/-- The state word of a decimal string operation in MH (R229). -/
structure DecSt where
  neg  : Bool
  ord  : Bool
  subm : Bool
  cb   : Bool
deriving DecidableEq, Repr

/-- MH of a stopped decimal string operation (R229): in the check phase only CODE. -/
def decMh (code : BitVec 3) (st : Option DecSt) : Word :=
  let w : Word := code.setWidth 36 <<< 33
  match st with
  | none => w
  | some s => putBit (putBit (putBit (putBit (putBit w 32 true) 31 s.neg) 30 s.ord) 29 s.subm) 28 s.cb

/-- The state in MH (R229). -/
def mhSt (mh : Word) : DecSt := ⟨mh.getLsbD 31, mh.getLsbD 30, mh.getLsbD 29, mh.getLsbD 28⟩

/-- The check phase reads word `lo + k` of both strings for k from `n` - 1 down (R229); the words come out lowest first. -/
def decRead (c : CoreId) (lo : Nat) : Nat → List (Word × Word) → Dev → CRes (List (Word × Word))
  | 0, acc, d => .ok acc d
  | k + 1, acc, d =>
    let x1 := (d.core c).x1 + BitVec.ofNat 36 (lo + k)
    let x2 := (d.core c).x2 + BitVec.ofNat 36 (lo + k)
    (d.load c false x1).bind (fun u d =>
      (d.load c false x2).bind (fun v d => decRead c lo k ((u, v) :: acc) d))

/-- The magnitude of a string: the first word holds eight digits above its sign (R48). -/
def magnitude : Bool → List Word → Nat
  | _, [] => 0
  | true, w :: ws => digitsVal w 1 + 100000000 * magnitude false ws
  | false, w :: ws => digitsVal w 0 + 1000000000 * magnitude false ws

/-- Whether the words of a string are valid; `first` says that the list begins with the word that holds the sign (R51). -/
def stringOk : Bool → List Word → Bool
  | _, [] => true
  | true, w :: ws => sdecOk w && stringOk false ws
  | false, w :: ws => decOk w && stringOk false ws

/-- Whether a string's sign is minus. -/
def stringMinus (ws : List Word) : Bool := signMinus (digit (ws.headD 0) 0)

/-- NEG, ORD and SUBM that the check phase fixes for X2 + X1 or X2 − X1 (R50, R229). -/
def decFix (sub : Bool) (u v : List Word) : DecSt :=
  let m1 := magnitude true u
  let m2 := magnitude true v
  let s1 := stringMinus u != sub
  let s2 := stringMinus v
  let subm := s1 != s2
  { subm := subm, ord := decide (m1 < m2), cb := false
    neg := if subm then (if m1 < m2 then s2 else if m2 < m1 then s1 else false) else s2 && (m1 ≠ 0 || m2 ≠ 0) }

/-- One word of the result and the carry or borrow out of it (R50, R229). -/
def decStep (first : Bool) (s : DecSt) (u v : Word) : Word × Bool :=
  let lo := if first then 1 else 0
  let cap := if first then 100000000 else 1000000000
  let c := s.cb.toNat
  let d1 := digitsVal u lo
  let d2 := digitsVal v lo
  let (t, o) : Nat × Bool :=
    if !s.subm then ((d1 + d2 + c) % cap, decide (cap ≤ d1 + d2 + c))
    else if s.ord then ((cap + d2 - d1 - c) % cap, decide (d2 < d1 + c))
    else ((cap + d1 - d2 - c) % cap, decide (d1 < d2 + c))
  (toDigits lo (9 - lo) t ||| (if first then (if s.neg then 0xD#36 else 0xC#36) else 0), o)

/-- The write phase over `n` words from the lowest up. MH and the memo follow the work, so that a stop leaves them right
(R229). -/
def decWrite (c : CoreId) (code : BitVec 3) : Nat → DecSt → Dev → CRes DecSt
  | 0, s, d => .ok s d
  | n + 1, s, d =>
    let memo := (d.core c).strNow
    (d.load c false (d.core c).x1).bind (fun u d =>
      (d.load c false (d.core c).x2).bind (fun v d =>
        let r := decStep memo.first s u v
        let s' : DecSt := { s with cb := r.2 }
        let zero := if memo.first then digitsVal r.1 1 = 0 else r.1 = 0#36
        (d.store c false (d.core c).x2 r.1 0xF#4).bind (fun _ d =>
          decWrite c code n s' (d.onCore c (fun k =>
            { k.strStep true with mh := decMh code (some s'), strNow := { memo with first := false, zero := memo.zero && zero } })))))

/-- An invalid string: nothing is written, DV is set, CY stays; the spec states no Z, N and V, which are free values (R189,
log 2). Trap 11 is taken if it is enabled. -/
def Dev.decStrInvalid (d : Dev) (c : CoreId) : Act :=
  let fr : BitVec 3 := d.free 3
  let k := d.core c
  let k' := k.znv (fr.getLsbD 0) (fr.getLsbD 1) (fr.getLsbD 2)
  let d' := (d.setCore c { k' with sw := putBit k'.sw 4 true, mh := 0 }).used
  if k.tre.getLsbD 2 then .trap 11 d' else .next d'

/-- The write phase with state `st` over the A words left, up to a stop after `m` of them, and the end (R229). `known` says that
the digits written before are known to be 0 or not; else Z is a free value unless a later digit is not 0 (log 26). -/
def Dev.decStrWrite (d : Dev) (code : BitVec 3) (c : CoreId) (m : Nat) (known : Bool) (st : DecSt) : Act :=
  let n := (d.core c).a.toNat
  let d := d.onCore c (fun k => { k with mh := decMh code (some st) })
  ((decWrite c code m st d).bind (fun r d =>
      if m < n then .held d else .ok (r, (d.core c).strNow.zero) d)).strAct c (fun r d =>
    let ov := r.1.cb && !r.1.subm
    let z := r.2 && (known || (d.free 1).getLsbD 0)
    let d := (d.onCore c (fun k => { (k.znv z r.1.neg ov) with mh := 0 })).used
    if ov && (d.core c).tre.getLsbD 0 then .trap 9 d else .next d)

/-- DADDS and DSUBS (R189, R227, R229): the check phase, then the write phase. A resumed write phase checks the words that remain
and goes on. An interrupt stops it after a number of words over both phases. -/
def portDecStr (code : BitVec 3) (stop : Option Nat) (c : CoreId) (_f : Fld) (d : Dev) : Act :=
  let d := if (d.core c).a = 0 then d else d.onCore c Core.deliverFlags
  let k := d.core c
  if k.a = 0 then .next (d.strEnd c)
  else
    let write := k.resuming && k.mh.getLsbD 32
    let known := !write || k.strFound.isSome
    let d := d.onCore c Core.strBegin
    let d := if write then d else d.onCore c (fun k => { k with mh := decMh code none, strNow := {} })
    let n := k.a.toNat
    let m := k.strWords stop (if write then n else 2 * n)
    if !write && m < n then
      ((decRead c (n - m) m [] d).bind (fun _ d => (.held d : CRes Unit))).strAct c (fun _ d => .next d)
    else
      match decRead c 0 n [] d with
      | .ok ws d =>
        let u := ws.map (·.1)
        let v := ws.map (·.2)
        let first := (d.core c).strNow.first
        if !(stringOk first u && stringOk first v) then (d.strEnd c).decStrInvalid c
        else if write then d.decStrWrite code c m known (mhSt k.mh)
        else d.decStrWrite code c (m - n) known (decFix (code = 4#3) u v)
      | r => r.strAct c (fun _ d => .next d)

/-- DADDS. -/
def portDadds : Option Nat → CoreId → Fld → Dev → Act := portDecStr 3#3

/-- DSUBS. -/
def portDsubs : Option Nat → CoreId → Fld → Dev → Act := portDecStr 4#3

/-! ### The commands -/

/-- MOVS (R227). -/
def execMovs (c : CoreId) (g : StrGd) (s : State) : Host.Outcome State Fault Refusal := s.instr c 0x3D (immFld g.gd 1) (portMovs g.stop)

/-- FILLS (R227). -/
def execFills (c : CoreId) (g : StrGd) (s : State) : Host.Outcome State Fault Refusal := s.instr c 0x3D (immFld g.gd 2) (portFills g.stop)

/-- DADDS (R189, R227, R229). -/
def execDadds (c : CoreId) (g : StrGd) (s : State) : Host.Outcome State Fault Refusal := s.instr c 0x3D (immFld g.gd 3) (portDadds g.stop)

/-- DSUBS (R189, R227, R229). -/
def execDsubs (c : CoreId) (g : StrGd) (s : State) : Host.Outcome State Fault Refusal := s.instr c 0x3D (immFld g.gd 4) (portDsubs g.stop)

/-- CMPS (R227, R253). -/
def execCmps (c : CoreId) (g : StrGd) (s : State) : Host.Outcome State Fault Refusal := s.instr c 0x3D (immFld g.gd 5) (portCmps g.stop)

/-- XLTS (R227). -/
def execXlts (c : CoreId) (g : StrGd) (s : State) : Host.Outcome State Fault Refusal := s.instr c 0x3D (immFld g.gd 6) (portXlts g.stop)

end Sys2Proof.Machine
end

