-- ==== Sys2Proof/Machine/CoreEvents.lean ====
section
/-! DEFINITION. Events of a core: delivery of a long operation, a store-buffer drain, an instruction-cache fill and a table
walk (R240, R242, R247, R249, R310). -/

namespace Sys2Proof.Machine

open Sys2Proof

/-- LONG_OPERATION_DELIVERY (R247). -/
def execLongOperationDelivery (c : CoreId) (s : State) : Host.Outcome State Fault Refusal :=
  s.answer (s.dev.onCore c Core.deliver)

/-- STORE_BUFFER_DRAIN: the oldest entry drains (R249, R250). -/
def execStoreBufferDrain (c : CoreId) (s : State) : Host.Outcome State Fault Refusal :=
  s.answer (match s.dev.drainHead c with
    | .done d => d
    | .held d => d)

/-! ### Instruction fetch (R240, R242) -/

/-- Lines of an instruction-cache set (R240): 256 sets of 4 ways. -/
def icSet (line : Nat) (cache : List IcLine) : List IcLine := cache.filter (fun e => e.line % 256 = line % 256)

/-- Fills a line; a full set loses one line, by a rule that the spec does not give (R240, log 2). -/
def icFill (fr : Nat) (l : IcLine) (cache : List IcLine) : List IcLine :=
  let set := icSet l.line cache
  if set.length < 4 then cache ++ [l]
  else
    let victim := (set.getD (Config.icVictim fr % 4) l).line
    cache.filter (fun e => e.line ≠ victim) ++ [l]

/-- Reads `k` words from physical address `a` on; none where one of them cannot be read. -/
def icWords (now : Nat) (i : Ident) : Nat → Nat → Pier → Option (List Word) × Pier
  | 0, _, P => (some [], P)
  | k + 1, a, P =>
    match physRead P now i .fetch (BitVec.ofNat 36 a) with
    | .ok w P =>
      (match icWords now i k (a + 1) P with
       | (some ws, P) => (some (w :: ws), P)
       | (none, P) => (none, P))
    | .held P => (none, P)
    | .bus _ P => (none, P)
    | .rubble P => (none, P)

/-- What a fetch answers: the word; nothing, where a fault is recorded with it; or a wait for its bank. -/
inductive FetchRes where
  | word (w : Word) (P : Pier)
  | fault (P : Pier)
  | held (P : Pier)

/-- The pier after a fetch. -/
def FetchRes.pier : FetchRes → Pier
  | .word _ P => P
  | .fault P => P
  | .held P => P

/-- A fetch of `va` at its physical address: a cached line answers as it stands, whatever memory holds by now; a fault of the
word is recorded with it; else the line of 8 words is filled where all of it can be read (R240, R242, R294). -/
def fetchWord (P : Pier) (now fr : Nat) (va pa : Word) : FetchRes :=
  let i := if P.core.user then tagIdent P.regs.tag else .supervisor
  let l := pa.toNat / 8
  let note (P : Pier) (kind : Nat) : FetchRes :=
    .fault { P with core := P.core.recordFetch va (if kind = 0xF then 7 else 8) (mkFcs P.core.user .execute 0 false 0 kind) }
  match P.mem.icache.find? (fun e => e.line = l) with
  | some e => .word (e.words.getD (pa.toNat % 8) 0) { P with core := P.core.dropFetch va }
  | none =>
    match physRead P now i .fetch pa with
    | .held x => .held { P with mem := { P.mem with bank := x.mem.bank } }
    | .bus k P => note P k
    | .rubble P => note P 0xF
    | .ok w P =>
      let P := { P with core := P.core.dropFetch va }
      match icWords now i 8 (8 * l) P with
      | (some ws, P) => .word w { P with mem := { P.mem with icache := icFill fr ⟨l, ws⟩ P.mem.icache } }
      | (none, P) => .word w P

/-- A fetch of `va` in the space current at the fetch (R240, R242). -/
def fetchVa (P : Pier) (now fr : Nat) (va : Word) : FetchRes :=
  if P.core.user || P.core.te then
    match translate (pierTrCtx P P.core.user) now false .execute va P with
    | .ok pa P => fetchWord P now fr va pa
    | .held x => .held { P with mem := { P.mem with bank := x.mem.bank } }
    | .fault vec fcs P => .fault { P with core := P.core.recordFetch va vec fcs }
  else fetchWord P now fr va va

/-- INSTRUCTION_CACHE_FILL: a fetch of a running sequencer (R240, R242). -/
def execInstructionCacheFill (p : Fin 16) (va : Word) (s : State) : Host.Outcome State Fault Refusal :=
  let d := s.dev
  let P := d.pier p
  s.answer (if P.core.run ≠ .running then d else (d.setPier p (fetchVa P d.now d.fresh va).pier).used)

/-! ### Table walks (R310) -/

/-- Walks for a TLB miss and fills the TLB; what it found is noted (R310, R315). -/
def walkFor (P : Pier) (c : TrCtx) (now : Nat) (hod : Bool) (acc : Access) (va : Word) : Pier :=
  if (tlbOf P hod).any (tlbHit c.tag va) then P
  else match walkFill c now hod acc va P with
    | .ok pa P => { P with mem := { P.mem with walkRes := some (.inl pa) } }
    | .held x => { P with mem := { P.mem with bank := x.mem.bank } }
    | .fault _ fcs P => { P with mem := { P.mem with walkRes := some (.inr fcs) } }

/-- TABLE_WALK: a TLB miss of the sequencer, or of the session ticket that the hod runs, is resolved (R310). -/
def execTableWalk (p : Fin 16) (hod : Bool) (acc : Access) (va : Word) (s : State) : Host.Outcome State Fault Refusal :=
  let d := s.dev
  let P := d.pier p
  s.answer (if hod then
      match P.hod.cur with
      | some t => if t.frontage then d else d.setPier p (walkFor P (d.hodCtx P t.tag) d.now true acc va)
      | none => d
    else if P.core.run = .running && (P.core.user || P.core.te) then
      d.setPier p (walkFor P (pierTrCtx P P.core.user) d.now false acc va)
    else d)

end Sys2Proof.Machine
end

