-- ==== Sys2Proof/Machine/CoreProgram.lean ====
section
/-! DEFINITION. RUN_PROGRAM: a partition program runs in user mode on its pier's sequencer, one instruction after the other,
with the runs that it launches (R406 to R410). -/

namespace Sys2Proof.Machine

open Sys2Proof

/-! ### The run machinery beside a program -/

/-- Scours and wakes of banks that a program waits for come to their end (R280, R283). -/
def settleBanks (now : Nat) (P : Pier) : Pier :=
  (List.finRange 16).foldl (fun P b =>
    let P := if P.mem.bank[b].scour then scourEnd P b else P
    if P.mem.bank[b].retn = .waking then P.onBank b (fun k => { k with retn := .awake, lastUse := now }) else P) P

/-- The lane ramp of a pier with a run comes to its end (R467). -/
def rampNow (P : Pier) : Pier :=
  if P.runs.exec.isSome && P.pw.st = .idle then
    { P with pw := { P.pw with st := .run, change := if P.pw.change = .ramp then .none else P.pw.change } }
  else P

/-- A step of a pier's run, with free values of its own. -/
def Dev.fire (d : Dev) (p : Fin 16) (f : Nat → Nat → Pier → Pier) : Dev :=
  { d.setPier p (f d.now d.fresh (d.pier p)) with fresh := d.fresh + accFrees }

/-- The step of one unit of a run, by its number (R70, R155). -/
def unitStep (kc : KeyCtx) (u now fr : Nat) (P : Pier) : Pier :=
  if isLoad u then loadFire P now fr u
  else if isStore u then storeCommit P now fr u
  else match u with
    | 0x08 => iaFire P now fr 0
    | 0x09 => iaFire P now fr 1
    | 0x0A => mcFire P now fr 0
    | 0x0B => mcFire P now fr 1
    | 0x0C => dcFire P now fr
    | 0x0D => fpFire P now fr
    | 0x0E => rdFire P now fr
    | 0x0F => cyFire P now fr
    | 0x10 => kf0Fire P now fr kc
    | 0x12 => ixFire P now fr
    | 0x13 => slFire P now fr
    | 0x20 => tileFire P now fr u
    | 0x21 => segFire P now fr u
    | 0x22 => segFire P now fr u
    | 0x23 => hashFire 65536 P now fr
    | 0x24 => xlatFire P now fr
    | 0x25 => tileFire P now fr u
    | _ => P

/-- One round of a pier's run: its start, every unit once, every joint once. -/
def Dev.driveRun (d : Dev) (p : Fin 16) : Dev :=
  let d := d.onPier p (fun P => rampNow (settleBanks d.now P))
  let d := d.fire p (fun now fr P => runStart P now fr)
  match (d.pier p).runs.exec with
  | none => d
  | some r =>
    let d := (r.units.map (·.num)).foldl (fun d u => d.fire p (unitStep d.keyCtx u)) d
    ((r.conns.map (·.src)).eraseDups).foldl (fun d q => d.fire p (fun now fr P => jointAdvance P now fr q)) d

/-! ### Instructions from memory (R209, R215, R240, R242) -/

/-- The destination port and the fields of an instruction word (R209). -/
def wordFld (w : Word) : Nat × Fld :=
  ((w.extractLsb' 26 6).toNat, ⟨w.extractLsb' 33 3, w.getLsbD 32, w.extractLsb' 24 2, w.extractLsb' 0 24⟩)

/-- The effect of a destination port (R215, R219, R227). -/
def portBody (n : Nat) (f : Fld) : CoreId → Fld → Dev → Act :=
  match n with
  | 0x00 => portNull
  | 0x01 => portA
  | 0x02 => portX1
  | 0x03 => portX2
  | 0x04 => portSp
  | 0x05 => portLk
  | 0x06 => portC1
  | 0x07 => portC2
  | 0x08 => portC3
  | 0x09 => portMq
  | 0x0A => portMh
  | 0x0B => portAdd
  | 0x0C => portAdc
  | 0x0D => portSub
  | 0x0E => portSbb
  | 0x0F => portNeg
  | 0x10 => portAnd
  | 0x11 => portOr
  | 0x12 => portXor
  | 0x13 => portTlbi
  | 0x14 => portShl
  | 0x15 => portShr
  | 0x16 => portSar
  | 0x17 => portRol
  | 0x18 => portCmp
  | 0x19 => portSeq
  | 0x1A => portSlt
  | 0x1B => portSltu
  | 0x1C => portMul
  | 0x1D => portMulu
  | 0x1E => portDiv
  | 0x1F => portDivu
  | 0x20 => portDadd
  | 0x21 => portDsub
  | 0x22 => portDchk
  | 0x23 => portFadd
  | 0x24 => portFsub
  | 0x25 => portFmul
  | 0x26 => portFdiv
  | 0x27 => portFcmp
  | 0x28 => if f.src = 0#24 then portFtoi else if f.src = 1#24 then portItof else portUtof
  | 0x29 => portFint
  | 0x2A => portLdhi
  | 0x2B => portSta
  | 0x2C => portStx1
  | 0x2D => portStx2
  | 0x2E => portLdd
  | 0x2F => portStd
  | 0x30 => portXadd
  | 0x31 => portXswp
  | 0x32 => portLdn
  | 0x33 => portStn
  | 0x34 => portJmp
  | 0x35 => portJmpr
  | 0x36 => portCall
  | 0x37 => portCallr
  | 0x38 => portLoop
  | 0x39 => portTrap
  | 0x3A => portRtt
  | 0x3B => portSri
  | 0x3C => portSrv
  | 0x3D =>
    if f.src = 1#24 then portMovs none else if f.src = 2#24 then portFills none else if f.src = 3#24 then portDadds none
    else if f.src = 4#24 then portDsubs none else if f.src = 5#24 then portCmps none else portXlts none
  | 0x3E => portBond
  | _ => portSync

/-! ### Steps (R409) -/

/-- The highest number of steps of a program (R409). -/
def stepLimit : Nat := 16777216

/-- A program as it runs: the device, the steps counted, A at the start of the STRG in progress, and whether it has ended
with TRAP #0. -/
structure Prog where
  d      : Dev
  steps  : Nat
  strA   : Nat
  ending : Bool

/-- How a program leaves its sequencer: with TRAP #0; with a verdict; over the step limit; with a failed entry; or waiting for
something that never comes. -/
inductive ProgEnd where
  | done (d : Dev)
  | verdict (v : Verdict) (d : Dev)
  | over (d : Dev)
  | failed (d : Dev)
  | waits (d : Dev)

/-- Whether an instruction completed between two states of the device: completion spends a free value, and a branch leaves
its delay slot to come. -/
def completedBetween (d d' : Dev) (c : CoreId) : Bool :=
  d'.fresh ≠ d.fresh || ((d.core c).slot.isNone && (d'.core c).slot.isSome)

/-- Words that a completed STRG processed over all its passes, from A before and after; DADDS and DSUBS pass twice unless the
check finds an invalid digit (R229, R253, R409). -/
def strgWords (src : Nat) (ct : Bool) (a0 a1 : Nat) : Nat :=
  if src = 5 then (if ct || a1 = 0 then a0 else a0 - a1 + 1)
  else if src = 3 || src = 4 then (if a1 = 0 then 2 * a0 else a0)
  else a0

/-- Steps that a completed instruction counts (R409). -/
def stepsOf (before after : Dev) (p : Fin 16) (n : Nat) (f : Fld) (strA : Nat) : Nat :=
  let k := before.core (.pier p)
  let executed := !k.slot.any (·.annul) && k.guardOk f
  if !executed then 1
  else if n = 0x3D then 1 + strgWords f.src.toNat (k.sw.getLsbD 8) strA ((after.core (.pier p)).a.toNat)
  else if n = 0x3E then
    let R := (after.pier p).runs
    1 + (((R.queued.or R.exec).map (fun r => (r.n + 31) / 32)).getD 0)
  else 1

/-- The ending of R409 for an accepted vector. -/
def endOf (vec rout : Nat) : Verdict :=
  let status :=
    if vec = 4 || vec = 5 || vec = 6 then 0x21
    else if vec = 7 then 0x22
    else if vec = 14 then (if rout = 3 || rout = 4 then 0x21 else if rout = 6 || rout = 9 then 0x22 else 0x10)
    else 0x10
  { status := status, result := vec }

/-- The ending by a run fault or an imprecise store error that is found after TRAP #0 (R409). -/
def lateEnd (P : Pier) : Option Verdict :=
  match P.core.imprecise with
  | some e => some (endOf e.vec.toNat 0)
  | none => if P.core.runFault then some (endOf 14 P.runs.rout.toNat) else none

/-- The core back in the program behind a TRAP that resident firmware has served (R257, R409). -/
def Core.backFrom (k old : Core) (pc : Word) : Core := { k with sw := old.sw, sp := old.sp, pc := pc }

/-- An accepted exception of a program: the entry pushes on the program's stack; then resident firmware's service, or the end
(R255, R256, R409). -/
def Prog.trapped (g : Prog) (p : Fin 16) (e : Entry) : Prog ⊕ ProgEnd :=
  let c : CoreId := .pier p
  let d := g.d.takeException c e
  let served (d : Dev) : Prog ⊕ ProgEnd :=
    if stepLimit < g.steps + 1 then .inr (.over d)
    else .inl { g with d := d.onCore c (fun k => k.backFrom (g.d.core c) e.pc), steps := g.steps + 1 }
  if (d.core c).run ≠ .running then .inr (.failed d)
  else if (d.core c).user then .inl { g with d := d }
  else match e.vec.toNat with
    | 64 => .inl { g with d := d, ending := true }
    | 65 => served (d.onPier p (fun P => tlbInvalidate P (tlbHit P.regs.tag P.core.x1)))
    | 66 => served (d.fire p (fun now fr P => runCtlWrite P now fr 0xA#32))
    | v => .inr (.verdict (endOf v (d.pier p).runs.rout.toNat) d)

/-- One instruction of a program (R409). -/
def Prog.instr (g : Prog) (p : Fin 16) : Prog ⊕ ProgEnd :=
  let c : CoreId := .pier p
  let P := g.d.pier p
  let run (d : Dev) (n : Nat) (f : Fld) : Prog ⊕ ProgEnd :=
    let k := d.core c
    let a0 := if n = 0x3D && !k.resuming then k.a.toNat else g.strA
    let d' := d.instr c n f (portBody n f)
    if completedBetween d d' c then
      let steps := g.steps + stepsOf d d' p n f a0
      if stepLimit < steps then .inr (.over d') else .inl { g with d := d', steps := steps, strA := a0 }
    else .inl { g with d := d', strA := a0 }
  let nop : Fld := ⟨0, false, 0, 0⟩
  if P.core.slot.any (·.annul) then run g.d 0 nop
  else match fetchVa P g.d.now g.d.fresh P.core.pc with
    | .held P => .inl { g with d := g.d.setPier p P }
    | .fault P => run (g.d.setPier p P).used 0 nop
    | .word w P => run (g.d.setPier p P).used (wordFld w).1 (wordFld w).2

/-- The store buffer drains as far as it can (R249). -/
def Dev.flush (d : Dev) (c : CoreId) : Dev :=
  match d.drainAll c with
  | .ok _ d => d
  | .held d => d
  | .exc _ _ d => d

/-- One round: the runs advance, then the boundary or the instruction. A round that changes nothing waits for ever. -/
def Prog.round (g : Prog) (p : Fin 16) : Prog ⊕ ProgEnd :=
  let P0 := g.d.pier p
  let d := g.d.driveRun p
  let g1 : Prog := { g with d := if g.ending then d.flush (.pier p) else d }
  let P := g1.d.pier p
  let next : Prog ⊕ ProgEnd :=
    if g.ending then
      (if P.runs.exec.isNone && P.runs.queued.isNone && P.core.sbuf.isEmpty then
        match lateEnd P with
        | some v => .inr (.verdict v g1.d)
        | none => .inr (.done g1.d)
      else .inl g1)
    else match P.core.entryOf with
      | some e => g1.trapped p e
      | none => g1.instr p
  match next with
  | .inr e => .inr e
  | .inl g2 => if g2.d.pier p = P0 && g2.ending = g.ending then .inr (.waits g2.d) else .inl g2

/-- Rounds until the program leaves. -/
def Prog.loop (p : Fin 16) : Nat → Prog → ProgEnd
  | 0, g => .waits g.d
  | n + 1, g =>
    match g.round p with
    | .inl g => Prog.loop p n g
    | .inr e => e

/-! ### The item (R24, R408, R409) -/

/-- The core at a program's ENTRY; what R408 does not name is 0, so that nothing of earlier items shows (R24, R408). -/
def Core.program (k : Core) (g : Image) (words : Nat) (param : DW) : Core :=
  { ({} : Core) with
    a := BitVec.ofNat 36 words, x1 := BitVec.ofNat 36 g.inA, x2 := BitVec.ofNat 36 g.outA, mq := BitVec.ofNat 36 g.outCap
    mh := param.setWidth 36, sp := g.sp, pc := BitVec.ofNat 36 (g.base + g.entry), sw := 0x40#36, run := .running
    vbr := k.vbr, ipend := k.ipend, tmr := k.tmr, tmrRun := k.tmrRun, btb := k.btb }

/-- A pier at a program's ENTRY: image, zero area and input in memory, PR_SPACE and PR_S1ROOT of the session without translations
of earlier items, no report and no staging or accumulator contents of earlier items (R24, R408); the XLAT tables stay
(R179). -/
def Pier.program (P : Pier) (now : Nat) (q : Fin 64) (s : Session) (g : Image) (input : List Word) (param : DW) : Pier :=
  let tag := BitVec.ofNat 22 (q.val * 65536 + s.num % 65536)
  let P := tlbInvalidate (writeIpa now q g.inA input (writeImage now q g P)) (fun e => e.tag = tag)
  { P with
    core := P.core.program g input.length param
    regs := { P.regs with tag := tag, s1w := s.s1w, s1root := s.root }
    mem := { P.mem with icache := [] }
    runs := { P.runs with rout := 0, unit := 0, index := 0, rcause := 0, rword := 0, ovf := false,
                          stag := [], stagRub := [], stagBad := [], acc := [], accRub := [] } }

/-- The pier back with resident firmware: stores that wait drain, a run that is left is abandoned and the reports acknowledged
(R113, R128, R249). -/
def Dev.progLeave (d : Dev) (p : Fin 16) (k0 : Core) : Dev :=
  let d := (d.onPier p (settleBanks d.now)).flush (.pier p)
  let d := d.fire p (fun now fr P => runCtlWrite (runCtlWrite P now fr 1#32) now fr 0xE#32)
  d.onPier p (fun P => { P with core := { k0 with btb := P.core.btb, ipend := P.core.ipend } })

/-- Reads words at an IPA of a partition: none where one is rubble or has no leaf. -/
def readIpa (now : Nat) (q : Fin 64) : Nat → Nat → Pier → Option (List Word) × Pier
  | 0, _, P => (some [], P)
  | k + 1, a, P =>
    match P.leafOf q a with
    | none => (none, P)
    | some l =>
      match gatewayRead P now .supervisor (l.word a) with
      | .ok w P =>
        match readIpa now q k (a + 1) P with
        | (some ws, P) => (some (w :: ws), P)
        | (none, P) => (none, P)
      | r => (none, r.pier)

/-- Host bytes of `n` words in an output packing (R39, R409). -/
def packBytes (code n : Nat) : Nat :=
  match code with
  | 0 => 4 * n
  | 1 => (9 * n + 1) / 2
  | _ => 8 * n

/-- The verdict of a program that ended with TRAP #0 (R409). -/
def Dev.progOutput (d : Dev) (p : Fin 16) (q : Fin 64) (g : Image) (i : Item) : Verdict × Dev :=
  let k := (d.pier p).core.deliver
  let n := k.a.toNat
  if g.outCap < n || i.room < packBytes i.pko n then (.bad 0x7D, d)
  else match readIpa d.now q n g.outA (d.pier p) with
    | (some ws, P) => ({ status := 0, result := k.mq.toNat % 256, out := packOut i.pko ws }, d.setPier p P)
    | (none, P) => ({ status := 0x22 }, d.setPier p P)

/-- Rounds that outlast every program within the step limit. -/
def progRounds : Nat := 2 ^ 64

/-- Runs a loaded program for an item (R408, R409). A program over the step limit waits for PROGRAM_STEP_LIMIT; one whose entry
failed stays with its pier, which CONTAIN takes; one that waits for ever stays until it is preempted or contained. -/
def Dev.runProgram (d : Dev) (i : Item) (p : Fin 16) (q : Fin 64) (s : Session) (g : Image) (bs : List Byte) : Dev :=
  let k0 := (d.pier p).core
  let d := d.onPier p (fun P => P.program d.now q s g (packIn i.pki bs) (i.dw 13))
  match Prog.loop p progRounds ⟨d, 0, 0, false⟩ with
  | .done d =>
    let r := d.progOutput p q g i
    (r.2.progLeave p k0).finishPier i p r.1 bs
  | .verdict v d => (d.progLeave p k0).finishPier i p v bs
  | .over d => (d.progLeave p k0).onItem i.id (fun _ => { i with inBytes := bs, stage := .overLimit p })
  | .failed d => d
  | .waits d => d.onPier p (fun P => { P with core := { k0 with btb := P.core.btb, ipend := P.core.ipend } })

/-- RUN_PROGRAM (R408, R409). -/
def execRunProgram (it : Nat) (inp : Fetched) (s : State) : Host.Outcome State Fault Refusal :=
  let d0 := s.dev
  s.answer (match d0.pierItem it 0x70 with
    | none => d0
    | some (i, p, d) =>
      match findLoaded (d0.snapOf it) i.part false (i.bits 12 5 0), i.part, d.session? i.session with
      | some l, some q, some ss =>
        let g := parseImage l.words
        if g.inCap < packWords i.pki i.inLen then d.finishPier i p .length []
        else
          (match i.fetch inp with
           | .error c => (d.fetchInput i).finishPier i p { status := c } []
           | .ok bs => (d.fetchInput i).runProgram i p q ss g bs)
      | _, _, _ => d.finishPier i p (.bad 0x40) [])

/-- PROGRAM_STEP_LIMIT: an item whose program takes more than 16,777,216 steps ends (R409). -/
def execProgramStepLimit (it : Nat) (s : State) : Host.Outcome State Fault Refusal :=
  let d := s.dev
  s.answer (match d.item? it with
    | none => d
    | some i =>
      match i.stage with
      | .overLimit p => d.finishPier i p (.bad 0x7E) i.inBytes
      | _ => d)

end Sys2Proof.Machine
end

