-- ==== Sys2Proof/Machine/WardOps.lean ====
section
/-! DEFINITION. The ward: membership, export and import (R441 to R444). The byte layouts of requests, admissions and session
payloads are the model's (log 23). -/

namespace Sys2Proof.Machine

open Sys2Proof

/-- RESULT 0x03 of the ward opcodes (R442, R444). -/
def Verdict.notHere : Verdict := .bad 0x03

/-- Installs WTK, identifier, NODE and WARD, and persists them (R432, R437, R442). -/
def Dev.setWard (d : Dev) (wtk ident : List Byte) (node : Nat) (member : Bool) : Dev :=
  let k := ((d.ks.putBytes 0x20 (fitBytes 32 wtk)).putBytes 0x28 (fitBytes 8 ident)).put 0x2A
    (BitVec.ofNat 32 (node % 1024 + (if member then 65536 else 0)))
  Dev.persist { d with ks := k }

/-- Clears the ephemeral key of WARD_REQUEST (R442). -/
def Keystone.dropReq (k : Keystone) : Keystone := { k.putWords 0x380 (List.replicate 12 0) with wardReq := none }

/-- NODE of PARAM. -/
def Item.wardNode (i : Item) : Nat := i.bits 12 25 16

/-- WARD_REQUEST: NODE and an ephemeral P-384 public key, signed by the identity (R442); the key is a free value (log 2). -/
def execWardRequest (it : Nat) (inp : Fetched) (s : State) : Host.Outcome State Fault Refusal :=
  s.answer (s.dev.wardenOp it 0x88 inp (fun _ i => if i.room < 194 then some .length else none) (fun d i bs =>
    let x := 1 + (d.free 384).toNat % (p384.n - 1)
    let body := leBytes 2 i.wardNode ++ ecPublic p384 x
    let k := { d.ks.putBytes 0x380 (leBytes 48 x) with wardReq := some i.wardNode }
    (Dev.used { d with ks := k }).finishWarden i (.ok (body ++ identitySign d.ks.identity body)) bs))

/-- Whether a signature over a body verifies under a public key (R442). -/
def wardSigned (pub body sig : List Byte) : Bool := ecdsaVerify p384 pub (sha384 body) sig = 0

/-- The key that wraps WTK in an admission (R442). -/
def wardShared (x : Nat) (pub : List Byte) : List Byte :=
  fitBytes 32 (Config.wardKdf (ecdhX p384 x (beNat (pub.take 48)) (beNat (pub.drop 48))))

/-- WARD_ADMIT (R442). -/
def execWardAdmit (it : Nat) (inp : Fetched) (s : State) : Host.Outcome State Fault Refusal :=
  s.answer (s.dev.wardenOp it 0x89 inp
    (fun d i => if !d.ks.ward then some .notHere else if i.inLen ≠ 290 || i.room < 242 then some .length else none)
    (fun d i bs =>
      let body := bs.take 98
      let epub := body.drop 2
      if !wardSigned (bs.drop 194) body ((bs.drop 98).take 96) || !onCurve p384 (beNat (epub.take 48)) (beNat (epub.drop 48)) then
        d.finishWarden i (.verifyFail 0x01) bs
      else
        let x := 1 + (d.free 384).toNat % (p384.n - 1)
        let adm := ecPublic p384 x ++ d.ks.wardId ++ body.take 2 ++ aesKw (wardShared x epub) d.ks.wtk
        d.used.finishWarden i (.ok (adm ++ identitySign d.ks.identity adm)) bs))

/-- WARD_JOIN with FOUND = 0: the admission of a member (R442). -/
def Dev.joinWard (d : Dev) (i : Item) (bs : List Byte) : Dev :=
  let adm := bs.take 146
  let epub := adm.take 96
  let node := leNat ((adm.drop 104).take 2)
  let x := leNat (d.ks.bytes 0x380 12)
  if !wardSigned (bs.drop 242) adm ((bs.drop 146).take 96) || d.ks.wardReq ≠ some node ||
      !onCurve p384 (beNat (epub.take 48)) (beNat (epub.drop 48)) then d.finishWarden i (.verifyFail 0x01) bs
  else match aesKwUnwrap (wardShared x epub) (adm.drop 106) with
    | none => d.finishWarden i (.verifyFail 0x01) bs
    | some wtk =>
      let d := d.setWard wtk ((adm.drop 96).take 8) node true
      ({ d with ks := d.ks.dropReq }).finishWarden i (.ok []) bs

/-- WARD_JOIN: the founder's, with free values for WTK and the identifier (log 2), or a joiner's (R442). -/
def execWardJoin (it : Nat) (inp : Fetched) (s : State) : Host.Outcome State Fault Refusal :=
  let found (i : Item) : Bool := i.bits 12 0 0 = 1
  s.answer (s.dev.wardenOp it 0x8A inp
    (fun d i => if d.ks.ward then some .notHere else if !found i && i.inLen ≠ 338 then some .length else none)
    (fun d i bs =>
      if found i then
        let d1 := d.used
        let d2 := d1.used.setWard (freshBytes d 32) (freshBytes d1 8) i.wardNode true
        ({ d2 with ks := d2.ks.dropReq }).finishWarden i (.ok []) bs
      else d.joinWard i bs))

/-- WARD_LEAVE (R442). -/
def execWardLeave (it : Nat) (inp : Fetched) (s : State) : Host.Outcome State Fault Refusal :=
  s.answer (s.dev.wardenOp it 0x8B inp (fun d _ => if d.ks.ward then none else some .notHere) (fun d i bs =>
    (d.setWard [] [] 0 false).finishWarden i (.ok []) bs))

/-! ### Transfer blobs (R443, R444) -/

/-- A key of a transfer: its letter 0x4B or 0x4D, source and target node (R443). -/
def wardKeyOf (wtk : List Byte) (letter source target : Nat) : List Byte :=
  hmacSha256 wtk (bytesOf [0x58, letter] ++ leBytes 2 source ++ leBytes 2 target)

/-- The payload of a key (R443). -/
def keyPayload (kek : List Byte) (e : KeyEntry) : List Byte :=
  let k := kbKeyBytes kek e
  leBytes 4 e.handle ++ (e.words.take 5).flatMap (fun w => leBytes 5 w.toNat) ++ leBytes 2 k.length ++ k

/-- The payload of a session (R404, R443, log 23). -/
def sessionPayload (x : Session) : List Byte :=
  bytesOf [x.part.val, x.qos.toNat, x.s1w.toNat, 0] ++ leBytes 4 x.root.toNat ++ leBytes 6 x.h.toNat ++ leBytes 32 x.w.toNat ++
  leBytes 6 x.items.toNat

/-- A transfer blob (R443). -/
def wardBlob (k : Keystone) (kind target tseq : Nat) (payload : List Byte) : List Byte :=
  let w := aesKwp (wardKeyOf k.wtk 0x4B k.node target) payload
  let body := bytesOf [1, kind] ++ leBytes 2 k.node ++ leBytes 2 target ++ leBytes 2 0 ++ k.wardId ++ leBytes 8 tseq ++
    leBytes 4 w.length ++ leBytes 4 0 ++ w
  body ++ hmacSha256 (wardKeyOf k.wtk 0x4D k.node target) body

/-- Bytes of a blob with a payload of `n` bytes. -/
def blobLen (n : Nat) : Nat := 64 + 8 + 8 * ((n + 7) / 8)

/-- The entry of a key export: ACTIVE (R443). -/
def Dev.activeEntry (d : Dev) (i : Item) : Except Verdict KeyEntry :=
  match d.entryOf i.kh1 with
  | none => .error (.key 1 0)
  | some e => if i.kh1 = 0 || e.state = 0#3 then .error (.key 1 0) else if e.state ≠ 1#3 then .error (.key 3 0) else .ok e

/-- An export ends: TSEQ rises and is persisted, the blob is written (R443). -/
def Dev.exportBlob (d : Dev) (i : Item) (kind : Nat) (payload bs : List Byte) : Dev :=
  let t := d.flash.tseqOut + 1
  let d := { d with flash := { d.flash with tseqOut := t } }
  d.finishWarden i (.ok (wardBlob d.ks kind i.wardNode t payload)) bs

/-- WARD_EXPORT: a key, or a session, which closes and is exported when its items have completed (R443, log 4). -/
def execWardExport (it : Nat) (inp : Fetched) (s : State) : Host.Outcome State Fault Refusal :=
  let session (i : Item) : Bool := i.bits 12 0 0 = 1
  let num (i : Item) : Nat := i.bits 13 15 0
  s.answer (s.dev.wardenOp it 0x8C inp
    (fun d i =>
      if i.stage = .stateWait then none
      else if !d.ks.ward then some .notHere
      else if session i then
        (match d.session? (num i) with
         | some x => if !x.opened then some { status := 0x13 } else if i.room < blobLen 52 then some .length else none
         | none => some { status := 0x13 })
      else match d.activeEntry i with
        | .error v => some v
        | .ok e => if i.room < blobLen (31 + kbKeyLen e) then some .length else none)
    (fun d i bs =>
      if session i then
        (match d.session? (num i) with
         | none => d.finishWarden i { status := 0x13 } bs
         | some x =>
           let d := { d with sessions := d.sessions.map (fun (y : Session) => if y.num = num i then { y with opened := false } else y) }
           if d.items.any (d.sessionItem (num i)) then d.onItem it (fun i => { i with stage := .stateWait })
           else d.exportBlob i 1 (sessionPayload x) bs)
      else match d.activeEntry i with
        | .error v => d.finishWarden i v bs
        | .ok e => d.exportBlob i 0 (keyPayload ((d.ks.kek).getD []) e) bs))

/-- The checks of an import in their order (R444): the RESULT that refuses the blob, or its source node, TSEQ and payload. -/
def Dev.openBlob (d : Dev) (kind : Nat) (b : List Byte) : Except Nat (Nat × Nat × List Byte) :=
  let n := b.length
  let source := leNat ((b.drop 2).take 2)
  let target := leNat ((b.drop 4).take 2)
  let tseq := leNat ((b.drop 16).take 8)
  if n < 64 || (b.getD 0 0).toNat ≠ 1 || hmacSha256 (wardKeyOf d.ks.wtk 0x4D source target) (b.take (n - 32)) ≠ b.drop (n - 32) then
    .error 0x36
  else if (b.drop 8).take 8 ≠ d.ks.wardId || target ≠ d.ks.node || (b.getD 1 0).toNat ≠ kind then .error 0x37
  else if tseq ≤ assocGet d.flash.tseqIn source 0 then .error 0x38
  else match aesKwpUnwrap (wardKeyOf d.ks.wtk 0x4B source target) ((b.drop 32).take (leNat ((b.drop 24).take 4))) with
    | none => .error 0x36
    | some p => .ok (source, tseq, p)

/-- KEY_HANDLE with a RESULT (R444). -/
def Verdict.handle (r : Nat) : Verdict := { status := 0x15, result := r }

/-- A key is imported at its handle, as a key change (R401, R444). -/
def Dev.importKeyBlob (d : Dev) (i : Item) (p bs : List Byte) : Dev :=
  let h := leNat (p.take 4)
  let e := parseEntry h (((List.range 5).map (fun k => BitVec.ofNat 36 (leNat ((p.drop (4 + 5 * k)).take 5)))))
  let key := (p.drop 31).take (leNat ((p.drop 29).take 2))
  let kek := (d.ks.kek).getD []
  let e := if algSym e.alg.toNat then symEntry kek e key
    else let n := pubLen e.alg.toNat e.size.toNat; asymEntry kek e (key.take n) (key.drop n)
  if (d.entryOf h).any (fun x => x.state = 1#3) then d.finishWarden i (.handle 0x0A) bs
  else if !d.parts.any (fun q => q.part.val = e.owner.toNat) then d.finishWarden i (.handle 0x0B) bs
  else match d.placeEntry h e with
    | none => d.finishWarden i .full bs
    | some e => d.startChange i (.ok []) bs e

/-- A session opens on VF PART + 1 with the blob's fields (R444). -/
def Dev.importSession (d : Dev) (i : Item) (p bs : List Byte) : Dev :=
  let q := partOf (p.getD 0 0).toNat
  if !d.partExists q then d.finishWarden i (.handle 0x0B) bs
  else
    let x (n : Nat) : Session :=
      { num := n, fn := .vf q, part := q, qos := BitVec.ofNat 4 (p.getD 1 0).toNat, s1w := BitVec.ofNat 2 (p.getD 2 0).toNat,
        root := BitVec.ofNat 30 (leNat ((p.drop 4).take 4)), h := BitVec.ofNat 48 (leNat ((p.drop 8).take 6)),
        w := BitVec.ofNat 256 (leNat ((p.drop 14).take 32)), items := BitVec.ofNat 48 (leNat ((p.drop 46).take 6)) }
    match d.openSession x with
    | none => d.finishWarden i .noSession bs
    | some (n, d) => d.finishWarden i { status := 0, d6 := n } bs

/-- WARD_IMPORT: the blob's TSEQ is accepted and persisted with the import (R444). -/
def execWardImport (it : Nat) (inp : Fetched) (s : State) : Host.Outcome State Fault Refusal :=
  let kind (i : Item) : Nat := i.bits 12 0 0
  s.answer (match s.dev.wardenItem it 0x8D with
    | none => s.dev
    | some i =>
      if kind i = 0 && !s.dev.keyTurn i then s.dev
      else s.dev.wardenOp it 0x8D inp (fun d _ => if d.ks.ward then none else some .notHere)
        (fun d i bs => match d.openBlob (kind i) bs with
          | .error r => d.finishWarden i (.verifyFail r) bs
          | .ok (source, tseq, p) =>
            let d := { d with flash := { d.flash with tseqIn := assocSet d.flash.tseqIn source tseq } }
            if kind i = 0 then d.importKeyBlob i p bs else d.importSession i p bs))

end Sys2Proof.Machine
end

