-- ==== Sys2Proof/Machine/Dispatch.lean ====
section
/-! DEFINITION. One arm for each command: a direct call of its meaning. -/

namespace Sys2Proof.Machine

open Sys2Proof

def exec (i : Instr) (s : State) : Host.Outcome State Fault Refusal :=
  match i with
  | .null c f => Sys2Proof.Machine.execNull c f s
  | .a c f => Sys2Proof.Machine.execA c f s
  | .x1 c f => Sys2Proof.Machine.execX1 c f s
  | .x2 c f => Sys2Proof.Machine.execX2 c f s
  | .sp c f => Sys2Proof.Machine.execSp c f s
  | .lk c f => Sys2Proof.Machine.execLk c f s
  | .c1 c f => Sys2Proof.Machine.execC1 c f s
  | .c2 c f => Sys2Proof.Machine.execC2 c f s
  | .c3 c f => Sys2Proof.Machine.execC3 c f s
  | .mq c f => Sys2Proof.Machine.execMq c f s
  | .mh c f => Sys2Proof.Machine.execMh c f s
  | .ldhi c f => Sys2Proof.Machine.execLdhi c f s
  | .add c f => Sys2Proof.Machine.execAdd c f s
  | .adc c f => Sys2Proof.Machine.execAdc c f s
  | .sub c f => Sys2Proof.Machine.execSub c f s
  | .sbb c f => Sys2Proof.Machine.execSbb c f s
  | .neg c f => Sys2Proof.Machine.execNeg c f s
  | .and c f => Sys2Proof.Machine.execAnd c f s
  | .or c f => Sys2Proof.Machine.execOr c f s
  | .xor c f => Sys2Proof.Machine.execXor c f s
  | .shl c f => Sys2Proof.Machine.execShl c f s
  | .shr c f => Sys2Proof.Machine.execShr c f s
  | .sar c f => Sys2Proof.Machine.execSar c f s
  | .rol c f => Sys2Proof.Machine.execRol c f s
  | .cmp c f => Sys2Proof.Machine.execCmp c f s
  | .seq c f => Sys2Proof.Machine.execSeq c f s
  | .slt c f => Sys2Proof.Machine.execSlt c f s
  | .sltu c f => Sys2Proof.Machine.execSltu c f s
  | .tlbiMemory c f => Sys2Proof.Machine.execTlbiMemory c f s
  | .tlbiAll c g low => Sys2Proof.Machine.execTlbiAll c g low s
  | .tlbiTag c g ponly tag => Sys2Proof.Machine.execTlbiTag c g ponly tag s
  | .mul c f => Sys2Proof.Machine.execMul c f s
  | .mulu c f => Sys2Proof.Machine.execMulu c f s
  | .div c f => Sys2Proof.Machine.execDiv c f s
  | .divu c f => Sys2Proof.Machine.execDivu c f s
  | .dadd c f => Sys2Proof.Machine.execDadd c f s
  | .dsub c f => Sys2Proof.Machine.execDsub c f s
  | .dchk c f => Sys2Proof.Machine.execDchk c f s
  | .fadd c f => Sys2Proof.Machine.execFadd c f s
  | .fsub c f => Sys2Proof.Machine.execFsub c f s
  | .fmul c f => Sys2Proof.Machine.execFmul c f s
  | .fdiv c f => Sys2Proof.Machine.execFdiv c f s
  | .fcmp c f => Sys2Proof.Machine.execFcmp c f s
  | .ftoi c g => Sys2Proof.Machine.execFtoi c g s
  | .itof c g => Sys2Proof.Machine.execItof c g s
  | .utof c g => Sys2Proof.Machine.execUtof c g s
  | .fint c f => Sys2Proof.Machine.execFint c f s
  | .sta c f => Sys2Proof.Machine.execSta c f s
  | .stx1 c f => Sys2Proof.Machine.execStx1 c f s
  | .stx2 c f => Sys2Proof.Machine.execStx2 c f s
  | .ldd c f => Sys2Proof.Machine.execLdd c f s
  | .std c f => Sys2Proof.Machine.execStd c f s
  | .xadd c f => Sys2Proof.Machine.execXadd c f s
  | .xswp c f => Sys2Proof.Machine.execXswp c f s
  | .ldn c f => Sys2Proof.Machine.execLdn c f s
  | .stn c f => Sys2Proof.Machine.execStn c f s
  | .jmp c f => Sys2Proof.Machine.execJmp c f s
  | .jmpr c f => Sys2Proof.Machine.execJmpr c f s
  | .call c f => Sys2Proof.Machine.execCall c f s
  | .callr c f => Sys2Proof.Machine.execCallr c f s
  | .loop c f => Sys2Proof.Machine.execLoop c f s
  | .trap c f => Sys2Proof.Machine.execTrap c f s
  | .rtt c f => Sys2Proof.Machine.execRtt c f s
  | .sri c f => Sys2Proof.Machine.execSri c f s
  | .srv c f => Sys2Proof.Machine.execSrv c f s
  | .movs c g => Sys2Proof.Machine.execMovs c g s
  | .fills c g => Sys2Proof.Machine.execFills c g s
  | .dadds c g => Sys2Proof.Machine.execDadds c g s
  | .dsubs c g => Sys2Proof.Machine.execDsubs c g s
  | .cmps c g => Sys2Proof.Machine.execCmps c g s
  | .xlts c g => Sys2Proof.Machine.execXlts c g s
  | .bond c f => Sys2Proof.Machine.execBond c f s
  | .sync c f => Sys2Proof.Machine.execSync c f s
  | .longOperationDelivery c => Sys2Proof.Machine.execLongOperationDelivery c s
  | .storeBufferDrain c => Sys2Proof.Machine.execStoreBufferDrain c s
  | .exceptionEntry c => Sys2Proof.Machine.execExceptionEntry c s
  | .coreTimerWrite c v => Sys2Proof.Machine.execCoreTimerWrite c v s
  | .coreTimerExpiry c => Sys2Proof.Machine.execCoreTimerExpiry c s
  | .instructionCacheFill p va => Sys2Proof.Machine.execInstructionCacheFill p va s
  | .prIcCtlInv p => Sys2Proof.Machine.execPrIcCtlInv p s
  | .tableWalk p hod acc va => Sys2Proof.Machine.execTableWalk p hod acc va s
  | .coreRelease p => Sys2Proof.Machine.execCoreRelease p s
  | .runStart p => Sys2Proof.Machine.execRunStart p s
  | .loadStreamerFire p u => Sys2Proof.Machine.execLoadStreamerFire p u s
  | .jointGroupAdvance p port => Sys2Proof.Machine.execJointGroupAdvance p port s
  | .storeCommit p u => Sys2Proof.Machine.execStoreCommit p u s
  | .iaFire p u => Sys2Proof.Machine.execIaFire p u s
  | .mcFire p u => Sys2Proof.Machine.execMcFire p u s
  | .dcFire p => Sys2Proof.Machine.execDcFire p s
  | .fpFire p => Sys2Proof.Machine.execFpFire p s
  | .rdFire p => Sys2Proof.Machine.execRdFire p s
  | .cyFire p => Sys2Proof.Machine.execCyFire p s
  | .ixFire p => Sys2Proof.Machine.execIxFire p s
  | .slFire p => Sys2Proof.Machine.execSlFire p s
  | .kf0Lookup p => Sys2Proof.Machine.execKf0Lookup p s
  | .au0Record p source => Sys2Proof.Machine.execAu0Record p source s
  | .montTile p => Sys2Proof.Machine.execMontTile p s
  | .ecpTile p => Sys2Proof.Machine.execEcpTile p s
  | .aesFire p => Sys2Proof.Machine.execAesFire p s
  | .tdesFire p => Sys2Proof.Machine.execTdesFire p s
  | .hashSegment p => Sys2Proof.Machine.execHashSegment p s
  | .xlatFire p => Sys2Proof.Machine.execXlatFire p s
  | .prRunCtlAbort p v => Sys2Proof.Machine.execPrRunCtlAbort p v s
  | .prRunCtlAckr p v => Sys2Proof.Machine.execPrRunCtlAckr p v s
  | .prRunCtlAckf p v => Sys2Proof.Machine.execPrRunCtlAckf p v s
  | .prRunCtlClrovf p v => Sys2Proof.Machine.execPrRunCtlClrovf p v s
  | .prBankOwnWrite p b v => Sys2Proof.Machine.execPrBankOwnWrite p b v s
  | .bankScourEnd p b => Sys2Proof.Machine.execBankScourEnd p b s
  | .prBankRetireWrite p v => Sys2Proof.Machine.execPrBankRetireWrite p v s
  | .bankRetentionEntry p b => Sys2Proof.Machine.execBankRetentionEntry p b s
  | .bankWake p b => Sys2Proof.Machine.execBankWake p b s
  | .bankLockStart p => Sys2Proof.Machine.execBankLockStart p s
  | .bankLockTimeout p => Sys2Proof.Machine.execBankLockTimeout p s
  | .correctionWriteBack p addr => Sys2Proof.Machine.execCorrectionWriteBack p addr s
  | .quarryReadCompletion p l m => Sys2Proof.Machine.execQuarryReadCompletion p l m s
  | .mergeBufferWriteOut p l => Sys2Proof.Machine.execMergeBufferWriteOut p l s
  | .rawWrite p by_ => Sys2Proof.Machine.execRawWrite p by_ s
  | .rawRead p by_ => Sys2Proof.Machine.execRawRead p by_ s
  | .decodedRead p by_ => Sys2Proof.Machine.execDecodedRead p by_ s
  | .pointingRead p loc => Sys2Proof.Machine.execPointingRead p loc s
  | .pointingLapOverdue p quarry => Sys2Proof.Machine.execPointingLapOverdue p quarry s
  | .hbmRefresh p => Sys2Proof.Machine.execHbmRefresh p s
  | .phyRetraining p => Sys2Proof.Machine.execPhyRetraining p s
  | .sensorCalibration => Sys2Proof.Machine.execSensorCalibration s
  | .wearLevellingErase sector good => Sys2Proof.Machine.execWearLevellingErase sector good s
  | .prTlbiAll p v => Sys2Proof.Machine.execPrTlbiAll p v s
  | .prTlbiTag p v => Sys2Proof.Machine.execPrTlbiTag p v s
  | .prHodPost p v => Sys2Proof.Machine.execPrHodPost p v s
  | .prHodCtlSusp p v => Sys2Proof.Machine.execPrHodCtlSusp p v s
  | .prHodCtlResume p v => Sys2Proof.Machine.execPrHodCtlResume p v s
  | .hodTicketStart p => Sys2Proof.Machine.execHodTicketStart p s
  | .hodSegmentDone p rd => Sys2Proof.Machine.execHodSegmentDone p rd s
  | .sqtailWrite fn r v => Sys2Proof.Machine.execSqtailWrite fn r v s
  | .cqheadWrite fn r v => Sys2Proof.Machine.execCqheadWrite fn r v s
  | .ringEnableWrite fn r v => Sys2Proof.Machine.execRingEnableWrite fn r v s
  | .ferrClear fn r v => Sys2Proof.Machine.execFerrClear fn r v s
  | .entryFetch => Sys2Proof.Machine.execEntryFetch s
  | .entryArrival fn r entry inList outList => Sys2Proof.Machine.execEntryArrival fn r entry inList outList s
  | .itemResultWrite it => Sys2Proof.Machine.execItemResultWrite it s
  | .auditRecordWrite chain => Sys2Proof.Machine.execAuditRecordWrite chain s
  | .auditRingFullNotice => Sys2Proof.Machine.execAuditRingFullNotice s
  | .completionWrite it => Sys2Proof.Machine.execCompletionWrite it s
  | .coalescingTimerExpiry fn r => Sys2Proof.Machine.execCoalescingTimerExpiry fn r s
  | .msixTableAccess fn acc => Sys2Proof.Machine.execMsixTableAccess fn acc s
  | .flr fn => Sys2Proof.Machine.execFlr fn s
  | .flrItemStop it => Sys2Proof.Machine.execFlrItemStop it s
  | .vfEnableClear => Sys2Proof.Machine.execVfEnableClear s
  | .perstNAssert => Sys2Proof.Machine.execPerstNAssert s
  | .perstNRelease => Sys2Proof.Machine.execPerstNRelease s
  | .hotReset => Sys2Proof.Machine.execHotReset s
  | .linkDown => Sys2Proof.Machine.execLinkDown s
  | .d3hotEntry fn => Sys2Proof.Machine.execD3hotEntry fn s
  | .d0Entry fn => Sys2Proof.Machine.execD0Entry fn s
  | .spdmRequest m => Sys2Proof.Machine.execSpdmRequest m s
  | .ideIntegrityFailure ring => Sys2Proof.Machine.execIdeIntegrityFailure ring s
  | .ptmTimingUpdate master => Sys2Proof.Machine.execPtmTimingUpdate master s
  | .getState inst payload => Sys2Proof.Machine.execGetState inst payload s
  | .lowerCap inst payload => Sys2Proof.Machine.execLowerCap inst payload s
  | .stewardKekComponent inst payload => Sys2Proof.Machine.execStewardKekComponent inst payload s
  | .stewardHalt inst payload => Sys2Proof.Machine.execStewardHalt inst payload s
  | .setdasa staticAddr dynAddr => Sys2Proof.Machine.execSetdasa staticAddr dynAddr s
  | .entdaa dynAddr => Sys2Proof.Machine.execEntdaa dynAddr s
  | .bypass => Sys2Proof.Machine.execBypass s
  | .idcode => Sys2Proof.Machine.execIdcode s
  | .samplePreload bits => Sys2Proof.Machine.execSamplePreload bits s
  | .extest => Sys2Proof.Machine.execExtest s
  | .memoryBist => Sys2Proof.Machine.execMemoryBist s
  | .trstNAssert => Sys2Proof.Machine.execTrstNAssert s
  | .batchWindowExpiry b => Sys2Proof.Machine.execBatchWindowExpiry b s
  | .deadlineHintExpiry it => Sys2Proof.Machine.execDeadlineHintExpiry it s
  | .batchAging b => Sys2Proof.Machine.execBatchAging b s
  | .batchPlacement => Sys2Proof.Machine.execBatchPlacement s
  | .batchEnd p => Sys2Proof.Machine.execBatchEnd p s
  | .pierSleepTimer p => Sys2Proof.Machine.execPierSleepTimer p s
  | .pierOffTimer p => Sys2Proof.Machine.execPierOffTimer p s
  | .pierThinDelayExpiry p => Sys2Proof.Machine.execPierThinDelayExpiry p s
  | .preemptAckSuspended p => Sys2Proof.Machine.execPreemptAckSuspended p s
  | .preemptAckEnded p => Sys2Proof.Machine.execPreemptAckEnded p s
  | .preemptTimeout p => Sys2Proof.Machine.execPreemptTimeout p s
  | .migrationLeafMove p q ipa dest => Sys2Proof.Machine.execMigrationLeafMove p q ipa dest s
  | .echo it inp => Sys2Proof.Machine.execEcho it inp s
  | .signEcdsa it inp => Sys2Proof.Machine.execSignEcdsa it inp s
  | .verifyEcdsa it inp => Sys2Proof.Machine.execVerifyEcdsa it inp s
  | .signEddsa it inp => Sys2Proof.Machine.execSignEddsa it inp s
  | .verifyEddsa it inp => Sys2Proof.Machine.execVerifyEddsa it inp s
  | .signRsa it inp => Sys2Proof.Machine.execSignRsa it inp s
  | .verifyRsa it inp => Sys2Proof.Machine.execVerifyRsa it inp s
  | .pinTranslate it inp => Sys2Proof.Machine.execPinTranslate it inp s
  | .macGenerate it inp => Sys2Proof.Machine.execMacGenerate it inp s
  | .macVerify it inp => Sys2Proof.Machine.execMacVerify it inp s
  | .arqcVerify it inp => Sys2Proof.Machine.execArqcVerify it inp s
  | .hash it inp => Sys2Proof.Machine.execHash it inp s
  | .msgTranslate it inp => Sys2Proof.Machine.execMsgTranslate it inp s
  | .keyImport it inp => Sys2Proof.Machine.execKeyImport it inp s
  | .keyExport it inp => Sys2Proof.Machine.execKeyExport it inp s
  | .keyGenerate it inp => Sys2Proof.Machine.execKeyGenerate it inp s
  | .keyDerive it inp => Sys2Proof.Machine.execKeyDerive it inp s
  | .keyDestroy it inp => Sys2Proof.Machine.execKeyDestroy it inp s
  | .keyInfo it inp => Sys2Proof.Machine.execKeyInfo it inp s
  | .keyStoreLogProgram good => Sys2Proof.Machine.execKeyStoreLogProgram good s
  | .sessionOpen it inp => Sys2Proof.Machine.execSessionOpen it inp s
  | .sessionClose it inp => Sys2Proof.Machine.execSessionClose it inp s
  | .runProgram it inp => Sys2Proof.Machine.execRunProgram it inp s
  | .programStepLimit it => Sys2Proof.Machine.execProgramStepLimit it s
  | .loadProgram it inp => Sys2Proof.Machine.execLoadProgram it inp s
  | .defineCourse it inp => Sys2Proof.Machine.execDefineCourse it inp s
  | .auditAttest it inp => Sys2Proof.Machine.execAuditAttest it inp s
  | .sealNow it inp => Sys2Proof.Machine.execSealNow it inp s
  | .partCreate it inp => Sys2Proof.Machine.execPartCreate it inp s
  | .partDestroy it inp => Sys2Proof.Machine.execPartDestroy it inp s
  | .kekComponent it inp => Sys2Proof.Machine.execKekComponent it inp s
  | .componentExpired q => Sys2Proof.Machine.execComponentExpired q s
  | .setTime it inp => Sys2Proof.Machine.execSetTime it inp s
  | .setState it inp => Sys2Proof.Machine.execSetState it inp s
  | .provision it inp => Sys2Proof.Machine.execProvision it inp s
  | .setCert it inp => Sys2Proof.Machine.execSetCert it inp s
  | .setReentry it inp => Sys2Proof.Machine.execSetReentry it inp s
  | .wardRequest it inp => Sys2Proof.Machine.execWardRequest it inp s
  | .wardAdmit it inp => Sys2Proof.Machine.execWardAdmit it inp s
  | .wardJoin it inp => Sys2Proof.Machine.execWardJoin it inp s
  | .wardLeave it inp => Sys2Proof.Machine.execWardLeave it inp s
  | .wardExport it inp => Sys2Proof.Machine.execWardExport it inp s
  | .wardImport it inp => Sys2Proof.Machine.execWardImport it inp s
  | .sealDue => Sys2Proof.Machine.execSealDue s
  | .sealForm => Sys2Proof.Machine.execSealForm s
  | .sealWrite => Sys2Proof.Machine.execSealWrite s
  | .sealPersist good => Sys2Proof.Machine.execSealPersist good s
  | .pwrfailNAssert ticks => Sys2Proof.Machine.execPwrfailNAssert ticks s
  | .headsFreeze => Sys2Proof.Machine.execHeadsFreeze s
  | .finalSealForm => Sys2Proof.Machine.execFinalSealForm s
  | .finalSealProgram good => Sys2Proof.Machine.execFinalSealProgram good s
  | .zeroizeNAssert ticks => Sys2Proof.Machine.execZeroizeNAssert ticks s
  | .zcntFuseProgram => Sys2Proof.Machine.execZcntFuseProgram s
  | .zeroizeMemoryClear => Sys2Proof.Machine.execZeroizeMemoryClear s
  | .keyStoreErase => Sys2Proof.Machine.execKeyStoreErase s
  | .thermtrip => Sys2Proof.Machine.execThermtrip s
  | .porNAssert ns => Sys2Proof.Machine.execPorNAssert ns s
  | .porNRelease board => Sys2Proof.Machine.execPorNRelease board s
  | .frontagePllLock => Sys2Proof.Machine.execFrontagePllLock s
  | .firmwareImageVerify => Sys2Proof.Machine.execFirmwareImageVerify s
  | .keystoneLoad => Sys2Proof.Machine.execKeystoneLoad s
  | .pierMemoryFill p trained => Sys2Proof.Machine.execPierMemoryFill p trained s
  | .evoariStart => Sys2Proof.Machine.execEvoariStart s
  | .deviceTablesWritten => Sys2Proof.Machine.execDeviceTablesWritten s
  | .sealsProcessed => Sys2Proof.Machine.execSealsProcessed s
  | .readyAssert => Sys2Proof.Machine.execReadyAssert s
  | .frResetWarm v => Sys2Proof.Machine.execFrResetWarm v s
  | .faultDetection source => Sys2Proof.Machine.execFaultDetection source s
  | .perPierReset p => Sys2Proof.Machine.execPerPierReset p s
  | .perPierResetComplete p => Sys2Proof.Machine.execPerPierResetComplete p s
  | .reactionShadowEnd p => Sys2Proof.Machine.execReactionShadowEnd p s
  | .containQuietPeriodExpiry p => Sys2Proof.Machine.execContainQuietPeriodExpiry p s
  | .holdQuietPeriodExpiry slot => Sys2Proof.Machine.execHoldQuietPeriodExpiry slot s
  | .recordCloseTimer slot => Sys2Proof.Machine.execRecordCloseTimer slot s
  | .fcRestoreWrite v => Sys2Proof.Machine.execFcRestoreWrite v s
  | .clogEntryFree p e v => Sys2Proof.Machine.execClogEntryFree p e v s
  | .retirementAction p e => Sys2Proof.Machine.execRetirementAction p e s
  | .telemetryPeriod => Sys2Proof.Machine.execTelemetryPeriod s
  | .temperatureSample sm => Sys2Proof.Machine.execTemperatureSample sm s
  | .pwBudgetWrite by_ v => Sys2Proof.Machine.execPwBudgetWrite by_ v s
  | .pwPierRst p by_ v => Sys2Proof.Machine.execPwPierRst p by_ v s
  | .pwPierTargetWrite p by_ v => Sys2Proof.Machine.execPwPierTargetWrite p by_ v s
  | .pierRaise => Sys2Proof.Machine.execPierRaise s
  | .frequencyChangeEnd p => Sys2Proof.Machine.execFrequencyChangeEnd p s
  | .pierWakeComplete p => Sys2Proof.Machine.execPierWakeComplete p s
  | .laneRampEnd p => Sys2Proof.Machine.execLaneRampEnd p s
  | .idleDrop p => Sys2Proof.Machine.execIdleDrop p s
  | .registerWrite w => Sys2Proof.Machine.execRegisterWrite w s
  | .completionTimeout what => Sys2Proof.Machine.execCompletionTimeout what s
  | .configurationRequest fn req => Sys2Proof.Machine.execConfigurationRequest fn req s
  | .linkUp => Sys2Proof.Machine.execLinkUp s
  | .railOutOfTolerance e => Sys2Proof.Machine.execRailOutOfTolerance e s
  | .fallOfNow slot cause => Sys2Proof.Machine.execFallOfNow slot cause s
  | .minrunExpiry p => Sys2Proof.Machine.execMinrunExpiry p s
  | .unknownCommand code inst payload => Sys2Proof.Machine.execUnknownCommand code inst payload s

end Sys2Proof.Machine
end

