-- ==== Sys2Proof/Machine/Tick.lean ====
section
/-! DEFINITION. One AON tick: what time alone does to the device (R27, R267, R461). -/

namespace Sys2Proof.Machine

open Sys2Proof

/-- A core timer counts down one tick; at 0 it waits for CORE_TIMER_EXPIRY (R267). -/
def Core.tick (c : Core) : Core := { c with tmr := if c.tmrRun && c.tmr ≠ 0 then c.tmr - 1 else c.tmr }

/-- A lap in progress ages one tick (R461). -/
def Lap.tick (l : Lap) (counts : Bool) : Lap := { l with ticks := if counts then l.ticks + 1 else l.ticks }

/-- Whether a pier is in IDLE or RUN. -/
def Pier.awakeState (P : Pier) : Bool := P.pw.st = .idle || P.pw.st = .run

/-- One tick of a pier: its core timer, and its pointing laps, which count in IDLE and RUN; the bank lap counts in
quarantine too, the quarry lap does not (R461). -/
def Pier.tick (P : Pier) (quarantined : Bool) : Pier :=
  { P with
    core := P.core.tick
    lapB := P.lapB.tick (P.awakeState || quarantined)
    lapQ := P.lapQ.tick (P.awakeState && !quarantined) }

/-- One AON tick: TIME counts from POR (R27, R204), so nothing counts while POR_N is low. -/
def Dev.tick (d : Dev) : Dev :=
  if d.board.porLow then d
  else
    { d with
      time := d.time + 1
      piers := Vector.ofFn (fun (p : Fin 16) => (d.pier p).tick (d.fc.quar.getLsbD p.val))
      warden := { d.warden with core := d.warden.core.tick } }

end Sys2Proof.Machine
end

