-- ==== Sys2Proof/Machine/Step.lean ====
section
/-! DEFINITION. One step of the model: the command at the front of the queue, or one AON tick when no command waits
(log 3). -/

namespace Sys2Proof.Machine

open Sys2Proof

/-- Takes the command at the front of the queue and runs it on the rest; on an empty queue one AON tick passes (log 3). -/
def step (s : State) : Host.Outcome State Fault Refusal :=
  match s.pending with
  | [] => .next { s with dev := s.dev.tick }
  | i :: rest => exec i { s with pending := rest }

/-- `s` with the command that a word spells at the front of its queue. No row of the opcode table gives bits, so no
word spells a command and `s` stands. -/
def State.withFetchWord (s : State) (nbits w : Nat) : State :=
  match decodeTableWord nbits w with
  | some i => { s with pending := i :: s.pending }
  | none => s

end Sys2Proof.Machine
end

