-- ==== Sys2Proof/Safety.lean ====
section
/-! DEFINITION. What counts as a safe run, and the vocabulary in which the claims about the device are stated. -/

namespace Sys2Proof

open Sys2Proof.Machine

/-! ### Invariants -/

/-- The power cap and the software cap lie between 120 and 560 shares (R472). -/
def capsLegal (d : Dev) : Prop := 120 ≤ d.pw.budget ∧ d.pw.budget ≤ 560 ∧ 120 ≤ d.pw.scap ∧ d.pw.scap ≤ 560

/-- The sparse memories of a pier are in canonical form. -/
def memCanonical (P : Pier) : Prop := P.mem.banks.wf = true ∧ P.mem.quarry.wf = true

/-- A step that goes on: neither a fault nor a refusal. -/
def goesOn (s : State) : Prop := ∃ t, Machine.step s = .next t

/-- A command ends in `d`: the answer is a next state whose device is `d` and whose queue is the one it had. -/
def Answers (i : Instr) (s : State) (d : Dev) : Prop := exec i s = .next { s with dev := d }

/-- A command ends in a next state whose device satisfies `Q`, and leaves the queue. -/
def AnswersWith (i : Instr) (s : State) (Q : Dev → Prop) : Prop :=
  ∃ t, exec i s = .next t ∧ t.pending = s.pending ∧ Q t.dev

/-! ### Instructions of a core -/

/-- The conditions on the state under which the core reaches the own effect of an instruction with destination port `n`
and fields `f`: the core runs and no exception or event comes first (R260, R261), SW holds no bit that its state forbids
(R200), the slot is not annulled (R223), the fetch of the word meets no fault and none is recorded with it (R242), the
instruction is legal (R235), its guard waits for nothing and holds (R209, R210). -/
structure Executes (d : Dev) (c : CoreId) (n : Nat) (f : Fld) : Prop where
  ready : (d.core c).ready = true
  held : d.swHeld c (d.core c).sw = (d.core c).sw
  taken : (d.core c).slot.any (·.annul) = false
  clean : d.fetchAt c = d
  fetched : (d.core c).fetchFaults.find? (fun e => e.pc = (d.core c).pc) = none
  legal : (d.core c).illegal c n f = false
  settled : guardWaits f = true → (d.core c).longop = none
  guard : (d.core c).guardOk f = true

/-- The device after the instruction at PC has changed its core by `g` and has completed (R213, R223, R225). -/
def completed (d : Dev) (c : CoreId) (g : Core → Core) : Dev := (d.setCore c (g (d.core c))).complete1 c

/-- Puts a trap behind the ones that wait for their entry (R196). -/
def withTrap (d : Dev) (c : CoreId) : Option (BitVec 7) → Dev
  | none => d
  | some v => d.onCore c (fun k => { k with traps := k.traps ++ [v] })

/-- An instruction that takes a source value: once the source is read, the index steps, the core changes by `g`, nothing
else of the device changes, and the traps of `t` wait (R196, R211, R213). -/
def ComputesTrap (i : CoreId → Fld → Instr) (n : Nat) (g : Core → Word → Core)
    (t : Core → Word → Option (BitVec 7)) : Prop :=
  ∀ c f s w d, Executes s.dev c n f → s.dev.operand c f = .ok w d →
    let k := (d.core c).stepIdx (stepOf f) 1
    Answers (i c f) s (withTrap (completed d c (fun _ => g k w)) c (t k w))

/-- An instruction that takes a source value and never traps. -/
def Computes (i : CoreId → Fld → Instr) (n : Nat) (g : Core → Word → Core) : Prop :=
  ComputesTrap i n g (fun _ _ => none)

/-- A true result that a 36-bit signed word cannot hold (R184). -/
def outOfRange (z : Int) : Bool := decide (z < -(2 ^ 35)) || decide (2 ^ 35 ≤ z)

/-- The core with result `r` in A and the flags Z and N of it (R217). -/
def withResult (k : Core) (r : Word) (cy v : Bool) : Core := { k with a := r }.zncv (r = 0) (r.getLsbD 35) cy v

/-- Trap 9 where the result is out of range and TRE.OVE is 1 (R195). -/
def overflowTrap (k : Core) (v : Bool) : Option (BitVec 7) := if v = true ∧ k.tre.getLsbD 0 = true then some 9 else none

/-- An F36 operation with result `op` issues; where a trap is enabled it delivers at once, so that the trap is precise. -/
def IssuesF36 (i : CoreId → Fld → Instr) (n : Nat) (op : Nat → Word → Word → Word × Nat) : Prop :=
  ComputesTrap i n
    (fun k w =>
      let r := op k.rm k.deliver.a w
      let j := { k.deliver with longop := some ⟨true, r.1, none, none, false, BitVec.ofNat 5 r.2⟩ }
      if k.deliver.fpcr.extractLsb' 8 5 = 0#5 then j else j.deliver)
    (fun k w =>
      if k.fpcr.extractLsb' 8 5 &&& BitVec.ofNat 5 (op k.rm k.a w).2 = 0#5 then none else some 12)

/-- An F36 operation of a row that fixes its immediate. -/
def IssuesF36Fixed (i : CoreId → Gd → Instr) (imm : BitVec 24) (op : Nat → Word → Word × Nat) : Prop :=
  ∀ c g s, Executes s.dev c 0x28 (immFld g imm) →
    let k := (s.dev.core c).deliver
    let r := op k.rm k.a
    let j := { k with longop := some ⟨true, r.1, none, none, false, BitVec.ofNat 5 r.2⟩ }
    Answers (i c g) s
      (if k.fpcr.extractLsb' 8 5 = 0#5 then completed s.dev c (fun _ => j)
       else withTrap (completed s.dev c (fun _ => j.deliver)) c
        (if k.fpcr.extractLsb' 8 5 &&& BitVec.ofNat 5 r.2 = 0#5 then none else some 12))

/-- What an invalid decimal operand leaves (R51, R195): V 0, DV 1, Z and N of A. -/
def decimalInvalid (k : Core) : Core :=
  let j := k.znv (k.a = 0) (k.a.getLsbD 35) false
  { j with sw := putBit j.sw 4 true }

/-- The device after an address-taking instruction: the index steps by `by_`, then the core changes by `g`, and the instruction
completes (R213, R221). -/
def completedMem (d : Dev) (c : CoreId) (f : Fld) (by_ : Word) (g : Core → Core) : Dev :=
  completed d c (fun k => g (k.stepIdx (stepOf f) by_))

/-- A store of a register: the word waits in the store buffer under its physical address, the identity and the mode of the
store, and nothing else of the device changes (R221, R249, R250). -/
def StoresRegister (i : CoreId → Fld → Instr) (n : Nat) (r : Core → Word) : Prop :=
  ∀ c f s pa d, Executes s.dev c n f →
    let k := s.dev.core c
    s.dev.probe c .write true (k.ea f) = .ok pa d → (d.core c).sbuf.length ≤ 7 →
    Answers (i c f) s (completedMem (d.enqueue c pa (k.ea f) (r k) 0xF#4) c f 1 id)

/-- An atomic access of a pier sequencer to a bank word: the word takes `g A word` and A takes the word read (R221). -/
def AtomicInBank (i : CoreId → Fld → Instr) (n : Nat) (g : Word → Word → Word) : Prop :=
  ∀ (p : Fin 16) f s pa t d1 d2 b a, Executes s.dev (.pier p) n f →
    let k := s.dev.core (.pier p)
    k.sbuf = [] → s.dev.probe (.pier p) .atomic false (k.ea f) = .ok pa d1 → physTarget pa = .bank b a →
    d1.readPhys (.pier p) .atomic (k.ea f) pa = .ok t d2 →
    Answers (i (.pier p) f) s
      (completedMem (d2.onPier p (fun P => bankStore P a (eccEncode (g k.a t)))) (.pier p) f 1 (fun k => { k with a := t }))

/-- An atomic access of the warden to a word of its SRAM: the word takes `g A word` and A takes the word read (R221, R236). -/
def AtomicInSram (i : CoreId → Fld → Instr) (n : Nat) (g : Word → Word → Word) : Prop :=
  ∀ f s pa t d1 d2 a, Executes s.dev .warden n f →
    let k := s.dev.core .warden
    k.sbuf = [] → s.dev.probe .warden .atomic false (k.ea f) = .ok pa d1 → wardenTarget d1.life.remap pa = .sram a →
    d1.readPhys .warden .atomic (k.ea f) pa = .ok t d2 → d2.life.remap = d1.life.remap →
    Answers (i .warden f) s
      (completedMem { d2 with warden := { d2.warden with sram := d2.warden.sram.set a (eccEncode (g k.a t)) } } .warden f 1
        (fun k => { k with a := t }))

/-- A taken branch: its slot is next, the target waits, and the branch's own effects are held with the registers before it and
the index that it has stepped (R222, R223, R259). -/
def Branches (i : CoreId → Fld → Instr) (n : Nat) (rel link : Bool) : Prop :=
  ∀ c f s v d, Executes s.dev c n f →
    let k := s.dev.core c
    (if f.mode = 0#2 then CRes.ok (if rel then (f.src.extractLsb' 0 23).signExtend 36 else (f.src.extractLsb' 0 23).setWidth 36) s.dev
      else s.dev.operand c f) = .ok v d →
    let target := if rel then k.pc + v else v
    AnswersWith (i c f) s (fun d' =>
      (d'.core c).pc = k.pc + 1 ∧
      (d'.core c).slot = some ⟨k.pc, some target, false, k.lk, k.x1, k.x2, k.sp, stepOf f⟩ ∧
      (d'.core c).lk = (if link then k.pc + 2 else ((d.core c).stepIdx (stepOf f) 1).lk) ∧
      d' = d.setCore c { ((d.core c).stepIdx (stepOf f) 1) with
        pc := (d'.core c).pc, slot := (d'.core c).slot, lk := (d'.core c).lk, btb := (d'.core c).btb, sriHold := false })

/-- The device after TLBI on a pier: the entries that `sel` names leave both TLBs of the pier (R231). -/
def Invalidated (d : Dev) (p : Fin 16) (sel : TlbEntry → Bool) : Dev :=
  d.onPier p (fun P => { P with
    mem := { P.mem with
      tlb := P.mem.tlb.filter (fun e => !sel e)
      hodTlb := P.mem.hodTlb.filter (fun e => !sel e) } })

/-- What CMPS leaves in its core once its loop has ended (R227, R228). -/
def cmpsLeft (k : Core) : Core :=
  let e := match k.strNow.hit with
    | none => k.zncv true false false false
    | some h => { k.zncv false h.less false false with x1 := h.x1, x2 := h.x2, a := h.a }
  { e with sw := e.sw &&& ~~~ 0x800#36, strNow := {} }

/-- A string operation that has ended: SW.RES reads 0 and nothing of it is kept (R228). -/
def stringEnded (k : Core) : Core := { k with sw := k.sw &&& ~~~ 0x800#36, strNow := {} }

/-- Words that a string operation works on in one command: all of A, or those before the interrupt that stops it (R228). -/
def wordsNow (d : Dev) (c : CoreId) (stop : Option Nat) : Nat := (d.core c).strWords stop (d.core c).a.toNat

/-- What a string operation has left in `d1` once it has worked on its words of `d0`: it ends, or it stands before the words that
remain, with SW.RES 1 (R228). -/
def stringStops (d0 d1 : Dev) (c : CoreId) (stop : Option Nat) : Dev :=
  if wordsNow d0 c stop < (d0.core c).a.toNat then d1.onCore c (fun k => { k.strKeep with sw := k.sw ||| 0x800#36 })
  else completed d1 c stringEnded

/-- A fetch of `va` goes to physical address `pa`, and leaves the pier as `Q` (R240). -/
def Fetches (P : Pier) (now : Nat) (va pa : Word) (Q : Pier) : Prop :=
  if P.core.user = true ∨ P.core.te = true then translate (pierTrCtx P P.core.user) now false .execute va P = .ok pa Q
  else pa = va ∧ Q = P

/-- A pier walks in space `c` for its running sequencer, or for the session ticket that its hod runs (R310). -/
def WalksFor (d : Dev) (p : Fin 16) (hod : Bool) (c : TrCtx) : Prop :=
  let P := d.pier p
  if hod = true then ∃ t, P.hod.cur = some t ∧ t.frontage = false ∧ c = d.hodCtx P t.tag
  else P.core.run = .running ∧ (P.core.user = true ∨ P.core.te = true) ∧ c = pierTrCtx P P.core.user

/-! ### Runs -/

/-- A command of a run ends with pier `p` replaced by `Q`, and with the free values of a step spent (log 2). -/
def RunAnswers (i : Instr) (s : State) (p : Fin 16) (Q : Pier) : Prop :=
  Answers i s { s.dev.setPier p Q with fresh := s.dev.fresh + 64 }

/-- A firing of unit `u` for index `k` takes its inputs and emits `o` (R74, R76). -/
def Emits (i : Instr) (s : State) (p : Fin 16) (u : Nat) (r : Run) (x : RUnit) (k : Nat) (o : LaneOut) : Prop :=
  RunAnswers i s p (afterRun (s.dev.pier p) s.dev.now s.dev.fresh ((r.take u).emitAll u k o (r.rubbleIn x)))

/-- The run whose unit `u` has taken the element of a firing into its segment (R172, R176). -/
def gathered (P : Pier) (r : Run) (x : RUnit) (k u : Nat) : Run :=
  let y := segGather P.runs.keySlots r.n k x (r.operand x 0) (r.operand x 1) (r.operand x 2) (r.rubbleIn x)
  (r.take u).onUnit u (fun z => { z with ga := y.ga, gb := y.gb, gc := y.gc })

/-- A firing of a course that works on segments: inside a segment it gathers; at the segment's end it emits; reserved parameters
emit PX (R131, R172 to R177). -/
def SegmentStep (i : Fin 16 → Instr) (u : Nat) : Prop :=
  ∀ (p : Fin 16) s r x k, firing (s.dev.pier p) u = some (r, x, k) →
    let P := s.dev.pier p
    let r1 := gathered P r x k u
    (segReserved r.n x = true → Emits (i p) s p u r x k laneReserved) ∧
    (segReserved r.n x = false →
      ((k + 1) % segLen r.n x ≠ 0 → k + 1 ≠ r.n → RunAnswers (i p) s p (afterRun P s.dev.now s.dev.fresh r1)) ∧
      (∀ z, ((k + 1) % segLen r.n x = 0 ∨ k + 1 = r.n) → r1.unit? u = some z →
        RunAnswers (i p) s p (afterRun P s.dev.now s.dev.fresh (segEmit r1 z r.n))))

/-- A tile of MONT or ECP: its 32 transactions are computed and kept; after the last tile every result leaves in index order and
the inputs are consumed; reserved parameters fire element by element (R131, R165, R168). -/
def TileStep (i : Fin 16 → Instr) (u : Nat) : Prop :=
  ∀ (p : Fin 16) s r x,
    let P := s.dev.pier p
    P.runs.exec = some r → r.unit? u = some x →
    (∀ k, tileShape r.n x = none → firing P u = some (r, x, k) → Emits (i p) s p u r x k laneReserved) ∧
    (∀ w l k, tileShape r.n x = some (w, l, k) → P.runs.started = true → x.ended = false → x.tiles < w / 32 →
      (r.inputs u).all (fun q => 32 * ((k * l - 1) * (w / 32) + x.tiles + 1) ≤ (r.inAt q).length) = true →
      let outs := (List.range 32).flatMap (fun q => tileTrans r x w l k (32 * x.tiles + q))
      let r1 := r.onUnit u (fun y => { y with
        tiles := y.tiles + 1, res := y.res ++ outs.map (·.1), resF := y.resF ++ outs.map (·.2) })
      (x.tiles + 1 < w / 32 → RunAnswers (i p) s p { P with runs := { P.runs with exec := some r1 } }) ∧
      (∀ y, x.tiles + 1 = w / 32 → r1.unit? u = some y →
        let r2 := (byIndex y.resF).foldl (fun r e => r.emit u 6 e) ((byIndex y.res).foldl (fun r e => r.emit u 4 e) r1)
        RunAnswers (i p) s p (afterRun P s.dev.now s.dev.fresh
          ({ r2 with ins := r2.ins.map (fun (e : BitVec 12 × List Elem) =>
              if (r2.inputs u).contains e.1 then (e.1, e.2.drop r.n) else e) }.onUnit u
            (fun z => { z with res := [], resF := [], fired := r.n })))))

/-- What a reset of the link leaves: SR-IOV, PTM and SPDM at their reset values, no VF, every slot of PF0 and PF1 disabled,
no session of either (R354). -/
def Unlinked (d : Dev) : Prop :=
  d.host.vfEn = false ∧ d.host.numVfs = 0 ∧ d.host.ptmEn = false ∧ d.host.spdm = {} ∧
  (∀ r : Fin 64, (d.ring .pf0 r).en = false ∧ (d.ring .pf1 r).en = false) ∧
  ∀ x ∈ d.sessions, x.fn ≠ .pf0 ∧ x.fn ≠ .pf1

/-- A pier's memory without the translations and the instruction cache that a moved leaf leaves stale (R369). -/
def withoutPartition (q : Fin 64) (m : PierMem) : PierMem :=
  { m with
    icache := []
    tlb := m.tlb.filter (fun e => (e.tag.extractLsb' 16 6).toNat ≠ q.val)
    hodTlb := m.hodTlb.filter (fun e => (e.tag.extractLsb' 16 6).toNat ≠ q.val) }

/-! ### Items -/

/-- The posted writes that carry `bs` into the segments of an output buffer (R325, R338). -/
def segWrites (f : FnId) (id : Nat) (relaxed : Bool) : List (QW × Nat) → List Byte → List Out
  | [], _ => []
  | _ :: _, [] => []
  | (a, n) :: segs, bs => .write f (.result id) a (bs.take n) relaxed :: segWrites f id relaxed segs (bs.drop n)

/-- An operation on a pier, in the order of the checks of R380: PARAM, keys, lengths, input, then the operation itself; `n` is
what the device does once the item has its verdict. -/
def OnPierThen (i : Nat → Fetched → Instr) (opc : Nat) (o : OpDef) (n : Dev → Item → Dev) : Prop :=
  ∀ it inp s x p d, s.dev.pierItem it opc = some (x, p, d) →
    (∀ r, o.param x = some r → Answers (i it inp) s (n (d.finishPier x p (.bad r) []) x)) ∧
    (o.param x = none →
      (∀ v d1, d.pierKeys p x 0 (o.needs x) = (.error v, d1) → Answers (i it inp) s (n (d1.finishPier x p v []) x)) ∧
      (∀ es d1, d.pierKeys p x 0 (o.needs x) = (.ok es, d1) →
        (o.lens x es = false → Answers (i it inp) s (n (d1.finishPier x p .length []) x)) ∧
        (∀ c, o.lens x es = true → x.fetch inp = .error c →
          Answers (i it inp) s (n ((d1.fetchInput x).finishPier x p { status := c } []) x)) ∧
        (∀ bs, o.lens x es = true → x.fetch inp = .ok bs →
          Answers (i it inp) s (n ((d1.fetchInput x).finishPier x p (o.run ⟨x, es, (d1.ks.kek).getD [], bs⟩) bs) x))))

/-- An operation on a pier that ends with its verdict. -/
def OnPier (i : Nat → Fetched → Instr) (opc : Nat) (o : OpDef) : Prop := OnPierThen i opc o (fun d _ => d)

/-- An operation whose item is not on a pier that serves it changes nothing (R365, R378). -/
def OffPier (i : Nat → Fetched → Instr) (opc : Nat) : Prop :=
  ∀ it inp s, s.dev.pierItem it opc = none → Answers (i it inp) s s.dev

/-- An operation on the warden, in the order of the checks of R380: it changes nothing without its item or where `waits` holds it;
`early` refuses it; its input fails; or it ends in `g` of the device whose hod has read the input and whose keystone words have been
read (R325, R378, R380, R401, R438). -/
def OnWarden (i : Nat → Fetched → Instr) (opc : Nat) (waits : Dev → Item → Bool) (early : Dev → Item → Option Verdict)
    (g : Dev → Item → List Byte → Dev) : Prop :=
  ∀ it inp s,
    (s.dev.wardenItem it opc = none → Answers (i it inp) s s.dev) ∧
    ∀ x, s.dev.wardenItem it opc = some x →
      (waits s.dev x = true → Answers (i it inp) s s.dev) ∧
      (waits s.dev x = false →
        (∀ v, early s.dev x = some v → Answers (i it inp) s (s.dev.finishWarden x v [])) ∧
        (∀ c, early s.dev x = none → x.fetch inp = .error c →
          Answers (i it inp) s ((s.dev.fetchInput x).finishWarden x { status := c } [])) ∧
        (∀ bs, early s.dev x = none → x.fetch inp = .ok bs →
          Answers (i it inp) s (g ((s.dev.fetchInput x).opKeys opc) x bs)))

/-- A key change that is not the next one waits (R401). -/
def notItsTurn (d : Dev) (i : Item) : Bool := !d.keyTurn i

/-- An operation that waits for no other item. -/
def atOnce (_ : Dev) (_ : Item) : Bool := false

/-- An operation on the warden that has its input and meets `H` ends in `g` of the device whose hod has read the input and whose
keystone words have been read (R325, R378, R380, R438). -/
def Serves (i : Nat → Fetched → Instr) (opc : Nat) (H : Dev → Item → List Byte → Prop) (g : Dev → Item → List Byte → Dev) : Prop :=
  ∀ it inp s x bs, s.dev.wardenItem it opc = some x → x.fetch inp = .ok bs → H s.dev x bs →
    Answers (i it inp) s (g ((s.dev.fetchInput x).opKeys opc) x bs)

/-- An operation on the warden that meets `H` ends with verdict `v` before its input is read (R380). -/
def Refuses (i : Nat → Fetched → Instr) (opc : Nat) (H : Dev → Item → Prop) (v : Verdict) : Prop :=
  ∀ it inp s x, s.dev.wardenItem it opc = some x → H s.dev x → Answers (i it inp) s (s.dev.finishWarden x v [])

/-! ### Start-up -/

/-- A command that is step `n` of start-up, outside the step itself: out of turn it changes nothing; in its turn it changes nothing
while a power failure, a zeroize or a HALT runs or POR_N is low, and where a too early release of POR_N stops start-up in this step
FAULT_N asserts (R480, R492). -/
def WaitsForItsTurn (i : Instr) (n : Nat) (turn : Dev → Prop) : Prop :=
  ∀ s : State,
    (¬ turn s.dev → Answers i s s.dev) ∧
    (turn s.dev → s.dev.board.stuckAt = some n →
      Answers i s { s.dev with board := { s.dev.board with fault := true, ready := false } }) ∧
    (turn s.dev → s.dev.board.stuckAt ≠ some n → s.dev.bootOk n = false → Answers i s s.dev)

/-- What POR leaves: everything at its reset value but flash, fuses and what the device has sent (R477). -/
def AfterPor (s d : Dev) : Prop :=
  d = { State.reset.dev with
    flash := s.flash
    fresh := d.fresh
    host := { State.reset.dev.host with perst := s.host.perst, out := s.host.out }
    life := { State.reset.dev.life with
      zcnt := s.life.zcnt, terminal := s.life.terminal, keyHash := s.life.keyHash, minVer := s.life.minVer } }

end Sys2Proof
end

