-- ==== Sys2Proof/Certificates/Slice0/Obligations.lean ====
section
/-! DEFINITION. The statements for the provers. -/

open Sys2Proof Sys2Proof.Machine

/-! ### The queue -/

/-- A step with a command at the front of the queue is exec of it on the queue's rest. -/
def Obligations.StepRunsFrontCommand : Prop :=
  ∀ (c : Instr) (s : State), step { s with pending := c :: s.pending } = exec c s

/-! ### Register, arithmetic and logic ports -/

/-- R216: each register port sets its register to the source value and nothing else; MQ and MH wait for a long
operation. -/
def Obligations.RegisterPortsSetTheirRegister : Prop :=
  Computes .null 0x00 (fun k _ => k) ∧
  Computes .a 0x01 (fun k w => { k with a := w }) ∧
  Computes .x1 0x02 (fun k w => { k with x1 := w }) ∧
  Computes .x2 0x03 (fun k w => { k with x2 := w }) ∧
  Computes .sp 0x04 (fun k w => { k with sp := w }) ∧
  Computes .lk 0x05 (fun k w => { k with lk := w }) ∧
  Computes .c1 0x06 (fun k w => { k with c1 := w ≠ 0 }) ∧
  Computes .c2 0x07 (fun k w => { k with c2 := w ≠ 0 }) ∧
  Computes .c3 0x08 (fun k w => { k with c3 := w ≠ 0 }) ∧
  Computes .mq 0x09 (fun k w => { k.deliver with mq := w }) ∧
  Computes .mh 0x0A (fun k w => { k.deliver with mh := w }) ∧
  Computes .ldhi 0x2A (fun k w => { k with a := w.extractLsb' 0 18 ++ k.a.extractLsb' 0 18 })

/-- R217: the results and flags of the arithmetic, logic, shift and comparison ports, and the trap on signed overflow. A pending
multiplication or division delivers its flags first. -/
def Obligations.ArithmeticAndLogicPorts : Prop :=
  -- R217: the results and flags of the arithmetic ports, and the trap on signed overflow. A pending multiplication or
  -- division delivers its flags first.
  ((ComputesTrap .add 0x0B
      (fun k w => let j := k.deliverFlags
        withResult j (j.a + w) (2 ^ 36 ≤ j.a.toNat + w.toNat) (outOfRange (j.a.toInt + w.toInt)))
      (fun k w => let j := k.deliverFlags
        overflowTrap j (outOfRange (j.a.toInt + w.toInt)))) ∧
    (ComputesTrap .adc 0x0C
      (fun k w => let j := k.deliverFlags
        withResult j (j.a + w + BitVec.ofNat 36 j.cy.toNat) (2 ^ 36 ≤ j.a.toNat + w.toNat + j.cy.toNat)
          (outOfRange (j.a.toInt + w.toInt + j.cy.toNat)))
      (fun k w => let j := k.deliverFlags
        overflowTrap j (outOfRange (j.a.toInt + w.toInt + j.cy.toNat)))) ∧
    (ComputesTrap .sub 0x0D
      (fun k w => let j := k.deliverFlags
        withResult j (j.a - w) (j.a.toNat < w.toNat) (outOfRange (j.a.toInt - w.toInt)))
      (fun k w => let j := k.deliverFlags
        overflowTrap j (outOfRange (j.a.toInt - w.toInt)))) ∧
    (ComputesTrap .sbb 0x0E
      (fun k w => let j := k.deliverFlags
        withResult j (j.a - w - BitVec.ofNat 36 j.cy.toNat) (j.a.toNat < w.toNat + j.cy.toNat)
          (outOfRange (j.a.toInt - w.toInt - j.cy.toNat)))
      (fun k w => let j := k.deliverFlags
        overflowTrap j (outOfRange (j.a.toInt - w.toInt - j.cy.toNat)))) ∧
    (ComputesTrap .neg 0x0F
      (fun k w => withResult k.deliverFlags (-w) (w ≠ 0) (w = 0x800000000#36))
      (fun k w => overflowTrap k.deliverFlags (w = 0x800000000#36)))) ∧
  -- R217: the results and flags of the logic and comparison ports.
  (Computes .and 0x10 (fun k w => withResult k.deliverFlags (k.a &&& w) false false) ∧
    Computes .or 0x11 (fun k w => withResult k.deliverFlags (k.a ||| w) false false) ∧
    Computes .xor 0x12 (fun k w => withResult k.deliverFlags (k.a ^^^ w) false false) ∧
    Computes .cmp 0x18 (fun k w => k.deliverFlags.zncv (k.a = w) ((k.a - w).getLsbD 35) (k.a.toNat < w.toNat)
      (outOfRange (k.a.toInt - w.toInt))) ∧
    Computes .seq 0x19 (fun k w => { k with a := if k.a = w then 1 else 0 }) ∧
    Computes .slt 0x1A (fun k w => { k with a := if k.a.toInt < w.toInt then 1 else 0 }) ∧
    Computes .sltu 0x1B (fun k w => { k with a := if k.a.toNat < w.toNat then 1 else 0 })) ∧
  -- R187 and R217: a shift or rotate by source bits 6 to 0; CY is the last bit shifted out, and stays for a count of 0.
  ((Computes .shl 0x14 (fun k w => let j := k.deliverFlags; let n := w.toNat % 128
      withResult j (j.a <<< n) (if n = 0 then j.cy else (j.a.setWidth 256 <<< n).getLsbD 36) false)) ∧
    (Computes .shr 0x15 (fun k w => let j := k.deliverFlags; let n := w.toNat % 128
      withResult j (j.a >>> n) (if n = 0 then j.cy else j.a.getLsbD (n - 1)) false)) ∧
    (Computes .sar 0x16 (fun k w => let j := k.deliverFlags; let n := w.toNat % 128
      withResult j (j.a.sshiftRight n) (if n = 0 then j.cy else (j.a.signExtend 256).getLsbD (n - 1)) false)) ∧
    (Computes .rol 0x17 (fun k w => let j := k.deliverFlags; let n := w.toNat % 128
      withResult j (j.a.rotateLeft n) (if n = 0 then j.cy else (j.a.rotateLeft n).getLsbD 0) false)))

/-- R185, R186, R218 and R247: a multiplication or division waits for the long operation in progress, starts, and takes its trap; a
delivery writes MQ, MH where the operation has one, its flags, the sticky DC and the raised F36 flags, and nothing else. -/
def Obligations.MultiplyDivideAndDelivery : Prop :=
  -- R218: a multiplication or division waits for the one in progress and starts; its results, its flags and divide check
  -- are fixed; the trap of a division is taken at once.
  ((Computes .mul 0x1C (fun k w =>
      let p := BitVec.ofInt 72 (k.a.toInt * w.toInt)
      { k.deliver with longop := some ⟨false, p.setWidth 36, some (p.extractLsb' 36 36),
          some (flagNibble (p = 0) (p.getLsbD 71) false false), false, 0⟩ })) ∧
    (Computes .mulu 0x1D (fun k w =>
      let p := BitVec.ofNat 72 (k.a.toNat * w.toNat)
      { k.deliver with longop := some ⟨false, p.setWidth 36, some (p.extractLsb' 36 36),
          some (flagNibble (p = 0) false false false), false, 0⟩ })) ∧
    (ComputesTrap .div 0x1E
      (fun k w =>
        let q : Word := if w = 0 then 0 else BitVec.ofInt 36 (k.a.toInt.tdiv w.toInt)
        let r : Word := if w = 0 then k.a else BitVec.ofInt 36 (k.a.toInt.tmod w.toInt)
        let v := outOfRange (k.a.toInt.tdiv w.toInt)
        { k.deliver with longop := some ⟨false, q, some r, some (flagNibble (q = 0) (q.getLsbD 35) false v), w = 0, 0⟩ })
      (fun k w => if w = 0 ∧ k.tre.getLsbD 1 = true then some 10
        else overflowTrap k (outOfRange (k.a.toInt.tdiv w.toInt)))) ∧
    (ComputesTrap .divu 0x1F
      (fun k w =>
        let q : Word := if w = 0 then 0 else k.a / w
        let r : Word := if w = 0 then k.a else k.a % w
        { k.deliver with longop := some ⟨false, q, some r, some (flagNibble (q = 0) (q.getLsbD 35) false false), w = 0, 0⟩ })
      (fun k w => if w = 0 ∧ k.tre.getLsbD 1 = true then some 10 else none))) ∧
  -- R247: the delivery of a long operation writes MQ, MH where it has one, the flags where it has them, the sticky DC
  -- and the raised F36 flags, and nothing else; where none is in progress nothing changes.
  ((∀ c s, (s.dev.core c).longop = none → Answers (.longOperationDelivery c) s s.dev) ∧
    ∀ c s o, (s.dev.core c).longop = some o →
      let k := s.dev.core c
      AnswersWith (.longOperationDelivery c) s (fun d =>
        (d.core c).longop = none ∧ (d.core c).mq = o.mq ∧ (d.core c).mh = o.mh.getD k.mh ∧
        (d.core c).fpcr = k.fpcr ||| o.fp.setWidth 36 ∧
        (∀ i, 4 ≤ i → i ≠ 5 → (d.core c).sw.getLsbD i = k.sw.getLsbD i) ∧
        (d.core c).sw.getLsbD 5 = (k.sw.getLsbD 5 || o.dc) ∧
        (∀ i, i < 4 → (d.core c).sw.getLsbD i = (o.flags.getD (k.sw.setWidth 4)).getLsbD i) ∧
        d = s.dev.setCore c { k with
          longop := none, mq := (d.core c).mq, mh := (d.core c).mh, fpcr := (d.core c).fpcr, sw := (d.core c).sw }))

/-- R194, R196, R218 and R219: the F36 ports issue their operation in FPCR.RM; FCMP writes the flags of the order at once. -/
def Obligations.FloatingPortsIssue : Prop :=
  IssuesF36 .fadd 0x23 fAdd ∧ IssuesF36 .fsub 0x24 fSub ∧ IssuesF36 .fmul 0x25 fMul ∧ IssuesF36 .fdiv 0x26 fDiv ∧
  IssuesF36 .fint 0x29 (fun rm _ b => fInt rm b) ∧
  IssuesF36Fixed .ftoi 0 fToInt ∧ IssuesF36Fixed .itof 1 (fun rm a => fOfInt rm a.toInt) ∧
  IssuesF36Fixed .utof 2 (fun rm a => fOfInt rm a.toNat) ∧
  (ComputesTrap .fcmp 0x27
    (fun k w => let j := k.deliverFlags; let r := fCmp j.a w
      { j.zncv (r.1 = .eq) (r.1 = .lt) false (r.1 = .un) with fpcr := j.fpcr ||| BitVec.ofNat 36 r.2 })
    (fun k w => let j := k.deliverFlags
      if j.fpcr.extractLsb' 8 5 &&& BitVec.ofNat 5 (fCmp j.a w).2 = 0#5 then none else some 12))

/-- R220: DADD, DSUB and DCHK on valid operands, and what an invalid operand does. -/
def Obligations.DecimalPorts : Prop :=
  let dv := fun (k : Core) => if k.tre.getLsbD 2 = true then some (11 : BitVec 7) else none
  (ComputesTrap .dadd 0x20
    (fun k w => let j := k.deliverFlags
      if decOk j.a = true ∧ decOk w = true then
        let n := decVal j.a + decVal w + j.cy.toNat
        withResult j (decWord n) (1000000000 ≤ n) false
      else decimalInvalid j)
    (fun k w => let j := k.deliverFlags; if decOk j.a = true ∧ decOk w = true then none else dv j)) ∧
  (ComputesTrap .dsub 0x21
    (fun k w => let j := k.deliverFlags
      if decOk j.a = true ∧ decOk w = true then
        withResult j (decWord (1000000000 + decVal j.a - (decVal w + j.cy.toNat)))
          (decVal j.a < decVal w + j.cy.toNat) false
      else decimalInvalid j)
    (fun k w => let j := k.deliverFlags; if decOk j.a = true ∧ decOk w = true then none else dv j)) ∧
  (ComputesTrap .dchk 0x22
    (fun k w => let j := k.deliverFlags
      if decOk w = true then withResult j w j.cy (j.sw.getLsbD 3) else decimalInvalid j)
    (fun k w => let j := k.deliverFlags; if decOk w = true then none else dv j))

/-- R47: a D36 word holds nine BCD digits, digit d in bits 4d + 3 to 4d, and is valid where each nibble is at most 9; the word of
a number below 10^9 is valid and holds it. -/
def Obligations.DecimalWordHoldsItsNumber : Prop :=
  (∀ w : Word,
    let digit := fun (d : Nat) => (w.extractLsb' (4 * d) 4).toNat
    (decOk w = true ↔ ∀ d, d < 9 → digit d ≤ 9) ∧
    decVal w = digit 0 + 10 * digit 1 + 100 * digit 2 + 1000 * digit 3 + 10000 * digit 4 + 100000 * digit 5 +
      1000000 * digit 6 + 10000000 * digit 7 + 100000000 * digit 8) ∧
  ∀ n : Nat, decOk (decWord n) = true ∧ decVal (decWord n) = n % 1000000000

/-- R200, R201 and R217: flags are four bits of SW and nothing else; reserved bits read 0, TC holds in its states alone, and the
warden has no TE. -/
def Obligations.StatusWordBits : Prop :=
  -- R201 and R217: an instruction's flags are four bits of SW, and every other bit of SW stays.
  (∀ (k : Core) (z n cy v : Bool) (i : Nat), i < 36 →
      (k.zncv z n cy v).sw.getLsbD i =
        (if i = 0 then z else if i = 1 then n else if i = 2 then cy else if i = 3 then v else k.sw.getLsbD i) ∧
      { k.zncv z n cy v with sw := k.sw } = k) ∧
  -- R200 and R201: what SW holds of a popped or written word.
  (∀ (d : Dev) (c : CoreId) (w : Word) (i : Nat), i < 36 →
      (d.swHeld c w).getLsbD i =
        (w.getLsbD i && decide (i ≤ 13 ∧ i ≠ 10) && (i ≠ 9 || decide (d.tcAllowed = true)) && (i ≠ 13 || decide (c ≠ .warden))))

/-! ### Memory ports, TLBs, control -/

/-- R221, R249 to R252 and R276: stores wait in the store buffer under their checked address; LDD and STD check both words first; LDN
and STN act on one nonet; XADD and XSWP of a sequencer read and write one bank word. -/
def Obligations.MemoryPorts : Prop :=
  -- R221, R249 and R250: STA, STX1 and STX2 put their register into the store buffer for the checked address.
  (StoresRegister .sta 0x2B (fun k => k.a) ∧ StoresRegister .stx1 0x2C (fun k => k.x1) ∧
    StoresRegister .stx2 0x2D (fun k => k.x2)) ∧
  -- R221 and R252: LDD and STD work on two words, both of which are checked first; LDN and STN on one nonet.
  ((∀ c f s p0 p1 w0 w1 d1 d2 d3 d4, Executes s.dev c 0x2E f → (s.dev.core c).longop = none →
      let ea := (s.dev.core c).ea f
      s.dev.probe c .read false ea = .ok p0 d1 → d1.probe c .read false (ea + 1) = .ok p1 d2 →
      d2.readVia c ea p0 = .ok w0 d3 → d3.readVia c (ea + 1) p1 = .ok w1 d4 →
      Answers (.ldd c f) s (completedMem d4 c f 2 (fun k => { k with a := w0, mq := w1 }))) ∧
    (∀ c f s p0 p1 d1 d2, Executes s.dev c 0x2F f → (s.dev.core c).longop = none →
      let k := s.dev.core c
      let ea := k.ea f
      s.dev.probe c .write false ea = .ok p0 d1 → d1.probe c .write false (ea + 1) = .ok p1 d2 →
      (d2.core c).sbuf.length ≤ 6 →
      Answers (.std c f) s
        (completedMem ((d2.enqueue c p0 ea k.a 0xF#4).enqueue c p1 (ea + 1) k.mq 0xF#4) c f 2 id)) ∧
    (∀ c f s w d, Executes s.dev c 0x32 f →
      let ea := (s.dev.core c).ea f
      s.dev.load c false (ea >>> 2) = .ok w d →
      Answers (.ldn c f) s
        (completedMem d c f 1 (fun k => { k with a := (w.extractLsb' (9 * (ea.toNat % 4)) 9).setWidth 36 }))) ∧
    (∀ c f s pa d, Executes s.dev c 0x33 f →
      let k := s.dev.core c
      let ea := k.ea f
      let j := ea.toNat % 4
      s.dev.probe c .write false (ea >>> 2) = .ok pa d → (d.core c).sbuf.length ≤ 7 →
      Answers (.stn c f) s
        (completedMem (d.enqueue c pa (ea >>> 2) ((k.a.extractLsb' 0 9).setWidth 36 <<< (9 * j)) (1#4 <<< j)) c f 1 id))) ∧
  -- R221, R236 and R276: XADD and XSWP of a pier sequencer on a bank word, and of the warden on a word of its SRAM.
  (AtomicInBank .xadd 0x30 (fun a t => t + a) ∧ AtomicInBank .xswp 0x31 (fun a _ => a) ∧
    AtomicInSram .xadd 0x30 (fun a t => t + a) ∧ AtomicInSram .xswp 0x31 (fun a _ => a))

/-- R249, R280 and R290: the oldest store drains: a whole word into an awake bank of its owner replaces that word alone, and the
entry leaves the buffer; while the bank is scoured the entry waits; the warden's goes into its SRAM. An empty buffer changes
nothing. -/
def Obligations.StoreBufferDrainWritesOneWord : Prop :=
  (∀ c s, (s.dev.core c).sbuf = [] → Answers (.storeBufferDrain c) s s.dev) ∧
  (∀ s e rest k, s.dev.warden.core.sbuf = e :: rest → e.en = 0xF#4 → wardenTarget s.dev.life.remap e.pa = .sram k →
    Answers (.storeBufferDrain .warden) s { s.dev with warden := { s.dev.warden with
      core := { s.dev.warden.core with sbuf := rest }
      sram := s.dev.warden.sram.set k (eccEncode e.data) } }) ∧
  (∀ (p : Fin 16) s e rest b a,
    let P := s.dev.pier p
    P.core.sbuf = e :: rest → physTarget e.pa = .bank b a → identMatches e.ident P.mem.bank[b].owner = true →
    P.mem.bank[b].scour = true →
    AnswersWith (.storeBufferDrain (.pier p)) s (fun d =>
      (d.core (.pier p)).sbuf = e :: rest ∧ (d.pier p).mem.banks = P.mem.banks ∧ ∀ q, q ≠ p → d.pier q = s.dev.pier q)) ∧
  ∀ (p : Fin 16) s e rest b a,
    let P := s.dev.pier p
    P.core.sbuf = e :: rest → e.en = 0xF#4 → physTarget e.pa = .bank b a →
    identMatches e.ident P.mem.bank[b].owner = true → P.mem.bank[b].scour = false → P.mem.bank[b].retn = .awake →
    P.mem.banks.wf = true →
    AnswersWith (.storeBufferDrain (.pier p)) s (fun d =>
      (d.core (.pier p)).sbuf = rest ∧
      (d.pier p).mem.banks.get a = eccEncode e.data ∧
      (∀ x, x ≠ a → (d.pier p).mem.banks.get x = P.mem.banks.get x) ∧
      (d.pier p).mem.quarry = P.mem.quarry ∧ (d.pier p).mem.merge = P.mem.merge ∧
      (d.pier p).core = { P.core with sbuf := rest } ∧
      ∀ q, q ≠ p → d.pier q = s.dev.pier q)

/-- R231, R234, R236, R317 and R318: TLBI in supervisor mode with an empty store buffer, and PR_TLBI, invalidate in both TLBs of the
pier; on the warden nothing. -/
def Obligations.TlbInvalidation : Prop :=
  -- R231, R234, R236 and R317: TLBI in supervisor mode with an empty store buffer.
  ((∀ (p : Fin 16) f s, Executes s.dev (.pier p) 0x13 f → f.mode ≠ 0#2 → (s.dev.core (.pier p)).user = false →
      (s.dev.core (.pier p)).sbuf = [] →
      let P := s.dev.pier p
      Answers (.tlbiMemory (.pier p) f) s
        (completedMem (Invalidated s.dev p (tlbHit P.regs.tag (P.core.ea f))) (.pier p) f 1 id)) ∧
    (∀ (p : Fin 16) g s, Executes s.dev (.pier p) 0x13 (immFld g 0x800000#24) → (s.dev.core (.pier p)).user = false →
      (s.dev.core (.pier p)).sbuf = [] →
      Answers (.tlbiAll (.pier p) g 0) s (completed (Invalidated s.dev p (fun _ => true)) (.pier p) id)) ∧
    (∀ (p : Fin 16) g ponly tag s, Executes s.dev (.pier p) 0x13 (immFld g (0#1 ++ (BitVec.ofBool ponly ++ tag))) →
      (s.dev.core (.pier p)).user = false → (s.dev.core (.pier p)).sbuf = [] →
      Answers (.tlbiTag (.pier p) g ponly tag) s
        (completed (Invalidated s.dev p (fun e =>
          if ponly then e.tag.extractLsb' 16 6 = tag.extractLsb' 16 6 else e.tag = tag)) (.pier p) id)) ∧
    (∀ f s, Executes s.dev .warden 0x13 f → (s.dev.core .warden).user = false →
      Answers (.tlbiMemory .warden f) s (completedMem s.dev .warden f 1 id)) ∧
    (∀ g s, Executes s.dev .warden 0x13 (immFld g 0x800000#24) → (s.dev.core .warden).user = false →
      Answers (.tlbiAll .warden g 0) s (completed s.dev .warden id)) ∧
    (∀ g ponly tag s, Executes s.dev .warden 0x13 (immFld g (0#1 ++ (BitVec.ofBool ponly ++ tag))) →
      (s.dev.core .warden).user = false → Answers (.tlbiTag .warden g ponly tag) s (completed s.dev .warden id))) ∧
  -- R318: PR_TLBI invalidates every entry, or those of a space tag or of its partition, in both TLBs; ALL with any other
  -- bit sets CFG_ERR and invalidates nothing. A pier in reset or OFF takes no write (the model's choice, log 69).
  ((∀ (p : Fin 16) (v : DW) s, s.dev.reachable p = false → Answers (.prTlbiAll p v) s s.dev ∧ Answers (.prTlbiTag p v) s s.dev) ∧
    ∀ (p : Fin 16) (v : DW) s, s.dev.reachable p = true →
      (∀ i, (i = .prTlbiAll p v ∨ i = .prTlbiTag p v) →
        (v.getLsbD 23 = true → v.toNat % 2 ^ 23 = 0 → Answers i s (Invalidated s.dev p (fun _ => true))) ∧
        (v.getLsbD 23 = true → v.toNat % 2 ^ 23 ≠ 0 →
          Answers i s (s.dev.onPier p (fun P => { P with regs := { P.regs with prErr := true } }))) ∧
        (v.getLsbD 23 = false → Answers i s (Invalidated s.dev p (fun e =>
          if v.getLsbD 22 then e.tag.extractLsb' 16 6 = v.extractLsb' 16 6 else e.tag = v.setWidth 22)))))

/-- R222 to R225 and R259: a taken branch holds its slot; LOOP sets LS, LE, LC and SW.LP; where PC goes after an instruction. -/
def Obligations.BranchesLoopsAndBoundaries : Prop :=
  -- R222, R223 and R259: a taken branch.
  (Branches .jmp 0x34 false false ∧ Branches .jmpr 0x35 true false ∧ Branches .call 0x36 false true ∧
    Branches .callr 0x37 true true) ∧
  -- R224: LOOP sets LS, LE, LC and SW.LP.
  (∀ c f s, Executes s.dev c 0x38 f →
      Answers (.loop c f) s (completed s.dev c (fun k => { k with
        ls := k.pc + 1
        le := k.pc + BitVec.ofNat 36 (f.src.toNat % 4096)
        lc := BitVec.ofNat 13 (if f.src.toNat / 4096 = 0 then 4096 else f.src.toNat / 4096)
        sw := k.sw ||| 0x1000#36 }))) ∧
  -- R223 and R225: where PC goes after an instruction: on, through the loop, to the target of the slot's branch.
  (∀ (k : Core) (fr : Nat),
      (k.slot = none → k.sw.getLsbD 12 = false → (k.complete fr).pc = k.pc + 1 ∧ (k.complete fr).lc = k.lc) ∧
      (k.slot = none → k.sw.getLsbD 12 = true → k.pc = k.le → 1 < k.lc.toNat →
        (k.complete fr).pc = k.ls ∧ (k.complete fr).lc = k.lc - 1 ∧ (k.complete fr).sw = k.sw) ∧
      (k.slot = none → k.sw.getLsbD 12 = true → k.pc = k.le → k.lc = 1 →
        (k.complete fr).pc = k.le + 1 ∧ (k.complete fr).lc = 0 ∧ (k.complete fr).sw.getLsbD 12 = false) ∧
      (∀ sl t, k.slot = some sl → sl.target = some t →
        (k.complete fr).pc = t ∧ (k.complete fr).slot = none ∧ (k.complete fr).lc = k.lc ∧
        ((k.complete fr).sw.getLsbD 12 = (k.sw.getLsbD 12 && decide (k.ls.toNat ≤ t.toNat ∧ t.toNat ≤ k.le.toNat)))))

/-- R230, R257 and R258: TRAP #n raises vector 64 + n; RTT in supervisor mode without a chained event loads SW and PC from the stack. -/
def Obligations.TrapAndReturn : Prop :=
  -- R230 and R258: TRAP #n raises vector 64 + n with the address behind it; nothing else changes. Where the TRAP stands
  -- in no slot, the core is otherwise as it was.
  (∀ c f s, Executes s.dev c 0x39 f →
      let k := s.dev.core c
      k.slot = none →
      Answers (.trap c f) s (s.dev.setCore c { k with
        raised := some ⟨BitVec.ofNat 7 (64 + f.src.toNat), k.pc + 1, false, false, none⟩ })) ∧
  -- R257: RTT in supervisor mode without a chained event loads SW and PC from [SP] and [SP + 1] and adds 2 to SP. BDS
  -- reads 0, and TC outside its states.
  (∀ c f s w pc d1 d2, Executes s.dev c 0x3A f →
      let k := s.dev.core c
      k.user = false → k.longop = none → k.sw.getLsbD 9 = false →
      s.dev.load c false k.sp = .ok w d1 → (d1.core c).sw = k.sw → d1.load c false (k.sp + 1) = .ok pc d2 →
      Answers (.rtt c f) s (d2.setCore c { d2.core c with
        sw := d1.swHeld c w, pc := pc, sp := k.sp + 2, sriHold := false, fetchFaults := [] }))

/-- R255 and R261: the entry that a core makes at an interruptible boundary, by rank; what it pushes, and the handler that it enters. -/
def Obligations.ExceptionEntry : Prop :=
  -- R261: the entry that a core makes at an interruptible boundary, by rank.
  (∀ k : Core, k.slot = none → k.sriHold = false → k.raised.any (·.bds) = false →
      (∀ v ts, k.traps = v :: ts → ∃ e, k.entryOf = some e ∧ e.vec = v ∧ e.pc = k.pc ∧ e.core.traps = ts) ∧
      (k.traps = [] → k.nmi = true → ∃ e, k.entryOf = some e ∧ e.vec = 1 ∧ e.pc = k.pc ∧ e.core.nmi = false) ∧
      (∀ i, k.traps = [] → k.nmi = false → k.imprecise = some i →
        ∃ e, k.entryOf = some e ∧ e.vec = i.vec ∧ e.core.imprecise = none ∧ e.core.flt = i.flt ∧ e.core.fcs = i.fcs) ∧
      (k.traps = [] → k.nmi = false → k.imprecise = none → k.runFault = true →
        ∃ e, k.entryOf = some e ∧ e.vec = 14 ∧ e.core.runFault = false) ∧
      (∀ j, k.traps = [] → k.nmi = false → k.imprecise = none → k.runFault = false → k.sw.getLsbD 7 = true → j < 9 →
        k.ipend.getLsbD j = true → k.imask.getLsbD j = true →
        (∀ i, i < j → (k.ipend.getLsbD i && k.imask.getLsbD i) = false) →
        ∃ e, k.entryOf = some e ∧ e.vec = BitVec.ofNat 7 (16 + j) ∧ e.core.ipend.getLsbD j = false ∧
          ∀ i, i ≠ j → e.core.ipend.getLsbD i = k.ipend.getLsbD i) ∧
      (∀ x, k.traps = [] → k.event = none → k.raised = some x →
        ∃ e, k.entryOf = some e ∧ e.vec = x.vec ∧ e.pc = x.pc ∧ e.res = x.res ∧ e.core.raised = none)) ∧
  -- R251 and R255: an entry puts PC and SW below SP into the store buffer, reads the handler's address and enters it: SP
  -- falls by 2, ICAUSE takes the vector, and TE, LP, RES, BDS, IE and U of the live SW are cleared; a LOCK write that is
  -- held is abandoned; nothing else changes. A core that does not run, or has nothing to enter, stays as it is.
  ((∀ c s, (s.dev.core c).run ≠ .running ∨ (s.dev.core c).entryOf = none → Answers (.exceptionEntry c) s s.dev) ∧
    ∀ c s e p1 p2 h d1 d2 d3 d4,
      let k := s.dev.core c
      k.run = .running → k.entryOf = some e →
      (s.dev.setCore c e.core).probe c .write false (k.sp - 1) = .ok p1 d1 → d1.probe c .write false (k.sp - 2) = .ok p2 d2 →
      Dev.drainTo c 6 8 d2 = .ok () d3 →
      (((d3.enqueue c p1 (k.sp - 1) e.pc 0xF#4).enqueue c p2 (k.sp - 2) (e.pushed k.sw) 0xF#4).onCore c
        (fun j => { j with sw := k.sw &&& ~~~ 0x3CC0#36 })).vectorWord c e.vec = .ok h d4 →
      let d := d4.onCore c (fun j => { j with
        sp := j.sp - 2, pc := h, icause := e.vec, sw := j.sw &&& ~~~ 0x3CC0#36, slot := none, sriHold := false, fetchFaults := [] })
      Answers (.exceptionEntry c) s (match c with
        | .pier p => d.onPier p (fun P => { P with mem := { P.mem with lockWait := none } })
        | .warden => d))

/-- R201 to R208: SRI takes six bits; a move to SRV in supervisor mode writes the register that SRI names, whose reserved bits stay 0. -/
def Obligations.SpecialRegisterPorts : Prop :=
  -- R203: a move to SRI takes six bits of the source, and the boundary behind it accepts no interrupt.
  (∀ c f s w d, Executes s.dev c 0x3B f → s.dev.operand c f = .ok w d →
      let k := (d.core c).stepIdx (stepOf f) 1
      Answers (.sri c f) s ((completed d c (fun _ => { k with sri := w.setWidth 6 })).onCore c
        (fun k => { k with sriHold := true }))) ∧
  -- R201 to R208: a move to SRV in supervisor mode writes the register that SRI names; its reserved bits stay 0, a
  -- reserved rounding mode leaves RM, and the read-only registers ignore it.
  (∀ c f s w d, Executes s.dev c 0x3C f → (s.dev.core c).user = false → s.dev.operand c f = .ok w d →
      (d.core c).longop = none → (d.core c).user = false → (d.core c).sri = (s.dev.core c).sri →
      let k := (d.core c).stepIdx (stepOf f) 1
      let n := (s.dev.core c).sri.toNat
      let does := fun (j : Core) => Answers (.srv c f) s (completed d c (fun _ => j))
      (n = 0 → does { k with sw := d.swHeld c w, fetchFaults := [] }) ∧
      (n = 1 → does { k with vbr := w &&& ~~~ 0x7F#36 }) ∧
      (n = 2 → does { k with ls := w }) ∧ (n = 3 → does { k with le := w }) ∧
      (n = 4 → does { k with lc := w.setWidth 13 }) ∧
      (n = 5 → does { k with flt := w }) ∧ (n = 6 → does { k with fcs := w &&& 0xFFFF#36 }) ∧
      (n = 10 → does { k with fpcr :=
        if (w >>> 16).toNat % 8 ≤ 4 then w &&& 0x71F1F#36 else (w &&& 0x01F1F#36) ||| (k.fpcr &&& 0x70000#36) }) ∧
      (n = 11 → does { k with tre := w &&& 7#36 }) ∧
      (n = 14 → does { k with imask := w.setWidth 9 &&& (if c = .warden then 0x1FF#9 else 0x03F#9) }) ∧
      (n = 7 ∨ n = 8 ∨ n = 12 ∨ n = 13 ∨ n = 15 → does k))

/-- R102 to R106, R232, R236 and R423: SYNC waits while a run is executing or queued; a bond that passes its checks queues its run. -/
def Obligations.SyncAndBond : Prop :=
  -- R106, R232 and R236: SYNC completes when no run is executing or queued, and at once on the warden; while a run
  -- executes it is held and nothing has happened.
  ((∀ (p : Fin 16) f s, Executes s.dev (.pier p) 0x3F f → (s.dev.pier p).runs.exec = none → (s.dev.pier p).runs.queued = none →
      Answers (.sync (.pier p) f) s (completed s.dev (.pier p) id)) ∧
    (∀ f s, Executes s.dev .warden 0x3F f → Answers (.sync .warden f) s (completed s.dev .warden id)) ∧
    (∀ (p : Fin 16) f s r, Executes s.dev (.pier p) 0x3F f → (s.dev.pier p).runs.exec = some r →
      Answers (.sync (.pier p) f) s s.dev)) ∧
  -- R102 to R105: a bond that passes its checks while the queue has room queues the run of its script, which fixes the
  -- mode, the space, the rounding mode and the enables of its launch; and R423: none is launched while the power-fail
  -- sequence runs.
  ((∀ (p : Fin 16) f s d1 d2 d3 d4 h ws cs, Executes s.dev (.pier p) 0x3E f → s.dev.life.pf = .none →
      let ea := (s.dev.core (.pier p)).ea f
      s.dev.drainAll (.pier p) = .ok () d1 → d1.load (.pier p) false ea = .ok h d2 →
      Dev.scriptWords (.pier p) ea (bondWords h - 1) 1 d2 = .ok ws d3 →
      let sc := parseScript (h :: ws)
      d3.runCourses p sc = (cs, d4) → bondCheck cs (d4.core (.pier p)).user sc = none →
      let r := mkRun sc cs (d4.runFix p)
      AnswersWith (.bond (.pier p) f) s (fun d =>
        ((d4.pier p).runs.exec = none → (d.pier p).runs.exec = some r ∧ (d.pier p).runs.started = false) ∧
        (∀ r0, (d4.pier p).runs.exec = some r0 → (d4.pier p).runs.queued = none →
          (d.pier p).runs.exec = some r0 ∧ (d.pier p).runs.queued = some r))) ∧
    (∀ (p : Fin 16) f s d1 d2 d3 d4 h ws cs cause word, Executes s.dev (.pier p) 0x3E f → s.dev.life.pf = .none →
      let ea := (s.dev.core (.pier p)).ea f
      s.dev.drainAll (.pier p) = .ok () d1 → d1.load (.pier p) false ea = .ok h d2 →
      Dev.scriptWords (.pier p) ea (bondWords h - 1) 1 d2 = .ok ws d3 →
      let sc := parseScript (h :: ws)
      d3.runCourses p sc = (cs, d4) → bondCheck cs (d4.core (.pier p)).user sc = some (cause, word) → (d4.core (.pier p)).slot = none →
      AnswersWith (.bond (.pier p) f) s (fun d =>
        (d.core (.pier p)).raised = some ⟨13, (d4.core (.pier p)).pc, false, false, none⟩ ∧
        (d.pier p).runs.exec = (d4.pier p).runs.exec ∧ (d.pier p).runs.queued = (d4.pier p).runs.queued)) ∧
    (∀ (p : Fin 16) f s, Executes s.dev (.pier p) 0x3E f → s.dev.life.pf ≠ .none → Answers (.bond (.pier p) f) s s.dev))

/-- R189 and R227 to R229: string operations that have done all their words complete with SW.RES 0; DADDS and DSUBS of one word. -/
def Obligations.StringOperations : Prop :=
  -- R227 and R228: a string operation whose words are all done, or which has none, completes with SW.RES 0; one that an
  -- interrupt stops has SW.RES 1 and X1, X2 and A at the words that remain.
  ((∀ c g stop s d, Executes s.dev c 0x3D (immFld g 1) →
      Dev.strLoop c (movsWord c) (wordsNow s.dev c stop) (s.dev.onCore c Core.strBegin) = .ok () d →
      Answers (.movs c ⟨g, stop⟩) s (stringStops s.dev d c stop)) ∧
    (∀ c g stop s d, Executes s.dev c 0x3D (immFld g 2) → (s.dev.core c).longop = none →
      Dev.strLoop c (fillsWord c) (wordsNow s.dev c stop) (s.dev.onCore c Core.strBegin) = .ok () d →
      Answers (.fills c ⟨g, stop⟩) s (stringStops s.dev d c stop)) ∧
    (∀ c g stop s d, Executes s.dev c 0x3D (immFld g 6) → (s.dev.core c).longop = none →
      Dev.strLoop c (xltsWord c) (wordsNow s.dev c stop) (s.dev.onCore c Core.strBegin) = .ok () d →
      Answers (.xlts c ⟨g, stop⟩) s (stringStops s.dev d c stop)) ∧
    (∀ c g stop s, Executes s.dev c 0x3D (immFld g 3) → (s.dev.core c).a = 0 →
      Answers (.dadds c ⟨g, stop⟩) s (completed s.dev c stringEnded)) ∧
    (∀ c g stop s, Executes s.dev c 0x3D (immFld g 4) → (s.dev.core c).a = 0 →
      Answers (.dsubs c ⟨g, stop⟩) s (completed s.dev c stringEnded)) ∧
    (∀ c g stop s, Executes s.dev c 0x3D (immFld g 5) → (s.dev.core c).a = 0 →
      Answers (.cmps c ⟨g, stop⟩) s (completed s.dev c stringEnded))) ∧
  -- R227 and R253: CMPS that no interrupt stops leaves X1, X2, A and the flags at its first unequal pair, or all words
  -- equal.
  (∀ c g stop s d, Executes s.dev c 0x3D (immFld g 5) → (s.dev.core c).a ≠ 0 → (s.dev.core c).longop = none →
      wordsNow s.dev c stop = (s.dev.core c).a.toNat →
      cmpsLoop c (s.dev.core c).a.toNat (s.dev.onCore c Core.strBegin) = .ok () d →
      Answers (.cmps c ⟨g, stop⟩) s (completed d c cmpsLeft)) ∧
  -- R189, R227 and R229: DADDS and DSUBS of two valid one-word strings store the sum or difference of the two, with the
  -- flags of the result; MH ends 0 and A counts down.
  (∀ (sub : Bool) c g s u v d1 d2 d3 d4 d5,
      let code : BitVec 3 := if sub then 4 else 3
      let k := s.dev.core c
      Executes s.dev c 0x3D (immFld g (code.setWidth 24)) → k.a = 1 → k.longop = none → k.sw.getLsbD 11 = false →
      let d0 := s.dev.onCore c (fun k => { k with mh := code.setWidth 36 <<< 33, strNow := {} })
      d0.load c false (k.x1 + 0) = .ok u d1 → d1.load c false (k.x2 + 0) = .ok v d2 →
      sdecOk u = true → sdecOk v = true →
      let dw := d2.onCore c (fun k => { k with mh := decMh code (some (decFix sub [u] [v])) })
      dw.load c false (d2.core c).x1 = .ok u d3 → d3.load c false (d3.core c).x2 = .ok v d4 →
      let t : Int := if sub then sdecVal v - sdecVal u else sdecVal v + sdecVal u
      d4.store c false (d4.core c).x2 (sdecWord t) 0xF#4 = .ok () d5 →
      k.tre = 0 → (d2.core c).strNow = {} → (d5.core c).tre = 0 →
      AnswersWith (if sub then .dsubs c ⟨g, none⟩ else .dadds c ⟨g, none⟩) s (fun d =>
        let j := d5.core c
        (d.core c).x1 = j.x1 + 1 ∧ (d.core c).x2 = j.x2 + 1 ∧ (d.core c).a = j.a - 1 ∧ (d.core c).mh = 0 ∧
        ((d.core c).sw.getLsbD 1 = decide (t < 0)) ∧ (d.core c).sw.getLsbD 3 = decide (100000000 ≤ t.natAbs) ∧
        (d.core c).sw.getLsbD 0 = decide (t.natAbs % 100000000 = 0) ∧ (d.core c).sw.getLsbD 2 = j.sw.getLsbD 2))

/-- R240, R242, R267, R268, R269 and R310: the core timer counts what is written and raises vector 20 at its end; invalidation empties
the instruction cache; a fetch that misses fills its line where all of it can be read, one that hits changes no memory, a fault is
recorded with the word, and a bank that is not ready holds it; a walk fills its TLB, its fault is noted, or it is held; a core that
may be released starts with bank 0 owned by 64, at the address that the word at physical address 0 holds. Where there is nothing to
expire, to fetch, to walk or to release, nothing changes. -/
def Obligations.CoreEventsTakeEffect : Prop :=
  (∀ (p : Fin 16) v s, Answers (.coreTimerWrite (.pier p) v) s
    (if s.dev.reachable p then s.dev.onCore (.pier p) (fun k => { k with tmr := v, tmrRun := v ≠ 0 }) else s.dev)) ∧
  (∀ v s, Answers (.coreTimerWrite .warden v) s (s.dev.onCore .warden (fun k => { k with tmr := v, tmrRun := v ≠ 0 }))) ∧
  (∀ c s, (s.dev.core c).tmrRun = true → (s.dev.core c).tmr = 0 →
    Answers (.coreTimerExpiry c) s (s.dev.onCore c (fun k => { k with tmrRun := false, ipend := k.ipend ||| 0x010#9 }))) ∧
  (∀ c s, (s.dev.core c).tmrRun = false ∨ (s.dev.core c).tmr ≠ 0 → Answers (.coreTimerExpiry c) s s.dev) ∧
  (∀ (p : Fin 16) s, s.dev.reachable p = false → Answers (.prIcCtlInv p) s s.dev) ∧
  (∀ (p : Fin 16) va s, (s.dev.pier p).core.run ≠ .running → Answers (.instructionCacheFill p va) s s.dev) ∧
  (∀ (p : Fin 16) hod acc va s, (∀ c, ¬ WalksFor s.dev p hod c) → Answers (.tableWalk p hod acc va) s s.dev) ∧
  (∀ (p : Fin 16) s, s.dev.mayRelease p = false → Answers (.coreRelease p) s s.dev) ∧
  (∀ (p : Fin 16) s, s.dev.reachable p = true →
    Answers (.prIcCtlInv p) s (s.dev.onPier p (fun P => { P with mem := { P.mem with icache := [] } }))) ∧
  (∀ (p : Fin 16) va s pa P1, (s.dev.pier p).core.run = .running → Fetches (s.dev.pier p) s.dev.now va pa P1 →
    let i := if P1.core.user then tagIdent P1.regs.tag else .supervisor
    (∀ l, P1.mem.icache.find? (fun l => l.line = pa.toNat / 8) = some l →
      AnswersWith (.instructionCacheFill p va) s (fun d =>
        (d.pier p).mem = P1.mem ∧ (d.pier p).core = P1.core.dropFetch va ∧ ∀ q, q ≠ p → d.pier q = s.dev.pier q)) ∧
    ((∀ l ∈ P1.mem.icache, l.line ≠ pa.toNat / 8) →
      (∀ w ws P2 P3, physRead P1 s.dev.now i .fetch pa = .ok w P2 →
        icWords s.dev.now i 8 (8 * (pa.toNat / 8)) { P2 with core := P2.core.dropFetch va } = (some ws, P3) →
        AnswersWith (.instructionCacheFill p va) s (fun d =>
          (⟨pa.toNat / 8, ws⟩ : IcLine) ∈ (d.pier p).mem.icache ∧ (d.pier p).core = P3.core ∧ (d.pier p).mem.banks = P3.mem.banks ∧
          (d.pier p).mem.quarry = P3.mem.quarry ∧ ∀ q, q ≠ p → d.pier q = s.dev.pier q)) ∧
      (∀ w P2 P3, physRead P1 s.dev.now i .fetch pa = .ok w P2 →
        icWords s.dev.now i 8 (8 * (pa.toNat / 8)) { P2 with core := P2.core.dropFetch va } = (none, P3) →
        AnswersWith (.instructionCacheFill p va) s (fun d => d.pier p = P3)) ∧
      (∀ P2, physRead P1 s.dev.now i .fetch pa = .held P2 →
        AnswersWith (.instructionCacheFill p va) s (fun d => d.pier p = { P1 with mem := { P1.mem with bank := P2.mem.bank } })) ∧
      (∀ kind P2, physRead P1 s.dev.now i .fetch pa = .bus kind P2 →
        AnswersWith (.instructionCacheFill p va) s (fun d =>
          (⟨va, if kind = 0xF then 7 else 8, va, mkFcs P2.core.user .execute 0 false 0 kind⟩ : FetchFault) ∈ (d.pier p).core.fetchFaults ∧
          (d.pier p).mem = P2.mem)) ∧
      (∀ P2, physRead P1 s.dev.now i .fetch pa = .rubble P2 →
        AnswersWith (.instructionCacheFill p va) s (fun d =>
          (⟨va, 7, va, mkFcs P2.core.user .execute 0 false 0 0xF⟩ : FetchFault) ∈ (d.pier p).core.fetchFaults ∧
          (d.pier p).mem = P2.mem)))) ∧
  (∀ (p : Fin 16) va s vec fcs P1, (s.dev.pier p).core.run = .running →
    (s.dev.pier p).core.user = true ∨ (s.dev.pier p).core.te = true →
    translate (pierTrCtx (s.dev.pier p) (s.dev.pier p).core.user) s.dev.now false .execute va (s.dev.pier p) = .fault vec fcs P1 →
    AnswersWith (.instructionCacheFill p va) s (fun d =>
      (⟨va, vec, va, fcs⟩ : FetchFault) ∈ (d.pier p).core.fetchFaults ∧ (d.pier p).mem = P1.mem)) ∧
  (∀ (p : Fin 16) va s P1, (s.dev.pier p).core.run = .running →
    (s.dev.pier p).core.user = true ∨ (s.dev.pier p).core.te = true →
    translate (pierTrCtx (s.dev.pier p) (s.dev.pier p).core.user) s.dev.now false .execute va (s.dev.pier p) = .held P1 →
    AnswersWith (.instructionCacheFill p va) s (fun d =>
      d.pier p = { s.dev.pier p with mem := { (s.dev.pier p).mem with bank := P1.mem.bank } })) ∧
  (∀ (p : Fin 16) hod acc va s c x, WalksFor s.dev p hod c → x ∈ tlbOf (s.dev.pier p) hod → tlbHit c.tag va x = true →
    Answers (.tableWalk p hod acc va) s s.dev) ∧
  (∀ (p : Fin 16) hod acc va s c, WalksFor s.dev p hod c →
    let P := s.dev.pier p
    (∀ x ∈ tlbOf P hod, tlbHit c.tag va x = false) →
    (∀ pa e P1, walk c s.dev.now acc va P = (.ok (pa, e), P1) →
      AnswersWith (.tableWalk p hod acc va) s (fun d =>
        (d.pier p).mem.walkRes = some (.inl pa) ∧ e ∈ tlbOf (d.pier p) hod ∧ (d.pier p).core = P1.core ∧
        (d.pier p).mem.banks = P1.mem.banks ∧ ∀ q, q ≠ p → d.pier q = s.dev.pier q)) ∧
    (∀ s2 lvl s1 k P1, walk c s.dev.now acc va P = (.error (.kind s2 lvl s1 k), P1) →
      AnswersWith (.tableWalk p hod acc va) s (fun d =>
        d.pier p = { P1 with mem := { P1.mem with walkRes := some (.inr (mkFcs c.user acc s1 s2 lvl k)) } })) ∧
    (∀ P1, walk c s.dev.now acc va P = (.error .held, P1) →
      AnswersWith (.tableWalk p hod acc va) s (fun d => d.pier p = { P with mem := { P.mem with bank := P1.mem.bank } }))) ∧
  (∀ (p : Fin 16) s, s.dev.mayRelease p = true →
    AnswersWith (.coreRelease p) s (fun d =>
      d.core (.pier p) = { tmr := (s.dev.core (.pier p)).tmr, tmrRun := (s.dev.core (.pier p)).tmrRun,
                           pc := (d.core (.pier p)).pc, run := .running } ∧
      (∀ w Q, bankFetch (d.pier p) .fetch 0 = .ok w Q → (d.core (.pier p)).pc = w) ∧
      (d.pier p).mem.bank[0].owner = 64#7 ∧ (∀ a, 4096 ≤ a → a < 0x20000 →
        (s.dev.pier p).mem.bank[0].content ≠ 64#7 → (d.pier p).mem.banks.get a = 0) ∧
      (∀ a, 0x20000 ≤ a → (s.dev.pier p).mem.banks.wf = true → (d.pier p).mem.banks.get a = (s.dev.pier p).mem.banks.get a) ∧
      ∀ q, q ≠ p → d.pier q = s.dev.pier q))

/-! ### Runs -/

/-- R77 to R79, R98, R101, R104, R116, R283 and R467: a run starts once its pier is in RUN and its banks are awake; streamers read,
joints advance whole groups and observe rubble, and a store streamer commits behind the horizon; a fault of a stream, rubble under SR
and a translation that fails end the run. -/
def Obligations.RunsStartStreamAndCommit : Prop :=
  -- R104, R283 and R467: the run at the head starts once its pier is in RUN without a ramp and its banks are awake.
  (∀ (p : Fin 16) s r,
      let P := s.dev.pier p
      P.runs.exec = some r → P.runs.started = false → P.pw.st = .run → P.pw.change ≠ .ramp →
      (runBanks P s.dev.now r).all (fun b => P.mem.bank[b].retn = .awake) = true →
      RunAnswers (.runStart p) s p
        (afterRun { P with runs := { P.runs with started := true } } s.dev.now s.dev.fresh r)) ∧
  -- R98, R101, R77 to R79, R116, R121 and R126: a streamer reads a row and emits it, or faults the run; a joint advances
  -- a whole group to every destination that can take it, and observes rubble that nothing has observed yet, which SR
  -- makes a fault; a store streamer commits its group behind the horizon, or its translation, or a poison line under SR,
  -- faults the run; under SR it waits while rubble may still be found below its group.
  ((∀ (p : Fin 16) (u : Fin 4) s r x Q r',
      let P := s.dev.pier p
      P.runs.exec = some r → P.runs.started = true → r.unit? u.val = some x → x.ended = false →
      let stop := min (32 * (x.fired / 32 + 1)) (x.len r.n)
      x.fired < stop → r.room x x.fired = true → r.near (stop - 1) = true →
      loadGroup s.dev.now s.dev.fresh x (stop - x.fired) x.fired P r = some (Q, r') →
      RunAnswers (.loadStreamerFire p u) s p (match r' with
        | some r' => afterRun Q s.dev.now s.dev.fresh r'
        | none => Q)) ∧
    (∀ (p : Fin 16) port s r e es,
      let P := s.dev.pier p
      P.runs.exec = some r → r.outAt port = e :: es →
      let g := (e :: es).takeWhile (fun x => x.idx / 32 = e.idx / 32)
      let ds := r.conns.filter (fun c => c.src = port)
      let gone := { r with outs := assocSet r.outs port ((e :: es).drop g.length) }
      let seen := g.find? (fun x => x.rub && !r.rubIdx.contains x.idx)
      r.groupWhole port g = true → ds.all r.accepts = true →
      (seen = none → RunAnswers (.jointGroupAdvance p port) s p
        (afterRun P s.dev.now s.dev.fresh (ds.foldl (fun r c => r.deliver g c.dst) gone))) ∧
      (∀ x, seen = some x → r.sr = false → RunAnswers (.jointGroupAdvance p port) s p
        (afterRun P s.dev.now s.dev.fresh (ds.foldl (fun r c => r.deliver g c.dst) { gone with rubble := (r.observe x.idx 9).rubble }))) ∧
      (∀ x, seen = some x → r.sr = true →
        RunAnswers (.jointGroupAdvance p port) s p (faultRun P s.dev.now s.dev.fresh r 6 9 x.idx none))) ∧
    (∀ (p : Fin 16) (u : Fin 2) s r x e es,
      let P := s.dev.pier p
      let now := s.dev.now
      let fr := s.dev.fresh
      let n := 4 + u.val
      let g := e.idx / 32
      let grp := (e :: es).takeWhile (fun y => y.idx / 32 = g)
      let ts := (r.inAt (mkPort n 3)).takeWhile (fun y => y.idx / 32 = g)
      let ys := if r.fed (mkPort n 3) = true then List.zipWith (fun (y t : Elem) => { y with rub := y.rub || t.rub }) grp ts else grp
      let ws := ys.filter (fun y => y.idx < x.len r.n)
      P.runs.exec = some r → r.unit? n = some x → x.ended = false → x.p 0 ≠ 1 →
      r.inAt (mkPort n 0) = e :: es → ys ≠ [] → r.horizonPast g = true →
      (∀ i un rout va fcs P1, translateAhead now r g r.memStores P = (.error (some (i, un, rout, va, fcs)), P1) →
        RunAnswers (.storeCommit p u) s p (faultRun P1 now fr r rout un i (some (va, fcs)))) ∧
      (∀ P1, translateAhead now r g r.memStores P = (.error none, P1) → RunAnswers (.storeCommit p u) s p P1) ∧
      (∀ P1 P2 err, translateAhead now r g r.memStores P = (.ok (), P1) →
        storeAddrs now r x (ws.map (·.idx)) P1 = (.error err, P2) → RunAnswers (.storeCommit p u) s p P2) ∧
      (∀ P1 P2 as, translateAhead now r g r.memStores P = (.ok (), P1) →
        storeAddrs now r x (ws.map (·.idx)) P1 = (.ok as, P2) →
        let put := List.zipWith (fun (a : Nat × Word) y => (a.1, a.2, y)) as ws
        let done := storeLines put n (groupLines put) (storeBanks P2 put) r
        (∀ l, r.sr = true → (groupLines put).find? (meetsPoison P2 put) = some l →
          RunAnswers (.storeCommit p u) s p (faultRun P2 now fr r 6 n (lineIndex put l) none)) ∧
        (r.sr = true → (groupLines put).all (fun l => !meetsPoison P2 put l) = true →
          r.rubbleAhead now n (32 * (g + 1)) P2 = true → RunAnswers (.storeCommit p u) s p P2) ∧
        (r.sr = false ∨ ((groupLines put).all (fun l => !meetsPoison P2 put l) = true ∧
            r.rubbleAhead now n (32 * (g + 1)) P2 = false) →
          RunAnswers (.storeCommit p u) s p
            (afterRun done.1 now fr
              ((done.2.takeN n ys.length).onUnit n (fun y => { y with committed := (grp.getD (ys.length - 1) e).idx + 1 })))))) ∧
    (∀ (P : Pier) i pa b a (e : Elem), physTarget pa = .bank b a →
      groupLines [(i, pa, e)] = [] ∧
      storeBanks P [(i, pa, e)] = bankStore P a (if e.rub = true then eccPoison else eccEncode e.val)))

/-- R73, R101, R104, R116, R131 and R283: a command of a run that finds nothing to do leaves its pier as it is: no run or a started
one to start, no row, group or tile that may go now, no firing; a start wakes the banks in retention that the run uses. A lookup whose
slot is in use, or whose bank is not ready, waits; AU0 waits for the 16 elements of its record. -/
def Obligations.RunCommandsWithNothingToDo : Prop :=
  ∀ (p : Fin 16) s,
    let P := s.dev.pier p
    let now := s.dev.now
    let stays := fun (i : Instr) => RunAnswers i s p P
    let runs := fun (r : Run) => P.runs.exec = some r ∧ P.runs.started = true
    (P.runs.exec = none ∨ P.runs.started = true ∨ P.pw.st ≠ .run ∨ P.pw.change = .ramp → stays (.runStart p)) ∧
    (∀ r, P.runs.exec = some r → P.runs.started = false → P.pw.st = .run → P.pw.change ≠ .ramp →
      (runBanks P now r).any (fun b => P.mem.bank[b].retn ≠ .awake) = true →
      AnswersWith (.runStart p) s (fun d => (d.pier p).runs = P.runs ∧
        ∀ b : Fin 16, (d.pier p).mem.bank[b].retn =
          if b ∈ runBanks P now r ∧ P.mem.bank[b].retn = .retained then .waking else P.mem.bank[b].retn)) ∧
    (∀ u : Fin 4,
      (∀ r x, runs r → r.unit? u.val = some x →
        let stop := min (32 * (x.fired / 32 + 1)) (x.len r.n)
        (x.ended = true ∨ stop ≤ x.fired ∨ r.room x x.fired = false ∨ r.near (stop - 1) = false → stays (.loadStreamerFire p u)) ∧
        (x.ended = false → x.fired < stop → r.room x x.fired = true → r.near (stop - 1) = true →
          loadGroup now s.dev.fresh x (stop - x.fired) x.fired P r = none →
          RunAnswers (.loadStreamerFire p u) s p (loadElem P now r x x.fired).2)) ∧
      ((∀ r x, runs r → r.unit? u.val ≠ some x) → stays (.loadStreamerFire p u))) ∧
    (∀ port, (∀ r e es, P.runs.exec = some r → r.outAt port = e :: es →
        r.groupWhole port ((e :: es).takeWhile (fun x => x.idx / 32 = e.idx / 32)) = false ∨
        (r.conns.filter (fun c => c.src = port)).all r.accepts = false) → stays (.jointGroupAdvance p port)) ∧
    (∀ u : Fin 2, (∀ r x e es, P.runs.exec = some r → r.unit? (4 + u.val) = some x → r.inAt (mkPort (4 + u.val) 0) = e :: es →
        x.ended = true ∨ x.p 0 = 1 ∨ r.horizonPast (e.idx / 32) = false ∨
        (r.fed (mkPort (4 + u.val) 3) = true ∧
          (r.inAt (mkPort (4 + u.val) 3)).takeWhile (fun y => y.idx / 32 = e.idx / 32) = [])) → stays (.storeCommit p u)) ∧
    (∀ i u, (i, u) ∈ ([(.iaFire p 0, 8), (.iaFire p 1, 9), (.mcFire p 0, 0xA), (.mcFire p 1, 0xB), (.dcFire p, 0xC), (.fpFire p, 0xD),
        (.rdFire p, 0xE), (.cyFire p, 0xF), (.kf0Lookup p, 0x10), (.au0Record p .run, 0x11), (.ixFire p, 0x12), (.slFire p, 0x13),
        (.aesFire p, 0x21), (.tdesFire p, 0x22), (.hashSegment p, 0x23), (.xlatFire p, 0x24)] : List (Instr × Nat)) →
      firing P u = none → stays i) ∧
    (∀ r x i, firing P 0x10 = some (r, x, i) →
      (slotFree r i = false → stays (.kf0Lookup p)) ∧
      (∀ P1, slotFree r i = true → 1 ≤ (x.p 0).toNat → (x.p 0).toNat ≤ 3 → ¬ ((x.p 0).toNat = 3 ∧ r.fix.user = true) →
        ((x.p 0).toNat = 1 ∨ (kfWidth (x.p 5)).isSome = true) → r.rubbleIn x = false →
        1 ≤ (r.operand x 0).toNat → (r.operand x 0).toNat < 2 ^ 22 →
        kfLook s.dev.keyCtx (kfAsk r x i) now (r.operand x 0).toNat r.ct P = (none, P1) → RunAnswers (.kf0Lookup p) s p P1)) ∧
    (∀ r x i, firing P 0x11 = some (r, x, i) →
      (x.p 0 ≠ 1 ∨ r.n % 16 ≠ 0 → Emits (.au0Record p .run) s p 0x11 r x i laneReserved) ∧
      (x.p 0 = 1 → r.n % 16 = 0 → (r.inputs 0x11).all (fun q => 16 ≤ (r.inAt q).length) = false → stays (.au0Record p .run))) ∧
    (∀ i u, (i, u) ∈ ([(.montTile p, 0x20), (.ecpTile p, 0x25)] : List (Instr × Nat)) →
      ((∀ r x, P.runs.exec = some r → r.unit? u ≠ some x) → stays i) ∧
      ∀ r x, P.runs.exec = some r → r.unit? u = some x →
        (tileShape r.n x = none → firing P u = none → stays i) ∧
        ∀ w l k, tileShape r.n x = some (w, l, k) →
          (P.runs.started = false ∨ x.ended = true ∨ w / 32 ≤ x.tiles ∨
            (r.inputs u).all (fun q => 32 * ((k * l - 1) * (w / 32) + x.tiles + 1) ≤ (r.inAt q).length) = false) → stays i)

/-- R73 to R76, R121 and R129: a firing of a stone without state takes one element from every connected input and emits the
result of its operation on R, S, F and X, as rubble where an input is; a trap that the run enables, of an operation on no
rubble, faults the run instead. -/
def Obligations.StonesWithoutStateFire : Prop :=
  (∀ (p : Fin 16) (u : Fin 2) s r x i, firing (s.dev.pier p) (8 + u.val) = some (r, x, i) →
    Emits (.iaFire p u) s p (8 + u.val) r x i (iaOp (x.p 0).toNat (r.operand x 0) (r.operand x 1) (r.operand x 2))) ∧
  (∀ (p : Fin 16) s r x i, firing (s.dev.pier p) 0xC = some (r, x, i) →
    let o := dcOp (x.p 0).toNat (r.operand x 0) (r.operand x 1) (r.operand x 2)
    (o.trap = false ∨ r.fix.dve = false ∨ r.rubbleIn x = true → Emits (.dcFire p) s p 0xC r x i o) ∧
    (o.trap = true → r.fix.dve = true → r.rubbleIn x = false →
      RunAnswers (.dcFire p) s p (faultRun (s.dev.pier p) s.dev.now s.dev.fresh r 8 7 i none))) ∧
  (∀ (p : Fin 16) s r x i, firing (s.dev.pier p) 0xD = some (r, x, i) →
    let o := fpOp (x.p 0).toNat (x.p 4) r.fix.rm r.fix.fpEn (r.operand x 0) (r.operand x 1) (r.operand x 2)
    (o.trap = false ∨ r.rubbleIn x = true → Emits (.fpFire p) s p 0xD r x i o) ∧
    (o.trap = true → r.rubbleIn x = false →
      RunAnswers (.fpFire p) s p (faultRun (s.dev.pier p) s.dev.now s.dev.fresh r 7 6 i none))) ∧
  (∀ (p : Fin 16) s r x i, firing (s.dev.pier p) 0x12 = some (r, x, i) →
    Emits (.ixFire p) s p 0x12 r x i (ixOp (x.p 0).toNat i (x.p 1) (x.p 2) (x.p 3) (r.operand x 0))) ∧
  (∀ (p : Fin 16) s r x i, firing (s.dev.pier p) 0x13 = some (r, x, i) →
    Emits (.slFire p) s p 0x13 r x i (slOp (x.p 0).toNat (x.p 4) (r.operand x 0) (r.operand x 1) (r.operand x 2)))

/-- R132, R135 and R136: the results of the integer stones, operation by operation, with CY and V; Z and N of the flag nonet follow
R, and a reserved operation emits PX alone. -/
def Obligations.IntegerStoneOperations : Prop :=
  ∀ a b c : Word,
    let cin : Nat := if c = 0 then 0 else 1
    let n := b.toNat % 128
    let out := fun (r s : Word) (cy v : Bool) =>
      (⟨r, s, BitVec.ofNat 36 ((if r = 0 then 1 else 0) + (if r.getLsbD 35 then 2 else 0) + (if cy then 4 else 0) +
        (if v then 8 else 0)), 0, false⟩ : LaneOut)
    let flag := fun (q : Prop) [Decidable q] => (if q then 1 else 0 : Word)
    iaOp 0x00 a b c = out a 0 false false ∧
    iaOp 0x01 a b c = out (a + b) (flag (2 ^ 36 ≤ a.toNat + b.toNat)) (2 ^ 36 ≤ a.toNat + b.toNat)
      (outOfRange (a.toInt + b.toInt)) ∧
    iaOp 0x02 a b c = out (a + b + BitVec.ofNat 36 cin) (flag (2 ^ 36 ≤ a.toNat + b.toNat + cin))
      (2 ^ 36 ≤ a.toNat + b.toNat + cin) (outOfRange (a.toInt + b.toInt + cin)) ∧
    iaOp 0x03 a b c = out (a - b) (flag (a.toNat < b.toNat)) (a.toNat < b.toNat) (outOfRange (a.toInt - b.toInt)) ∧
    iaOp 0x04 a b c = out (a - b - BitVec.ofNat 36 cin) (flag (a.toNat < b.toNat + cin)) (a.toNat < b.toNat + cin)
      (outOfRange (a.toInt - b.toInt - cin)) ∧
    iaOp 0x05 a b c = out (-a) 0 (a ≠ 0) (a = 0x800000000#36) ∧
    iaOp 0x06 a b c = out (a &&& b) 0 false false ∧ iaOp 0x07 a b c = out (a ||| b) 0 false false ∧
    iaOp 0x08 a b c = out (a ^^^ b) 0 false false ∧ iaOp 0x09 a b c = out (a &&& ~~~ b) 0 false false ∧
    iaOp 0x0A a b c = out (a <<< n) 0 (decide (n ≠ 0) && (a.setWidth 256 <<< n).getLsbD 36) false ∧
    iaOp 0x0B a b c = out (a >>> n) 0 (decide (n ≠ 0) && a.getLsbD (n - 1)) false ∧
    iaOp 0x0C a b c = out (a.sshiftRight n) 0 (decide (n ≠ 0) && (a.signExtend 256).getLsbD (n - 1)) false ∧
    iaOp 0x0D a b c = out (a.rotateLeft n) 0 (decide (n ≠ 0) && (a.rotateLeft n).getLsbD 0) false ∧
    iaOp 0x0E a b c = out (flag (a = b)) 0 false false ∧
    iaOp 0x0F a b c = out (flag (a.toInt < b.toInt)) 0 false false ∧
    iaOp 0x10 a b c = out (flag (a.toNat < b.toNat)) 0 false false ∧
    iaOp 0x11 a b c = out (if a.toInt ≤ b.toInt then a else b) 0 false false ∧
    iaOp 0x12 a b c = out (if b.toInt ≤ a.toInt then a else b) 0 false false ∧
    iaOp 0x13 a b c = out (if a.toNat ≤ b.toNat then a else b) 0 false false ∧
    iaOp 0x14 a b c = out (if b.toNat ≤ a.toNat then a else b) 0 false false ∧
    iaOp 0x15 a b c = out (if b.toNat ≤ a.toNat then a - b else a) (flag (b.toNat ≤ a.toNat)) false false ∧
    ∀ op, 0x15 < op → iaOp op a b c = ⟨0, 0, 0x100, 0, false⟩

/-- R46, R137 to R139, R146, R150 and R151: MC0 and MC1 accumulate, RD0 gathers a segment, CY0 carries from element to element of a
position, and its limb and carry give the value back. -/
def Obligations.StonesWithStateFire : Prop :=
  -- R127, R137 to R139, R146, R150 and R151: MC0 and MC1 read out and leave their accumulator as the operation says, and
  -- add a signed product exactly; RD0 gathers a segment, emits it at its last element, and an undefined X for each; CY0
  -- carries from element to element of a position.
  ((∀ (p : Fin 16) (u : Fin 2) s r x i, firing (s.dev.pier p) (0xA + u.val) = some (r, x, i) →
      let P := s.dev.pier p
      let k := 32 * u.val + i % 32
      let m := mcOp (x.p 0).toNat i (P.runs.acc.get k) (r.operand x 0) (r.operand x 1)
      let rub := r.rubbleIn x || (m.reads && P.runs.accRub.contains k)
      ∃ marks, (∀ j, j ≠ k → (j ∈ marks ↔ j ∈ P.runs.accRub)) ∧
        RunAnswers (.mcFire p u) s p
          (afterRun { P with runs := { P.runs with acc := P.runs.acc.set k m.acc, accRub := marks } } s.dev.now s.dev.fresh
            ((r.take (0xA + u.val)).emitAll (0xA + u.val) i m.out rub))) ∧
    (∀ (acc : BitVec 80) (i : Nat) (a b : Word),
      let t := acc.toInt + a.toInt * b.toInt
      (mcOp 3 i acc a b).acc = BitVec.ofInt 80 t ∧ (mcOp 3 i acc a b).reads = true ∧
      (mcOp 3 i acc a b).out = mcRead (BitVec.ofInt 80 t) (t < -(2 ^ 79) ∨ 2 ^ 79 ≤ t)) ∧
    (∀ (p : Fin 16) s r x i, firing (s.dev.pier p) 0xE = some (r, x, i) → x.p 0 = 0 →
      Emits (.rdFire p) s p 0xE r x i (laneInt (r.operand x 0) 0 false false)) ∧
    (∀ (p : Fin 16) s r x i seg, firing (s.dev.pier p) 0xE = some (r, x, i) →
      1 ≤ (x.p 0).toNat → (x.p 0).toNat ≤ 0xC → rdSeg r x = some seg →
      let r0 := if x.ga.any (fun e => e.idx / seg ≠ i / seg) = true then rdEmit r x ((x.ga.headD ⟨i, 0, false⟩).idx / seg) else r
      let r1 := ((r0.take 0xE).emit 0xE 7 ⟨i, 0, r.rubbleIn x⟩).onUnit 0xE
        (fun y => { y with ga := y.ga ++ [⟨i, r.operand x 0, r.rubbleIn x⟩] })
      ((i + 1) % seg ≠ 0 → i + 1 ≠ r.n → RunAnswers (.rdFire p) s p (afterRun (s.dev.pier p) s.dev.now s.dev.fresh r1)) ∧
      (∀ y, ((i + 1) % seg = 0 ∨ i + 1 = r.n) → r1.unit? 0xE = some y →
        RunAnswers (.rdFire p) s p (afterRun (s.dev.pier p) s.dev.now s.dev.fresh (rdEmit r1 y (i / seg))))) ∧
    (∀ (p : Fin 16) s r x i, firing (s.dev.pier p) 0xE = some (r, x, i) → x.p 0 ≠ 0 → rdSeg r x = none ∨ 0xC < (x.p 0).toNat →
      Emits (.rdFire p) s p 0xE r x i laneReserved) ∧
    (∀ (p : Fin 16) s r x i, firing (s.dev.pier p) 0xF = some (r, x, i) → x.p 0 = 1 → 4096 < (x.p 4).toNat % 8192 →
      Emits (.cyFire p) s p 0xF r x i laneReserved) ∧
    (∀ (p : Fin 16) s r x i, firing (s.dev.pier p) 0xF = some (r, x, i) → x.p 0 ≠ 1 →
      Emits (.cyFire p) s p 0xF r x i (cyOp (x.p 0).toNat (r.operand x 0) (r.operand x 2) 0)) ∧
    (∀ (p : Fin 16) s r x i, firing (s.dev.pier p) 0xF = some (r, x, i) →
      let w := if (x.p 4).toNat % 8192 = 0 then 1 else (x.p 4).toNat % 8192
      let c := assocGet x.carry (i % w) (some 0)
      let rub := r.rubbleIn x || c.isNone
      x.p 0 = 1 → w ≤ 4096 →
      let o := cySplit ((r.operand x 0).toInt + (r.operand x 2).toInt + c.getD 0)
      RunAnswers (.cyFire p) s p
        (afterRun (s.dev.pier p) s.dev.now s.dev.fresh
          (((r.onUnit 0xF (fun y => { y with carry := assocSet y.carry (i % w) (if rub = true then none else some o.s.toInt) })).take 0xF).emitAll
            0xF i o rub)))) ∧
  -- R46: the limb and the carry of CY0 give the value back, and the limb lies below 2^32.
  (∀ v : Int, -(2 ^ 67) ≤ v → v < 2 ^ 67 →
      (cySplit v).r.toNat < 2 ^ 32 ∧ (cySplit v).s.toInt * 2 ^ 32 + (cySplit v).r.toNat = v)

/-- R158 to R160 and R180 to R182: a lookup fills the slot of its index; AU0 seals records without rubble and reports the others. -/
def Obligations.KeyAndAuditStones : Prop :=
  -- R158 to R161 and R164: a lookup fails with the first reason of its handle or entry; KREF of an entry that passes
  -- fills the slot of its index, and the lookup emits what it found; a rubble handle gives rubble, and a reserved
  -- operation PX.
  ((∀ (p : Fin 16) s r x i, firing (s.dev.pier p) 0x10 = some (r, x, i) → slotFree r i = true →
      let P := s.dev.pier p
      let q := kfAsk r x i
      let a := r.operand x 0
      let known := 1 ≤ q.op ∧ q.op ≤ 3 ∧ ¬ (q.op = 3 ∧ r.fix.user = true) ∧ (q.op = 1 ∨ (kfWidth (x.p 5)).isSome = true)
      (¬ known → Emits (.kf0Lookup p) s p 0x10 r x i laneReserved) ∧
      (known → r.rubbleIn x = true → Emits (.kf0Lookup p) s p 0x10 r x i {}) ∧
      (known → r.rubbleIn x = false →
        (2 ^ 22 ≤ a.toNat ∨ a = 0 →
          RunAnswers (.kf0Lookup p) s p (kfEnd P s.dev.now s.dev.fresh r i (kfFail 1))) ∧
        (∀ l P1 P2, a.toNat < 2 ^ 22 → a ≠ 0 → kfLook s.dev.keyCtx q s.dev.now a.toNat r.ct P = (some (l, P1), P2) →
          RunAnswers (.kf0Lookup p) s p (kfEnd P1 s.dev.now s.dev.fresh r i l)))) ∧
    (∀ (c : KeyCtx) (q : KfAsk) (h : DirHead) (P P1 : Pier) e, readBody h P = (.entry e, P1) →
      (∀ why, why ≠ 0 → kfReason c q h.entry = why → kfEntry c q h P = (kfFail why, P)) ∧
      (kfReason c q h.entry = 0 → q.op = 1 → ∃ o sl, kfEntry c q h P = (.done o (some sl), P1) ∧
        sl.slot = q.idx % 512 ∧ sl.idx = q.idx ∧ sl.alg = e.alg ∧ sl.usage = e.usage ∧
        o.r = BitVec.ofNat 36 (2 ^ 32 + e.alg.toNat * 2 ^ 24 + q.idx % 512))) ∧
    (∀ (P : Pier) now fr r i o sl,
      kfEnd P now fr r i (.done o (some sl)) =
        fireEmit { P with runs := { P.runs with keySlots := P.runs.keySlots.filter (fun y => y.slot ≠ sl.slot) ++ [sl] } }
          now fr r 0x10 i o false)) ∧
  -- R180 to R182 and R416: AU0 seals a record of 16 elements without rubble: its sequence rises by one and its head
  -- takes the record's mark; records with rubble are not sealed, and are reported; on an exhausted chain nothing is
  -- sealed. A finished item's record goes to the chain of its pier.
  ((∀ (p : Fin 16) s r x i, firing (s.dev.pier p) 0x11 = some (r, x, i) →
      let P := s.dev.pier p
      x.p 0 = 1 → r.n % 16 = 0 → (r.inputs 0x11).all (fun q => 16 ≤ (r.inAt q).length) = true →
      let es := (List.range 16).map (fun k =>
        if r.fed (mkPort 0x11 0) then (r.inAt (mkPort 0x11 0)).getD k ⟨i + k, 0, false⟩ else ⟨i + k, x.p 1, false⟩)
      let rub := (r.inputs 0x11).any (fun q => ((r.inAt q).take 16).any (·.rub))
      AnswersWith (.au0Record p .run) s (fun d =>
        (rub = false → P.runs.au0.cseq < cseqMax → (d.pier p).runs.au0.cseq = P.runs.au0.cseq + 1 ∧
          (d.pier p).runs.au0.mark = (auSeal (P.runs.au0.key.getD (List.replicate 32 0)) (P.runs.au0.cseq + 1) P.runs.au0.mark
            (plainOut (es.map (·.val)))).2 ∧ (d.pier p).detq = P.detq) ∧
        (rub = true → P.runs.au0.cseq < cseqMax → (d.pier p).runs.au0 = P.runs.au0 ∧
          (d.pier p).detq = P.detq ++ [mkDetection 0x10 0 (P.runs.au0.cseq % 2 ^ 32) 0]) ∧
        (rub = false → cseqMax ≤ P.runs.au0.cseq → (d.pier p).runs.au0 = P.runs.au0))) ∧
    (∀ (p : Fin 16) s id it, s.dev.item? id = some it → it.stage = .record ⟨p.val, by omega⟩ →
      s.dev.recordsAllowed = true → (s.dev.pier p).runs.au0.cseq < cseqMax → it.flr = false →
      AnswersWith (.au0Record p (.item id)) s (fun d =>
        (d.pier p).runs.au0.cseq = (s.dev.pier p).runs.au0.cseq + 1 ∧ (d.pier p).runs.au0.key = (s.dev.pier p).runs.au0.key ∧
        (∃ a, d.audit.recs = s.dev.audit.recs ++ [a] ∧ a.chain.val = p.val ∧ a.cseq = (s.dev.pier p).runs.au0.cseq + 1 ∧
          a.mark = (d.pier p).runs.au0.mark) ∧
        (∀ y ∈ d.items, y.id = id → y.stage = .recorded ⟨p.val, by omega⟩ ((s.dev.pier p).runs.au0.cseq + 1)) ∧
        ∀ q, q ≠ p → d.pier q = s.dev.pier q)))

/-- R165 to R179: MONT and ECP compute tiles of 32 transactions; AES, TDES and HASH gather segments and emit them; XLAT looks nonets
up, moves them, or loads a table for its owner. -/
def Obligations.CourseUnits : Prop :=
  -- R131 and R165 to R171: MONT and ECP compute one tile of 32 transactions from the elements that its last limb
  -- completes; after the last tile every result is emitted in index order; reserved parameters emit PX element by
  -- element.
  (TileStep .montTile 0x20 ∧ TileStep .ecpTile 0x25) ∧
  -- R131 and R172 to R177: AES, TDES and HASH take an element into their segment, and at its last element emit the
  -- segment; HASH goes on to the end of its segment in one command; reserved parameters emit PX.
  (SegmentStep .aesFire 0x21 ∧ SegmentStep .tdesFire 0x22 ∧
    (∀ (p : Fin 16) s r x i, firing (s.dev.pier p) 0x23 = some (r, x, i) →
      (segReserved r.n x = true → Emits (.hashSegment p) s p 0x23 r x i laneReserved) ∧
      (segReserved r.n x = false →
        let r1 := gathered (s.dev.pier p) r x i 0x23
        (∀ z, (i + 1) % segLen r.n x = 0 ∨ i + 1 = r.n → r1.unit? 0x23 = some z →
          RunAnswers (.hashSegment p) s p (afterRun (s.dev.pier p) s.dev.now s.dev.fresh (segEmit r1 z r.n))) ∧
        ((i + 1) % segLen r.n x ≠ 0 → i + 1 ≠ r.n →
          RunAnswers (.hashSegment p) s p
            (hashFire 65535 (afterRun (s.dev.pier p) s.dev.now s.dev.fresh r1) s.dev.now s.dev.fresh))))) ∧
  -- R178 and R179: XLAT looks nonets up or moves them; LTAB takes a table for its owner and loads four nonets of it, and
  -- leaves every other table.
  ((∀ (p : Fin 16) s r x i, firing (s.dev.pier p) 0x24 = some (r, x, i) → x.p 0 ≠ 6 →
      Emits (.xlatFire p) s p 0x24 r x i
        (xlatOp (s.dev.pier p).runs.xlat (if r.fix.user then (r.fix.tag.extractLsb' 16 6).setWidth 7 else 64#7) (x.p 0).toNat
          (x.p 4) (x.p 5) (r.operand x 0) (r.operand x 1))) ∧
    (∀ (p : Fin 16) s r x i, firing (s.dev.pier p) 0x24 = some (r, x, i) → x.p 0 = 6 →
      let P := s.dev.pier p
      let t := (x.p 4).toNat % 8
      AnswersWith (.xlatFire p) s (fun d =>
        (∀ j, j ≠ t → (d.pier p).runs.xlat[j]? = P.runs.xlat[j]?) ∧
        ∀ q, P.runs.xlat[t]? = some q → ∃ y, (d.pier p).runs.xlat[t]? = some y ∧
          y.owner = (if r.fix.user then (r.fix.tag.extractLsb' 16 6).setWidth 7 else 64#7) ∧
          (128 ≤ i → y.tab = q.tab) ∧
          (i < 128 → r.rubbleIn x = false → y.tab = q.tab.setList (4 * i) ((List.range 4).map (nonetOf (r.operand x 0)))))))

/-- R114 and R128: a write of PR_RUN_CTL: CLROVF, ACKF and ACKR clear their fields; ABORT ends the executing run, discards the
queued one and reports it where no report waits. A pier in reset or OFF takes no write (the model's choice, log 69). -/
def Obligations.RunControlWrites : Prop :=
  (∀ (p : Fin 16) (v : DW) s i, (i = .prRunCtlAckr p v ∨ i = .prRunCtlAckf p v ∨ i = .prRunCtlClrovf p v ∨ i = .prRunCtlAbort p v) →
    s.dev.reachable p = false → Answers i s s.dev) ∧
  (∀ (p : Fin 16) (v : DW) s i, (i = .prRunCtlAckr p v ∨ i = .prRunCtlAckf p v ∨ i = .prRunCtlClrovf p v ∨ i = .prRunCtlAbort p v) →
    s.dev.reachable p = true →
    let P := s.dev.pier p
    v.getLsbD 0 = false ∨ P.runs.exec = none →
    RunAnswers i s p { P with runs := { P.runs with
      ovf := P.runs.ovf && !v.getLsbD 3
      rcause := if v.getLsbD 2 then 0 else P.runs.rcause
      rword := if v.getLsbD 2 then 0 else P.runs.rword
      rout := if v.getLsbD 1 then 0 else P.runs.rout
      unit := if v.getLsbD 1 then 0 else P.runs.unit
      index := if v.getLsbD 1 then 0 else P.runs.index } }) ∧
  (∀ (p : Fin 16) (v : DW) s r, s.dev.reachable p = true → v.getLsbD 0 = true → (s.dev.pier p).runs.exec = some r →
    AnswersWith (.prRunCtlAbort p v) s (fun d =>
      (d.pier p).runs.exec = none ∧ (d.pier p).runs.queued = none ∧ (d.pier p).runs.keySlots = [] ∧
      ((s.dev.pier p).runs.rout = 0 ∨ v.getLsbD 1 = true → (d.pier p).runs.rout = 2 ∧ (d.pier p).runs.unit = 0 ∧
        (d.pier p).runs.index = BitVec.ofNat 16 (abortIndex r)) ∧
      ((s.dev.pier p).runs.rout ≠ 0 → v.getLsbD 1 = false → (d.pier p).runs.ovf = true) ∧
      (d.pier p).mem = (s.dev.pier p).mem ∧ (d.pier p).core = (s.dev.pier p).core))

/-! ### Banks, quarry and background work -/

/-- R275, R280 and R290: a write at an address of a sparse memory is read back there, and every other address reads as
before; the canonical form stays. -/
def Obligations.SparseMemoryReadAfterWrite : Prop :=
  ∀ (w : Nat) (m : SMem w) (a : Nat) (x : BitVec w), m.wf = true →
    (m.set a x).wf = true ∧ (m.set a x).get a = x ∧ (∀ b, b ≠ a → (m.set a x).get b = m.get b) ∧
    (∀ lo hi, (m.clear lo hi).wf = true ∧ ∀ b, (m.clear lo hi).get b = if lo ≤ b ∧ b < hi then 0 else m.get b)

/-- R274 and R456: the check bits of a bank word bring every word back, and mark a single wrong bit as corrected. -/
def Obligations.BankCodewordCorrectsOneBit : Prop :=
  ∀ (w : Word) (i : Nat), i < 43 →
    eccDecode (eccEncode w) = (.clean, w) ∧
    (eccDecode (eccEncode w ^^^ (1#43 <<< i))) = (.corrected, w)

/-- R269 and R278 to R285: ownership and its scour; retirement, retention, wake and lock of a bank. -/
def Obligations.BankOwnershipAndRetention : Prop :=
  -- R278 to R281, R269 and R285: a write of PR_BANK_OWN hands the bank over, and the new owner starts a scour where the
  -- content is another's; a refused owner sets CFG_ERR and nothing else, and the owner that the bank has changes
  -- nothing. A pier in reset or OFF takes no write (the model's choice, log 69).
  ((∀ (p b : Fin 16) (v : DW) s, s.dev.reachable p = false → Answers (.prBankOwnWrite p b v) s s.dev) ∧
    ∀ (p b : Fin 16) (v : DW) s, s.dev.reachable p = true →
      let P := s.dev.pier p
      let o := v.setWidth 7
      let refused := (66 ≤ o.toNat ∧ o.toNat ≤ 126) ∨ (P.regs.retire.getLsbD b.val = true ∧ o ≠ 0x7F#7) ∨
        (b = 0 ∧ P.core.run ≠ .reset ∧ o ≠ 0x40#7)
      (refused → Answers (.prBankOwnWrite p b v) s
        (s.dev.setPier p { P with regs := { P.regs with prErr := true } })) ∧
      (¬ refused → o = P.mem.bank[b].owner → Answers (.prBankOwnWrite p b v) s s.dev) ∧
      (¬ refused → o ≠ P.mem.bank[b].owner → AnswersWith (.prBankOwnWrite p b v) s (fun d =>
        (d.pier p).mem.bank[b].owner = o ∧
        (d.pier p).mem.bank[b].scour = (P.mem.bank[b].scour || decide (o.toNat ≤ 65 ∧ o ≠ P.mem.bank[b].content)) ∧
        (d.pier p).mem.bank[b].content = (if o.toNat ≤ 65 then o else P.mem.bank[b].content) ∧
        (d.pier p).mem.lockOn ≠ some (BitVec.ofFin b) ∧
        (d.pier p).mem.banks = P.mem.banks ∧ (d.pier p).mem.quarry = P.mem.quarry ∧
        ∀ c : Fin 16, c ≠ b → (d.pier p).mem.bank[c] = P.mem.bank[c]))) ∧
  -- R280: a scour ends with every word of its bank zero, and leaves every other bank; where none runs nothing changes.
  ((∀ (p b : Fin 16) s, (s.dev.pier p).mem.bank[b].scour = false → Answers (.bankScourEnd p b) s s.dev) ∧
    ∀ (p b : Fin 16) s, (s.dev.pier p).mem.bank[b].scour = true →
      AnswersWith (.bankScourEnd p b) s (fun d =>
        (d.pier p).mem.bank[b].scour = false ∧
        (∀ a, a / 0x20000 = b.val → (d.pier p).mem.banks.get a = 0) ∧
        (∀ a, a / 0x20000 ≠ b.val → (d.pier p).mem.banks.get a = (s.dev.pier p).mem.banks.get a) ∧
        (d.pier p).mem.quarry = (s.dev.pier p).mem.quarry ∧ (d.pier p).core = (s.dev.pier p).core)) ∧
  -- R283 to R285: retirement, retention, wake and lock, and when each of them changes nothing.
  ((∀ (p : Fin 16) (v : DW) s, s.dev.reachable p = false → Answers (.prBankRetireWrite p v) s s.dev) ∧
    (∀ (p : Fin 16) (v : DW) s, s.dev.reachable p = true →
      let P := s.dev.pier p
      let new := v.setWidth 16 &&& 0xFFFE#16
      AnswersWith (.prBankRetireWrite p v) s (fun d =>
        (d.pier p).regs.retire = P.regs.retire ||| new ∧
        (d.pier p).regs.prErr = (P.regs.prErr || v.getLsbD 0) ∧
        ∀ b : Fin 16, new.getLsbD b.val = true → P.regs.retire.getLsbD b.val = false →
          (d.pier p).mem.bank[b].owner = 0x7F#7 ∧ (d.pier p).mem.bank[b].retn = .retained)) ∧
    (∀ (p b : Fin 16) s,
      let P := s.dev.pier p
      let k := P.mem.bank[b]
      let idle := P.awake = true ∧ P.regs.reten.getLsbD b.val = true ∧ k.retn = .awake ∧
        k.lastUse + P.regs.idle.toNat ≤ s.dev.now ∧ k.scour = false ∧ P.mem.lockOn ≠ some (BitVec.ofFin b) ∧
        runUses P s.dev.now b = false
      (idle → Answers (.bankRetentionEntry p b) s (s.dev.setPier p (P.onBank b (fun k => { k with retn := .retained })))) ∧
      (¬ idle → Answers (.bankRetentionEntry p b) s s.dev)) ∧
    (∀ (p b : Fin 16) s,
      (s.dev.pier p).mem.bank[b].retn ≠ .waking ∨ s.dev.now < (s.dev.pier p).mem.bank[b].lastUse + 50 →
      Answers (.bankWake p b) s s.dev) ∧
    (∀ (p : Fin 16) s, (∀ b, (s.dev.pier p).mem.lockWait = some b →
        (s.dev.pier p).runs.exec.any (fun r => (runBanks (s.dev.pier p) s.dev.now r).contains b.toFin) = true) →
      Answers (.bankLockStart p) s s.dev) ∧
    (∀ (p : Fin 16) s, (s.dev.pier p).mem.lockOn = none → Answers (.bankLockTimeout p) s s.dev) ∧
    (∀ (p b : Fin 16) s, (s.dev.pier p).mem.bank[b].retn = .waking → (s.dev.pier p).mem.bank[b].lastUse + 50 ≤ s.dev.now →
      Answers (.bankWake p b) s
        (s.dev.setPier p ((s.dev.pier p).onBank b (fun k => { k with retn := .awake, lastUse := s.dev.now })))) ∧
    (∀ (p : Fin 16) b s,
      let P := s.dev.pier p
      P.mem.lockWait = some b → P.runs.exec.any (fun r => (runBanks P s.dev.now r).contains b.toFin) = false →
      Answers (.bankLockStart p) s (s.dev.setPier p { P with
        mem := { P.mem with lockOn := some b, lockWait := none }
        core := { P.core with lock := 16#5 + b.setWidth 5 } })) ∧
    (∀ (p : Fin 16) b s, (s.dev.pier p).mem.lockOn = some b →
      AnswersWith (.bankLockTimeout p) s (fun d =>
        (d.pier p).mem.lockOn = none ∧ (d.pier p).core.lock = (s.dev.pier p).core.lock &&& 0x0F#5 ∧
        (d.pier p).detq = (s.dev.pier p).detq ++ [mkDetection 0x0B 0 b.toNat 0])))

/-- R275, R289, R290 and R461 to R463: write-backs, lines, pointing reads and laps, refresh, retraining, calibration and wear levelling. -/
def Obligations.BackgroundMemoryWork : Prop :=
  -- R275, R289 and R290: a corrected word is written back; a line read corrects its line, or reports one that it cannot
  -- correct; a merged line is written out and leaves the buffer. A locked bank holds a write-back, and one whose word
  -- reads otherwise by now is dropped; a channel in self-refresh moves no line.
  ((∀ (p : Fin 16) (addr : BitVec 21) s,
      let P := s.dev.pier p
      (P.mem.lockOn = some (BitVec.ofFin (bankOf addr.toNat)) ∨ addr.toNat ∉ P.mem.wback →
        Answers (.correctionWriteBack p addr) s s.dev) ∧
      (P.mem.lockOn ≠ some (BitVec.ofFin (bankOf addr.toNat)) → addr.toNat ∈ P.mem.wback →
        (eccDecode (P.mem.banks.get addr.toNat)).1 ≠ .corrected →
        Answers (.correctionWriteBack p addr) s (s.dev.setPier p { P with
          mem := { P.mem with wback := P.mem.wback.filter (· ≠ addr.toNat) } }))) ∧
    (∀ (p : Fin 16) (l : BitVec 25) m s,
      (s.dev.pier p).mem.selfRefresh = true ∨ (∃ e ∈ (s.dev.pier p).mem.merge, e.line = l.toNat) →
      Answers (.quarryReadCompletion p l m) s s.dev) ∧
    (∀ (p : Fin 16) (l : BitVec 25) s,
      (s.dev.pier p).mem.selfRefresh = true ∨ (∀ e ∈ (s.dev.pier p).mem.merge, e.line ≠ l.toNat) →
      Answers (.mergeBufferWriteOut p l) s s.dev) ∧
    (∀ (p : Fin 16) (l : BitVec 25) s e,
      let P := s.dev.pier p
      P.mem.selfRefresh = false → P.mem.merge.find? (fun x => x.line = l.toNat) = some e →
      Answers (.mergeBufferWriteOut p l) s (s.dev.setPier p
        (hbmWrite { P with mem := { P.mem with merge := P.mem.merge.filter (fun x => x.line ≠ l.toNat) } } l.toNat
          (if e.poison then linePoison e.words else lineEncode e.words)))) ∧
    (∀ (p : Fin 16) (addr : BitVec 21) s w,
      let P := s.dev.pier p
      P.mem.lockOn ≠ some (BitVec.ofFin (bankOf addr.toNat)) → addr.toNat ∈ P.mem.wback →
      eccDecode (P.mem.banks.get addr.toNat) = (.corrected, w) →
      Answers (.correctionWriteBack p addr) s (s.dev.setPier p { P with
        mem := { P.mem with
          banks := P.mem.banks.set addr.toNat (eccEncode w), wback := P.mem.wback.filter (· ≠ addr.toNat) } })) ∧
    (∀ (p : Fin 16) (l : BitVec 25) m s n c,
      let P := s.dev.pier p
      P.mem.selfRefresh = false → (∀ e ∈ P.mem.merge, e.line ≠ l.toNat) →
      lineDecode (P.mem.quarry.get l.toNat) = (.corrected n, c) →
      Answers (.quarryReadCompletion p l m) s (s.dev.setPier p { P with
        mem := { P.mem with quarry := P.mem.quarry.set l.toNat c }
        detq := P.detq ++ [mkDetection 0x04 0 l.toNat n] })) ∧
    (∀ (p : Fin 16) (l : BitVec 25) m s,
      let P := s.dev.pier p
      P.mem.selfRefresh = false → (∀ e ∈ P.mem.merge, e.line ≠ l.toNat) →
      ((lineDecode (P.mem.quarry.get l.toNat)).1 = .clean ∨ (lineDecode (P.mem.quarry.get l.toNat)).1 = .poison →
        Answers (.quarryReadCompletion p l m) s s.dev) ∧
      ((lineDecode (P.mem.quarry.get l.toNat)).1 = .uncorrectable →
        Answers (.quarryReadCompletion p l m) s
          (s.dev.setPier p { P with detq := P.detq ++ [mkDetection 0x05 0 l.toNat (masterCode m)] }))) ∧
    (∀ (p : Fin 16) (l : BitVec 25) s e,
      let P := s.dev.pier p
      P.mem.selfRefresh = false → P.mem.merge.find? (fun x => x.line = l.toNat) = some e → P.regs.injLine ≠ l →
      Answers (.mergeBufferWriteOut p l) s (s.dev.setPier p { P with
        mem := { P.mem with
          merge := P.mem.merge.filter (fun x => x.line ≠ l.toNat)
          quarry := P.mem.quarry.set l.toNat (if e.poison then linePoison e.words else lineEncode e.words) } }))) ∧
  -- R461 and R462: a pointing read of a good word or line counts its place in the lap, whose last place ends the lap and
  -- records its time; a lap past its limit is reported once. A read in PAUSE, of a pier that is not awake, of a retired,
  -- scoured, waking or locked bank, or of a channel in self-refresh does nothing, and one of a bank in retention wakes
  -- it.
  ((∀ (p : Fin 16) loc s, (s.dev.pier p).awake = false ∨ (s.dev.pier p).regs.pause = true → Answers (.pointingRead p loc) s s.dev) ∧
    (∀ (p : Fin 16) (a : BitVec 21) s,
      let P := s.dev.pier p
      let b := bankOf a.toNat
      let out := P.regs.retire.getLsbD b.val = true ∨ P.mem.bank[b].scour = true ∨ P.mem.bank[b].retn = .waking ∨
        P.mem.lockOn = some (BitVec.ofFin b)
      (out → Answers (.pointingRead p (.bank a)) s s.dev) ∧
      (¬ out → P.awake = true → P.regs.pause = false → P.mem.bank[b].retn = .retained →
        Answers (.pointingRead p (.bank a)) s (s.dev.setPier p (P.onBank b (fun k => { k with retn := .waking, lastUse := s.dev.now }))))) ∧
    (∀ (p : Fin 16) (l : BitVec 25) s, (s.dev.pier p).mem.selfRefresh = true → Answers (.pointingRead p (.line l)) s s.dev) ∧
    (∀ (p : Fin 16) s,
      let P := s.dev.pier p
      (P.lapB.overdue = true ∨ P.lapB.ticks ≤ P.lapB.limit.toNat → Answers (.pointingLapOverdue p false) s s.dev) ∧
      (P.lapQ.overdue = true ∨ P.lapQ.ticks ≤ P.lapQ.limit.toNat → Answers (.pointingLapOverdue p true) s s.dev)) ∧
    (∀ (p : Fin 16) (a : BitVec 21) s w,
      let P := s.dev.pier p
      let b := bankOf a.toNat
      P.awake = true → P.regs.pause = false → P.regs.retire.getLsbD b.val = false → P.mem.bank[b].scour = false →
      P.mem.bank[b].retn = .awake → P.mem.lockOn ≠ some (BitVec.ofFin b) →
      eccDecode (P.mem.banks.get a.toNat) = (.clean, w) →
      Answers (.pointingRead p (.bank a)) s (s.dev.setPier p { P with
        lapB := if P.lapB.count + 1 < bankLapWords P then { P.lapB with count := P.lapB.count + 1 }
          else { P.lapB with count := 0, ticks := 0, overdue := false, last := BitVec.ofNat 32 (min P.lapB.ticks 0xFFFFFFFF) } })) ∧
    (∀ (p : Fin 16) (l : BitVec 25) s,
      let P := s.dev.pier p
      P.awake = true → P.regs.pause = false → P.mem.selfRefresh = false → (∀ e ∈ P.mem.merge, e.line ≠ l.toNat) →
      (lineDecode (P.mem.quarry.get l.toNat)).1 = .clean →
      Answers (.pointingRead p (.line l)) s (s.dev.setPier p { P with
        lapQ := if P.lapQ.count + 1 < 33554432 then { P.lapQ with count := P.lapQ.count + 1 }
          else { P.lapQ with count := 0, ticks := 0, overdue := false, last := BitVec.ofNat 32 (min P.lapQ.ticks 0xFFFFFFFF) } })) ∧
    (∀ (p : Fin 16) s,
      let P := s.dev.pier p
      (P.lapB.overdue = false → P.lapB.limit.toNat < P.lapB.ticks →
        Answers (.pointingLapOverdue p false) s (s.dev.setPier p { P with
          lapB := { P.lapB with overdue := true }, detq := P.detq ++ [mkDetection 0x14 0 0 0] })) ∧
      (P.lapQ.overdue = false → P.lapQ.limit.toNat < P.lapQ.ticks →
        Answers (.pointingLapOverdue p true) s (s.dev.setPier p { P with
          lapQ := { P.lapQ with overdue := true }, detq := P.detq ++ [mkDetection 0x14 0 1 0] })))) ∧
  -- R463: refresh, retraining, calibration and wear levelling; before their time, in self-refresh, and for a sector that
  -- is retired or in no region, nothing changes.
  ((∀ (p : Fin 16) s, (s.dev.pier p).mem.selfRefresh = true → Answers (.hbmRefresh p) s s.dev) ∧
    (∀ (p : Fin 16) s, (s.dev.pier p).mem.trained = false ∨ s.dev.now < (s.dev.pier p).mem.retrainAt + 5000000 →
      Answers (.phyRetraining p) s s.dev) ∧
    (∀ s, s.dev.now < s.dev.fc.calAt + 25000000 → Answers .sensorCalibration s s.dev) ∧
    (∀ sector g s, s.dev.flash.region sector = none ∨ s.dev.flash.badSectors.contains sector = true →
      Answers (.wearLevellingErase sector g) s s.dev) ∧
    (∀ (p : Fin 16) s, (s.dev.pier p).mem.selfRefresh = false →
      Answers (.hbmRefresh p) s (s.dev.onPier p (fun P => { P with mem := { P.mem with refreshAt := s.dev.now } }))) ∧
    (∀ (p : Fin 16) s, (s.dev.pier p).mem.trained = true → (s.dev.pier p).mem.retrainAt + 5000000 ≤ s.dev.now →
      Answers (.phyRetraining p) s (s.dev.onPier p (fun P => { P with mem := { P.mem with retrainAt := s.dev.now } }))) ∧
    (∀ s, s.dev.fc.calAt + 25000000 ≤ s.dev.now →
      Answers .sensorCalibration s { s.dev with fc := { s.dev.fc with calAt := s.dev.now } }) ∧
    (∀ sector s r, s.dev.flash.region sector = some r → s.dev.flash.badSectors.contains sector = false →
      assocGet s.dev.flash.erases sector 0 + 1 < 80000 →
      Answers (.wearLevellingErase sector true) s { s.dev with
        flash := { s.dev.flash with
          erases := assocSet s.dev.flash.erases sector (assocGet s.dev.flash.erases sector 0 + 1) } }) ∧
    (∀ sector s r, s.dev.flash.region sector = some r → s.dev.flash.badSectors.contains sector = false →
      80000 ≤ assocGet s.dev.flash.erases sector 0 + 1 →
      AnswersWith (.wearLevellingErase sector true) s (fun d => d.flash.badSectors = s.dev.flash.badSectors ++ [sector])) ∧
    (∀ sector s r, s.dev.flash.region sector = some r → s.dev.flash.badSectors.contains sector = false →
      AnswersWith (.wearLevellingErase sector false) s (fun d => d.flash.badSectors = s.dev.flash.badSectors ++ [sector] ∧
        mkDetection 0x21 22 sector (Config.flashRegion r.1).toNat ∈ d.fc.detq)))

/-- R459: the checker's window of a pier that is not in reset or OFF, in TEST, on a bank that it owns: a raw write stores the codeword as given, a raw read gives it
back, a decoded read reports how it decodes; elsewhere the command is refused and nothing else changes; of another agent it is
ignored. -/
def Obligations.CheckerWindow : Prop :=
  ∀ (p : Fin 16) s,
    let P := s.dev.pier p
    let a := P.regs.chkAddr.toNat
    s.dev.reachable p = true →
    (s.dev.life.op = .test → P.mem.bank[bankOf a].owner = 65#7 → P.mem.bank[bankOf a].scour = false → P.mem.banks.wf = true →
      AnswersWith (.rawWrite p .host) s (fun d =>
        (d.pier p).mem.banks.get a = P.regs.chkChk ++ P.regs.chkD1 ++ P.regs.chkD0 ∧
        (∀ x, x ≠ a → (d.pier p).mem.banks.get x = P.mem.banks.get x) ∧
        (d.pier p).regs = { P.regs with chkRefused := false, chkDone := true }) ∧
      AnswersWith (.rawRead p .host) s (fun d =>
        (d.pier p).regs = { P.regs with
          chkChk := (P.mem.banks.get a).extractLsb' 36 7, chkD1 := (P.mem.banks.get a).extractLsb' 32 4
          chkD0 := (P.mem.banks.get a).extractLsb' 0 32, chkRefused := false, chkDone := true } ∧
        (d.pier p).mem.banks = P.mem.banks) ∧
      (∀ w, eccDecode (P.mem.banks.get a) = (.clean, w) →
        AnswersWith (.decodedRead p .host) s (fun d =>
          (d.pier p).regs = { P.regs with
            chkD1 := w.extractLsb' 32 4, chkD0 := w.extractLsb' 0 32, chkRes := 0, chkRefused := false, chkDone := true }))) ∧
    (∀ i, (i = .rawWrite p .host ∨ i = .rawRead p .host ∨ i = .decodedRead p .host) →
      s.dev.life.op ≠ .test →
      Answers i s (s.dev.setPier p { P with regs := { P.regs with chkRefused := true } })) ∧
    (∀ i, (i = .rawWrite p .host ∨ i = .rawRead p .host ∨ i = .decodedRead p .host) →
      s.dev.life.op = .test → P.mem.bank[bankOf a].owner ≠ 65#7 →
      AnswersWith i s (fun d => d.pier p = { P with regs := { P.regs with chkRefused := true } } ∧ ∀ q, q ≠ p → d.pier q = s.dev.pier q)) ∧
    (∀ r w, eccDecode (P.mem.banks.get a) = (r, w) → s.dev.life.op = .test → P.mem.bank[bankOf a].owner = 65#7 →
      P.mem.bank[bankOf a].scour = false →
      AnswersWith (.decodedRead p .host) s (fun d => (d.pier p).regs.chkDone = true ∧ (d.pier p).regs.chkRefused = false ∧
        (d.pier p).regs.chkRes = (match r with
          | .clean => 0
          | .corrected => 1
          | .poison => 2
          | .uncorrectable => 3))) ∧
    (∀ i by_, by_ ≠ .host → (i = .rawWrite p by_ ∨ i = .rawRead p by_ ∨ i = .decodedRead p by_) → Answers i s s.dev)

/-! ### The hod, rings and items -/

/-- R41 and R347 to R352: posting, suspension and resumption; the start of a ticket, with what a reserved encoding, a wrong length
and a fault give; the end of a segment, outbound and inbound; and how a ticket ends. -/
def Obligations.HodTicketsRun : Prop :=
  -- R351: a ticket is queued, or OVF rises; SUSP suspends at once where no ticket runs; RESUME ends the suspension.
  (∀ (p : Fin 16) (v : DW) s,
    let P := s.dev.pier p
    (s.dev.reachable p = false → Answers (.prHodPost p v) s s.dev ∧ Answers (.prHodCtlSusp p v) s s.dev ∧
      Answers (.prHodCtlResume p v) s s.dev) ∧
    (s.dev.reachable p = true →
      (P.hod.queue.length + P.hod.cur.toList.length < 16 → Answers (.prHodPost p v) s
        (s.dev.setPier p { P with hod := { P.hod with queue := P.hod.queue ++ [⟨v.extractLsb' 6 15, false⟩] } })) ∧
      (16 ≤ P.hod.queue.length + P.hod.cur.toList.length → Answers (.prHodPost p v) s
        (s.dev.setPier p { P with hod := { P.hod with ovf := true } })) ∧
      let asked : Bool := v.getLsbD 0 && !P.hod.suspd
      let now : Bool := asked && P.hod.cur.isNone
      let Q := { P with
        hod := { P.hod with suspd := (P.hod.suspd || now) && !v.getLsbD 1, suspReq := (P.hod.suspReq || asked) && !now }
        core := { P.core with ipend := if now then P.core.ipend ||| 2#9 else P.core.ipend } }
      Answers (.prHodCtlSusp p v) s (s.dev.setPier p Q) ∧ Answers (.prHodCtlResume p v) s (s.dev.setPier p Q))) ∧
  -- R347, R348 and R350: nothing starts on a hod that is busy, suspended, asleep or without tickets; a ticket's words are
  -- read as its poster, and it runs, waits for a bank, or ends.
  (∀ (p : Fin 16) s, let P := s.dev.pier p
    (P.hod.queue = [] ∨ P.hod.cur.isSome = true ∨ P.hod.suspd = true ∨ P.awake = false) →
    Answers (.hodTicketStart p) s (s.dev.setPier p P)) ∧
  (∀ (p : Fin 16) s t rest,
    let P := s.dev.pier p
    let Q := { P with hod := { P.hod with queue := rest } }
    let a := 64 * t.addr.toNat
    let i : Ident := if t.frontage then .owner 0x40#7 else .supervisor
    let ends (Q : Pier) (iev : Bool) (st cause : Nat) (at_ : Word) : Pier :=
      hodAfter (hodEnd Q s.dev.now t.addr t.frontage iev st cause 0 at_)
    P.hod.queue = t :: rest → P.hod.cur = none → P.hod.suspd = false → P.awake = true →
    (∀ H, ticketWords Q s.dev.now i a 5 = .held H → Answers (.hodTicketStart p) s (s.dev.setPier p P)) ∧
    (∀ k H, ticketWords Q s.dev.now i a 5 = .bus k H →
      Answers (.hodTicketStart p) s (s.dev.setPier p (ends H false 0x02 0x21 (BitVec.ofNat 36 a)))) ∧
    (∀ H, ticketWords Q s.dev.now i a 5 = .rubble H →
      Answers (.hodTicketStart p) s (s.dev.setPier p (ends H false 0x02 0x22 (BitVec.ofNat 36 a)))) ∧
    ∀ head Q1, ticketWords Q s.dev.now i a 5 = .ok head Q1 →
      let w := head.getD 0 0
      let n := (w.extractLsb' 28 4).toNat + 1
      (∀ H, ticketWords Q1 s.dev.now i a (5 + 3 * n) = .held H → Answers (.hodTicketStart p) s (s.dev.setPier p P)) ∧
      (∀ k H, ticketWords Q1 s.dev.now i a (5 + 3 * n) = .bus k H →
        Answers (.hodTicketStart p) s (s.dev.setPier p (ends H false 0x02 0x21 (BitVec.ofNat 36 a)))) ∧
      (∀ H, ticketWords Q1 s.dev.now i a (5 + 3 * n) = .rubble H →
        Answers (.hodTicketStart p) s (s.dev.setPier p (ends H false 0x02 0x22 (BitVec.ofNat 36 a)))) ∧
      ∀ ws Q2, ticketWords Q1 s.dev.now i a (5 + 3 * n) = .ok ws Q2 →
        let w := ws.getD 0 0
        let iev := (ws.getD 2 0).getLsbD 35
        let short := ticketLengths (w.extractLsb' 32 2).toNat (ticketSegs ws n)
        (ticketReserved ws n = true → Answers (.hodTicketStart p) s (s.dev.setPier p (ends Q2 iev 0x11 0 0))) ∧
        (ticketReserved ws n = false → short = false →
          Answers (.hodTicketStart p) s (s.dev.setPier p (ends Q2 iev 0x17 0 0))) ∧
        (ticketReserved ws n = false → short = true →
          Answers (.hodTicketStart p) s (s.dev.setPier p { Q2 with hod := { Q2.hod with cur := some {
            addr := t.addr, frontage := t.frontage, outbound := w.getLsbD 34, pack := w.extractLsb' 32 2,
            tag := w.extractLsb' 0 22, pva := ws.getD 1 0, iev := iev, seg := (w.extractLsb' 24 4).toNat,
            segs := ticketSegs ws n } } }))) ∧
  -- R349, R350 and R354: a segment is read or checked, then written; a fault ends the ticket; the host's reads and writes
  -- carry the ticket's function.
  (∀ (p : Fin 16) rd s, (s.dev.pier p).hod.cur = none → Answers (.hodSegmentDone p rd) s s.dev) ∧
  (∀ (p : Fin 16) rd s c,
    let P := s.dev.pier p
    let f := s.dev.hodFn c.frontage c.tag
    let seg := c.segs.getD c.seg (0, 0)
    let via : HodVia := ⟨hodIdent c.frontage c.tag, if c.frontage then none else some (s.dev.hodCtx P c.tag)⟩
    let d1 := s.dev.readHost f seg.1 seg.2
    P.hod.cur = some c →
    (s.dev.canSend f = false →
      Answers (.hodSegmentDone p rd) s (s.dev.setPier p (hodFault P s.dev.now c 0x20 0))) ∧
    (s.dev.canSend f = true → c.outbound = true →
      (∀ H, hodRead via s.dev.now (packWords c.pack.toNat seg.2) c.segBase P = .held H →
        Answers (.hodSegmentDone p rd) s (s.dev.setPier p H)) ∧
      (∀ k a H, hodRead via s.dev.now (packWords c.pack.toNat seg.2) c.segBase P = .fault k a H →
        Answers (.hodSegmentDone p rd) s (s.dev.setPier p (hodFault H s.dev.now c k a))) ∧
      (∀ ws P1, hodRead via s.dev.now (packWords c.pack.toNat seg.2) c.segBase P = .ok ws P1 →
        Answers (.hodSegmentDone p rd) s ((s.dev.setPier p (hodNext P1 s.dev.now c)).send
          (.write f (.hod p) seg.1 ((packOut c.pack.toNat ws).take seg.2) (s.dev.fn f).relaxed)))) ∧
    (s.dev.canSend f = true → c.outbound = false →
      (∀ e, rd = .err e →
        Answers (.hodSegmentDone p rd) s (d1.setPier p (hodFault P s.dev.now c 0x20 0))) ∧
      (∀ bs, rd = .data bs →
        let dests := hodDests via s.dev.now (packIn c.pack.toNat (fitBytes seg.2 bs)) 0 c.segBase P
        (∀ H, dests = .held H → Answers (.hodSegmentDone p rd) s (s.dev.setPier p H)) ∧
        (∀ k a H, dests = .fault k a H →
          Answers (.hodSegmentDone p rd) s (d1.setPier p (hodFault H s.dev.now c k a))) ∧
        (∀ ws P1 l H, dests = .ok ws P1 → hodPoison ws (groupLines ws) P1 = (some l, H) →
          Answers (.hodSegmentDone p rd) s
            (d1.setPier p (hodFault H s.dev.now c 0x22 (c.segBase + BitVec.ofNat 36 (lineIndex ws l))))) ∧
        (∀ ws P1 H, dests = .ok ws P1 → hodPoison ws (groupLines ws) P1 = (none, H) →
          Answers (.hodSegmentDone p rd) s (d1.setPier p (hodNext (hodStore ws H) s.dev.now c)))))) ∧
  -- R350 to R352: after a segment the next one is due, or the ticket ends with words 3 and 4, vector 17 where it asks for
  -- it or fails, and ENDS.
  (∀ P now (c : HodCur), c.seg + 1 < c.segs.length → P.hod.suspReq = false →
    hodNext P now c = { P with hod := { P.hod with cur := some { c with seg := c.seg + 1 } } }) ∧
  (∀ P now (c : HodCur), c.seg + 1 < c.segs.length → P.hod.suspReq = true →
    hodNext P now c = hodAfter (hodEnd P now c.addr c.frontage c.iev 0x02 0 (c.seg + 1) 0)) ∧
  (∀ P now (c : HodCur), c.seg + 1 = c.segs.length →
    hodNext P now c = hodAfter (hodEnd P now c.addr c.frontage c.iev 0x00 0 0 0)) ∧
  (∀ P now addr fr iev st cause ridx fa v P1,
    let a := 64 * (addr : BitVec 15).toNat
    bankGrant P now (if fr then .owner 0x40#7 else .supervisor) .hod (bankOf a) = .ok v P1 →
    st < 2 ^ 8 → cause < 2 ^ 8 → ridx < 2 ^ 4 →
    let Q := hodEnd P now addr fr iev st cause ridx fa
    Q.mem.banks = (bankStore (bankStore P1 (a + 3)
      (eccEncode (BitVec.ofNat 8 st ++ BitVec.ofNat 8 cause ++ BitVec.ofNat 4 ridx ++ 0#16))) (a + 4) (eccEncode fa)).mem.banks ∧
    Q.hod.cur = none ∧ Q.hod.ends = P.hod.ends + 1 ∧ Q.hod.queue = P.hod.queue ∧
    Q.core.ipend = (if iev = true ∨ st ≠ 0 then P.core.ipend ||| 2#9 else P.core.ipend))

/-- R330 to R333: what a doorbell page's words do to a slot; an entry fetch takes the next ring's turn, and one that a host-side error
ends sets FERR and names the failed entry again. -/
def Obligations.DoorbellsAndFetches : Prop :=
  -- R330, R331, R333, R262 and R263: what a doorbell page's words do to a slot; nothing else of the device changes but
  -- the warden's doorbell interrupt; a slot that takes no write changes nothing.
  ((∀ f (r : Fin 64) (v : DW) s, s.dev.doorbellTaken f = false ∨ s.dev.ringCount f ≤ r.val →
      Answers (.sqtailWrite f r v) s s.dev ∧ Answers (.cqheadWrite f r v) s s.dev ∧ Answers (.ferrClear f r v) s s.dev ∧
      Answers (.ringEnableWrite f r v) s s.dev) ∧
    ∀ f (r : Fin 64) (v : DW) s, s.dev.doorbellTaken f = true → r.val < s.dev.ringCount f →
      let R := s.dev.ring f r
      let rings (g : Ring → Ring) : Dev :=
        (s.dev.onRing f r g).onCore .warden (fun k => { k with ipend := k.ipend ||| 0x40#9 })
      (Answers (.sqtailWrite f r v) s
        (rings (fun R => if v.toNat % 65536 < 2 ^ R.log2sq.toNat then { R with sqTail := v.setWidth 16 }
          else { R with dberr := true }))) ∧
      (isEvent f r.val = false → Answers (.cqheadWrite f r v) s
        (rings (fun R => if v.toNat % 65536 < 2 ^ R.log2cq.toNat then { R with cqHead := v.setWidth 16 }
          else { R with dberr := true }))) ∧
      (isEvent f r.val = true → Answers (.cqheadWrite f r v) s
        (rings (fun R => if v.toNat % 65536 < 2 ^ R.log2sq.toNat then { R with cqHead := v.setWidth 16 }
          else { R with dberr := true }))) ∧
      (Answers (.ferrClear f r v) s
        (s.dev.onRing f r (fun R => { R with
          ferr := R.ferr && !v.getLsbD 31, dberr := R.dberr && !v.getLsbD 30, cfge := R.cfge && !v.getLsbD 29 }))) ∧
      let Q := { R with log2sq := v.extractLsb' 20 5, log2cq := v.extractLsb' 15 5, vec := v.extractLsb' 0 6 }
      (R.en = false → v.getLsbD 31 = false → Answers (.ringEnableWrite f r v) s (s.dev.onRing f r (fun _ => Q))) ∧
      (R.en = false → v.getLsbD 31 = true →
        let starts := 4 ≤ (v.extractLsb' 20 5).toNat ∧ (v.extractLsb' 20 5).toNat ≤ 16 ∧
          (isEvent f r.val = true ∨ (4 ≤ (v.extractLsb' 15 5).toNat ∧ (v.extractLsb' 15 5).toNat ≤ 16)) ∧
          (v.extractLsb' 0 6).toNat < vectorCount f ∧ ((f = .pf1 ∧ r.val = 1) ∨ (s.dev.ring .pf1 1).en = true)
        (starts → Answers (.ringEnableWrite f r v) s (s.dev.onRing f r (fun _ => { Q with
          en := true, sqTail := 0, sqHead := 0, cqHead := 0, cqTail := 0, phase := true, unsig := 0 }))) ∧
        (¬ starts → Answers (.ringEnableWrite f r v) s (s.dev.onRing f r (fun _ => { Q with cfge := true })))) ∧
      (R.en = true → Answers (.ringEnableWrite f r v) s (s.dev.onRing f r (fun R =>
        { R with en := v.getLsbD 31
                 cfge := R.cfge || decide (v.extractLsb' 20 5 ≠ R.log2sq) || decide (v.extractLsb' 15 5 ≠ R.log2cq) ||
                   decide (v.extractLsb' 0 6 ≠ R.vec) })))) ∧
  -- R332 and R333: an entry fetch takes the next ring's turn: SQHEAD advances and reads of up to four entries are sent;
  -- a fetch that a host-side error ends sets FERR, and SQHEAD names the failed entry again; a timeout is such an error,
  -- of an entry, a list or a hod read.
  ((∀ s, s.dev.nextRing = none → Answers .entryFetch s s.dev) ∧
    (∀ s f r, s.dev.nextRing = some (f, r) →
      AnswersWith .entryFetch s (fun d =>
        ∃ n, 1 ≤ n ∧ n ≤ 4 ∧
          (d.ring f r).sqHead.toNat = ((s.dev.ring f r).sqHead.toNat + n) % (s.dev.ring f r).sqDepth % 65536 ∧
          (d.ring f r).fetching.length = (s.dev.ring f r).fetching.length + n ∧
          d.host.out.length = s.dev.host.out.length + n ∧ d.items = s.dev.items)) ∧
    (∀ f r e l1 l2 s, (s.dev.ring f r).fetching = [] →
      Answers (.entryArrival f r e l1 l2) s s.dev ∧ Answers (.completionTimeout (.entry f r)) s s.dev) ∧
    (∀ f r e l1 l2 s i is, (s.dev.ring f r).fetching = i :: is →
      AnswersWith (.entryArrival f r (.err e) l1 l2) s (fun d =>
        (d.ring f r).ferr = true ∧ (d.ring f r).sqHead = i ∧ (d.ring f r).fetching = [] ∧ d.items = s.dev.items) ∧
      AnswersWith (.completionTimeout (.entry f r)) s (fun d =>
        (d.ring f r).ferr = true ∧ (d.ring f r).sqHead = i ∧ (d.ring f r).fetching = [] ∧ d.items = s.dev.items)) ∧
    (∀ f r bs s, exec (.completionTimeout (.list f r bs false)) s = exec (.entryArrival f r (.data bs) (.err .timeout) (.data [])) s ∧
      exec (.completionTimeout (.list f r bs true)) s = exec (.entryArrival f r (.data bs) (.data []) (.err .timeout)) s) ∧
    ∀ p s, exec (.completionTimeout (.hod p)) s = exec (.hodSegmentDone p (.err .timeout)) s)

/-- R325, R336 to R343 and R361: the lists of an entry are read; an entry that passes checks 1 to 7 becomes an item, and its
session's window and count move; one that fails becomes an item with that status, recorded on chain 16, unless no record may be
made or the chain is exhausted. -/
def Obligations.EntryArrivals : Prop :=
  ∀ f r bs l1 l2 s i is, (s.dev.ring f r).fetching = i :: is →
    let dws := entryDws (fitBytes 64 bs)
    let d0 := ((s.dev.onRing f r (fun R => { R with fetching := is })).readList f (inField dws l1)).readList f (outField dws l2)
    let res := entryCheck7 d0 f dws (inField dws l1) (outField dws l2)
    (∀ sess, res = .pass sess → AnswersWith (.entryArrival f r (.data bs) l1 l2) s (fun d =>
      (∃ it, d.items = s.dev.items ++ [it] ∧ it.id = s.dev.nextItem ∧ it.fn = f ∧ it.slot = r.val ∧ it.dws = dws ∧
        it.inSegs = (inField dws l1).segs ∧ it.outSegs = (outField dws l2).segs ∧
        it.stage = (if s.dev.runsOnPier f ((dws.getD 0 0).toNat % 256) then .setter else .warden)) ∧
      d.nextItem = s.dev.nextItem + 1 ∧
      (∀ x, sess = some x → ∀ y ∈ d.sessions, y.num = x.num → y = x) ∧
      (d.ring f r).fetching = is ∧ d.host.out = d0.host.out)) ∧
    (∀ st, res = .fail st → (∀ x ∈ s.dev.items, x.id < s.dev.nextItem) →
      (s.dev.recordsAllowed = true → (s.dev.acceptedHead 16).1 < cseqMax →
        AnswersWith (.entryArrival f r (.data bs) l1 l2) s (fun d =>
          ∃ it, d.items = s.dev.items ++ [it] ∧ it.id = s.dev.nextItem ∧ it.status = BitVec.ofNat 8 st ∧ it.result = 0 ∧
            it.stage = .recorded 16 ((s.dev.acceptedHead 16).1 + 1) ∧ d.audit.recs.length = s.dev.audit.recs.length + 1)) ∧
      (s.dev.recordsAllowed = false → AnswersWith (.entryArrival f r (.data bs) l1 l2) s (fun d =>
        d.items = s.dev.items ∧ d.audit = s.dev.audit)) ∧
      (s.dev.recordsAllowed = true → cseqMax ≤ (s.dev.acceptedHead 16).1 → s.dev.audit.full.contains 16 = false →
        AnswersWith (.entryArrival f r (.data bs) l1 l2) s (fun d =>
          d.items = s.dev.items ∧ d.audit.recs = s.dev.audit.recs ∧ d.life.op = .recovery)) ∧
      (s.dev.recordsAllowed = true → cseqMax ≤ (s.dev.acceptedHead 16).1 → s.dev.audit.full.contains 16 = true →
        AnswersWith (.entryArrival f r (.data bs) l1 l2) s (fun d => d.items = s.dev.items ∧ d.audit = s.dev.audit)))

/-- R343: how the anti-replay window judges a sequence number. A new session refuses 0, an accepted number is refused from then
on, and a session at the highest number accepts none. -/
def Obligations.SequenceNumbersAreJudged : Prop :=
  (∀ (x : Session) (n : Nat), n < 2 ^ 48 →
    let h := x.h.toNat
    (h = 2 ^ 48 - 1 → replayJudge x n = none) ∧
    (h ≠ 2 ^ 48 - 1 → h < n → ∃ y, replayJudge x n = some y ∧ y.h.toNat = n ∧ { y with h := x.h, w := x.w } = x ∧
      ∀ k, k < 256 → y.w.getLsbD k = (decide (k = 0) || (decide (n - h ≤ k) && x.w.getLsbD (k - (n - h))))) ∧
    (h ≠ 2 ^ 48 - 1 → n ≤ h → h - n ≤ 255 → x.w.getLsbD (h - n) = false →
      ∃ y, replayJudge x n = some y ∧ y.h = x.h ∧ { y with w := x.w } = x ∧
        ∀ k, k < 256 → y.w.getLsbD k = (x.w.getLsbD k || decide (k = h - n))) ∧
    (n ≤ h → (255 < h - n ∨ x.w.getLsbD (h - n) = true) → replayJudge x n = none) ∧
    ∀ y, replayJudge x n = some y → replayJudge y n = none) ∧
  ∀ i q m, (paramSession i q m).h = 0 ∧ (paramSession i q m).w = 1 ∧ replayJudge (paramSession i q m) 0 = none

/-- R19, R25, R334, R340, R345, R346, R414, R417 and R510: results, records and completions are written; coalesced messages are
signalled; the MSI-X table is read and written. -/
def Obligations.ItemsCompleteAndSignal : Prop :=
  -- R19, R20, R25, R325, R334, R335, R340, R414, R417 and R436: a finished item's result is written, its record is
  -- delivered into PF1 slot 1, and its completion ends it; what cannot leave the device yet waits.
  (-- R20 and R325: results leave in one posted write per segment, or wait.
    (∀ id s, (∀ i c, s.dev.item? id = some i → i.stage ≠ .result c) → Answers (.itemResultWrite id) s s.dev) ∧
    (∀ id s i c, s.dev.item? id = some i → i.stage = .result c →
      let none' : Prop := i.flr = true ∨ i.output = []
      let out := if i.flr = true then s.dev.host.out
        else s.dev.host.out ++ segWrites i.fn id (s.dev.fn i.fn).relaxed i.outSegs i.output
      (¬ none' → s.dev.canSend i.fn = false → Answers (.itemResultWrite id) s (s.dev.onItem id (fun _ => i))) ∧
      (none' ∨ s.dev.canSend i.fn = true → c.val < 16 → Answers (.itemResultWrite id) s
        (({ s.dev with host := { s.dev.host with out := out } } : Dev).onItem id (fun _ => { i with stage := .record c }))) ∧
      (none' ∨ s.dev.canSend i.fn = true → c.val = 16 → Answers (.itemResultWrite id) s
        (({ s.dev with host := { s.dev.host with out := out } } : Dev).record16 i))) ∧
    -- R417: the oldest accepted record of a chain enters PF1 slot 1 and becomes the head; its item waits for its completion.
    (∀ (c : Fin 17) s, s.dev.audit.recs.find? (fun r => r.chain = c) = none ∨ s.dev.delivering = false ∨
      s.dev.eventRoom 1 1 = false → Answers (.auditRecordWrite c) s s.dev) ∧
    (∀ (c : Fin 17) s x, s.dev.audit.recs.find? (fun r => r.chain = c) = some x → s.dev.delivering = true →
      s.dev.eventRoom 1 1 = true →
      AnswersWith (.auditRecordWrite c) s (fun d =>
        (s.dev.audit.older ≤ s.dev.audit.recs.idxOf x →
          d.ks.head c.val = (s.dev.ks.setHead c.val x.cseq x.mark).head c.val) ∧
        (s.dev.audit.recs.idxOf x < s.dev.audit.older → d.ks = s.dev.ks) ∧
        d.audit.recs = s.dev.audit.recs.erase x ∧
        d.audit.since = s.dev.audit.since.set c.val (s.dev.audit.since.getD c.val 0 + 1) ∧
        .write .pf1 (.audit c.val x.cseq)
          ((s.dev.ring .pf1 1).sqb + BitVec.ofNat 64 (64 * (s.dev.ring .pf1 1).sqHead.toNat)) x.bytes false ∈ d.host.out ∧
        ∀ id i, x.item = some id → s.dev.item? id = some i →
          (i.flr = true ∨ i.drop = true → ∀ y ∈ d.items, y.id ≠ id) ∧
          (i.flr = false → i.drop = false → ∀ y ∈ d.items, y.id = id →
            y.stage = .posted c x.cseq (leNat ((x.bytes.drop 24).take 8))))) ∧
    -- R335: a record that has waited 10 ms is reported once.
    (∀ s t, s.dev.audit.waitAt = some (t, false) → s.dev.audit.recs ≠ [] → s.dev.eventRoom 1 1 = false → t + 250000 ≤ s.dev.now →
      Answers .auditRingFullNotice s { s.dev with
        audit := { s.dev.audit with waitAt := some (t, true) }
        fc := { s.dev.fc with detq := s.dev.fc.detq ++ [mkDetection 0x1C 16 0 0] } }) ∧
    (∀ s, (∀ t, s.dev.audit.waitAt = some (t, false) → s.dev.audit.recs = [] ∨ s.dev.eventRoom 1 1 = true ∨ s.dev.now < t + 250000) →
      Answers .auditRingFullNotice s s.dev) ∧
    -- R334: a completion advances the CQ and ends the item.
    (∀ id s, (∀ i c cseq time, s.dev.item? id = some i → i.stage = .posted c cseq time →
        i.flr = false ∧ i.drop = false ∧ s.dev.mayComplete i = false) → Answers (.completionWrite id) s s.dev) ∧
    (∀ id s i c cseq time, s.dev.item? id = some i → i.stage = .posted c cseq time →
      (i.flr = true ∨ i.drop = true →
        AnswersWith (.completionWrite id) s (fun d => d.host.out = s.dev.host.out ∧ ∀ x ∈ d.items, x.id ≠ i.id)) ∧
      (i.flr = false → i.drop = false → s.dev.mayComplete i = true →
        AnswersWith (.completionWrite id) s (fun d =>
          let r : Fin 64 := ⟨i.slot % 64, Nat.mod_lt _ (by decide)⟩
          let R := s.dev.ring i.fn r
          .write i.fn (.completion i.id) (R.cqb + BitVec.ofNat 64 (32 * R.cqTail.toNat))
            (completionBytes i c.val cseq time R) false ∈ d.host.out ∧
          (d.ring i.fn r).cqTail.toNat = (R.cqTail.toNat + 1) % R.cqDepth % 65536 ∧
          (d.ring i.fn r).phase = (if (R.cqTail.toNat + 1) % R.cqDepth = 0 then !R.phase else R.phase) ∧
          (∀ x ∈ d.items, x.id ≠ i.id))))) ∧
  -- R31, R345, R346 and R510: the coalescing timer signals what waits; MSI-X tables are read and written a DW or two at
  -- a time; a longer read is an Unsupported Request, and so is a write that is not whole.
  ((∀ f r s, ((s.dev.ring f r).unsig = 0 ∨ (s.dev.ring f r).ctime = 0 ∨
        s.dev.now < (s.dev.ring f r).unsigAt + 25 * (s.dev.ring f r).ctime.toNat) →
      Answers (.coalescingTimerExpiry f r) s s.dev) ∧
    (∀ f r s, (s.dev.ring f r).unsig ≠ 0 → (s.dev.ring f r).ctime ≠ 0 →
      (s.dev.ring f r).unsigAt + 25 * (s.dev.ring f r).ctime.toNat ≤ s.dev.now →
      AnswersWith (.coalescingTimerExpiry f r) s (fun d =>
        (d.ring f r).unsig = 0 ∧
        let on : Prop := s.dev.postsAllowed = true ∧ (s.dev.fn f).msixEn = true
        let v := (s.dev.ring f r).vec.toNat
        let e := (s.dev.fn f).msix.toList.getD v {}
        let masked : Prop := e.mask = true ∨ (s.dev.fn f).fmask = true
        (on → ¬ masked → s.dev.canSend f = true → d.host.out = s.dev.host.out ++ [.msix f v e.addr e.data]) ∧
        (¬ on ∨ masked ∨ s.dev.canSend f = false → d.host.out = s.dev.host.out) ∧
        (on → masked → v < 56 → (d.fn f).msix.toList.getD v {} = { e with pend := true }))) ∧
    (∀ f (a : Bar2Access) s,
      let o := a.off.toNat / 4 * 4
      (s.dev.barReached f = false → Answers (.msixTableAccess f a) s s.dev) ∧
      (s.dev.barReached f = true →
        (a.write = false → 2 < a.dws → Answers (.msixTableAccess f a) s
          ({ s.dev with host := { s.dev.host with lastRead := none } }.send (.unsupported f))) ∧
        (a.write = false → a.dws ≤ 1 → Answers (.msixTableAccess f a) s
          { s.dev with host := { s.dev.host with lastRead := some ((s.dev.bar2Read f o).setWidth 64) } }) ∧
        (a.write = false → a.dws = 2 → Answers (.msixTableAccess f a) s
          { s.dev with host := { s.dev.host with lastRead := some (s.dev.bar2Read f (o + 4) ++ s.dev.bar2Read f o) } }) ∧
        (a.write = true → a.full = true → a.dws = 1 → a.off.toNat % 4 = 0 →
          Answers (.msixTableAccess f a) s (s.dev.bar2Write f o (a.value.extractLsb' 0 32))) ∧
        (a.write = true → a.full = true → a.dws = 2 → a.off.toNat % 8 = 0 →
          Answers (.msixTableAccess f a) s
            ((s.dev.bar2Write f o (a.value.extractLsb' 0 32)).bar2Write f (o + 4) (a.value.extractLsb' 32 32))) ∧
        (a.write = true → (a.full = false ∨ (a.dws ≠ 1 ∧ a.dws ≠ 2) ∨ a.off.toNat % (4 * a.dws) ≠ 0) →
          Answers (.msixTableAccess f a) s (s.dev.onFn f (fun F => { F with aer := F.aer ++ [20] }))))) ∧
    (∀ f (n k : Nat) (d : Dev), n < vectorCount f → k < 4 →
      let e := (d.fn f).msix.toList.getD n {}
      d.bar2Read f (16 * n + 4 * k) =
        (if k = 0 then e.addr.extractLsb' 0 32 else if k = 1 then e.addr.extractLsb' 32 32 else if k = 2 then e.data
         else if e.mask then 1 else 0)) ∧
    (∀ f (n k : Nat) (v : DW) (d : Dev), n < vectorCount f → k < 4 → (∀ e ∈ (d.fn f).msix.toList, e.pend = false) → (h : n < 56) →
      d.bar2Write f (16 * n + 4 * k) v = d.onFn f (fun F => { F with msix := F.msix.set n (
        let e := F.msix[n]
        if k = 0 then { e with addr := e.addr.extractLsb' 32 32 ++ v.extractLsb' 2 30 ++ 0#2 }
        else if k = 1 then { e with addr := v ++ e.addr.extractLsb' 0 32 }
        else if k = 2 then { e with data := v } else { e with mask := v.getLsbD 0 }) })))

/-! ### Functions, link, sideband, JTAG -/

/-- R353, R354, R483 and R488: FLR, D3hot and VF Enable; PERST_N, hot reset and the link. -/
def Obligations.FunctionAndLinkResets : Prop :=
  -- R353 and R355: an FLR puts a function's doorbell page, MSI-X state and configuration to their reset values, closes
  -- its sessions and leaves every other function; FR_VFCFG stays; that of PF0 clears VF Enable; D3hot entry does the
  -- same, and a function leaves D3hot in that state; an item of the function ends with HOST_FAULT and RESULT 0x01 at its
  -- next stopping point.
  ((∀ f s, s.dev.cfgReached f = false → Answers (.flr f) s s.dev ∧ Answers (.d3hotEntry f) s s.dev) ∧
    (∀ f s, f ≠ .pf0 → s.dev.cfgReached f = true →
      AnswersWith (.flr f) s (fun d =>
        (∀ r : Fin 64, d.ring f r = {}) ∧ (d.fn f).msixEn = false ∧ (d.fn f).busMaster = false ∧ (d.fn f).memSpace = false ∧
        (d.fn f).ringCnt = (s.dev.fn f).ringCnt ∧ (d.fn f).infl = (s.dev.fn f).infl ∧ (d.fn f).d3 = (s.dev.fn f).d3 ∧
        (∀ x, x ∈ d.sessions ↔ x ∈ s.dev.sessions ∧ x.fn ≠ f) ∧ ∀ g, g ≠ f → d.fn g = s.dev.fn g)) ∧
    (∀ s, s.dev.cfgReached .pf0 = true →
      AnswersWith (.flr .pf0) s (fun d =>
        (∀ r : Fin 64, d.ring .pf0 r = {}) ∧ (d.fn .pf0).msixEn = false ∧ (d.fn .pf0).busMaster = false ∧
        d.host.vfEn = false ∧ ∀ (v : Fin 64) (r : Fin 64), s.dev.fnExists (.vf v) = true → d.ring (.vf v) r = {})) ∧
    (∀ f s, s.dev.cfgReached f = true → (s.dev.fn f).d3 = true → Answers (.d3hotEntry f) s s.dev) ∧
    (∀ f s, s.dev.cfgReached f = true → (s.dev.fn f).d3 = false →
      AnswersWith (.d3hotEntry f) s (fun d => (∀ r : Fin 64, d.ring f r = {}) ∧ (d.fn f).d3 = true ∧ (d.fn f).busMaster = false)) ∧
    (∀ f s, (s.dev.fn f).d3 = false → Answers (.d0Entry f) s s.dev) ∧
    (∀ f s, (s.dev.fn f).d3 = true → AnswersWith (.d0Entry f) s (fun d =>
      (d.fn f).d3 = false ∧ (∀ r : Fin 64, d.ring f r = {}) ∧ (d.fn f).msixEn = false ∧ (d.fn f).busMaster = false ∧
      (d.fn f).memSpace = false ∧ ∀ g, g ≠ f → d.fn g = s.dev.fn g)) ∧
    (∀ s, s.dev.host.vfEn = false → Answers .vfEnableClear s s.dev) ∧
    (∀ s, s.dev.host.vfEn = true → AnswersWith .vfEnableClear s (fun d =>
      d.host.vfEn = false ∧ ∀ (v : Fin 64) (r : Fin 64), s.dev.fnExists (.vf v) = true → d.ring (.vf v) r = {})) ∧
    (∀ id s, (∀ i, s.dev.item? id = some i → i.flr = false ∨ ∃ c n, i.stage = .recorded c n) →
      Answers (.flrItemStop id) s s.dev) ∧
    (∀ id s i, s.dev.item? id = some i → i.flr = true →
      let h := s.dev.acceptedHead 16
      (∀ c n t, i.stage = .posted c n t → AnswersWith (.flrItemStop id) s (fun d =>
        d.audit = s.dev.audit ∧ d.host.out = s.dev.host.out ∧ ∀ x ∈ d.items, x.id ≠ id)) ∧
      (∀ p : Fin 16, i.stage = .pier p ∨ i.stage = .overLimit p ∨ i.stage = .result ⟨p.val, by omega⟩ ∨
          i.stage = .record ⟨p.val, by omega⟩ →
        Answers (.flrItemStop id) s ((s.dev.leaveBatch id).recordPier p i) ∧
        let au := (s.dev.pier p).runs.au0
        (s.dev.recordsAllowed = true → au.cseq < cseqMax → AnswersWith (.flrItemStop id) s (fun d =>
          (d.pier p).runs.au0.cseq = au.cseq + 1 ∧ d.audit.recs.length = s.dev.audit.recs.length + 1 ∧
          ∀ x ∈ d.items, x.id = id → x.status = 0x20 ∧ x.result = 0x01 ∧ x.outLen = 0 ∧
            x.stage = .recorded ⟨p.val, by omega⟩ (au.cseq + 1)))) ∧
      (i.stage = .setter ∨ i.stage = .warden ∨ i.stage = .keyChange ∨ (∃ e k, i.stage = .sealWait e k) ∨ i.stage = .stateWait ∨
          i.stage = .destroyWait ∨ i.stage = .result 16 ∨ i.stage = .record 16 →
        Answers (.flrItemStop id) s ((s.dev.leaveBatch id).endItem16 i 0x20 0) ∧
        (s.dev.recordsAllowed = true → h.1 < cseqMax → AnswersWith (.flrItemStop id) s (fun d =>
          ∀ x ∈ d.items, x.id = id → x.status = 0x20 ∧ x.result = 0x01 ∧ x.outLen = 0 ∧ x.stage = .recorded 16 (h.1 + 1)))))) ∧
  -- R354, R483 and R488: PERST_N, a hot reset and a link that goes down reset every function and the connection; PERST_N
  -- high starts training, and a trained link is up; what finds the link in another state changes nothing.
  ((∀ s, AnswersWith .perstNAssert s (fun d => d.host.perst = true ∧ d.host.link = .down ∧ Unlinked d)) ∧
    (∀ s, s.dev.host.link = .up → AnswersWith .hotReset s (fun d => d.host.link = .training ∧ Unlinked d)) ∧
    (∀ s, s.dev.host.link ≠ .up → Answers .hotReset s s.dev) ∧
    (∀ s, s.dev.host.link ≠ .down → AnswersWith .linkDown s (fun d => d.host.link = .down ∧ Unlinked d)) ∧
    (∀ s, s.dev.host.link = .down → Answers .linkDown s s.dev) ∧
    (∀ s, s.dev.host.perst = true → Answers .perstNRelease s { s.dev with
      host := { s.dev.host with perst := false, link := if s.dev.board.porLow then .down else .training } }) ∧
    (∀ s, s.dev.host.perst = false → Answers .perstNRelease s s.dev) ∧
    (∀ s, s.dev.host.perst = false → s.dev.board.porLow = false →
      Answers .linkUp s { s.dev with host := { s.dev.host with link := .up } }) ∧
    (∀ s, s.dev.host.perst = true ∨ s.dev.board.porLow = true → Answers .linkUp s s.dev))

/-- R324, R325, R346, R353, R355 to R357 and R483: configuration requests, SPDM, an IDE failure and a PTM update. -/
def Obligations.ConfigurationAndSecurity : Prop :=
  -- R483: no answer, a retry, or the effect of the request.
  (∀ f s q, s.dev.host.link ≠ .up ∨ s.dev.fnExists f = false → Answers (.configurationRequest f q) s s.dev) ∧
  (∀ f s q, s.dev.host.link = .up → s.dev.fnExists f = true → s.dev.host.cfgReady = false →
    Answers (.configurationRequest f q) s { s.dev with host := { s.dev.host with lastRead := none } }) ∧
  (∀ f s, s.dev.host.link = .up → s.dev.fnExists f = true → s.dev.host.cfgReady = true →
    let fn (g : Func → Func) : Dev := s.dev.onFn f g
    (∀ r, Answers (.configurationRequest f (.read r)) s { s.dev with
      host := { s.dev.host with lastRead := some (s.dev.cfgRead f r) }, fresh := s.dev.fresh + 1 }) ∧
    (∀ on, Answers (.configurationRequest f (.relaxedOrdering on)) s (fn (fun F => { F with relaxed := on }))) ∧
    (∀ on, Answers (.configurationRequest f (.busMaster on)) s (fn (fun F => { F with busMaster := on }))) ∧
    (∀ on, Answers (.configurationRequest f (.memSpace on)) s (fn (fun F => { F with memSpace := on }))) ∧
    (∀ k v, Answers (.configurationRequest f (.bar k v)) s (fn (fun F => { F with bars := F.bars.set k v }))) ∧
    (∀ c : BitVec 3, Answers (.configurationRequest f (.maxPayload c)) s
      (if c.toNat ≤ 2 then fn (fun F => { F with mps := c }) else s.dev)) ∧
    (∀ c : BitVec 3, Answers (.configurationRequest f (.maxRead c)) s
      (if c.toNat ≤ 5 then fn (fun F => { F with mrrs := c }) else s.dev)) ∧
    (∀ on, Answers (.configurationRequest f (.msixEnable on)) s ((fn (fun F => { F with msixEn := on })).msixFlush f)) ∧
    (∀ on, Answers (.configurationRequest f (.msixMask on)) s ((fn (fun F => { F with fmask := on })).msixFlush f)) ∧
    (∀ n, Answers (.configurationRequest f (.numVfs n)) s
      (if f = .pf0 ∧ s.dev.host.vfEn = false then { s.dev with host := { s.dev.host with numVfs := n } } else s.dev)) ∧
    (∀ on, Answers (.configurationRequest f (.ptmEnable on)) s
      (if f = .pf0 then { s.dev with host := { s.dev.host with ptmEn := on } } else s.dev)) ∧
    (Answers (.configurationRequest f (.vfEnable true)) s
      (if f = .pf0 then { s.dev with host := { s.dev.host with vfEn := true } } else s.dev)) ∧
    (exec (.configurationRequest f (.vfEnable false)) s = (if f = .pf0 then exec .vfEnableClear s else .next s))) ∧
  (∀ d : Dev, d.cfgRead .pf0 .totalVfs = 64 ∧ d.cfgRead .pf0 .vfStride = 1 ∧ d.cfgRead .pf0 .numVfs = d.host.numVfs.setWidth 64 ∧
    ∀ f, d.cfgRead f .noSoftReset = 0 ∧ d.cfgRead f .pmeSupport = 0 ∧ d.cfgRead f .maxRead = (d.fn f).mrrs.setWidth 64 ∧
      d.cfgRead f .maxPayload = (d.fn f).mps.setWidth 64 ∧ d.cfgRead f .busMaster = (if (d.fn f).busMaster then 1 else 0) ∧
      d.cfgRead f .memSpace = (if (d.fn f).memSpace then 1 else 0)) ∧
  -- R356: SPDM requests in the order of the connection; a signature is the audit identity's.
  (∀ s m, s.dev.host.link ≠ .up ∨ s.dev.host.cfgReady = false → Answers (.spdmRequest m) s s.dev) ∧
  (∀ s, s.dev.host.link = .up → s.dev.host.cfgReady = true →
    let x := s.dev.host.spdm
    let n := s.dev.fresh
    let said (x : Spdm) (m : SpdmResp) (k : Nat) : Dev :=
      { s.dev with host := { s.dev.host with spdm := x, out := s.dev.host.out ++ [.spdm m] }, fresh := n + k }
    let sign (kind k : Nat) (host : List Byte) := identitySign s.dev.ks.identity (Config.spdmMessage kind (n + k) host)
    let late (ok : Bool) (d : Dev) : Dev := if ok then d else said x (.error 0x04) 0
    Answers (.spdmRequest .getVersion) s (said { phase := 1, ide := x.ide } .version 0) ∧
    Answers (.spdmRequest .getCapabilities) s (late (x.phase ≠ 0) (said { x with phase := 2 } .capabilities 0)) ∧
    (∀ ok, Answers (.spdmRequest (.negotiateAlgorithms ok)) s (late (2 ≤ x.phase) (said { x with phase := if ok then 3 else 2 }
      (.algorithms (if ok then [.ecdsaP384, .sha384, .ecdheP384, .aes256Gcm] else [])) 0))) ∧
    Answers (.spdmRequest .getDigests) s (late (3 ≤ x.phase) (said x (.digests (sha384 s.dev.flash.cert)) 0)) ∧
    (∀ off len, Answers (.spdmRequest (.getCertificate off len)) s
      (late (3 ≤ x.phase) (said x (.certificate ((s.dev.flash.cert.drop off).take len)) 0))) ∧
    (∀ nonce, Answers (.spdmRequest (.challenge nonce)) s (late (3 ≤ x.phase) (said x (.challengeAuth (sign 0 0 nonce)) 1))) ∧
    (∀ nonce, Answers (.spdmRequest (.getMeasurements nonce)) s (late (3 ≤ x.phase)
      (said x (.measurements Config.bootRomDigest s.dev.ks.root s.dev.ks.root (sign 1 0 nonce)) 1))) ∧
    (∀ pub, Answers (.spdmRequest (.keyExchange pub)) s (late (3 ≤ x.phase)
      (let e := (Config.free 384 n).toNat
       said { x with kx := true, session := false, transcript := pub,
                     secret := ecdhX p384 e (beNat (pub.take 48)) (beNat ((pub.drop 48).take 48)) }
        (.keyExchangeRsp (ecPublic p384 e) (sign 2 1 pub)) 2))) ∧
    (∀ v, Answers (.spdmRequest (.finish v)) s (late (x.kx && Config.spdmVerify x.secret x.transcript v)
      (said { x with session := true } .finishRsp 0))) ∧
    Answers (.spdmRequest .endSession) s (late x.session
      (said { x with session := false, kx := false, secret := [] } .endSessionAck 0)) ∧
    (∀ k key, Answers (.spdmRequest (.ideKm k key)) s (late x.session
      (said { x with ide := assocSet x.ide k.val key } .ideKmAck 0))) ∧
    ∀ c, Answers (.spdmRequest (.other c)) s (said x (.error 0x07) 0)) ∧
  -- R333 and R356: an IDE failure stops a ring or is logged; without an IDE stream there is none.
  (∀ r s, s.dev.host.spdm.ide = [] → Answers (.ideIntegrityFailure r) s s.dev) ∧
  (∀ s, s.dev.host.spdm.ide ≠ [] → Answers (.ideIntegrityFailure none) s
    (s.dev.onFn .pf0 (fun F => { F with aer := F.aer ++ [27] }))) ∧
  (∀ f r s, s.dev.host.spdm.ide ≠ [] → AnswersWith (.ideIntegrityFailure (some (f, r))) s (fun d =>
    (d.ring f r).ferr = true ∧ (d.ring f r).fetching = [] ∧
    (d.ring f r).sqHead = (s.dev.ring f r).fetching.headD (s.dev.ring f r).sqHead ∧
    (d.fn f).aer = (s.dev.fn f).aer ++ [27] ∧ d.items = s.dev.items)) ∧
  -- R357: the pair enters the telemetry stream every 10 ms.
  (∀ m s, s.dev.host.ptmEn = false ∨ s.dev.host.link ≠ .up ∨ s.dev.now < s.dev.host.ptmAt + 250000 →
    Answers (.ptmTimingUpdate m) s s.dev) ∧
  (∀ m s, s.dev.host.ptmEn = true → s.dev.host.link = .up → s.dev.host.ptmAt + 250000 ≤ s.dev.now →
    AnswersWith (.ptmTimingUpdate m) s (fun d =>
      d.host.ptmAt = s.dev.now ∧ d.audit.eseq = s.dev.audit.eseq + 1))

/-- R359, R431, R435, R472, R499, R500, R511 and R512: the steward's commands, before Evoari runs, while it runs and
in the power-fail sequence; the expiry of a KEK component; the bus addresses and the TAP. -/
def Obligations.SidebandAndTap : Prop :=
  -- R263, R358, R359, R431, R435, R472, R511 and R512: what the steward's commands answer and do; a target that does not
  -- answer, a device in its power-fail sequence, and a warden that does not run Evoari yet.
  ((∀ (s : State) (inst code : Byte) (payload : List Byte), s.dev.sidebandAnswers = false →
      Answers (.getState inst payload) s s.dev ∧ Answers (.lowerCap inst payload) s s.dev ∧
      Answers (.stewardKekComponent inst payload) s s.dev ∧ Answers (.stewardHalt inst payload) s s.dev ∧
      Answers (.unknownCommand code inst payload) s s.dev) ∧
    ∀ (s : State) (inst : Byte) (payload : List Byte), s.dev.sidebandAnswers = true →
      let d0 := (s.dev.chooseBus false).onCore .warden (fun k => { k with ipend := k.ipend ||| 0x100#9 })
      let reply (d : Dev) (a : List Byte) : Dev := d.send (.steward Config.vendorId a)
      -- R511: GET_STATE is answered whatever the state.
      (payload = [] → Answers (.getState inst payload) s (reply { d0 with board := { d0.board with alert := false } }
        ([0x00] ++ bytesOf [s.dev.life.life.toNat, if s.dev.fc.halt then 2 else if s.dev.fc.hold then 1 else 0] ++
          leBytes 2 (min s.dev.pw.budget s.dev.pw.scap) ++ bytesOf [s.dev.board.ready.toNat]))) ∧
      (payload ≠ [] → Answers (.getState inst payload) s (reply d0 [0x02])) ∧
      -- R512 and log 15: the other commands in the power-fail sequence, and before Evoari runs.
      (∀ (a : Byte) (code : Byte),
        (s.dev.life.pf ≠ .none ∧ a = 0x03) ∨ (s.dev.life.pf = .none ∧ s.dev.evoariRuns = false ∧ a = 0x04) →
        Answers (.lowerCap inst payload) s (reply d0 [a]) ∧ Answers (.stewardKekComponent inst payload) s (reply d0 [a]) ∧
        Answers (.stewardHalt inst payload) s (reply d0 [a]) ∧
        (code.toNat = 0 ∨ 4 < code.toNat → Answers (.unknownCommand code inst payload) s (reply d0 [a]))) ∧
      (s.dev.life.pf = .none → s.dev.evoariRuns = true →
        -- R359 and R472: LOWER_CAP.
        (payload.length ≠ 2 → Answers (.lowerCap inst payload) s (reply d0 [0x02])) ∧
        (payload.length = 2 →
          (120 ≤ leNat payload → leNat payload ≤ s.dev.cap → AnswersWith (.lowerCap inst payload) s (fun d =>
            d.pw.scap = leNat payload ∧ d.pw.budget = s.dev.pw.budget ∧ d.cap = leNat payload ∧
            d.host.out = s.dev.host.out ++ [.steward Config.vendorId [0x00]])) ∧
          (leNat payload < 120 ∨ s.dev.cap < leNat payload →
            Answers (.lowerCap inst payload) s (reply d0 [0x03]))) ∧
        -- R431 and R435: KEK_COMPONENT, refused in other states, malformed, or judged as the arrival of a component.
        (s.dev.kekStates = false → AnswersWith (.stewardKekComponent inst payload) s (fun d =>
          d.ks.pend = s.dev.ks.pend ∧ d.host.out = s.dev.host.out ++ [.steward Config.vendorId [0x03]])) ∧
        (s.dev.kekStates = true → payload.length < 5 → AnswersWith (.stewardKekComponent inst payload) s (fun d =>
          d.ks.pend = s.dev.ks.pend ∧ d.host.out = s.dev.host.out ++ [.steward Config.vendorId [0x02]])) ∧
        (∀ r d1, s.dev.kekStates = true → 5 ≤ payload.length →
          d0.expireAll.kekArrive (payload.getD 0 0).toNat (payload.getD 1 0).toNat (leNat ((payload.drop 2).take 3)) (payload.drop 5)
            false = (r, d1) →
          AnswersWith (.stewardKekComponent inst payload) s (fun d =>
            d.ks.pend = d1.ks.pend ∧ d.host.out = s.dev.host.out ++ [.steward Config.vendorId
              (match r with
               | .pending => [0x00]
               | .pair v => [0x00] ++ leBytes 3 v
               | .refused c => if c = 1 then [0x02] else [0x03, BitVec.ofNat 8 c])])) ∧
        -- R359 and R414: HALT with its confirmation, and without it.
        (s.dev.chainsUp = true → s.dev.recordsAllowed = true → (s.dev.acceptedHead 16).1 < cseqMax → payload ≠ [0x5A] →
          AnswersWith (.stewardHalt inst payload) s (fun d =>
            d.host.out = s.dev.host.out ++ [.steward Config.vendorId [0x02]] ∧ d.fc.halt = s.dev.fc.halt ∧ d.fc.recs = s.dev.fc.recs ∧
            d.audit.recs.length = s.dev.audit.recs.length + 1)) ∧
        (payload ≠ [0x5A] → AnswersWith (.stewardHalt inst payload) s (fun d =>
          d.host.out = s.dev.host.out ++ [.steward Config.vendorId [0x02]] ∧ d.fc.halt = s.dev.fc.halt)) ∧
        (AnswersWith (.stewardHalt inst [0x5A]) s (fun d =>
          (.steward Config.vendorId [0x00] : Out) ∈ d.host.out ∧
          (s.dev.fc.halt = true ∨ (∀ k, s.dev.openOf 16 = some k → (s.dev.frec k).inShadow = false ∧ (s.dev.frec k).cls.toNat < 4) →
            d.fc.halt = true))) ∧
        (∀ code : Byte, code.toNat = 0 ∨ 4 < code.toNat → Answers (.unknownCommand code inst payload) s (reply d0 [0x01])))) ∧
  -- R415 and R435: a component waits for at most 10 minutes, is then discarded, and the discard is recorded where the
  -- chain is not exhausted.
  ((∀ (q : Fin 64) s e, s.dev.ks.pendOf q.val = some e → e.since + 15000000000 ≤ s.dev.now →
      AnswersWith (.componentExpired q) s (fun d =>
        d.ks.pendOf q.val = none ∧
        d.audit.recs.length = s.dev.audit.recs.length + (if (s.dev.acceptedHead 16).1 < cseqMax then 1 else 0))) ∧
    (∀ (q : Fin 64) s, (∀ e, s.dev.ks.pendOf q.val = some e → s.dev.now < e.since + 15000000000) →
      Answers (.componentExpired q) s s.dev)) ∧
  -- R431, R499 and R500: dynamic addresses of the I3C bus and the TAP's instructions.
  ((∀ (a b : BitVec 7) s, s.dev.board.porLow = true ∨ s.dev.board.sbMode = some false →
      Answers (.setdasa a b) s s.dev ∧ Answers (.entdaa b) s s.dev) ∧
    (∀ (a b : BitVec 7) s, s.dev.board.porLow = false → s.dev.board.sbMode ≠ some false →
      (a = 0x58#7 + s.dev.board.sbAddr.setWidth 7 → s.dev.board.dynAddr = none → Answers (.setdasa a b) s { s.dev with
        board := { s.dev.board with sbMode := some true, dynAddr := some b } }) ∧
      (a ≠ 0x58#7 + s.dev.board.sbAddr.setWidth 7 ∨ s.dev.board.dynAddr ≠ none → Answers (.setdasa a b) s { s.dev with
        board := { s.dev.board with sbMode := some true } }) ∧
      (s.dev.board.dynAddr = none →
        Answers (.entdaa b) s { s.dev with board := { s.dev.board with sbMode := some true, dynAddr := some b } }) ∧
      (s.dev.board.dynAddr ≠ none →
        Answers (.entdaa b) s { s.dev with board := { s.dev.board with sbMode := some true } })) ∧
    (∀ s,
      let tap := fun ir => { s.dev.board with tapReset := false, ir := ir, extest := decide (ir = .extest) }
      Answers .bypass s { s.dev with board := tap .bypass } ∧
      Answers .idcode s ({ s.dev with board := tap .idcode }.send (.tdo 0x15216A3B#32)) ∧
      (∀ bits, Answers (.samplePreload bits) s { s.dev with board := { tap .sample with bsr := bits } }) ∧
      Answers .extest s { s.dev with board := tap .extest } ∧
      (s.dev.life.life = 0 ∨ s.dev.life.life = 4 → AnswersWith .memoryBist s (fun d =>
        d.board.ir = .bist ∧ d.board.bist.isSome = true)) ∧
      (s.dev.life.life ≠ 0 → s.dev.life.life ≠ 4 → Answers .memoryBist s { s.dev with board := tap .bypass }) ∧
      Answers .trstNAssert s { s.dev with board := { s.dev.board with tapReset := true, ir := .idcode, extest := false } }))

/-! ### The setter -/

/-- R361 to R365 and R423: batches close and age; the setter places nothing while it may not, else the first ready batch by the first
rule that applies. -/
def Obligations.BatchesCloseAndArePlaced : Prop :=
  -- R361 and R362: an open batch closes when its window or a deadline hint ends, and a ready batch that has waited 10 ms
  -- has the rank of QoS 15; before that nothing changes.
  ((∀ b s, (∀ x, s.dev.batch? b = some x → s.dev.now < x.oldest + 25 * s.dev.setter.win.toNat) →
      Answers (.batchWindowExpiry b) s s.dev) ∧
    (∀ b s x, s.dev.batch? b = some x → x.oldest + 25 * s.dev.setter.win.toNat ≤ s.dev.now →
      AnswersWith (.batchWindowExpiry b) s (fun d =>
        (∀ y ∈ d.setter.batches, y.id = b → y.state ≠ .gathering) ∧
        (∀ y ∈ s.dev.setter.batches, y.id ≠ b ∨ y.state ≠ .gathering → y ∈ d.setter.batches) ∧
        d.setter.batches.map (·.items) = s.dev.setter.batches.map (·.items) ∧ d.items = s.dev.items)) ∧
    (∀ id s, (∀ i b, s.dev.item? id = some i → s.dev.setter.batches.find? (fun b => b.items.contains id) = some b →
        (i.dw 3).toNat / 65536 = 0 ∨ s.dev.now < i.joined + 25 * min s.dev.setter.win.toNat ((i.dw 3).toNat / 65536 / 2)) →
      Answers (.deadlineHintExpiry id) s s.dev) ∧
    (∀ id s i b, s.dev.item? id = some i → s.dev.setter.batches.find? (fun b => b.items.contains id) = some b →
      (i.dw 3).toNat / 65536 ≠ 0 →
      i.joined + 25 * min s.dev.setter.win.toNat ((i.dw 3).toNat / 65536 / 2) ≤ s.dev.now →
      AnswersWith (.deadlineHintExpiry id) s (fun d =>
        (∀ y ∈ d.setter.batches, y.id = b.id → y.state ≠ .gathering) ∧
        (∀ y ∈ s.dev.setter.batches, y.id ≠ b.id ∨ y.state ≠ .gathering → y ∈ d.setter.batches) ∧ d.items = s.dev.items)) ∧
    (∀ b s, AnswersWith (.batchAging b) s (fun d =>
      (∀ y ∈ d.setter.batches, y.id = b → y.state = .ready → y.readyAt + 250000 ≤ s.dev.now → y.rank = 15) ∧
      (∀ y ∈ s.dev.setter.batches, y.id ≠ b ∨ y.state ≠ .ready ∨ s.dev.now < y.readyAt + 250000 → y ∈ d.setter.batches) ∧
      d.setter.batches.map (·.id) = s.dev.setter.batches.map (·.id) ∧ d.items = s.dev.items))) ∧
  -- R16, R362 to R366, R370, R371 and R423: the setter places nothing while it may not; otherwise it takes the first
  -- ready batch for which a rule applies, and keeps MINAWAKE piers awake; what rules 1 to 3 do.
  ((∀ s, s.dev.placing = false → Answers .batchPlacement s s.dev) ∧
    (∀ s, s.dev.placing = true → s.dev.readyOrder.findSome? s.dev.placeOne = none → Answers .batchPlacement s s.dev.keepAwake) ∧
    (∀ s d, s.dev.placing = true → s.dev.readyOrder.findSome? s.dev.placeOne = some d → Answers .batchPlacement s d.keepAwake) ∧
    (∀ d : Dev, d.setter.minawake = 0 → d.keepAwake = d) ∧
    (∀ s b bs p, s.dev.placing = true → s.dev.readyOrder = b :: bs →
      s.dev.allowed (s.dev.batchParts b) p = true → s.dev.rule1 b = some p → s.dev.fc.inReset.getLsbD p.val = false →
      s.dev.setter.minawake = 0 →
      AnswersWith .batchPlacement s (fun d =>
        (∀ y ∈ d.setter.batches, y.id = b.id → y.state = .placed p) ∧ d.setter.lastPier = p.val ∧
        (d.pier p).regs.put = (s.dev.pier p).regs.put + 1 ∧ (d.core (.pier p)).ipend.getLsbD 2 = true ∧
        (∀ i ∈ d.items, b.items.contains i.id = true → i.stage ≠ .setter))) ∧
    (∀ (d : Dev) b p, d.allowed (d.batchParts b) p = true → d.rule1 b = some p → d.placeOne b = some (d.place b p)) ∧
    (∀ (d : Dev) b p, d.fc.inReset.getLsbD p.val = true → ∀ y ∈ (d.place b p).setter.batches, y.id ≠ b.id) ∧
    (∀ (d : Dev) b p d1, d.allowed (d.batchParts b) p = true → d.rule1 b = none → d.rule2 b = some (p, d1) →
      d.fc.inReset.getLsbD p.val = false → ∃ e, d.placeOne b = some e ∧
        (∀ y ∈ e.setter.batches, y.id = b.id → y.state = .placed p) ∧ (∃ f, (e.pier p).pw.change = .wake f) ∧
        (e.pier p).regs.put = (d.pier p).regs.put) ∧
    (∀ (d : Dev) b p v q, d.allowed (d.batchParts b) q = true → d.rule1 b = none → d.rule2 b = none → d.rule3 b = some (p, v) →
      ∃ e, d.placeOne b = some e ∧ e.setter.preempts = d.setter.preempts ++ [(p, b.id, v.id)] ∧ (e.pier p).regs.req = true ∧
        (e.pier p).regs.reqAt = d.now ∧ (e.core (.pier p)).ipend.getLsbD 3 = true ∧ v.cls.qos < b.cls.qos ∧
        e.setter.batches = d.setter.batches) ∧
    (∀ (d : Dev) b q, d.allowed (d.batchParts b) q = true → d.rule1 b = none → d.rule2 b = none → d.rule3 b = none →
      d.placeOne b = none) ∧
    (∀ (d : Dev) b, (∀ p, d.allowed (d.batchParts b) p = false) →
      (1 < (d.batchParts b).length → d.placeOne b = some (d.splitBatch b)) ∧ ((d.batchParts b).length ≤ 1 → d.placeOne b = none)))

/-- R364 to R369, R462 and R467: the end of a batch, what puts an idle pier to sleep or off, and the move of a leaf. -/
def Obligations.BatchEndSleepAndLeafMoves : Prop :=
  -- R361, R364 to R366, R462 and R467: the end of a batch, and what puts an idle pier to sleep or off; before its time
  -- nothing changes.
  ((∀ (p : Fin 16) s, (∀ b, s.dev.runningOn p = some b →
        s.dev.items.any (fun i => b.items.contains i.id && i.unfinished p) = true) → Answers (.batchEnd p) s s.dev) ∧
    (∀ (p : Fin 16) s b, s.dev.runningOn p = some b →
      s.dev.items.any (fun i => b.items.contains i.id && i.unfinished p) = false →
      Answers (.batchEnd p) s (s.dev.endBatch p).eagerAll.placeNext ∧
      let d := s.dev.endBatch p
      (∀ y ∈ d.setter.batches, y.id ≠ b.id) ∧ (∀ y ∈ s.dev.setter.batches, y.id ≠ b.id → y ∈ d.setter.batches) ∧
      d.items = s.dev.items ∧ (s.dev.held p = [b] → d.setter.idleSince[p] = s.dev.now)) ∧
    (∀ (p : Fin 16) s b, s.dev.runningOn p = some b →
      s.dev.items.any (fun i => b.items.contains i.id && i.unfinished p) = false →
      s.dev.placing = false → s.dev.setter.eager = false → s.dev.held p = [b] →
      AnswersWith (.batchEnd p) s (fun d =>
        (∀ y ∈ d.setter.batches, y.id ≠ b.id) ∧ d.items = s.dev.items ∧ d.setter.idleSince[p] = s.dev.now)) ∧
    (∀ (p : Fin 16) s,
      let due : Prop := (s.dev.pier p).awake = true ∧ s.dev.holdsNoBatch p.val = true ∧
        s.dev.setter.idleSince[p] + 25 * s.dev.setter.sleept.toNat ≤ s.dev.now ∧
        (s.dev.counts p = false ∨ s.dev.setter.minawake.toNat ≤ s.dev.awakeBeside p)
      (¬ due → Answers (.pierSleepTimer p) s s.dev) ∧
      (due → AnswersWith (.pierSleepTimer p) s (fun d =>
        (d.pier p).pw.st = .sleep ∧ (d.pier p).pw.shares = 1 ∧ (d.pier p).core.run = .reset ∧
        (d.pier p).mem.quarry = (s.dev.pier p).mem.quarry ∧ (d.pier p).mem.banks = (s.dev.pier p).mem.banks ∧
        (d.pier p).regs = (s.dev.pier p).regs ∧ (d.pier p).runs.exec = none))) ∧
    (∀ (p : Fin 16) s,
      let due : Prop := (s.dev.pier p).pw.st = .sleep ∧ (s.dev.pier p).pw.change = .none ∧ s.dev.setter.offok = true ∧
        (s.dev.pier p).pw.since + 2500000 ≤ s.dev.now ∧
        (∀ b : Fin 16, b.val < 15 → 64 ≤ (s.dev.pier p).mem.bank[b].owner.toNat)
      (¬ due → Answers (.pierOffTimer p) s s.dev) ∧
      (due → AnswersWith (.pierOffTimer p) s (fun d =>
        (d.pier p).pw.st = .off ∧ (d.pier p).pw.shares = 0 ∧ (d.pier p).mem.banks = [] ∧
        (d.pier p).mem.quarry = (s.dev.pier p).mem.quarry))) ∧
    (∀ (p : Fin 16) s, AnswersWith (.pierThinDelayExpiry p) s (fun d =>
      (∀ t, t ∈ d.setter.thin ↔ t ∈ s.dev.setter.thin ∧ ¬ (t.1 = p ∧ t.2 ≤ s.dev.now)) ∧ d.items = s.dev.items))) ∧
  -- R271, R311, R368 and R369: a leaf moves where no session of its partition is active, into a bank of the partition,
  -- one that the setter may give it, or its region: the entry names the new place, and the partition's TLB entries and
  -- the instruction cache are dropped; a copy that fails leaves the entry; any other order changes nothing.
  (∀ (p : Fin 16) (q : Fin 64) (ipa : BitVec 30) (dest : Word) s,
      let P := match s.dev.bankFor p q dest.toNat with
        | some b => bankOwnWrite (s.dev.pier p) s.dev.now b (BitVec.ofNat 32 q.val)
        | none => s.dev.pier p
      let may : Prop := s.dev.partActive p q = false ∧ P.awake = true
      let fits (f : FoundLeaf) : Prop := f.size ≤ 4096 ∧ f.pte.getLsbD 5 = false ∧ leafDestOk P q dest.toNat f.size = true
      (¬ may → Answers (.migrationLeafMove p q ipa dest) s s.dev) ∧
      (P.leafOf q ipa.toNat = none → Answers (.migrationLeafMove p q ipa dest) s s.dev) ∧
      (∀ f, P.leafOf q ipa.toNat = some f →
        (¬ fits f → Answers (.migrationLeafMove p q ipa dest) s s.dev) ∧
        (∀ Q, may → fits f →
          copyLeaf s.dev.now q.val f.size none (f.pte.toNat / 64 * 64) dest.toNat P = (false, Q) →
          Answers (.migrationLeafMove p q ipa dest) s (s.dev.setPier p Q)) ∧
        (∀ Q, may → fits f →
          copyLeaf s.dev.now q.val f.size none (f.pte.toNat / 64 * 64) dest.toNat P = (true, Q) →
          AnswersWith (.migrationLeafMove p q ipa dest) s (fun d =>
            (d.pier p).mem = withoutPartition q (gatewayQuarry Q [(f.at_, (f.pte &&& 0x3F#36) ||| dest, false)]).mem ∧
            (∀ r, r ≠ p → d.pier r = s.dev.pier r) ∧
            (f.size = 4096 → (⟨p, q, ipa.toNat / 4096, dest.toNat⟩ : LeafPlace) ∈ d.setter.leaves)))))

/-- R370 to R375 and R377: a preemption is asked for, acknowledged or times out. Firmware suspends the work of the pier before it
acknowledges; where the victim's last item has its record, it acknowledges the end instead. -/
def Obligations.Preemption : Prop :=
  (∀ (p : Fin 16) s, (s.dev.pier p).regs.req = false →
    Answers (.preemptAckSuspended p) s s.dev ∧ Answers (.preemptAckEnded p) s s.dev) ∧
  (∀ (p : Fin 16) s, s.dev.victimRecorded p = false → Answers (.preemptAckEnded p) s s.dev) ∧
  (∀ (p : Fin 16) s, s.dev.victimRecorded p = true → exec (.preemptAckSuspended p) s = exec (.preemptAckEnded p) s) ∧
  (∀ (p : Fin 16) s, (s.dev.pier p).regs.req = true → s.dev.victimRecorded p = false →
    let d1 := s.dev.suspendWork p
    ((d1.pier p).hod.suspd = false → Answers (.preemptAckSuspended p) s d1 ∧ (d1.pier p).regs.req = true) ∧
    ((d1.pier p).hod.suspd = true → Answers (.preemptAckSuspended p) s (d1.ackSuspended p).eagerAll) ∧
    (d1.pier p).runs.exec = none ∧
    ((s.dev.pier p).hod.cur = none ∨ (s.dev.pier p).hod.suspd = true → (d1.pier p).hod.suspd = true)) ∧
  (∀ (p : Fin 16) s e b, (s.dev.pier p).regs.req = true → s.dev.setter.preempts.find? (fun e => e.1 = p) = some e →
    e.2.1 ≠ e.2.2 → s.dev.batch? e.2.1 = some b → b.state = .ready →
    let takes : Prop := s.dev.placing = true ∧ (s.dev.pier p).awake = true ∧ s.dev.allowed (s.dev.batchParts b) p = true ∧
      (s.dev.pier p).lapOverdue = false ∧ s.dev.audit.full.contains p.val = false ∧ s.dev.fc.inReset.getLsbD p.val = false
    (s.dev.victimRecorded p = false → (s.dev.pier p).hod.cur = none ∨ (s.dev.pier p).hod.suspd = true →
      AnswersWith (.preemptAckSuspended p) s (fun d =>
        (d.pier p).regs.req = false ∧ (∀ x ∈ d.setter.preempts, x.1 ≠ p) ∧ (d.pier p).runs.exec = none ∧
        (∀ y ∈ d.setter.batches, y.id = e.2.2 → y.state = .ready ∧ y.readyAt = s.dev.now) ∧
        (takes → ((s.dev.held p).filter (fun x => x.id ≠ e.2.2)).length < s.dev.setter.qd.toNat + 1 →
          ∀ y ∈ d.setter.batches, y.id = e.2.1 → y.state = .placed p))) ∧
    (s.dev.victimRecorded p = true →
      AnswersWith (.preemptAckEnded p) s (fun d =>
        (d.pier p).regs.req = false ∧ (∀ x ∈ d.setter.preempts, x.1 ≠ p) ∧
        (takes → (s.dev.held p).length < s.dev.setter.qd.toNat + 1 →
          ∀ y ∈ d.setter.batches, y.id = e.2.1 → y.state = .placed p) ∧
        (s.dev.placing = false ∨ s.dev.allowed (s.dev.batchParts b) p = false →
          ∀ y ∈ d.setter.batches, y.id = e.2.1 → y.state = .ready ∨ y ∈ s.dev.setter.batches)))) ∧
  (∀ (p : Fin 16) s,
    let due : Prop := (s.dev.pier p).regs.req = true ∧ (s.dev.pier p).regs.reqAt + 25000 ≤ s.dev.now ∧
      (∀ e ∈ (s.dev.pier p).detq, e.cause ≠ 0x0E#8)
    (due → Answers (.preemptTimeout p) s (s.dev.onPier p (fun P => { P with detq := P.detq ++ [mkDetection 0x0E 0 0 0] }))) ∧
    (¬ due → Answers (.preemptTimeout p) s s.dev)) ∧
  (∀ (p : Fin 16) s,
    let first := s.dev.readyOrder.find? (fun b => !s.dev.preempting b.id && (s.dev.rule1 b).isNone && (s.dev.rule2 b).isNone &&
      s.dev.victimOk b.cls.qos b p)
    (s.dev.placing = false ∨ s.dev.setter.preEn = false ∨ first = none → Answers (.minrunExpiry p) s s.dev) ∧
    (∀ b, s.dev.placing = true → s.dev.setter.preEn = true → first = some b →
      AnswersWith (.minrunExpiry p) s (fun d => ∃ q v, s.dev.rule3 b = some (q, v) ∧
        d.setter.preempts = s.dev.setter.preempts ++ [(q, b.id, v.id)] ∧ (d.pier q).regs.req = true ∧
        (d.pier q).regs.reqAt = s.dev.now ∧ (d.core (.pier q)).ipend.getLsbD 3 = true ∧ v.cls.qos < b.cls.qos ∧
        d.setter.batches = s.dev.setter.batches)))

/-! ### Operations on a pier and on the warden -/

/-- R378 to R392: the operations of the payment and signature families run on the pier of their batch after the checks of R380; ECHO
answers its input; a MAC verifies for the message that it was made over. -/
def Obligations.PierOperations : Prop :=
  -- R380 and R384 to R391: the operations of the payment and signature families, on the pier of their batch; a signature
  -- that fails its self-check also raises cause 0x11.
  ((∀ o, o = signDef → OnPier .signEcdsa 0x10 o ∧ OnPier .signEddsa 0x12 o ∧
      OnPierThen .signRsa 0x14 o (fun d x => d.selfCheckNotice x.id)) ∧
    (∀ o, o = verifyDef → OnPier .verifyEcdsa 0x11 o ∧ OnPier .verifyEddsa 0x13 o ∧ OnPier .verifyRsa 0x15 o) ∧
    OnPier .pinTranslate 0x20 ⟨pinParam, pinNeeds, fun i _ => (if i.dfmt = 4 then 16 else 8) ≤ i.room, pinRun⟩ ∧
    OnPier .macGenerate 0x30 ⟨macParam, macNeed, fun i _ => i.mlen ≤ i.room, fun x => .ok (macOf x x.input)⟩ ∧
    OnPier .macVerify 0x31 ⟨macParam, macNeed, fun i _ => i.mlen ≤ i.inLen, fun x =>
      .ofCode (if macOf x (x.input.take (x.input.length - x.item.mlen)) = x.input.drop (x.input.length - x.item.mlen) then 0 else 1)⟩ ∧
    OnPier .arqcVerify 0x38 ⟨arqcParam, fun i => [⟨i.kh1, 2 ^ 9, fun a => if i.calg = 0 then a = 1 else algAes a⟩],
      fun i _ => arpcLen i ≤ i.room, arqcRun⟩ ∧
    OnPier .hash 0x40 ⟨fun i => paramChecks i [(i.bits 12 3 0 = 0 || 3 < i.bits 12 3 0, 0x01)], fun _ => [],
      fun i _ => dalgLen (i.bits 12 3 0) ≤ i.room, fun x => .ok (dalgHash (x.item.bits 12 3 0) x.input)⟩ ∧
    OffPier .signEcdsa 0x10 ∧ OffPier .verifyEcdsa 0x11 ∧ OffPier .signEddsa 0x12 ∧ OffPier .verifyEddsa 0x13 ∧
    OffPier .signRsa 0x14 ∧ OffPier .verifyRsa 0x15 ∧ OffPier .pinTranslate 0x20 ∧ OffPier .macGenerate 0x30 ∧
    OffPier .macVerify 0x31 ∧ OffPier .arqcVerify 0x38 ∧ OffPier .hash 0x40 ∧
    (∀ it inp s x p d es d1 bs, s.dev.pierItem it 0x14 = some (x, p, d) → signParam x = none →
      d.pierKeys p x 0 (signNeed false x) = (.ok es, d1) → signLens x es = true → x.fetch inp = .ok bs →
      let r := rsaSign ⟨x, es, (d1.ks.kek).getD [], bs⟩
      x.algv = 4 ∨ x.algv = 5 → r.2 = true →
      AnswersWith (.signRsa it inp) s (fun e => ∀ y ∈ e.items, y.id = x.id → y.status = 0 ∧ y.output = r.1 ∧
        y.stage = .result ⟨p.val, by omega⟩))) ∧
  -- R378 and R392: ECHO answers its input, on the pier for a VF with a partition and on the warden otherwise; unequal
  -- packings, a short buffer and a failed input end it, and without its item nothing changes.
  (OnPier .echo 0x01 ⟨fun x => if x.pki = x.pko then none else some 0x02, fun _ => [], fun x _ => x.inLen ≤ x.room,
      fun x => .ok x.input⟩ ∧
    (∀ it inp s, s.dev.wardenItem it 0x01 = none → s.dev.pierItem it 0x01 = none → Answers (.echo it inp) s s.dev) ∧
    (∀ it inp s x, s.dev.wardenItem it 0x01 = some x →
      (x.pki ≠ x.pko → Answers (.echo it inp) s (s.dev.finishWarden x (.bad 0x02) [])) ∧
      (x.pki = x.pko → x.room < x.inLen → Answers (.echo it inp) s (s.dev.finishWarden x .length [])) ∧
      (∀ c, x.pki = x.pko → x.inLen ≤ x.room → x.fetch inp = .error c →
        Answers (.echo it inp) s ((s.dev.fetchInput x).finishWarden x { status := c } [])) ∧
      (∀ bs, x.pki = x.pko → x.inLen ≤ x.room → x.fetch inp = .ok bs →
        Answers (.echo it inp) s ((s.dev.fetchInput x).finishWarden x (.ok bs) bs))) ∧
    (∀ it inp s x p d bs, s.dev.wardenItem it 0x01 = none → s.dev.pierItem it 0x01 = some (x, p, d) → x.pki = x.pko →
      x.inLen ≤ x.room → x.fetch inp = .ok bs →
      Answers (.echo it inp) s ((d.fetchInput x).finishPier x p (.ok bs) bs))) ∧
  -- R386 and R389: a verification that passes ends with OK and no output, one that fails with VERIFY_FAIL and its code;
  -- a MAC that was generated over a message verifies for it.
  (Verdict.ofCode 0 = .ok [] ∧ (∀ r, r ≠ 0 → Verdict.ofCode r = { status := 0x01, result := r }) ∧
    ∀ (x : OpIn) (m : List Byte), (macOf x m).length = x.item.mlen →
      let y := m ++ macOf x m
      macOf x (y.take (y.length - x.item.mlen)) = y.drop (y.length - x.item.mlen))

/-- R393, R395, R406 to R411: MSG_TRANSLATE with a loaded map, RUN_PROGRAM, its step limit, LOAD_PROGRAM and DEFINE_COURSE, with
every refusal. -/
def Obligations.ProgramsMapsAndCourses : Prop :=
  -- R393 and R395: a loaded map translates; its tables stand in XLAT under the partition.
  OffPier .msgTranslate 0x48 ∧
  (∀ it inp s x p d, s.dev.pierItem it 0x48 = some (x, p, d) →
    findLoaded (s.dev.snapOf it) x.part true (x.bits 12 9 0) = none →
    Answers (.msgTranslate it inp) s (d.finishPier x p (.bad 0x30) [])) ∧
  (∀ it inp s x p d l, s.dev.pierItem it 0x48 = some (x, p, d) →
    findLoaded (s.dev.snapOf it) x.part true (x.bits 12 9 0) = some l → plainOnly x ≠ none →
    Answers (.msgTranslate it inp) s (d.finishPier x p (.bad 0x02) [])) ∧
  (∀ it inp s x p d0 d2 l q, s.dev.pierItem it 0x48 = some (x, p, d0) →
    findLoaded (s.dev.snapOf it) x.part true (x.bits 12 9 0) = some l → x.part = some q → plainOnly x = none →
    (s.dev.onPier p (loadTables q (parseMap l.bytes).tabs)).pierItem it 0x48 = some (x, p, d2) →
    (∀ c, x.fetch inp = .error c →
      Answers (.msgTranslate it inp) s ((d2.fetchInput x).finishPier x p { status := c } [])) ∧
    (∀ bs, x.fetch inp = .ok bs →
      Answers (.msgTranslate it inp) s ((d2.fetchInput x).finishPier x p (translateMsg (parseMap l.bytes) x.room bs) bs))) ∧
  -- R408 and R409: RUN_PROGRAM.
  OffPier .runProgram 0x70 ∧
  (∀ it inp s x p d, s.dev.pierItem it 0x70 = some (x, p, d) →
    findLoaded (s.dev.snapOf it) x.part false (x.bits 12 5 0) = none ∨ x.part = none ∨ d.session? x.session = none →
    Answers (.runProgram it inp) s (d.finishPier x p (.bad 0x40) [])) ∧
  (∀ it inp s x p d q ss l, s.dev.pierItem it 0x70 = some (x, p, d) → x.part = some q → d.session? x.session = some ss →
    findLoaded (s.dev.snapOf it) (some q) false (x.bits 12 5 0) = some l →
    let g := parseImage l.words
    (g.inCap < packWords x.pki x.inLen → Answers (.runProgram it inp) s (d.finishPier x p .length [])) ∧
    (∀ c, packWords x.pki x.inLen ≤ g.inCap → x.fetch inp = .error c →
      Answers (.runProgram it inp) s ((d.fetchInput x).finishPier x p { status := c } [])) ∧
    (∀ bs, packWords x.pki x.inLen ≤ g.inCap → x.fetch inp = .ok bs →
      Answers (.runProgram it inp) s ((d.fetchInput x).runProgram x p q ss g bs))) ∧
  (∀ it s x p, s.dev.item? it = some x → x.stage = .overLimit p →
    Answers (.programStepLimit it) s (s.dev.finishPier x p (.bad 0x7E) x.inBytes)) ∧
  (∀ it s, (∀ x p, s.dev.item? it = some x → x.stage ≠ .overLimit p) → Answers (.programStepLimit it) s s.dev) ∧
  -- R406, R407 and R410: LOAD_PROGRAM.
  OnWarden .loadProgram 0x71 atOnce (fun _ x =>
      if x.bits 12 0 0 ≠ 1 ∧ 63 < x.bits 12 25 16 then some (.bad 0x01)
      else if x.inLen ≠ 0 ∧ x.pki ≠ (if x.bits 12 0 0 = 1 then 0 else 1) then some (.bad 0x02) else none)
    (fun d x bs =>
      let map : Bool := x.bits 12 0 0 = 1
      let slot := x.bits 12 25 16
      match x.part with
      | none => d.finishWarden x (.bad 0x01) bs
      | some q =>
        let others := d.loaded.filter (fun (l : Loaded) => !(l.part = q && l.isMap = map && l.slot = slot))
        if x.inLen = 0 then ({ d with loaded := others }).finishWarden x (.ok []) bs
        else if map then
          if mapOk bs then ({ d with loaded := others ++ [Loaded.mk q true slot bs []] }).finishWarden x (.ok []) bs
          else d.finishWarden x (.bad 0x43) bs
        else match imageRefused (d.ipaWords q) (denseIn bs) with
          | some r => d.finishWarden x (.bad r) bs
          | none => ({ d.writeImages q (parseImage (denseIn bs)) with
              loaded := others ++ [Loaded.mk q false slot [] ((denseIn bs).take (9 + imageCode (denseIn bs)))] }).finishWarden x (.ok []) bs) ∧
  (∀ q, Serves .loadProgram 0x71 (fun _ x bs => loadParam x = none ∧ x.part = some q ∧ x.bits 12 0 0 = 1 ∧ x.inLen ≠ 0 ∧ mapOk bs = true)
    (fun d x bs => ({ d with loaded := d.loaded.filter (fun (l : Loaded) => !(l.part = q && l.isMap = true && l.slot = x.bits 12 25 16)) ++
      [Loaded.mk q true (x.bits 12 25 16) bs []] }).finishWarden x (.ok []) bs)) ∧
  (∀ q, Serves .loadProgram 0x71 (fun d x bs => loadParam x = none ∧ x.part = some q ∧ x.bits 12 0 0 = 0 ∧ x.inLen ≠ 0 ∧
      imageRefused (d.ipaWords q) (denseIn bs) = none)
    (fun d x bs => (let e := d.writeImages q (parseImage (denseIn bs))
      { e with loaded := d.loaded.filter (fun (l : Loaded) => !(l.part = q && l.isMap = false && l.slot = x.bits 12 25 16)) ++
        [Loaded.mk q false (x.bits 12 25 16) [] ((denseIn bs).take (9 + imageCode (denseIn bs)))] }).finishWarden x (.ok []) bs)) ∧
  (∀ q, Serves .loadProgram 0x71 (fun _ x _ => loadParam x = none ∧ x.part = some q ∧ x.inLen = 0)
    (fun d x bs => ({ d with loaded := d.loaded.filter (fun (l : Loaded) =>
      !(l.part = q && l.isMap = decide (x.bits 12 0 0 = 1) && l.slot = x.bits 12 25 16)) }).finishWarden x (.ok []) bs)) ∧
  -- R89 to R91 and R411: DEFINE_COURSE, checked on one pier and written on all.
  OnWarden .defineCourse 0x72 atOnce (fun _ x => if x.pki = 1 then none else some (.bad 0x02))
    (fun d x bs =>
      let ws := denseIn bs
      match x.part with
      | none => d.finishWarden x (.bad 0x01) bs
      | some q =>
        if ws ≠ [] ∧ defReserved ws = true then d.finishWarden x { status := 0x11 } bs
        else if ws = [] ∨ 128 < ws.length ∨ ws.length < defWords ws then d.finishWarden x .length bs
        else
          let cs := wholeSet q.val (d.pier 0)
          let e := d.onPier 0 (fun _ => cs.2)
          match courseCheck cs.1 (x.bits 12 5 0) (ws.take (defWords ws)) with
          | some r => e.finishWarden x (.bad r) bs
          | none => (e.allPiers (putCourse q.val (x.bits 12 5 0) (ws.take (defWords ws)))).finishWarden x (.ok []) bs)

/-- R19, R20, R353, R378 and R382: an item that the warden ends has its status, result and output, and one new record on chain 16;
no other item changes; results that cannot leave the device wait; after an FLR the item has HOST_FAULT and RESULT 0x01. -/
def Obligations.WardenItemsEndOnChain16 : Prop :=
  ∀ (d : Dev) (i : Item) (v : Verdict) (bs : List Byte),
    let r := d.finishWarden i v bs
    (i.flr = false → v.out ≠ [] → d.canSend i.fn = false →
      r = d.onItem i.id (fun _ => { i.withVerdict v bs with stage := .result 16 })) ∧
    (d.recordsAllowed = true → (d.acceptedHead 16).1 < cseqMax → i.flr = true ∨ v.out = [] ∨ d.canSend i.fn = true →
      (∀ x ∈ r.items, x.id = i.id → x.inBytes = bs ∧ x.stage = .recorded 16 ((d.acceptedHead 16).1 + 1) ∧
        (i.flr = false → x.status = BitVec.ofNat 8 v.status ∧ x.result = BitVec.ofNat 8 v.result ∧ x.output = v.out ∧
          x.outLen = v.out.length) ∧
        (i.flr = true → x.status = 0x20 ∧ x.result = 0x01 ∧ x.output = [] ∧ x.outLen = 0)) ∧
      (∀ x, x.id ≠ i.id → (x ∈ r.items ↔ x ∈ d.items)) ∧
      (∃ a, r.audit.recs = d.audit.recs ++ [a] ∧ a.chain = 16 ∧ a.cseq = (d.acceptedHead 16).1 + 1) ∧
      r.piers = d.piers ∧ r.flash = d.flash ∧ r.ks = d.ks ∧ r.sessions = d.sessions)

/-- R400 to R403 and R505: the key operations. A change waits for the key store log; once programmed, the entry stands there and every
other entry as before; an entry destroyed holds zeroes. -/
def Obligations.KeyOperations : Prop :=
  -- R383, R396 and R400 to R403: key operations, in the order of their checks. A change waits for its turn and for the
  -- key store log; once programmed, the entry stands in it and every other entry as before.
  (OnWarden .keyImport 0x50 notItsTurn (fun d x =>
        match x.part with
        | none => some (.bad 0x01)
        | some q => match d.importKey x q with
          | .error v => some v
          | .ok _ => none)
      (fun d x bs =>
        match x.part with
        | none => d.finishWarden x (.bad 0x01) bs
        | some q => match d.importKey x q with
          | .error v => d.finishWarden x v bs
          | .ok k => match kbOpen k.1 k.2 (x.bits 12 15 0) bs with
            | .error r => d.finishWarden x (.verifyFail r) bs
            | .ok k => d.create x q (x.bits 12 15 0) (x.expiry 13) k [] bs) ∧
    (∀ q aes kbpk k, Serves .keyImport 0x50
      (fun d x bs => d.keyTurn x = true ∧ x.part = some q ∧ d.importKey x q = .ok (aes, kbpk) ∧
        kbOpen aes kbpk (x.bits 12 15 0) bs = .ok k)
      (fun d x bs => d.create x q (x.bits 12 15 0) (x.expiry 13) k [] bs)) ∧
    (∀ q aes kbpk r, Serves .keyImport 0x50
      (fun d x bs => d.keyTurn x = true ∧ x.part = some q ∧ d.importKey x q = .ok (aes, kbpk) ∧
        kbOpen aes kbpk (x.bits 12 15 0) bs = .error r)
      (fun d x bs => d.finishWarden x (.verifyFail r) bs)) ∧
    OnWarden .keyExport 0x51 atOnce (fun d x =>
        let aes : Bool := x.bits 12 7 0 = 0x44
        if x.bits 12 7 0 ≠ 0x42 ∧ x.bits 12 7 0 ≠ 0x44 then some (.bad 0x01)
        else match d.exportKeys x aes with
          | .error v => some v
          | .ok e => if x.room < kbTotal aes (kbKeyLen e.1) then some .length else none)
      (fun d x bs =>
        let aes : Bool := x.bits 12 7 0 = 0x44
        match d.exportKeys x aes with
        | .error v => d.finishWarden x v bs
        | .ok e =>
          let kek := (d.ks.kek).getD []
          let df := dfBytes kek ((x.part.map (·.val)).getD 64) (dfMessage x [e.1.version.toNat, e.2.version.toNat] bs) 16
          d.finishWarden x (.ok (kbMake aes (symKey kek e.2) e.1.alg.toNat e.1.usage.toNat (kbKeyBytes kek e.1) df)) bs) ∧
    (∀ (aes : Bool) e w, Serves .keyExport 0x51
      (fun d x _ => x.bits 12 7 0 = (if aes then 0x44 else 0x42) ∧ d.exportKeys x aes = .ok (e, w) ∧ kbTotal aes (kbKeyLen e) ≤ x.room)
      (fun d x bs =>
        let kek := (d.ks.kek).getD []
        let df := dfBytes kek ((x.part.map (·.val)).getD 64) (dfMessage x [e.version.toNat, w.version.toNat] bs) 16
        d.finishWarden x (.ok (kbMake aes (symKey kek w) e.alg.toNat e.usage.toNat (kbKeyBytes kek e) df)) bs)) ∧
    Refuses .keyExport 0x51 (fun _ x => x.bits 12 7 0 ≠ 0x42 ∧ x.bits 12 7 0 ≠ 0x44) (.bad 0x01) ∧
    OnWarden .keyGenerate 0x52 notItsTurn (fun _ x =>
        if algSym (x.bits 12 7 0) = false ∧ algPair (x.bits 12 7 0) = false then some (.bad 0x01)
        else if sizeOk (x.bits 12 7 0) (x.bits 13 11 0) = false then some (.bad 0x02)
        else if x.room < generatedLen (x.bits 12 7 0) (x.bits 13 11 0) then some .length else none)
      (fun d x bs =>
        match x.part with
        | none => d.finishWarden x (.bad 0x01) bs
        | some q =>
          let k := generateKey d (x.bits 12 7 0) (x.bits 13 11 0)
          d.used.used.create x q (x.bits 12 31 16) (x.expiry 14) k k.pub bs) ∧
    (∀ q, Serves .keyGenerate 0x52
      (fun d x _ => d.keyTurn x = true ∧ x.part = some q ∧
        (algSym (x.bits 12 7 0) = true ∨ algPair (x.bits 12 7 0) = true) ∧ sizeOk (x.bits 12 7 0) (x.bits 13 11 0) = true ∧
        generatedLen (x.bits 12 7 0) (x.bits 13 11 0) ≤ x.room)
      (fun d x bs =>
        let k := generateKey d (x.bits 12 7 0) (x.bits 13 11 0)
        d.used.used.create x q (x.bits 12 31 16) (x.expiry 14) k k.pub bs)) ∧
    OnWarden .keyDerive 0x53 notItsTurn (fun d x =>
        match deriveParam x with
        | some v => some v
        | none => match d.wardenKey x 0 (deriveNeed x) with
          | .error v => some v
          | .ok _ => none)
      (fun d x bs =>
        match d.wardenKey x 0 (deriveNeed x) with
        | .error v => d.finishWarden x v bs
        | .ok e => match x.part with
          | none => d.finishWarden x (.bad 0x01) bs
          | some q =>
            let k := derivedKey x e.alg.toNat (symKey ((d.ks.kek).getD []) e) bs
            d.create x q (x.bits 12 31 16) (x.expiry 13) ⟨x.newAlg, k.length / 4, [], k⟩ [] bs) ∧
    (∀ q e, Serves .keyDerive 0x53
      (fun d x _ => d.keyTurn x = true ∧ x.part = some q ∧ deriveParam x = none ∧ d.wardenKey x 0 (deriveNeed x) = .ok e)
      (fun d x bs =>
        let k := derivedKey x e.alg.toNat (symKey ((d.ks.kek).getD []) e) bs
        d.create x q (x.bits 12 31 16) (x.expiry 13) ⟨x.newAlg, k.length / 4, [], k⟩ [] bs)) ∧
    OnWarden .keyDestroy 0x54 notItsTurn (fun d x =>
        match d.anyEntry x with
        | .error v => some v
        | .ok _ => none)
      (fun d x bs =>
        match d.anyEntry x with
        | .error v => d.finishWarden x v bs
        | .ok e => if e.state = 2#3 then d.finishWarden x (.ok []) bs else d.startChange x (.ok []) bs e.destroyed) ∧
    (∀ e, Serves .keyDestroy 0x54 (fun d x _ => d.keyTurn x = true ∧ d.anyEntry x = .ok e)
      (fun d x bs => if e.state = 2#3 then d.finishWarden x (.ok []) bs else d.startChange x (.ok []) bs e.destroyed)) ∧
    OnWarden .keyInfo 0x55 atOnce (fun d x =>
        if x.bits 12 0 0 = 1 then none
        else match d.anyEntry x with
          | .error v => some v
          | .ok _ => if x.room < 32 then some .length else none)
      (fun d x bs =>
        if x.bits 12 0 0 = 1 then d.finishWarden x (.ok ((d.enumKeys x).flatMap KeyEntry.info)) bs
        else match d.anyEntry x with
          | .error v => d.finishWarden x v bs
          | .ok e => d.finishWarden x (.ok e.info) bs) ∧
    (∀ e, Serves .keyInfo 0x55 (fun d x _ => x.bits 12 0 0 = 0 ∧ d.anyEntry x = .ok e ∧ 32 ≤ x.room)
      (fun d x bs => d.finishWarden x (.ok e.info) bs)) ∧
    Serves .keyInfo 0x55 (fun _ x _ => x.bits 12 0 0 = 1)
      (fun d x bs => d.finishWarden x (.ok ((d.enumKeys x).flatMap KeyEntry.info)) bs) ∧
    (∀ good s, s.dev.changes = [] ∨ s.dev.wardenServes = false → Answers (.keyStoreLogProgram good) s s.dev) ∧
    (∀ s c rest, s.dev.changes = c :: rest → s.dev.wardenServes = true →
      AnswersWith (.keyStoreLogProgram true) s (fun d =>
        d.changes = rest ∧ d.entryOf c.entry.handle = some c.entry ∧
        ∀ h, h ≠ c.entry.handle → d.entryOf h = s.dev.entryOf h) ∧
      AnswersWith (.keyStoreLogProgram false) s (fun d => d.changes = rest ∧ d.flash.keys = s.dev.flash.keys))) ∧
  -- R403 and R505: a new entry takes the next VERSION of its handle and STATE 1, and is refused where the directory, the
  -- quota, the blob region or the log is full; an entry destroyed holds zeroes.
  ((∀ (d : Dev) h e x, d.placeEntry h e = some x →
      h ≤ 4194303 ∧ x.handle = h ∧ x.state = 1#3 ∧
      x.version = (((d.entryOf h).map KeyEntry.version).getD 0) + 1 ∧ x.owner = e.owner ∧ x.alg = e.alg ∧ x.usage = e.usage ∧
      x.wrap = e.wrap ∧ x.bline + x.blen ≤ 1048576) ∧
    (∀ e : KeyEntry, e.destroyed.state = 2#3 ∧ e.destroyed.version = e.version + 1 ∧ (∀ b ∈ e.destroyed.wrap, b = 0) ∧
      (∀ b ∈ e.destroyed.pub, b = 0) ∧ (∀ b ∈ e.destroyed.blob, b = 0) ∧ e.destroyed.handle = e.handle))

/-- R404, R405, R422 and R426: sessions, attestation and SEAL_NOW, in the order of their checks. -/
def Obligations.SessionsAttestationAndSeals : Prop :=
  (∀ part : Item → Fin 64, part = (fun x => match x.fn with
      | .vf v => v
      | _ => partOf (x.bits 12 13 8)) →
    OnWarden .sessionOpen 0x60 atOnce (fun d x => if d.partExists (part x) = true then none else some (.bad 0x01))
      (fun d x bs => match d.openSession (paramSession x (part x)) with
        | none => d.finishWarden x { status := 0x13, result := 0x01 } bs
        | some o => o.2.finishWarden x { status := 0, d6 := o.1 } bs)) ∧
  (∀ q, Serves .sessionOpen 0x60 (fun d x _ => x.fn = .vf q ∧ d.partExists q = true ∧ d.openSession (paramSession x q) = none)
    (fun d x bs => d.finishWarden x { status := 0x13, result := 0x01 } bs)) ∧
  (∀ q, Refuses .sessionOpen 0x60 (fun d x => x.fn = .vf q ∧ d.partExists q = false) (.bad 0x01)) ∧
  (∀ (d : Dev) f n e, (∀ k, (f k).num = k) → d.openSession f = some (n, e) → n ≤ 65535 ∧ d.sessionTaken n = false ∧ e.session? n = some (f n)) ∧
  OnWarden .sessionClose 0x61 atOnce (fun _ _ => none) (fun d x bs =>
    ({ d with sessions := d.sessions.map (fun (z : Session) => if z.num = x.session then { z with opened := false } else z) }).finishWarden x
      { status := 0, d6 := ((d.session? x.session).map (fun (y : Session) => y.items.toNat % 2 ^ 32)).getD 0 } bs) ∧
  (∀ y, Serves .sessionClose 0x61 (fun d x _ => d.session? x.session = some y)
    (fun d x bs => ({ d with sessions := d.sessions.map (fun (z : Session) => if z.num = x.session then { z with opened := false } else z) }).finishWarden x
      { status := 0, d6 := y.items.toNat % 2 ^ 32 } bs)) ∧
  OnWarden .auditAttest 0x7E atOnce (fun d x =>
      if 16 < x.bits 12 4 0 then some (.bad 0x01) else if 1 < x.bits 12 9 8 then some (.bad 0x02)
      else if x.bits 12 9 8 = 1 ∧ x.room < d.flash.cert.length then some .length else none)
    (fun d x bs =>
      let c := x.bits 12 4 0
      let anchor := bs.take 576
      if x.bits 12 9 8 = 1 then d.finishWarden x (.ok d.flash.cert) bs
      else if anchorOk d.identityPub c anchor = false then d.finishWarden x (.verifyFail 0x02) bs
      else match attestRecords (d.ks.chainKey c) c 0 (sealHead anchor c) (chunksOf 64 (bs.drop 576)) with
        | .inl k => d.finishWarden x { status := 0x01, result := 0x01, d6 := k } bs
        | .inr h => d.finishWarden x
          { status := 0
            out := d.sealBytes 4 d.ks.epoch (sealEpoch anchor)
              ((List.range 17).map (fun k => if k = c then h else (0, List.replicate 16 0#8)))
            d6 := (bs.length - 576) / 64 } bs) ∧
  Serves .auditAttest 0x7E (fun d x _ => x.bits 12 4 0 ≤ 16 ∧ x.bits 12 9 8 = 1 ∧ d.flash.cert.length ≤ x.room)
    (fun d x bs => d.finishWarden x (.ok d.flash.cert) bs) ∧
  Serves .auditAttest 0x7E
    (fun d x bs => x.bits 12 4 0 ≤ 16 ∧ x.bits 12 9 8 = 0 ∧ anchorOk d.identityPub (x.bits 12 4 0) (bs.take 576) = false)
    (fun d x bs => d.finishWarden x (.verifyFail 0x02) bs) ∧
  OnWarden .sealNow 0x7F atOnce (fun _ _ => none) (fun d x bs =>
    let per : Bool := x.bits 12 0 0 = 1
    ({ d with audit := { d.audit with sealNow := d.audit.sealNow ++ [(x.id, per)] } }).onItem x.id
      (fun i => { i with inBytes := bs, stage := .sealWait 0 per }))

/-- R432 to R436 and R440: the administration opcodes, and what a transition, a destroyed partition and PROVISION leave. -/
def Obligations.AdministrationItems : Prop :=
  -- R432 to R436 and R440: the administration opcodes, in the order of their checks.
  (-- R432 and R434: partitions.
    OnWarden .partCreate 0x80 atOnce (fun _ _ => none) (fun d x bs =>
      match d.createRefused (partOf (x.bits 12 5 0)) (x.bits 13 12 0) (x.bits 14 21 0) with
      | some r => d.finishWarden x (.bad r) bs
      | none =>
        let q : Partition := ⟨partOf (x.bits 12 5 0), x.bits 13 12 0, x.bits 14 21 0, d.freeUnits (x.bits 13 12 0)⟩
        ((Dev.buildAll { d with parts := d.parts ++ [q] } q).partsChanged).finishWarden x (.ok []) bs) ∧
    (∀ r, Serves .partCreate 0x80 (fun d x _ => d.createRefused (partOf (x.bits 12 5 0)) (x.bits 13 12 0) (x.bits 14 21 0) = some r)
      (fun d x bs => d.finishWarden x (.bad r) bs)) ∧
    OnWarden .partDestroy 0x81 atOnce (fun _ _ => none) (fun d x bs =>
      let q := partOf (x.bits 12 5 0)
      if d.life.destroying.any (fun e => e.1 ≠ x.id) then d
      else match d.parts.find? (fun p => p.part = q) with
        | none => d.finishWarden x (.bad 0x01) bs
        | some y =>
          let e := { d with life := { d.life with destroying := some (x.id, q) } }
          if e.partBusy q x.id then e.onItem x.id (fun i => { i with stage := .destroyWait })
          else (e.destroyPart y).finishWarden x (.ok []) bs) ∧
    Serves .partDestroy 0x81 (fun d x _ => d.life.destroying = none ∧ d.partExists (partOf (x.bits 12 5 0)) = false)
      (fun d x bs => d.finishWarden x (.bad 0x01) bs) ∧
    -- R435: KEK_COMPONENT.
    OnWarden .kekComponent 0x82 atOnce (fun d x =>
        if d.partExists (partOf (x.bits 12 5 0)) = true ∧
          ((x.bits 12 9 8 = 1 ∧ x.inLen = 24) ∨ (x.bits 12 9 8 = 2 ∧ x.inLen = 32)) then none else some (.bad 0x01))
      (fun d x bs =>
        let r := d.expireAll.kekArrive (x.bits 12 5 0) (x.bits 12 9 8) (x.bits 13 23 0) bs true
        match r.1 with
        | .refused c => r.2.finishWarden x (if c = 0x52 ∨ c = 0x55 then .verifyFail c else .bad c) []
        | .pending => r.2.finishWarden x (.ok []) []
        | .pair v => r.2.finishWarden x { status := 0, d7 := v } []) ∧
    -- R432: SET_TIME.
    OnWarden .setTime 0x83 atOnce (fun _ _ => none) (fun d x bs =>
      ({ d with audit := { d.audit with cal := some ((x.dw 12).toNat + x.bits 13 3 0 * 2 ^ 32, d.now) } }).finishWarden x (.ok []) bs) ∧
    -- R433: SET_STATE; target 1 waits for the items of VFs.
    OnWarden .setState 0x84 atOnce (fun d x =>
        if x.stage = .stateWait then none
        else if d.stateMay (x.bits 12 3 0) = false then some (.bad 0x01)
        else if x.bits 12 3 0 = 6 ∧ x.dw 13 ≠ 0xDEC00DED#32 then some (.bad 0x02) else none)
      (fun d x bs =>
        let t := x.bits 12 3 0
        if t = 1 then
          if d.life.op ≠ .service then ({ d with life := { d.life with testWait := none } }).finishWarden x (.bad 0x01) bs
          else if d.vfBusy = true then
            ({ d with life := { d.life with testWait := some x.id } }).onItem x.id (fun i => { i with stage := .stateWait })
          else
            let e := d.finishWarden x (.ok []) bs
            { e with life := { e.life with op := .test, testWait := none } }
        else if t = 6 then (d.finishWarden x (.ok []) bs).zeroizeStart true
        else (d.finishWarden x (.ok []) bs).stateMove t) ∧
    Serves .setState 0x84 (fun d x _ => x.stage = .warden ∧ x.bits 12 3 0 = 1 ∧ d.life.op = .service ∧ d.life.testWait = none ∧
        d.vfBusy = false)
      (fun d x bs => let e := d.finishWarden x (.ok []) bs; { e with life := { e.life with op := .test, testWait := none } }) ∧
    Serves .setState 0x84 (fun d x _ => x.stage = .warden ∧ x.bits 12 3 0 = 6 ∧ x.dw 13 = 0xDEC00DED#32 ∧ d.life.life ≠ 0#3 ∧
        d.life.life ≠ 4#3)
      (fun d x bs => (d.finishWarden x (.ok []) bs).zeroizeStart true) ∧
    Serves .setState 0x84 (fun d x _ => x.stage = .warden ∧ 2 ≤ x.bits 12 3 0 ∧ x.bits 12 3 0 ≤ 5 ∧ d.stateMay (x.bits 12 3 0) = true)
      (fun d x bs => (d.finishWarden x (.ok []) bs).stateMove (x.bits 12 3 0)) ∧
    Refuses .setState 0x84 (fun d x => x.stage = .warden ∧ d.stateMay (x.bits 12 3 0) = false) (.bad 0x01) ∧
    -- R432, R436 and R440: PROVISION, SET_CERT, SET_REENTRY.
    OnWarden .provision 0x85 atOnce (fun _ _ => none) (fun d x bs => d.provision.finishWarden x (.ok d.provision.identityPub) bs) ∧
    OnWarden .setCert 0x86 atOnce (fun _ _ => none) (fun d x bs =>
      if Config.certLeaf bs = d.identityPub then ({ d with flash := { d.flash with cert := bs } }).finishWarden x (.ok []) bs
      else d.finishWarden x (.verifyFail 0x01) bs) ∧
    OnWarden .setReentry 0x87 atOnce (fun _ _ => none) (fun d x bs =>
      (Dev.writeLife { d with life := { d.life with reentry := x.bits 12 0 0 = 1 } }).finishWarden x (.ok []) bs)) ∧
  -- R415, R433, R434 and R436: what a transition, a destroyed partition and PROVISION leave.
  ((∀ d : Dev, (d.stateMove 3).life.op = .service ∧ (d.stateMove 3).life.life = 2#3 ∧ (d.stateMove 3).fc.drec = [] ∧
      (d.stateMove 4).life.op = .recovery ∧ (d.stateMove 4).life.life = 3#3 ∧ (d.stateMove 5).life.life = 2#3 ∧
      (d.stateMove 2).life.op = .service ∧ (d.stateMove 2).life.life = d.life.life) ∧
    (∀ (d : Dev) (x : Partition),
      let r := d.destroyPart x
      r.partExists x.part = false ∧ (∀ q, q ≠ x.part → r.partExists q = d.partExists q) ∧
      (∀ s, s ∈ r.sessions ↔ s ∈ d.sessions ∧ s.part ≠ x.part) ∧ (∀ l, l ∈ r.loaded ↔ l ∈ d.loaded ∧ l.part ≠ x.part) ∧
      r.life.destroying = none ∧ r.flash.parts = r.parts ∧
      ∀ e ∈ r.flash.keys, e.owner.toNat = x.part.val → e.state ≠ 1#3) ∧
    (∀ d : Dev, d.provision.life.life = 1#3 ∧ d.provision.flash.life = some (1#3, d.life.reentry) ∧
      d.provision.audit.full = [] ∧ d.provision.audit.recs = d.audit.recs ∧ d.provision.audit.older = d.audit.recs.length ∧
      d.provision.fresh = d.fresh + 3 ∧ d.provision.parts = d.parts))

/-- R442 to R444: the ward, in the order of the checks. -/
def Obligations.WardOperations : Prop :=
  OnWarden .wardRequest 0x88 atOnce (fun _ x => if x.room < 194 then some .length else none)
    (fun d x bs =>
      let k := 1 + (d.free 384).toNat % (p384.n - 1)
      let body := leBytes 2 (x.bits 12 25 16) ++ ecPublic p384 k
      (Dev.used { d with ks := { d.ks.putBytes 0x380 (leBytes 48 k) with wardReq := some (x.bits 12 25 16) } }).finishWarden x
        (.ok (body ++ identitySign d.ks.identity body)) bs) ∧
  Refuses .wardAdmit 0x89 (fun d _ => d.ks.ward = false) (.bad 0x03) ∧
  Refuses .wardLeave 0x8B (fun d _ => d.ks.ward = false) (.bad 0x03) ∧
  Refuses .wardJoin 0x8A (fun d _ => d.ks.ward = true) (.bad 0x03) ∧
  OnWarden .wardAdmit 0x89 atOnce (fun d x =>
      if d.ks.ward = false then some (.bad 0x03) else if x.inLen ≠ 290 ∨ x.room < 242 then some .length else none)
    (fun d x bs =>
      let body := bs.take 98
      if wardSigned (bs.drop 194) body ((bs.drop 98).take 96) = true ∧
          onCurve p384 (beNat ((body.drop 2).take 48)) (beNat ((body.drop 2).drop 48)) = true then
        let k := 1 + (d.free 384).toNat % (p384.n - 1)
        let adm := ecPublic p384 k ++ d.ks.wardId ++ body.take 2 ++ aesKw (wardShared k (body.drop 2)) d.ks.wtk
        d.used.finishWarden x (.ok (adm ++ identitySign d.ks.identity adm)) bs
      else d.finishWarden x (.verifyFail 0x01) bs) ∧
  OnWarden .wardJoin 0x8A atOnce (fun d x =>
      if d.ks.ward = true then some (.bad 0x03) else if x.bits 12 0 0 ≠ 1 ∧ x.inLen ≠ 338 then some .length else none)
    (fun d x bs =>
      if x.bits 12 0 0 = 1 then
        let e := d.used.used.setWard (freshBytes d 32) (freshBytes d.used 8) (x.bits 12 25 16) true
        ({ e with ks := e.ks.dropReq }).finishWarden x (.ok []) bs
      else d.joinWard x bs) ∧
  OnWarden .wardLeave 0x8B atOnce (fun d _ => if d.ks.ward = true then none else some (.bad 0x03))
    (fun d x bs => (d.setWard [] [] 0 false).finishWarden x (.ok []) bs) ∧
  OnWarden .wardExport 0x8C atOnce (fun d x =>
      if x.stage = .stateWait then none
      else if d.ks.ward = false then some (.bad 0x03)
      else if x.bits 12 0 0 = 1 then
        match d.session? (x.bits 13 15 0) with
        | some y => if y.opened = false then some { status := 0x13 } else if x.room < blobLen 52 then some .length else none
        | none => some { status := 0x13 }
      else match d.activeEntry x with
        | .error v => some v
        | .ok e => if x.room < blobLen (31 + kbKeyLen e) then some .length else none)
    (fun d x bs =>
      let blob (d : Dev) (kind : Nat) (p : List Byte) : Dev :=
        ({ d with flash := { d.flash with tseqOut := d.flash.tseqOut + 1 } }).finishWarden x
          (.ok (wardBlob d.ks kind (x.bits 12 25 16) (d.flash.tseqOut + 1) p)) bs
      let n := x.bits 13 15 0
      if x.bits 12 0 0 = 1 then
        match d.session? n with
        | none => d.finishWarden x { status := 0x13 } bs
        | some y =>
          let e := { d with sessions := d.sessions.map (fun (z : Session) => if z.num = n then { z with opened := false } else z) }
          if e.items.any (e.sessionItem n) then e.onItem x.id (fun i => { i with stage := .stateWait })
          else blob e 1 (sessionPayload y)
      else match d.activeEntry x with
        | .error v => d.finishWarden x v bs
        | .ok e => blob d 0 (keyPayload ((d.ks.kek).getD []) e)) ∧
  (∀ e, Serves .wardExport 0x8C (fun d x _ => x.stage = .warden ∧ d.ks.ward = true ∧ x.bits 12 0 0 = 0 ∧ d.activeEntry x = .ok e ∧
      blobLen (31 + kbKeyLen e) ≤ x.room)
    (fun d x bs => ({ d with flash := { d.flash with tseqOut := d.flash.tseqOut + 1 } }).finishWarden x
      (.ok (wardBlob d.ks 0 (x.bits 12 25 16) (d.flash.tseqOut + 1) (keyPayload ((d.ks.kek).getD []) e))) bs)) ∧
  OnWarden .wardImport 0x8D (fun d x => decide (x.bits 12 0 0 = 0) && notItsTurn d x)
    (fun d _ => if d.ks.ward = true then none else some (.bad 0x03))
    (fun d x bs =>
      match d.openBlob (x.bits 12 0 0) bs with
      | .error r => d.finishWarden x (.verifyFail r) bs
      | .ok b =>
        let e := { d with flash := { d.flash with tseqIn := assocSet d.flash.tseqIn b.1 b.2.1 } }
        if x.bits 12 0 0 = 0 then e.importKeyBlob x b.2.2 bs else e.importSession x b.2.2 bs) ∧
  (∀ r, Serves .wardImport 0x8D (fun d x bs => (x.bits 12 0 0 = 0 → d.keyTurn x = true) ∧ d.ks.ward = true ∧ d.openBlob (x.bits 12 0 0) bs = .error r)
    (fun d x bs => d.finishWarden x (.verifyFail r) bs)) ∧
  (∀ source tseq p, Serves .wardImport 0x8D
    (fun d x bs => (x.bits 12 0 0 = 0 → d.keyTurn x = true) ∧ d.ks.ward = true ∧ d.openBlob (x.bits 12 0 0) bs = .ok (source, tseq, p))
    (fun d x bs =>
      let e := { d with flash := { d.flash with tseqIn := assocSet d.flash.tseqIn source tseq } }
      if x.bits 12 0 0 = 0 then e.importKeyBlob x p bs else e.importSession x p bs)) ∧
  (∀ (d : Dev) kind b source tseq p, d.openBlob kind b = .ok (source, tseq, p) →
    assocGet d.flash.tseqIn source 0 < tseq ∧ (b.drop 8).take 8 = d.ks.wardId ∧ leNat ((b.drop 4).take 2) = d.ks.node)

/-! ### Seals, power failure, zeroize, reset -/

/-- R264, R335, R418, R421 to R423, R452, R475 and R476: epoch seals fall due, are formed, written and persisted; PWRFAIL_N stops fetching and placement, freezes
the heads and ends with the final seal. -/
def Obligations.SealsAndPowerFailure : Prop :=
  -- R418, R421, R422, R335 and R452: a seal falls due, is formed over the delivered heads with the next EPOCH, goes to
  -- PF1 slot 2 as nine entries, and a persisted one to the seal slot ring; where one of these is not to happen nothing
  -- changes.
  (
    let due := fun (d : Dev) => d.sealing = true ∧ d.audit.due = false ∧
      (d.audit.lastSeal + 1250000 ≤ d.now ∨ ∃ n ∈ d.audit.since, 65536 ≤ n)
    let blocked := fun (d : Dev) => 2 ≤ d.audit.seals.length ∨ (d.audit.seals ≠ [] ∧ d.slot2Full = true) ∨ d.life.pf ≠ .none ∨
      d.life.zero ≠ .none
    let nowDue := fun (d : Dev) => d.audit.sealNow ≠ [] ∧ d.audit.lastSeal + 250000 ≤ d.now
    let formed := fun (s : State) (persist : Bool) =>
      let e := s.dev.ks.epoch + 1
      s.dev.audit.seals ++ [⟨e, 1, s.dev.sealBytes 1 e 0 s.dev.heads, persist || decide (e % 40 = 0), false⟩]
    let stays := fun (s : State) (x : Seal) => (x.persist = true ∧ x.flashed = false) ∨ s.dev.delivering = false ∨
      s.dev.eventRoom 2 9 = false
    (∀ s, due s.dev →
      AnswersWith .sealDue s (fun d => d.audit.due = true ∧ (d.core .warden).ipend = (s.dev.core .warden).ipend ||| 0x80#9 ∧
        d.items = s.dev.items)) ∧
    (∀ s, ¬ due s.dev → Answers .sealDue s s.dev) ∧
    (∀ s, blocked s.dev → Answers .sealForm s s.dev) ∧
    (∀ s, ¬ blocked s.dev → s.dev.sealing = true → ¬ nowDue s.dev → s.dev.audit.due = true →
      AnswersWith .sealForm s (fun d =>
        d.audit.seals = formed s false ∧ d.audit.due = false ∧ d.audit.lastSeal = s.dev.now ∧
        d.audit.since = List.replicate 17 0 ∧ d.items = s.dev.items)) ∧
    (∀ s it per rest i, ¬ blocked s.dev → s.dev.sealing = true → s.dev.audit.sealNow = (it, per) :: rest →
      s.dev.audit.lastSeal + 250000 ≤ s.dev.now → s.dev.item? it = some i →
      AnswersWith .sealForm s (fun d =>
        d.audit.sealNow = rest ∧ d.audit.seals = formed s per ∧
        ∀ x ∈ d.items, x.id = it → x.stage = .sealWait d.ks.epoch per)) ∧
    (∀ s it per rest, ¬ blocked s.dev → s.dev.sealing = true → s.dev.audit.sealNow = (it, per) :: rest →
      s.dev.audit.lastSeal + 250000 ≤ s.dev.now → s.dev.item? it = none →
      Answers .sealForm s { s.dev with audit := { s.dev.audit with sealNow := rest } }) ∧
    (∀ s, ¬ blocked s.dev → s.dev.fc.halt = false → (s.dev.sealing = false ∨ (¬ nowDue s.dev ∧ s.dev.audit.due = false)) →
      Answers .sealForm s s.dev) ∧
    (∀ s, ¬ blocked s.dev → s.dev.fc.halt = true → s.dev.fc.haltStep2 = true → s.dev.items = [] → s.dev.audit.recs = [] →
      (s.dev.hasIdentity = true → s.dev.chainsUp = true →
        AnswersWith .sealForm s (fun d => d.audit.seals = formed s true ∧ d.fc.haltStep2 = false)) ∧
      (s.dev.hasIdentity = false ∨ s.dev.chainsUp = false →
        Answers .sealForm s (Dev.haltEnd { s.dev with fc := { s.dev.fc with haltStep2 := false } }))) ∧
    (∀ s, ¬ blocked s.dev → s.dev.fc.halt = true → (s.dev.fc.haltStep2 = false ∨ s.dev.items ≠ [] ∨ s.dev.audit.recs ≠ []) →
      Answers .sealForm s s.dev) ∧
    (∀ s, s.dev.audit.seals = [] → Answers .sealWrite s s.dev) ∧
    (∀ s x rest, s.dev.audit.seals = x :: rest → stays s x → Answers .sealWrite s s.dev) ∧
    (∀ s x rest, s.dev.audit.seals = x :: rest → ¬ stays s x →
      AnswersWith .sealWrite s (fun d => d.audit.seals = rest ∧
        ∀ k, k < 9 → ∃ a, .write .pf1 (.seal x.epoch) a ((x.bytes.drop (64 * k)).take 64) false ∈ d.host.out)) ∧
    (∀ b s, s.dev.audit.seals.find? (fun y => y.persist && !y.flashed) = none ∨ s.dev.delivering = false →
      Answers (.sealPersist b) s s.dev) ∧
    (∀ s x, s.dev.audit.seals.find? (fun y => y.persist && !y.flashed) = some x → s.dev.delivering = true →
      AnswersWith (.sealPersist true) s (fun d =>
        (∃ slot, (slot, x.bytes) ∈ d.flash.seals) ∧ ∀ y ∈ d.audit.seals, y.epoch = x.epoch → y.flashed = true) ∧
      AnswersWith (.sealPersist false) s (fun d =>
        d.audit = s.dev.audit ∧ d.flash.seals = s.dev.flash.seals ∧
        sealSector (s.dev.flash.goodSlot 4096 s.dev.flash.nextSeal) ∈ d.flash.badSectors))) ∧
  -- R264, R423, R475 and R476: PWRFAIL_N drives the warden's NMI, stops fetching and placement, the heads freeze after
  -- 100 µs, the final seal is formed over them and programmed, and the device stops. A pulse below two AON ticks is
  -- ignored; nothing is written before the heads are known; a step out of its turn changes nothing.
  ((∀ n s, n < 2 ∨ s.dev.board.porLow = true → Answers (.pwrfailNAssert n) s s.dev) ∧
    (∀ n s, 2 ≤ n → s.dev.board.porLow = false → s.dev.life.pf ≠ .none ∨ s.dev.life.zero ≠ .none →
      Answers (.pwrfailNAssert n) s (s.dev.onCore .warden Core.nmiEdge)) ∧
    (∀ n s, 2 ≤ n → s.dev.board.porLow = false → s.dev.life.pf = .none → s.dev.life.zero = .none →
      AnswersWith (.pwrfailNAssert n) s (fun d =>
        (s.dev.fc.haltHard = true ∨ s.dev.headsKnown = false → d.life.pf = .done ∧
          ∀ p : Fin 16, (d.core (.pier p)).run = .stopped) ∧
        (s.dev.fc.haltHard = false → s.dev.headsKnown = true → d.life.pf = .stopped) ∧
        d.life.pfAt = s.dev.now ∧ d.board.ready = false ∧ d.items = s.dev.items ∧ d.audit = s.dev.audit ∧
        d.core .warden = (s.dev.core .warden).nmiEdge ∧
        d.placing = false ∧ (∀ f, d.doorbellTaken f = false) ∧ d.flash = s.dev.flash)) ∧
    (∀ s, s.dev.life.pf = .stopped → s.dev.life.zero = .none → s.dev.life.pfAt + 2500 ≤ s.dev.now →
      Answers .headsFreeze s { s.dev with
        life := { s.dev.life with pf := .frozen }, audit := { s.dev.audit with frozen := true, seals := [] } }) ∧
    (∀ s, s.dev.life.pf ≠ .stopped ∨ s.dev.life.zero ≠ .none ∨ s.dev.now < s.dev.life.pfAt + 2500 → Answers .headsFreeze s s.dev) ∧
    (∀ s, s.dev.life.pf = .frozen → s.dev.life.zero = .none →
      let e := s.dev.ks.epoch + 1
      Answers .finalSealForm s { s.dev with
        audit := { s.dev.audit with final := some (e, s.dev.sealBytes 2 e 0 s.dev.heads) }
        ks := s.dev.ks.setEpoch e
        life := { s.dev.life with pf := .sealed } }) ∧
    (∀ s, s.dev.life.pf ≠ .frozen ∨ s.dev.life.zero ≠ .none → Answers .finalSealForm s s.dev) ∧
    (∀ s e b, s.dev.life.pf = .sealed → s.dev.life.zero = .none → s.dev.audit.final = some (e, b) →
      AnswersWith (.finalSealProgram true) s (fun d =>
        d.life.pf = .done ∧ (s.dev.flash.goodSlot 4096 s.dev.flash.nextSeal, b) ∈ d.flash.seals ∧ (∀ p : Fin 16, (d.core (.pier p)).run = .stopped) ∧
        (∀ r n, d.eventRoom r n = false)) ∧
      AnswersWith (.finalSealProgram false) s (fun d => d.life.pf = .done ∧ d.flash = s.dev.flash ∧
        ∀ p : Fin 16, (d.core (.pier p)).run = .stopped)) ∧
    (∀ g s, s.dev.life.pf ≠ .sealed ∨ s.dev.life.zero ≠ .none ∨ s.dev.audit.final = none → Answers (.finalSealProgram g) s s.dev))

/-- R439 and R480: the zeroize clears the keystone and everything in flight at once, then counts a fuse, clears the memories and
erases the key store log and the keystone image; step 3 of start-up counts a fuse alone. A step out of its turn changes nothing. -/
def Obligations.ZeroizeSequence : Prop :=
  let step3 := fun (d : Dev) => d.life.zero = .none ∧ d.life.boot = .pll ∧ d.life.zeroLow = true ∧ d.life.warm = false ∧
    d.life.pf = .none
  (∀ n s, n < 2 ∨ s.dev.board.porLow = true → Answers (.zeroizeNAssert n) s s.dev) ∧
  (∀ n s, 2 ≤ n → s.dev.board.porLow = false → s.dev.life.zero ≠ .none →
    Answers (.zeroizeNAssert n) s { s.dev with life := { s.dev.life with zeroLow := true } }) ∧
  (∀ n s, 2 ≤ n → s.dev.board.porLow = false → s.dev.life.zero = .none →
    AnswersWith (.zeroizeNAssert n) s (fun d =>
      d.life.zero = .cleared ∧ d.life.life = 4#3 ∧ d.ks = { zeroized := true } ∧ d.items = [] ∧ d.changes = [] ∧
      d.setter.batches = [] ∧ d.board.ready = false ∧
      (∀ p : Fin 16, (d.pier p).runs.keySlots = [] ∧ (d.pier p).runs.stag = [] ∧ (d.pier p).runs.exec = none ∧
        (d.pier p).runs.acc = [] ∧ (d.pier p).runs.au0 = {}) ∧
      d.flash = s.dev.flash)) ∧
  (∀ s, s.dev.life.zero = .cleared →
    Answers .zcntFuseProgram s { s.dev with
      life := { s.dev.life with zcnt := min 8 (s.dev.life.zcnt + 1), zero := .fused
                                terminal := s.dev.life.terminal || s.dev.life.decom } }) ∧
  (∀ s, step3 s.dev →
    Answers .zcntFuseProgram s { s.dev with
      life := { s.dev.life with zcnt := min 8 (s.dev.life.zcnt + 1), zeroLow := false } }) ∧
  (∀ s, s.dev.life.zero ≠ .cleared → ¬ step3 s.dev → Answers .zcntFuseProgram s s.dev) ∧
  (∀ s, s.dev.life.zero = .fused →
    AnswersWith .zeroizeMemoryClear s (fun d => d.life.zero = .zeroed ∧ ∀ p : Fin 16,
      (d.pier p).mem.banks = [] ∧ (d.pier p).mem.quarry = [] ∧ (d.pier p).mem.merge = [] ∧
      (d.pier p).regs = (s.dev.pier p).regs)) ∧
  (∀ s, s.dev.life.zero ≠ .fused → Answers .zeroizeMemoryClear s s.dev) ∧
  (∀ s, s.dev.life.zero = .zeroed →
    Answers .keyStoreErase s { s.dev with
      flash := { s.dev.flash with image := none, keys := [], parts := [], tseqOut := 0, tseqIn := [] }
      life := { s.dev.life with zero := .done } }) ∧
  (∀ s, s.dev.life.zero ≠ .zeroed → Answers .keyStoreErase s s.dev)

/-- R474, R477, R478, R479, R492 and R496: POR keeps flash and fuses alone, and for a pulse between 100 ns and 1 µs it may not come;
a supply violation acts as POR, and stops where the spec gives no outcome; a warm reset keeps quarry, flash and lifecycle. -/
def Obligations.ResetsOfTheDevice : Prop :=
  let warm := fun (v : DW) => v.getLsbD 0 = true ∧ v.extractLsb' 16 16 = 0xA55A#16
  let may := fun (d : Dev) => d.life.pf = .none ∧ d.life.zero = .none ∧ d.evoariRuns = true
  (∀ ns s, ns < 100 → Answers (.porNAssert ns) s s.dev) ∧
  (∀ ns s, 1000 ≤ ns → AnswersWith (.porNAssert ns) s (AfterPor s.dev)) ∧
  (∀ ns s, 100 ≤ ns → ns < 1000 → AnswersWith (.porNAssert ns) s (fun d => AfterPor s.dev d ∨ d = s.dev.used)) ∧
  (∀ e s, e.overTen = false → AnswersWith (.railOutOfTolerance e) s (AfterPor s.dev)) ∧
  (∀ e s, e.overTen = true → exec (.railOutOfTolerance e) s = .fault .railDamage) ∧
  (∀ s, Answers .thermtrip s { s.dev with board := { s.dev.board with therm := true } }) ∧
  (∀ v s, v.getLsbD 0 = false → Answers (.frResetWarm v) s s.dev) ∧
  (∀ v s, v.getLsbD 0 = true → v.extractLsb' 16 16 ≠ 0xA55A#16 →
    Answers (.frResetWarm v) s { s.dev with life := { s.dev.life with frErr := true } }) ∧
  (∀ v s, warm v → ¬ may s.dev → Answers (.frResetWarm v) s s.dev) ∧
  (∀ v s, warm v → may s.dev →
    AnswersWith (.frResetWarm v) s (fun d =>
      d.items = [] ∧ d.sessions = [] ∧ d.changes = [] ∧ d.setter.batches = [] ∧ d.life.op = .startUp ∧ d.life.boot = .released ∧
      d.life.warm = true ∧ d.life.life = s.dev.life.life ∧ d.life.zcnt = s.dev.life.zcnt ∧ d.board.ready = false ∧
      d.pw.scap = s.dev.pw.scap ∧ d.pw.budget = 480 ∧ d.flash.keys = s.dev.flash.keys ∧ d.time = s.dev.time ∧
      (∀ p : Fin 16, (d.pier p).mem.quarry = (s.dev.pier p).mem.quarry ∧ (d.pier p).mem.banks = [] ∧
        (d.pier p).regs.retire = (s.dev.pier p).regs.retire ∧ (d.core (.pier p)).run = .reset) ∧
      (s.dev.fc.haltHard = false → s.dev.hasIdentity = true → s.dev.chainsUp = true →
        ∃ slot, (slot, s.dev.sealBytes 1 (s.dev.ks.epoch + 1) 0 s.dev.heads) ∈ d.flash.seals)))

/-- R268, R480 to R483, R492 and R497: each step of start-up, in its turn, and what it does out of its turn. -/
def Obligations.StartUpSteps : Prop :=
  let verify := fun (d : Dev) => d.life.boot = .pll ∧ (d.life.zeroLow = false ∨ d.life.warm = true)
  let fill := fun (p : Fin 16) (d : Dev) => d.life.boot = .keystone ∧ (d.pier p).pw.filled = false ∧
    ∀ q : Fin 16, p ≤ q ∨ (d.pier q).pw.filled = true
  let start := fun (d : Dev) => d.life.boot = .keystone ∧ ∀ q : Fin 16, (d.pier q).pw.filled = true
  (∀ b s, s.dev.board.porLow = false → Answers (.porNRelease b) s s.dev) ∧
  (∀ b s, s.dev.board.porLow = true → AnswersWith (.porNRelease b) s (fun d =>
    d = { s.dev with
      board := { s.dev.board with porLow := false, bootSel := b.bootSel, sbAddr := b.sbAddr, stuckAt := d.board.stuckAt }
      host := { s.dev.host with link := if s.dev.host.perst then .down else .training }
      life := { s.dev.life with boot := .released, zeroLow := b.zeroizeLow }
      fresh := d.fresh } ∧
    (b.railsReady = true → d.board.stuckAt = none))) ∧
  WaitsForItsTurn .frontagePllLock 2 (fun d => d.life.boot = .released) ∧
  (∀ s, s.dev.bootOk 2 = true → s.dev.life.boot = .released → AnswersWith .frontagePllLock s (fun d =>
    d.life.boot = .pll ∧ d.life.remap = false ∧ d.warden.core.run = .running ∧ d.warden.core.pc = Config.bootRom 0 ∧
    d.piers = s.dev.piers)) ∧
  WaitsForItsTurn .firmwareImageVerify 4 verify ∧
  (∀ s i isB, s.dev.bootOk 4 = true → verify s.dev → s.dev.pickImage = some (i, isB) →
    Answers .firmwareImageVerify s { s.dev with
      ks := s.dev.ks.putBytes 0x30 (sha384 i.bytes)
      board := { s.dev.board with img := isB }
      life := { s.dev.life with boot := if s.dev.life.warm = false ∨ s.dev.fc.halt1B = true then .image else .keystone } }) ∧
  (∀ s, s.dev.bootOk 4 = true → verify s.dev → s.dev.pickImage = none →
    Answers .firmwareImageVerify s { s.dev with
      board := { s.dev.board with fault := true }, life := { s.dev.life with boot := .failed } }) ∧
  WaitsForItsTurn .keystoneLoad 5 (fun d => d.life.boot = .image) ∧
  (∀ s, s.dev.bootOk 5 = true → s.dev.life.boot = .image → AnswersWith .keystoneLoad s (fun d =>
    d.life.boot = .keystone ∧
    (s.dev.life.terminal = true → d.life.life = 4#3 ∧ d.ks.zeroized = true) ∧
    (∀ im r, s.dev.life.terminal = false → s.dev.flash.image = some im → im.zcnt = s.dev.life.zcnt →
      s.dev.flash.life = some r → d.ks = s.dev.ks.load im.words ∧ d.life.life = r.1 ∧ d.life.reentry = r.2) ∧
    (∀ im, s.dev.life.terminal = false → s.dev.flash.image = some im → im.zcnt = s.dev.life.zcnt → s.dev.flash.life = none →
      d.ks = s.dev.ks.load im.words ∧ d.life.life = (d.ks.word 0x3C).extractLsb' 0 3) ∧
    (s.dev.life.terminal = false → (∀ im, s.dev.flash.image = some im → im.zcnt ≠ s.dev.life.zcnt) →
      d.ks.zeroized = true ∧ d.flash.image = none ∧
      (∀ r, s.dev.flash.life = some r → r.2 = true → s.dev.life.zcnt < 8 → d.life.life = 0#3) ∧
      ((∀ r, s.dev.flash.life = some r → r.2 = false ∨ 8 ≤ s.dev.life.zcnt) → d.life.life = 4#3)))) ∧
  (∀ (p : Fin 16) t, WaitsForItsTurn (.pierMemoryFill p t) 6 (fill p)) ∧
  (∀ (p : Fin 16) t s, s.dev.bootOk 6 = true → fill p s.dev →
    AnswersWith (.pierMemoryFill p t) s (fun d =>
      (d.pier p).pw.filled = true ∧ (d.pier p).mem.banks = [] ∧ (d.pier p).regs.retire = (s.dev.pier p).regs.retire ∧
      (s.dev.life.warm = false → (d.pier p).mem.quarry = []) ∧
      (s.dev.life.warm = true → (d.pier p).mem.quarry = (s.dev.pier p).mem.quarry))) ∧
  WaitsForItsTurn .evoariStart 7 start ∧
  (∀ s, s.dev.bootOk 7 = true → start s.dev →
    AnswersWith .evoariStart s (fun d => d.life.boot = .evoari ∧ d.life.remap = true ∧ d.host.cfgReady = true ∧
      d.warden.sram = loadEvoari ((s.dev.runImage.map FwImage.body).getD []))) ∧
  WaitsForItsTurn .deviceTablesWritten 8 (fun d => d.life.boot = .evoari) ∧
  (∀ s, s.dev.bootOk 8 = true → s.dev.life.boot = .evoari → AnswersWith .deviceTablesWritten s (fun d =>
    d.life.boot = (if s.dev.life.warm = false ∨ s.dev.fc.halt1B = true then .tables else .seals) ∧ d.parts = s.dev.flash.parts ∧
    d.flash = s.dev.flash ∧ d.ks = s.dev.ks ∧
    ∀ (p : Fin 16) (q : Fin 64),
      (d.pier p).regs.s2cfg[q] = s2CfgFor (d.partExists q && d.setter.part[q].piers.getLsbD p.val) q.val)) ∧
  WaitsForItsTurn .sealsProcessed 9 (fun d => d.life.boot = .tables) ∧
  (∀ s, s.dev.bootOk 9 = true → s.dev.life.boot = .tables → s.dev.hasIdentity = false →
    Answers .sealsProcessed s { s.dev with life := { s.dev.life with boot := .seals } }) ∧
  (∀ s, s.dev.bootOk 9 = true → s.dev.life.boot = .tables → s.dev.hasIdentity = true →
    AnswersWith .sealsProcessed s (fun d => d.life.boot = .seals ∧ d.audit.lastSeal = s.dev.now ∧
      (∀ b, s.dev.bestSeal = some b → sealKind b = 2 → d.audit.seals = [⟨sealEpoch b, 2, b, true, true⟩]) ∧
      (∀ b, s.dev.bestSeal = some b → sealKind b ≠ 2 → ∃ x, d.audit.seals = [⟨sealEpoch b + 40, 3, x, true, false⟩]) ∧
      (s.dev.bestSeal = none → ∃ x, d.audit.seals =
        [⟨(s.dev.flash.seals.map (fun e => sealEpoch e.2)).foldl max 0 + 40, 3, x, true, false⟩]))) ∧
  WaitsForItsTurn .readyAssert 10 (fun d => d.life.boot = .seals) ∧
  (∀ s, s.dev.bootOk 10 = true → s.dev.life.boot = .seals → AnswersWith .readyAssert s (fun d =>
    d.life.boot = .ready ∧ d.board.ready = true ∧ d.life.warm = false ∧
    d.life.op = (if s.dev.life.life = 3#3 then .recovery else .service) ∧
    ∀ p : Fin 16, (d.pier p).runs.au0 = s.dev.au0For p ∧
      (s.dev.mayRelease p = true → (d.core (.pier p)).run = .running)))

/-! ### Faults and power -/

/-- R445 to R455: a detection of a cause that its region has reaches the collector, by a region's path, from the silicon, or as what
two samples of a dual-rail pair say; there it makes or joins the record of its region, and its class decides the reaction. -/
def Obligations.DetectionsAndReactions : Prop :=
  let broken := fun (v : BitVec 2) => v = 0#2 ∨ v = 3#2
  let cls := fun (x : Detection) => causeClass x.cause.toNat x.region.toNat
  (∀ src s, s.dev.board.porLow = true → Answers (.faultDetection src) s s.dev) ∧
  (∀ x s, s.dev.board.porLow = false →
    (causeIn x.cause.toNat x.region.toNat = true → Answers (.faultDetection (.physical x)) s
      (s.dev.detected { x with level := x.level || causeLevel x.cause.toNat })) ∧
    (causeIn x.cause.toNat x.region.toNat = false → Answers (.faultDetection (.physical x)) s s.dev)) ∧
  (∀ (p : Fin 16) s, s.dev.board.porLow = false →
    (∀ x rest, (s.dev.pier p).detq = x :: rest → Answers (.faultDetection (.queued (BitVec.ofNat 5 p.val))) s
      ((s.dev.onPier p (fun P => { P with detq := rest })).detected { x with region := BitVec.ofNat 5 p.val })) ∧
    ((s.dev.pier p).detq = [] → Answers (.faultDetection (.queued (BitVec.ofNat 5 p.val))) s s.dev)) ∧
  (∀ r s, s.dev.board.porLow = false → 16 ≤ r.toNat →
    (∀ x, s.dev.fc.detq.find? (fun y => y.region = r) = some x → Answers (.faultDetection (.queued r)) s
      (Dev.detected { s.dev with fc := { s.dev.fc with detq := s.dev.fc.detq.erase x } } x)) ∧
    ((∀ x ∈ s.dev.fc.detq, x.region ≠ r) → Answers (.faultDetection (.queued r)) s s.dev)) ∧
  (∀ x a b s, s.dev.board.porLow = false →
    let here := x.region.toNat ≤ 22 ∧ (x.cause = 0#8 ∨ causeIn x.cause.toNat x.region.toNat = true)
    let error := x.cause ≠ 0#8 ∧ (a = 2#2 ∨ b = 2#2)
    (here → broken a → broken b → Answers (.faultDetection (.path x a b)) s
      (s.dev.record { x with cause := 0x01#8, detail2 := 0, level := true } (pathClass x.cause.toNat x.region.toNat))) ∧
    (here → error → Answers (.faultDetection (.path x a b)) s
      (s.dev.detected { x with level := x.level || causeLevel x.cause.toNat })) ∧
    (¬ here ∨ (¬ (broken a ∧ broken b) ∧ ¬ error) → Answers (.faultDetection (.path x a b)) s s.dev)) ∧
  (∀ (d : Dev) x k, d.fc.halt = false → d.openOf x.region.toNat = some k → (d.frec k).shadow = none →
    ¬ (cls x = 2 ∧ x.region.toNat < 16 ∧ d.fc.out.getLsbD x.region.toNat = true) →
    (cls x ≤ (d.frec k).cls.toNat → d.detected x = (d.setFrec k ((d.frec k).merge x d.now)).sideEffects x) ∧
    ((d.frec k).cls.toNat < cls x → ((d.detected x).frec k).cls.toNat = cls x)) ∧
  (∀ (d : Dev) x k, d.fc.halt = false → d.openOf x.region.toNat = some k → (d.frec k).shadow.isSome = true →
    d.detected x = (d.setFrec k ((d.frec k).mergeCount x d.now)).sideEffects x) ∧
  (∀ (d : Dev) x k, d.fc.halt = true → d.haltSlot = some k →
    d.detected x = (d.setFrec k ((d.frec k).mergeCount x d.now)).sideEffects x) ∧
  (∀ (d : Dev) x, d.fc.halt = false → d.openOf x.region.toNat = none → 16 ≤ x.region.toNat → cls x = 1 →
    let e := d.detected x
    (∀ k, d.freeSlot = some k →
      (e.frec k).val = true ∧ (e.frec k).opened = true ∧ (e.frec k).cls = 1#3 ∧ (e.frec k).cause = x.cause ∧
      (e.frec k).region = x.region ∧ (e.frec k).count = 1 ∧ (e.frec k).tFirst = d.now ∧ (e.frec k).rid = d.fc.newRid + 1 ∧
      ∀ j, j ≠ k → e.frec j = d.frec j) ∧
    (d.freeSlot = none → e.fc.lost = min 255 (d.fc.lost + 1) ∧ e.fc.recs = d.fc.recs) ∧
    (e.core .warden).ipend.getLsbD 5 = true ∧ e.items = d.items) ∧
  (∀ (d : Dev) (p : Fin 16) x, x.region = BitVec.ofNat 5 p.val → d.fc.halt = false → d.openOf p.val = none → cls x = 2 →
    let e := d.detected x
    (d.fc.out.getLsbD p.val = false → d.fc.quar.getLsbD p.val = false →
      e.fc.quar.getLsbD p.val = true ∧ e.fc.resetDue.getLsbD p.val = true ∧ e.setter.out.getLsbD p.val = true ∧
      (e.pier p).mem.selfRefresh = true ∧ (∀ b ∈ e.setter.batches, b.pier? ≠ some p) ∧
      (∀ i ∈ e.items, i.unfinished p = false) ∧ ∀ i ∈ d.items, i.unfinished p = false → i ∈ e.items ∨ ∃ j ∈ d.items, j.id = i.id ∧ j.unfinished p = true) ∧
    (d.fc.out.getLsbD p.val = true → e.fc.quar = d.fc.quar ∧ e.items = d.items ∧
      ∀ k, d.freeSlot = some k → (e.frec k).val = true ∧ (e.frec k).opened = false)) ∧
  (∀ (d : Dev) x, d.fc.halt = false → d.openOf x.region.toNat = none → cls x = 3 →
    (d.detected x).fc.hold = true ∧ (d.detected x).items = d.items ∧
    (d.fc.hold = false → (d.detected x).board.alert = true)) ∧
  (∀ (d : Dev) x, d.fc.halt = false → d.openOf x.region.toNat = none → cls x = 4 →
    let e := d.detected x
    e.fc.halt = true ∧ e.board.fault = true ∧ e.board.ready = false ∧ e.setter.batches = [] ∧
    (∀ p : Fin 16, (e.pier p).runs.exec = none ∧ (e.core (.pier p)).run ≠ .running) ∧
    (x.cause = 0x19#8 ∨ x.cause = 0x1B#8 → e.items = []) ∧
    (x.cause ≠ 0x19#8 → x.cause ≠ 0x1B#8 → ∀ i ∈ e.items, i.isRecorded = true))

/-- R23, R282, R449 to R458, R466 and R474: records close, causes fall, piers and the device recover; FC_RESTORE and the correction
log; telemetry and temperatures. -/
def Obligations.RecordsRecoverAndTelemetry : Prop :=
  -- R18, R449, R453 and R454: records close, causes fall, shadows end, a pier leaves quarantine and the device HOLD;
  -- before its time each of these changes nothing.
  (
    let closes := fun (d : Dev) (k : Fin 64) => (d.frec k).opened = true ∧
      (((d.frec k).cls.toNat ≤ 1 ∧ (d.frec k).levels = [] ∧ max (d.frec k).tLast (d.frec k).tClear + 25000 ≤ d.now) ∨
        ((d.frec k).cls = 2#3 ∧ d.fc.quar.getLsbD (d.frec k).region.toNat = false))
    let ends := fun (d : Dev) (p : Fin 16) (k : Fin 64) => d.openOf p.val = some k ∧ ∃ t, (d.frec k).shadow = some t ∧ t ≠ 0 ∧ t ≤ d.now
    let quiet := fun (d : Dev) (p : Fin 16) (k : Fin 64) => d.openOf p.val = some k ∧ (d.frec k).cls = 2#3 ∧
      d.fc.quar.getLsbD p.val = true ∧ d.fc.resetDue.getLsbD p.val = false ∧ d.fc.inReset.getLsbD p.val = false ∧
      (d.frec k).shadow = none ∧ (d.frec k).levels = [] ∧
      max (max (d.frec k).shadowEnd (d.frec k).tLast) (d.frec k).tClear + 2500000 ≤ d.now
    let holdEnds := fun (d : Dev) (k : Fin 64) => (d.frec k).opened = true ∧ (d.frec k).cls = 3#3 ∧ (d.frec k).levels = [] ∧
      max (d.frec k).tLast (d.frec k).tClear + 25000000 ≤ d.now
    let otherHold := fun (d : Dev) (k : Fin 64) => ∃ j, j ≠ k ∧ (d.frec j).opened = true ∧ (d.frec j).cls = 3#3
    (∀ k c s, (s.dev.frec k).levels.contains c = false → Answers (.fallOfNow k c) s s.dev) ∧
    (∀ k c s, (s.dev.frec k).levels.contains c = true →
      let d := s.dev.setFrec k { s.dev.frec k with
        levels := (s.dev.frec k).levels.erase c
        tClear := if ((s.dev.frec k).levels.erase c).isEmpty then s.dev.now else (s.dev.frec k).tClear }
      Answers (.fallOfNow k c) s { d with pw := { d.pw with ceiling := if c = 0x1E#8 then false else d.pw.ceiling } }) ∧
    (∀ k s, ¬ closes s.dev k → Answers (.recordCloseTimer k) s s.dev) ∧
    (∀ k s, closes s.dev k →
      AnswersWith (.recordCloseTimer k) s (fun d => (d.frec k).opened = false ∧ (d.frec k).val = (s.dev.frec k).val ∧
        (d.frec k).closedAt = s.dev.now ∧ ∀ j, j ≠ k → d.frec j = s.dev.frec j)) ∧
    (∀ (p : Fin 16) s, (∀ k, ¬ ends s.dev p k) → Answers (.reactionShadowEnd p) s s.dev) ∧
    (∀ (p : Fin 16) s k t, ends s.dev p k → (s.dev.frec k).shadow = some t →
      Answers (.reactionShadowEnd p) s (s.dev.setFrec k { s.dev.frec k with shadow := none, shadowEnd := t })) ∧
    (∀ (p : Fin 16) s, (∀ k, ¬ quiet s.dev p k) → Answers (.containQuietPeriodExpiry p) s s.dev) ∧
    (∀ (p : Fin 16) s k, quiet s.dev p k →
      AnswersWith (.containQuietPeriodExpiry p) s (fun d =>
        d.fc.quar.getLsbD p.val = false ∧ (p, s.dev.now) ∈ d.fc.prec ∧ (d.frec k).opened = false ∧
        (s.dev.precOf p.val < 8 → d.setter.out.getLsbD p.val = false ∧ d.fc.out = s.dev.fc.out ∧
          (d.pier p).mem.selfRefresh = (!(s.dev.pier p).mem.trained || !(s.dev.pier p).awake)) ∧
        (8 ≤ s.dev.precOf p.val → d.fc.out.getLsbD p.val = true ∧ (d.pier p).pw.st = .off))) ∧
    (∀ k s, ¬ holdEnds s.dev k → Answers (.holdQuietPeriodExpiry k) s s.dev) ∧
    (∀ k s, holdEnds s.dev k →
      AnswersWith (.holdQuietPeriodExpiry k) s (fun d => (d.frec k).opened = false ∧
        (otherHold s.dev k → d.fc.hold = s.dev.fc.hold ∧ d.fc.drec = s.dev.fc.drec ∧ d.life = s.dev.life) ∧
        (¬ otherHold s.dev k → d.fc.hold = false ∧ s.dev.now ∈ d.fc.drec ∧
          (s.dev.drecOf < 4 → d.life.op = s.dev.life.op) ∧
          (4 ≤ s.dev.drecOf → d.life.op = .recovery ∧ d.life.life = 3#3))))) ∧
  -- R18, R23, R282, R305, R451, R453, R457, R458 and R466: a pier's reset and its end, FC_RESTORE, the correction log
  -- and its retirements; where there is nothing to reset, to end or to retire, nothing changes.
  (
    let advised := fun (d : Dev) (p e : Fin 16) => d.fc.clog[p][e].val = true ∧ d.fc.clog[p][e].adv = true
    (∀ (p : Fin 16) s, s.dev.fc.resetDue.getLsbD p.val = false → Answers (.perPierReset p) s s.dev) ∧
    (∀ (p : Fin 16) s, s.dev.fc.resetDue.getLsbD p.val = true →
      AnswersWith (.perPierReset p) s (fun d =>
        d.fc.inReset.getLsbD p.val = true ∧ d.fc.resetDue.getLsbD p.val = false ∧ (d.core (.pier p)).run = .reset ∧
        (d.pier p).mem.banks = [] ∧ (d.pier p).mem.quarry = (s.dev.pier p).mem.quarry ∧
        (d.pier p).regs.retire = (s.dev.pier p).regs.retire ∧ (d.pier p).runs.exec = none ∧
        (∀ k, s.dev.openOf p.val = some k → (d.frec k).shadow = some 0) ∧
        (∀ b ∈ d.setter.batches, b.pier? ≠ some p) ∧ ∀ i ∈ d.items, i.unfinished p = false)) ∧
    (∀ (p : Fin 16) s, s.dev.fc.inReset.getLsbD p.val = false ∨ s.dev.now < (s.dev.pier p).pw.since + 256 →
      Answers (.perPierResetComplete p) s s.dev) ∧
    (∀ (p : Fin 16) s, s.dev.fc.inReset.getLsbD p.val = true → (s.dev.pier p).pw.since + 256 ≤ s.dev.now →
      AnswersWith (.perPierResetComplete p) s (fun d =>
        d.fc.inReset.getLsbD p.val = false ∧ (d.pier p).pw.st = .idle ∧ (d.pier p).pw.freq = 4 ∧ (d.pier p).pw.shares = 8 ∧
        (d.pier p).runs.au0 = s.dev.au0For p ∧ (d.pier p).mem.quarry = (s.dev.pier p).mem.quarry ∧
        (d.pier p).mem.selfRefresh = (s.dev.fc.quar.getLsbD p.val || !(s.dev.pier p).mem.trained) ∧
        (∀ q : Fin 64, (d.pier p).regs.s2cfg[q] = s2CfgFor (s.dev.partExists q && s.dev.setter.part[q].piers.getLsbD p.val) q.val) ∧
        (∀ k, s.dev.openOf p.val = some k → (s.dev.frec k).shadow = some 0 → (d.frec k).shadow = some (s.dev.now + 256)))) ∧
    (∀ v s, AnswersWith (.fcRestoreWrite v) s (fun d => ∀ p : Fin 16,
      d.fc.out.getLsbD p.val = (s.dev.fc.out.getLsbD p.val && !v.getLsbD p.val) ∧
      (v.getLsbD p.val = true → s.dev.fc.out.getLsbD p.val = true →
        d.setter.out.getLsbD p.val = false ∧ ∀ e ∈ d.fc.prec, e.1 ≠ p))) ∧
    (∀ p e v s, v.getLsbD 31 = true → AnswersWith (.clogEntryFree p e v) s (fun d => d.fc.clog[p][e] = {} ∧
      (∀ f, f ≠ e → d.fc.clog[p][f] = s.dev.fc.clog[p][f]) ∧ (∀ q, q ≠ p → d.fc.clog[q] = s.dev.fc.clog[q]))) ∧
    (∀ p e v s, v.getLsbD 31 = false → Answers (.clogEntryFree p e v) s s.dev) ∧
    (∀ (p e : Fin 16) s, ¬ advised s.dev p e → (∀ b, (s.dev.pier p).bankDue b = false) →
      Answers (.retirementAction p e) s s.dev) ∧
    (∀ (p e : Fin 16) s, ¬ advised s.dev p e →
      AnswersWith (.retirementAction p e) s (fun d => ∀ b : Fin 16,
        (d.pier p).regs.retire.getLsbD b.val = ((s.dev.pier p).regs.retire.getLsbD b.val || (s.dev.pier p).bankDue b) ∧
        ((s.dev.pier p).bankDue b = true → (p, b) ∈ d.flash.retiredBanks))) ∧
    (∀ (p e : Fin 16) s, advised s.dev p e →
      let a := s.dev.fc.clog[p][e].addr.toNat
      AnswersWith (.retirementAction p e) s (fun d => d.fc.clog[p][e] = {} ∧
        (s.dev.fc.clog[p][e].qy = false → a / 64 ∈ (d.pier p).mem.frames ∧ (p, a / 64) ∈ d.flash.retired) ∧
        (s.dev.fc.clog[p][e].qy = true → a < partitionLines → ∀ i, i < 15 →
          (quarryBase + 15 * a + i) / 64 ∈ (d.pier p).mem.frames ∧ (p, (quarryBase + 15 * a + i) / 64) ∈ d.flash.retired) ∧
        (s.dev.fc.clog[p][e].qy = true → partitionLines ≤ a →
          (d.pier p).mem.frames = (s.dev.pier p).mem.frames ∧ d.flash = s.dev.flash)))) ∧
  -- R455 and R474: telemetry every FC_TELEM.PERIOD ms; the die warning after two samples brings the ceiling, and cold
  -- samples take it away; a hotter die stops the device, a hot stack or three samples of too much current hold it.
  (
    let due := fun (d : Dev) => d.fc.telemAt + 25000 * d.fc.period.toNat ≤ d.now ∧ d.board.porLow = false
    (∀ s, ¬ due s.dev → Answers .telemetryPeriod s s.dev) ∧
    (∀ s, due s.dev →
      AnswersWith .telemetryPeriod s (fun d => d.fc.telemAt = s.dev.now ∧ d.fc.dieMax = none ∧
        d.audit.eseq = s.dev.audit.eseq + 1 ∧ d.items = s.dev.items)) ∧
    (∀ sm s, AnswersWith (.temperatureSample sm) s (fun d =>
      let t := (hottest sm).2
      d.fc.sample = some sm ∧ d.fc.hotRun = (if 840 < t then s.dev.fc.hotRun + 1 else 0) ∧
      d.fc.overRun = (if 525 * s.dev.cap < 100 * sm.current then s.dev.fc.overRun + 1 else 0) ∧
      (840 < t → 1 ≤ s.dev.fc.hotRun → d.pw.ceiling = true) ∧
      (t ≤ 800 → d.pw.ceiling = false) ∧
      (920 < t → s.dev.openOf 21 = none → s.dev.fc.halt = false → d.fc.halt = true) ∧
      (t ≤ 920 → s.dev.fc.halt = false →
        (840 < sm.stack0 → s.dev.openOf 19 = none → d.fc.hold = true) ∧
        (840 < sm.stack1 → s.dev.openOf 20 = none → d.fc.hold = true) ∧
        (525 * s.dev.cap < 100 * sm.current → 2 ≤ s.dev.fc.overRun → s.dev.openOf 21 = none → d.fc.hold = true)))))

/-- R466 to R473: the power commands; an awake pier at f tenths of a gigahertz takes the least whole number of shares not below
2.4 + 1.35 f. -/
def Obligations.PowerCommands : Prop :=
  -- R269 and R466 to R473: the power commands, each where it has something to do and where it has not.
  (
    let same := fun (d : Dev) (p : Fin 16) (v : DW) => v.extractLsb' 8 2 = (d.pier p).pw.tst ∧ v.extractLsb' 0 5 = (d.pier p).pw.tfreq
    let legalF := fun (v : DW) => 2 ≤ (v.extractLsb' 0 5).toNat ∧ (v.extractLsb' 0 5).toNat ≤ 16
    (∀ a v s, (v.extractLsb' 0 10).toNat = s.dev.pw.budget → Answers (.pwBudgetWrite a v) s s.dev) ∧
    (∀ a v s, (v.extractLsb' 0 10).toNat ≠ s.dev.pw.budget → s.dev.unlocked = true → 120 ≤ (v.extractLsb' 0 10).toNat →
      (v.extractLsb' 0 10).toNat ≤ 560 →
      AnswersWith (.pwBudgetWrite a v) s (fun d => d.pw.budget = (v.extractLsb' 0 10).toNat ∧ d.pw.scap = s.dev.pw.scap ∧
        d.pw.err = s.dev.pw.err ∧ d.items = s.dev.items)) ∧
    (∀ a v s, (v.extractLsb' 0 10).toNat ≠ s.dev.pw.budget →
      (s.dev.unlocked = false ∨ (v.extractLsb' 0 10).toNat < 120 ∨ 560 < (v.extractLsb' 0 10).toNat) →
      Answers (.pwBudgetWrite a v) s { s.dev with pw := { s.dev.pw with err := true } }) ∧
    (∀ (p : Fin 16) a v s, same s.dev p v → Answers (.pwPierTargetWrite p a v) s s.dev) ∧
    (∀ (p : Fin 16) a v s, s.dev.targetWritable a = false → ¬ same s.dev p v →
      Answers (.pwPierTargetWrite p a v) s { s.dev with pw := { s.dev.pw with err := true } }) ∧
    (∀ (p : Fin 16) a v s, s.dev.targetWritable a = true → ¬ same s.dev p v →
      AnswersWith (.pwPierTargetWrite p a v) s (fun d =>
        (d.pier p).pw.tst = (if v.extractLsb' 8 2 = 3#2 then (s.dev.pier p).pw.tst else v.extractLsb' 8 2) ∧
        (legalF v → (d.pier p).pw.tfreq = v.extractLsb' 0 5 ∧ d.pw.err = (s.dev.pw.err || decide (v.extractLsb' 8 2 = 3#2))) ∧
        (¬ legalF v → (d.pier p).pw.tfreq = (s.dev.pier p).pw.tfreq ∧ d.pw.err = true) ∧
        (d.pier p).mem.quarry = (s.dev.pier p).mem.quarry ∧ (∀ q, q ≠ p → d.pier q = s.dev.pier q) ∧
        (v.extractLsb' 8 2 = 1#2 → (s.dev.pier p).awake = true → s.dev.holdsNoBatch p.val = true → (s.dev.pier p).pw.change = .none →
          (d.pier p).pw.st = .sleep ∧ (d.pier p).mem.banks = (s.dev.pier p).mem.banks) ∧
        (v.extractLsb' 8 2 = 0#2 → (s.dev.pier p).pw.st ≠ .off → s.dev.holdsNoBatch p.val = true → (s.dev.pier p).pw.change = .none →
          (d.pier p).pw.st = .off ∧ (d.pier p).mem.banks = []) ∧
        (v.extractLsb' 8 2 = 2#2 → legalF v → (s.dev.pier p).awake = true → (v.extractLsb' 0 5).toNat < (s.dev.pier p).goal →
          (d.pier p).pw.change = .freq (v.extractLsb' 0 5).toNat (s.dev.pier p).pw.freq) ∧
        (v.extractLsb' 8 2 = 2#2 → legalF v → (s.dev.pier p).awake = true → (s.dev.pier p).goal ≤ (v.extractLsb' 0 5).toNat →
          (d.pier p).pw.change = (s.dev.pier p).pw.change))) ∧
    (∀ (p : Fin 16) a v s, v.getLsbD 31 = true → s.dev.fc.out.getLsbD p.val = false →
      AnswersWith (.pwPierRst p a v) s (fun d => d.fc.inReset.getLsbD p.val = true ∧ (d.core (.pier p)).run = .reset ∧
        (d.pier p).mem.quarry = (s.dev.pier p).mem.quarry)) ∧
    (∀ (p : Fin 16) a v s, v.getLsbD 31 = false ∨ s.dev.fc.out.getLsbD p.val = true →
      exec (.pwPierRst p a v) s = exec (.pwPierTargetWrite p a v) s) ∧
    (∀ s p f, s.dev.staggerOk = true → s.dev.raiseNext = some (p, f) →
      AnswersWith .pierRaise s (fun d =>
        (d.pier p).pw.change = .freq f (s.dev.pier p).pw.freq ∧ d.pw.lastStart = some s.dev.now ∧
        (d.pier p).pw.shares = max (max (s.dev.pier p).pw.shares (sharesAt f)) 8 ∧ ∀ q, q ≠ p → d.pier q = s.dev.pier q)) ∧
    (∀ s, s.dev.staggerOk = false ∨ s.dev.raiseNext = none → Answers .pierRaise s s.dev) ∧
    (∀ (p : Fin 16) s f o, (s.dev.pier p).pw.change = .freq f o → s.dev.now < (s.dev.pier p).pw.since + 250 →
      Answers (.frequencyChangeEnd p) s s.dev) ∧
    (∀ (p : Fin 16) s f o, (s.dev.pier p).pw.change = .freq f o → (s.dev.pier p).pw.since + 250 ≤ s.dev.now →
      Answers (.frequencyChangeEnd p) s (s.dev.setPier p { s.dev.pier p with pw := { (s.dev.pier p).pw with
        freq := f, shares := sharesAt f
        change := if (s.dev.pier p).pw.st = .idle ∧ (s.dev.pier p).runs.exec ≠ none then .ramp else .none
        since := s.dev.now } })) ∧
    (∀ (p : Fin 16) s, (∀ f o, (s.dev.pier p).pw.change ≠ .freq f o) → Answers (.frequencyChangeEnd p) s s.dev) ∧
    (∀ (p : Fin 16) s f, (s.dev.pier p).pw.change = .wake f →
      s.dev.now < (s.dev.pier p).pw.since + wakeTicks (s.dev.pier p).pw.st f → Answers (.pierWakeComplete p) s s.dev) ∧
    (∀ (p : Fin 16) s f, (s.dev.pier p).pw.change = .wake f →
      (s.dev.pier p).pw.since + wakeTicks (s.dev.pier p).pw.st f ≤ s.dev.now →
      let d := s.dev.wakeDone p f
      let e := if d.life.op = .startUp ∨ d.mayRelease p = false then d else d.onPier p (fun P => P.release d.now)
      Answers (.pierWakeComplete p) s (((e.placedOn p).foldl (fun d b => d.announce p b) e).reclaim.eagerAll.placeNext) ∧
      (d.pier p).pw.st = .idle ∧ (d.pier p).pw.freq = f ∧ (d.pier p).pw.shares = sharesAt f ∧
      (d.pier p).mem.selfRefresh = (s.dev.fc.quar.getLsbD p.val || !(s.dev.pier p).mem.trained) ∧
      (d.pier p).mem.quarry = (s.dev.pier p).mem.quarry ∧
      ((s.dev.pier p).pw.st ≠ .off → (d.pier p).mem.banks = (s.dev.pier p).mem.banks ∧ (d.pier p).regs = (s.dev.pier p).regs)) ∧
    (∀ (p : Fin 16) s, (∀ f, (s.dev.pier p).pw.change ≠ .wake f) → Answers (.pierWakeComplete p) s s.dev) ∧
    (∀ (p : Fin 16) s, (s.dev.pier p).pw.change = .ramp → (s.dev.pier p).pw.since + 2 ≤ s.dev.now →
      Answers (.laneRampEnd p) s (s.dev.setPier p { s.dev.pier p with
        pw := { (s.dev.pier p).pw with st := .run, change := .none, since := s.dev.now } })) ∧
    (∀ (p : Fin 16) s, (s.dev.pier p).pw.change ≠ .ramp ∨ s.dev.now < (s.dev.pier p).pw.since + 2 → Answers (.laneRampEnd p) s s.dev) ∧
    (∀ (p : Fin 16) s,
      let P := s.dev.pier p
      let idle := P.pw.st = .run ∧ P.runs.exec = none ∧ P.runs.queued = none ∧ P.pw.lastRun + 2500 ≤ s.dev.now
      (idle → Answers (.idleDrop p) s (s.dev.setPier p { P with pw := { P.pw with st := .idle, since := s.dev.now } })) ∧
      (¬ idle → Answers (.idleDrop p) s s.dev))) ∧
  -- R469: an awake pier at f tenths of a gigahertz takes the smallest whole number of shares that is at least 2.4 + 1.35
  -- f.
  (∀ f : Nat, 48 + 27 * f ≤ 20 * sharesAt f ∧ 20 * sharesAt f < 48 + 27 * f + 20)

/-! ### Registers, time, reset and invariants -/

/-- R7 to R11, R28 to R34, R329 and R358: a write reaches the register of its window, whole DWs alone, and a read answers it; reserved
values keep the field and set CFG_ERR; RWL fields change in START-UP, TEST and RECOVERY alone; sensors are read over the sideband. -/
def Obligations.RegisterWrites : Prop :=
  -- R20, R28 to R34, R329 and R358: a host write of a whole DW reaches the register or the doorbell page of its window;
  -- a partial one sets the block's CFG_ERR, a longer one ends with Unsupported Request; one to a reserved range, or to a
  -- function that is not reached, does nothing. A read answers the register, 0 where there is none, or nothing. A core's
  -- store reaches its windows. A sensor is read over the sideband.
  ((∀ f off v be n s, s.dev.barReached f = false → Answers (.registerWrite (.host f off v be n)) s s.dev) ∧
    (∀ f off v be n o s, s.dev.barReached f = true → pageOffset f off.toNat = some o →
      Answers (.registerWrite (.host f off v be n)) s (s.dev.pageWrite f o v be n)) ∧
    (∀ off v s r, s.dev.barReached .pf0 = true → pageOffset .pf0 off.toNat = none → windowAt (off.toNat / 4) = some r →
      Answers (.registerWrite (.host .pf0 off v 0xF#4 1)) s (s.dev.regWrite .host r v) ∧
      (∀ be, be ≠ 0xF#4 → Answers (.registerWrite (.host .pf0 off v be 1)) s (s.dev.blockError r)) ∧
      ∀ be n, n ≠ 1 → Answers (.registerWrite (.host .pf0 off v be n)) s (s.dev.aer .pf0 aerUr)) ∧
    (∀ f off v be n s, s.dev.barReached f = true → pageOffset f off.toNat = none → (f ≠ .pf0 ∨ windowAt (off.toNat / 4) = none) →
      Answers (.registerWrite (.host f off v be n)) s s.dev) ∧
    (∀ f off n s, s.dev.barReached f = false → Answers (.registerWrite (.hostRead f off n)) s (s.dev.readBack none)) ∧
    (∀ f off o s, s.dev.barReached f = true → pageOffset f off.toNat = some o →
      Answers (.registerWrite (.hostRead f off 1)) s (s.dev.readBack (some ((s.dev.pageRead f o).setWidth 64))) ∧
      ∀ n, n ≠ 1 → Answers (.registerWrite (.hostRead f off n)) s ((s.dev.readBack none).send (.unsupported f))) ∧
    (∀ off r s, s.dev.barReached .pf0 = true → pageOffset .pf0 off.toNat = none → windowAt (off.toNat / 4) = some r →
      Answers (.registerWrite (.hostRead .pf0 off 1)) s (s.dev.readBack (some ((s.dev.regRead .host r).setWidth 64))) ∧
      ∀ n, n ≠ 1 → Answers (.registerWrite (.hostRead .pf0 off n)) s ((s.dev.readBack none).send (.unsupported .pf0))) ∧
    (∀ f off n s, s.dev.barReached f = true → pageOffset f off.toNat = none → (f ≠ .pf0 ∨ windowAt (off.toNat / 4) = none) →
      Answers (.registerWrite (.hostRead f off n)) s (s.dev.readBack (some 0))) ∧
    (∀ c a v s r, coreWindow c a = some r → Answers (.registerWrite (.core c a v)) s (s.dev.regWrite (coreAgent c) r (v.extractLsb' 0 32))) ∧
    (∀ c a v s, coreWindow c a = none → Answers (.registerWrite (.core c a v)) s s.dev) ∧
    (∀ n s, s.dev.sidebandAnswers = false → Answers (.registerWrite (.sensor n)) s (s.dev.readBack none)) ∧
    (∀ n s, s.dev.sidebandAnswers = true →
      AnswersWith (.registerWrite (.sensor n)) s (fun d =>
        d.items = s.dev.items ∧ d.piers = s.dev.piers ∧
        (n = .lifecycle → d.host.lastRead = some (s.dev.life.life.setWidth 64)) ∧
        (∀ m, s.dev.fc.sample = some m →
          (∀ k, n = .die k → k < 24 → d.host.lastRead = (m.die[k]?).map (BitVec.ofInt 64)) ∧
          (∀ k, n = .stack k → d.host.lastRead = some (BitVec.ofInt 64 (if k = 0 then m.stack0 else m.stack1))) ∧
          (n = .current → d.host.lastRead = some (BitVec.ofInt 64 m.current)) ∧
          (n = .power → d.host.lastRead = some (BitVec.ofInt 64 m.power)))))) ∧
  -- R8, R11, R283, R304, R361, R364, R376, R450 and R461: reserved values keep the field and set CFG_ERR; RWL fields
  -- change in START-UP, TEST and RECOVERY alone; a write of the setter's block has the waiting batches reconsidered. A
  -- pier in reset or OFF takes no write (the model's choice, log 69).
  (∀ (d : Dev) (a : Agent) (v : DW),
      (v.extractLsb' 0 16 = 0#16 →
        d.regWrite a (.st 1) v = (Dev.eagerAll { d with setter := { d.setter with err := true } }).placeNext) ∧
      (v.extractLsb' 0 16 ≠ 0#16 →
        d.regWrite a (.st 1) v = (Dev.eagerAll { d with setter := { d.setter with win := v.extractLsb' 0 16 } }).placeNext) ∧
      (v.extractLsb' 0 10 = 0#10 ∨ 1000 < (v.extractLsb' 0 10).toNat → d.regWrite a (.fc 8) v = { d with fc := { d.fc with err := true } }) ∧
      (1 ≤ (v.extractLsb' 0 10).toNat → (v.extractLsb' 0 10).toNat ≤ 1000 →
        d.regWrite a (.fc 8) v = { d with fc := { d.fc with period := v.extractLsb' 0 10 } }) ∧
      (d.unlocked = false → v.getLsbD 0 ≠ d.life.remap → d.regWrite a (.fr 1) v = { d with life := { d.life with frErr := true } }) ∧
      (d.unlocked = true → (d.regWrite a (.fr 1) v).life.remap = v.getLsbD 0) ∧
      (∀ p : Fin 16, d.reachable p = true →
        (d.regWrite a (.pr p 0x10) v).pier p = { d.pier p with regs := { (d.pier p).regs with
          tag := v.extractLsb' 0 22
          s1w := if v.extractLsb' 22 2 = 3#2 then (d.pier p).regs.s1w else v.extractLsb' 22 2
          prErr := (d.pier p).regs.prErr || decide (v.extractLsb' 22 2 = 3#2) } } ∧
        (d.regWrite a (.pr p 0x0C) v).pier p = { d.pier p with regs := { (d.pier p).regs with
          reten := v.extractLsb' 0 16
          idle := if v.extractLsb' 16 16 = 0#16 then (d.pier p).regs.idle else v.extractLsb' 16 16
          prErr := (d.pier p).regs.prErr || decide (v.extractLsb' 16 16 = 0#16) } }) ∧
      (∀ p : Fin 16, d.reachable p = false → ∀ k,
        d.regWrite a (.pr p k) v = d ∧ d.regWrite a (.qy p k) v = d ∧ d.regWrite a (.pt p k) v = d))

/-- R27, R204, R267 and R461, by log entry 3: on an empty queue one AON tick passes: TIME counts from POR, running core timers
count down, and nothing else of the architecture changes. -/
def Obligations.TickOnAnEmptyQueue : Prop :=
  ∀ d : Dev, ∃ e, step ⟨d, []⟩ = .next ⟨e, []⟩ ∧
    (d.board.porLow = true → e = d) ∧
    (d.board.porLow = false → e.time = d.time + 1 ∧
      (∀ c, e.core c = { d.core c with tmr := if (d.core c).tmrRun = true ∧ (d.core c).tmr ≠ 0 then (d.core c).tmr - 1 else (d.core c).tmr }) ∧
      (∀ p : Fin 16, (e.pier p).mem = (d.pier p).mem ∧ (e.pier p).regs = (d.pier p).regs ∧ (e.pier p).runs = (d.pier p).runs) ∧
      e.host = d.host ∧ e.items = d.items ∧ e.setter = d.setter ∧ e.audit = d.audit ∧ e.fc = d.fc ∧ e.pw = d.pw ∧ e.life = d.life)

/-- What reset leaves where the spec gives the value: R27, R199, R268, R278, R283, R305, R376, R450, R461, R472, R473 and R477. -/
def Obligations.ResetState : Prop :=
  -- What reset leaves where the spec gives the value: R27, R199, R268, R278, R283, R305, R329, R376, R450, R461, R472,
  -- R473 and R477.
  (
    let d := State.reset.dev
    State.reset.pending = [] ∧ d.time = 0 ∧ d.items = [] ∧ d.sessions = [] ∧ d.life.op = .startUp ∧
    d.pw.budget = 480 ∧ d.pw.scap = 560 ∧ d.fc.period = 100#10 ∧ d.setter.win = 100#16 ∧ d.setter.bmax = 4096#13 ∧
    d.setter.minawake = 2#5 ∧ d.setter.en = 0xFFFF#16 ∧
    (∀ c, d.core c = {} ∧ (d.core c).a = 0 ∧ (d.core c).sw = 0 ∧ (d.core c).sbuf = [] ∧ (d.core c).run = .reset) ∧
    (∀ p : Fin 16, memCanonical (d.pier p) ∧ (d.pier p).pw.st = .off ∧ (d.pier p).regs.idle = 0x0271#16 ∧
      (d.pier p).regs.reten = 0x7FFF#16 ∧ (d.pier p).lapB.limit = 0x017D7840#32 ∧ (d.pier p).lapQ.limit = 0x59682F00#32 ∧
      (∀ b : Fin 16, (d.pier p).mem.bank[b].owner = if b = 15 then 0x40#7 else 0x7F#7) ∧
      ∀ q : Fin 64, (d.pier p).regs.s2cfg[q].s2w = 3#2)) ∧
  -- R472: the legal range of the power cap and of the software cap holds at reset.
  (capsLegal State.reset.dev)

/-- R472 and R473: whatever command a step runs, the power cap and the software cap stay in their legal range. -/
def Obligations.CapsStayLegal : Prop :=
  ∀ s t : State, capsLegal s.dev → step s = .next t → capsLegal t.dev
end

