-- ==== Sys2Proof/Laws/State.lean ====
section
/-! SUPPORT. What the named updates of the device leave and what they write: one lemma per field and update. -/

namespace Sys2Proof.Machine

open Sys2Proof

/-! ### `setPier` -/

@[simp] theorem Dev.setPier_time (d : Dev) (p : Fin 16) (x : Pier) : (d.setPier p x).time = d.time := rfl
@[simp] theorem Dev.setPier_warden (d : Dev) (p : Fin 16) (x : Pier) : (d.setPier p x).warden = d.warden := rfl
@[simp] theorem Dev.setPier_host (d : Dev) (p : Fin 16) (x : Pier) : (d.setPier p x).host = d.host := rfl
@[simp] theorem Dev.setPier_items (d : Dev) (p : Fin 16) (x : Pier) : (d.setPier p x).items = d.items := rfl
@[simp] theorem Dev.setPier_nextItem (d : Dev) (p : Fin 16) (x : Pier) : (d.setPier p x).nextItem = d.nextItem := rfl
@[simp] theorem Dev.setPier_sessions (d : Dev) (p : Fin 16) (x : Pier) : (d.setPier p x).sessions = d.sessions := rfl
@[simp] theorem Dev.setPier_setter (d : Dev) (p : Fin 16) (x : Pier) : (d.setPier p x).setter = d.setter := rfl
@[simp] theorem Dev.setPier_audit (d : Dev) (p : Fin 16) (x : Pier) : (d.setPier p x).audit = d.audit := rfl
@[simp] theorem Dev.setPier_ks (d : Dev) (p : Fin 16) (x : Pier) : (d.setPier p x).ks = d.ks := rfl
@[simp] theorem Dev.setPier_flash (d : Dev) (p : Fin 16) (x : Pier) : (d.setPier p x).flash = d.flash := rfl
@[simp] theorem Dev.setPier_fc (d : Dev) (p : Fin 16) (x : Pier) : (d.setPier p x).fc = d.fc := rfl
@[simp] theorem Dev.setPier_pw (d : Dev) (p : Fin 16) (x : Pier) : (d.setPier p x).pw = d.pw := rfl
@[simp] theorem Dev.setPier_board (d : Dev) (p : Fin 16) (x : Pier) : (d.setPier p x).board = d.board := rfl
@[simp] theorem Dev.setPier_life (d : Dev) (p : Fin 16) (x : Pier) : (d.setPier p x).life = d.life := rfl
@[simp] theorem Dev.setPier_parts (d : Dev) (p : Fin 16) (x : Pier) : (d.setPier p x).parts = d.parts := rfl
@[simp] theorem Dev.setPier_loaded (d : Dev) (p : Fin 16) (x : Pier) : (d.setPier p x).loaded = d.loaded := rfl
@[simp] theorem Dev.setPier_changes (d : Dev) (p : Fin 16) (x : Pier) : (d.setPier p x).changes = d.changes := rfl
@[simp] theorem Dev.setPier_fresh (d : Dev) (p : Fin 16) (x : Pier) : (d.setPier p x).fresh = d.fresh := rfl

/-! ### `onPier` -/

@[simp] theorem Dev.onPier_time (d : Dev) (p : Fin 16) (f : Pier → Pier) : (d.onPier p f).time = d.time := rfl
@[simp] theorem Dev.onPier_warden (d : Dev) (p : Fin 16) (f : Pier → Pier) : (d.onPier p f).warden = d.warden := rfl
@[simp] theorem Dev.onPier_host (d : Dev) (p : Fin 16) (f : Pier → Pier) : (d.onPier p f).host = d.host := rfl
@[simp] theorem Dev.onPier_items (d : Dev) (p : Fin 16) (f : Pier → Pier) : (d.onPier p f).items = d.items := rfl
@[simp] theorem Dev.onPier_nextItem (d : Dev) (p : Fin 16) (f : Pier → Pier) : (d.onPier p f).nextItem = d.nextItem := rfl
@[simp] theorem Dev.onPier_sessions (d : Dev) (p : Fin 16) (f : Pier → Pier) : (d.onPier p f).sessions = d.sessions := rfl
@[simp] theorem Dev.onPier_setter (d : Dev) (p : Fin 16) (f : Pier → Pier) : (d.onPier p f).setter = d.setter := rfl
@[simp] theorem Dev.onPier_audit (d : Dev) (p : Fin 16) (f : Pier → Pier) : (d.onPier p f).audit = d.audit := rfl
@[simp] theorem Dev.onPier_ks (d : Dev) (p : Fin 16) (f : Pier → Pier) : (d.onPier p f).ks = d.ks := rfl
@[simp] theorem Dev.onPier_flash (d : Dev) (p : Fin 16) (f : Pier → Pier) : (d.onPier p f).flash = d.flash := rfl
@[simp] theorem Dev.onPier_fc (d : Dev) (p : Fin 16) (f : Pier → Pier) : (d.onPier p f).fc = d.fc := rfl
@[simp] theorem Dev.onPier_pw (d : Dev) (p : Fin 16) (f : Pier → Pier) : (d.onPier p f).pw = d.pw := rfl
@[simp] theorem Dev.onPier_board (d : Dev) (p : Fin 16) (f : Pier → Pier) : (d.onPier p f).board = d.board := rfl
@[simp] theorem Dev.onPier_life (d : Dev) (p : Fin 16) (f : Pier → Pier) : (d.onPier p f).life = d.life := rfl
@[simp] theorem Dev.onPier_parts (d : Dev) (p : Fin 16) (f : Pier → Pier) : (d.onPier p f).parts = d.parts := rfl
@[simp] theorem Dev.onPier_loaded (d : Dev) (p : Fin 16) (f : Pier → Pier) : (d.onPier p f).loaded = d.loaded := rfl
@[simp] theorem Dev.onPier_changes (d : Dev) (p : Fin 16) (f : Pier → Pier) : (d.onPier p f).changes = d.changes := rfl
@[simp] theorem Dev.onPier_fresh (d : Dev) (p : Fin 16) (f : Pier → Pier) : (d.onPier p f).fresh = d.fresh := rfl

/-! ### `allPiers` -/

@[simp] theorem Dev.allPiers_time (d : Dev) (f : Pier → Pier) : (d.allPiers f).time = d.time := rfl
@[simp] theorem Dev.allPiers_warden (d : Dev) (f : Pier → Pier) : (d.allPiers f).warden = d.warden := rfl
@[simp] theorem Dev.allPiers_host (d : Dev) (f : Pier → Pier) : (d.allPiers f).host = d.host := rfl
@[simp] theorem Dev.allPiers_items (d : Dev) (f : Pier → Pier) : (d.allPiers f).items = d.items := rfl
@[simp] theorem Dev.allPiers_nextItem (d : Dev) (f : Pier → Pier) : (d.allPiers f).nextItem = d.nextItem := rfl
@[simp] theorem Dev.allPiers_sessions (d : Dev) (f : Pier → Pier) : (d.allPiers f).sessions = d.sessions := rfl
@[simp] theorem Dev.allPiers_setter (d : Dev) (f : Pier → Pier) : (d.allPiers f).setter = d.setter := rfl
@[simp] theorem Dev.allPiers_audit (d : Dev) (f : Pier → Pier) : (d.allPiers f).audit = d.audit := rfl
@[simp] theorem Dev.allPiers_ks (d : Dev) (f : Pier → Pier) : (d.allPiers f).ks = d.ks := rfl
@[simp] theorem Dev.allPiers_flash (d : Dev) (f : Pier → Pier) : (d.allPiers f).flash = d.flash := rfl
@[simp] theorem Dev.allPiers_fc (d : Dev) (f : Pier → Pier) : (d.allPiers f).fc = d.fc := rfl
@[simp] theorem Dev.allPiers_pw (d : Dev) (f : Pier → Pier) : (d.allPiers f).pw = d.pw := rfl
@[simp] theorem Dev.allPiers_board (d : Dev) (f : Pier → Pier) : (d.allPiers f).board = d.board := rfl
@[simp] theorem Dev.allPiers_life (d : Dev) (f : Pier → Pier) : (d.allPiers f).life = d.life := rfl
@[simp] theorem Dev.allPiers_parts (d : Dev) (f : Pier → Pier) : (d.allPiers f).parts = d.parts := rfl
@[simp] theorem Dev.allPiers_loaded (d : Dev) (f : Pier → Pier) : (d.allPiers f).loaded = d.loaded := rfl
@[simp] theorem Dev.allPiers_changes (d : Dev) (f : Pier → Pier) : (d.allPiers f).changes = d.changes := rfl
@[simp] theorem Dev.allPiers_fresh (d : Dev) (f : Pier → Pier) : (d.allPiers f).fresh = d.fresh := rfl

/-! ### `setCore` -/

@[simp] theorem Dev.setCore_time (d : Dev) (c : CoreId) (x : Core) : (d.setCore c x).time = d.time := by cases c <;> rfl
@[simp] theorem Dev.setCore_host (d : Dev) (c : CoreId) (x : Core) : (d.setCore c x).host = d.host := by cases c <;> rfl
@[simp] theorem Dev.setCore_items (d : Dev) (c : CoreId) (x : Core) : (d.setCore c x).items = d.items := by cases c <;> rfl
@[simp] theorem Dev.setCore_nextItem (d : Dev) (c : CoreId) (x : Core) : (d.setCore c x).nextItem = d.nextItem := by cases c <;> rfl
@[simp] theorem Dev.setCore_sessions (d : Dev) (c : CoreId) (x : Core) : (d.setCore c x).sessions = d.sessions := by cases c <;> rfl
@[simp] theorem Dev.setCore_setter (d : Dev) (c : CoreId) (x : Core) : (d.setCore c x).setter = d.setter := by cases c <;> rfl
@[simp] theorem Dev.setCore_audit (d : Dev) (c : CoreId) (x : Core) : (d.setCore c x).audit = d.audit := by cases c <;> rfl
@[simp] theorem Dev.setCore_ks (d : Dev) (c : CoreId) (x : Core) : (d.setCore c x).ks = d.ks := by cases c <;> rfl
@[simp] theorem Dev.setCore_flash (d : Dev) (c : CoreId) (x : Core) : (d.setCore c x).flash = d.flash := by cases c <;> rfl
@[simp] theorem Dev.setCore_fc (d : Dev) (c : CoreId) (x : Core) : (d.setCore c x).fc = d.fc := by cases c <;> rfl
@[simp] theorem Dev.setCore_pw (d : Dev) (c : CoreId) (x : Core) : (d.setCore c x).pw = d.pw := by cases c <;> rfl
@[simp] theorem Dev.setCore_board (d : Dev) (c : CoreId) (x : Core) : (d.setCore c x).board = d.board := by cases c <;> rfl
@[simp] theorem Dev.setCore_life (d : Dev) (c : CoreId) (x : Core) : (d.setCore c x).life = d.life := by cases c <;> rfl
@[simp] theorem Dev.setCore_parts (d : Dev) (c : CoreId) (x : Core) : (d.setCore c x).parts = d.parts := by cases c <;> rfl
@[simp] theorem Dev.setCore_loaded (d : Dev) (c : CoreId) (x : Core) : (d.setCore c x).loaded = d.loaded := by cases c <;> rfl
@[simp] theorem Dev.setCore_changes (d : Dev) (c : CoreId) (x : Core) : (d.setCore c x).changes = d.changes := by cases c <;> rfl
@[simp] theorem Dev.setCore_fresh (d : Dev) (c : CoreId) (x : Core) : (d.setCore c x).fresh = d.fresh := by cases c <;> rfl

/-! ### `onCore` -/

@[simp] theorem Dev.onCore_time (d : Dev) (c : CoreId) (f : Core → Core) : (d.onCore c f).time = d.time := by cases c <;> rfl
@[simp] theorem Dev.onCore_host (d : Dev) (c : CoreId) (f : Core → Core) : (d.onCore c f).host = d.host := by cases c <;> rfl
@[simp] theorem Dev.onCore_items (d : Dev) (c : CoreId) (f : Core → Core) : (d.onCore c f).items = d.items := by cases c <;> rfl
@[simp] theorem Dev.onCore_nextItem (d : Dev) (c : CoreId) (f : Core → Core) : (d.onCore c f).nextItem = d.nextItem := by cases c <;> rfl
@[simp] theorem Dev.onCore_sessions (d : Dev) (c : CoreId) (f : Core → Core) : (d.onCore c f).sessions = d.sessions := by cases c <;> rfl
@[simp] theorem Dev.onCore_setter (d : Dev) (c : CoreId) (f : Core → Core) : (d.onCore c f).setter = d.setter := by cases c <;> rfl
@[simp] theorem Dev.onCore_audit (d : Dev) (c : CoreId) (f : Core → Core) : (d.onCore c f).audit = d.audit := by cases c <;> rfl
@[simp] theorem Dev.onCore_ks (d : Dev) (c : CoreId) (f : Core → Core) : (d.onCore c f).ks = d.ks := by cases c <;> rfl
@[simp] theorem Dev.onCore_flash (d : Dev) (c : CoreId) (f : Core → Core) : (d.onCore c f).flash = d.flash := by cases c <;> rfl
@[simp] theorem Dev.onCore_fc (d : Dev) (c : CoreId) (f : Core → Core) : (d.onCore c f).fc = d.fc := by cases c <;> rfl
@[simp] theorem Dev.onCore_pw (d : Dev) (c : CoreId) (f : Core → Core) : (d.onCore c f).pw = d.pw := by cases c <;> rfl
@[simp] theorem Dev.onCore_board (d : Dev) (c : CoreId) (f : Core → Core) : (d.onCore c f).board = d.board := by cases c <;> rfl
@[simp] theorem Dev.onCore_life (d : Dev) (c : CoreId) (f : Core → Core) : (d.onCore c f).life = d.life := by cases c <;> rfl
@[simp] theorem Dev.onCore_parts (d : Dev) (c : CoreId) (f : Core → Core) : (d.onCore c f).parts = d.parts := by cases c <;> rfl
@[simp] theorem Dev.onCore_loaded (d : Dev) (c : CoreId) (f : Core → Core) : (d.onCore c f).loaded = d.loaded := by cases c <;> rfl
@[simp] theorem Dev.onCore_changes (d : Dev) (c : CoreId) (f : Core → Core) : (d.onCore c f).changes = d.changes := by cases c <;> rfl
@[simp] theorem Dev.onCore_fresh (d : Dev) (c : CoreId) (f : Core → Core) : (d.onCore c f).fresh = d.fresh := by cases c <;> rfl

/-! ### `onFn` -/

@[simp] theorem Dev.onFn_time (d : Dev) (f : FnId) (g : Func → Func) : (d.onFn f g).time = d.time := rfl
@[simp] theorem Dev.onFn_piers (d : Dev) (f : FnId) (g : Func → Func) : (d.onFn f g).piers = d.piers := rfl
@[simp] theorem Dev.onFn_warden (d : Dev) (f : FnId) (g : Func → Func) : (d.onFn f g).warden = d.warden := rfl
@[simp] theorem Dev.onFn_items (d : Dev) (f : FnId) (g : Func → Func) : (d.onFn f g).items = d.items := rfl
@[simp] theorem Dev.onFn_nextItem (d : Dev) (f : FnId) (g : Func → Func) : (d.onFn f g).nextItem = d.nextItem := rfl
@[simp] theorem Dev.onFn_sessions (d : Dev) (f : FnId) (g : Func → Func) : (d.onFn f g).sessions = d.sessions := rfl
@[simp] theorem Dev.onFn_setter (d : Dev) (f : FnId) (g : Func → Func) : (d.onFn f g).setter = d.setter := rfl
@[simp] theorem Dev.onFn_audit (d : Dev) (f : FnId) (g : Func → Func) : (d.onFn f g).audit = d.audit := rfl
@[simp] theorem Dev.onFn_ks (d : Dev) (f : FnId) (g : Func → Func) : (d.onFn f g).ks = d.ks := rfl
@[simp] theorem Dev.onFn_flash (d : Dev) (f : FnId) (g : Func → Func) : (d.onFn f g).flash = d.flash := rfl
@[simp] theorem Dev.onFn_fc (d : Dev) (f : FnId) (g : Func → Func) : (d.onFn f g).fc = d.fc := rfl
@[simp] theorem Dev.onFn_pw (d : Dev) (f : FnId) (g : Func → Func) : (d.onFn f g).pw = d.pw := rfl
@[simp] theorem Dev.onFn_board (d : Dev) (f : FnId) (g : Func → Func) : (d.onFn f g).board = d.board := rfl
@[simp] theorem Dev.onFn_life (d : Dev) (f : FnId) (g : Func → Func) : (d.onFn f g).life = d.life := rfl
@[simp] theorem Dev.onFn_parts (d : Dev) (f : FnId) (g : Func → Func) : (d.onFn f g).parts = d.parts := rfl
@[simp] theorem Dev.onFn_loaded (d : Dev) (f : FnId) (g : Func → Func) : (d.onFn f g).loaded = d.loaded := rfl
@[simp] theorem Dev.onFn_changes (d : Dev) (f : FnId) (g : Func → Func) : (d.onFn f g).changes = d.changes := rfl
@[simp] theorem Dev.onFn_fresh (d : Dev) (f : FnId) (g : Func → Func) : (d.onFn f g).fresh = d.fresh := rfl

/-! ### `onRing` -/

@[simp] theorem Dev.onRing_time (d : Dev) (f : FnId) (r : Fin 64) (g : Ring → Ring) : (d.onRing f r g).time = d.time := rfl
@[simp] theorem Dev.onRing_piers (d : Dev) (f : FnId) (r : Fin 64) (g : Ring → Ring) : (d.onRing f r g).piers = d.piers := rfl
@[simp] theorem Dev.onRing_warden (d : Dev) (f : FnId) (r : Fin 64) (g : Ring → Ring) : (d.onRing f r g).warden = d.warden := rfl
@[simp] theorem Dev.onRing_items (d : Dev) (f : FnId) (r : Fin 64) (g : Ring → Ring) : (d.onRing f r g).items = d.items := rfl
@[simp] theorem Dev.onRing_nextItem (d : Dev) (f : FnId) (r : Fin 64) (g : Ring → Ring) : (d.onRing f r g).nextItem = d.nextItem := rfl
@[simp] theorem Dev.onRing_sessions (d : Dev) (f : FnId) (r : Fin 64) (g : Ring → Ring) : (d.onRing f r g).sessions = d.sessions := rfl
@[simp] theorem Dev.onRing_setter (d : Dev) (f : FnId) (r : Fin 64) (g : Ring → Ring) : (d.onRing f r g).setter = d.setter := rfl
@[simp] theorem Dev.onRing_audit (d : Dev) (f : FnId) (r : Fin 64) (g : Ring → Ring) : (d.onRing f r g).audit = d.audit := rfl
@[simp] theorem Dev.onRing_ks (d : Dev) (f : FnId) (r : Fin 64) (g : Ring → Ring) : (d.onRing f r g).ks = d.ks := rfl
@[simp] theorem Dev.onRing_flash (d : Dev) (f : FnId) (r : Fin 64) (g : Ring → Ring) : (d.onRing f r g).flash = d.flash := rfl
@[simp] theorem Dev.onRing_fc (d : Dev) (f : FnId) (r : Fin 64) (g : Ring → Ring) : (d.onRing f r g).fc = d.fc := rfl
@[simp] theorem Dev.onRing_pw (d : Dev) (f : FnId) (r : Fin 64) (g : Ring → Ring) : (d.onRing f r g).pw = d.pw := rfl
@[simp] theorem Dev.onRing_board (d : Dev) (f : FnId) (r : Fin 64) (g : Ring → Ring) : (d.onRing f r g).board = d.board := rfl
@[simp] theorem Dev.onRing_life (d : Dev) (f : FnId) (r : Fin 64) (g : Ring → Ring) : (d.onRing f r g).life = d.life := rfl
@[simp] theorem Dev.onRing_parts (d : Dev) (f : FnId) (r : Fin 64) (g : Ring → Ring) : (d.onRing f r g).parts = d.parts := rfl
@[simp] theorem Dev.onRing_loaded (d : Dev) (f : FnId) (r : Fin 64) (g : Ring → Ring) : (d.onRing f r g).loaded = d.loaded := rfl
@[simp] theorem Dev.onRing_changes (d : Dev) (f : FnId) (r : Fin 64) (g : Ring → Ring) : (d.onRing f r g).changes = d.changes := rfl
@[simp] theorem Dev.onRing_fresh (d : Dev) (f : FnId) (r : Fin 64) (g : Ring → Ring) : (d.onRing f r g).fresh = d.fresh := rfl

/-! ### `send` -/

@[simp] theorem Dev.send_time (d : Dev) (o : Out) : (d.send o).time = d.time := rfl
@[simp] theorem Dev.send_piers (d : Dev) (o : Out) : (d.send o).piers = d.piers := rfl
@[simp] theorem Dev.send_warden (d : Dev) (o : Out) : (d.send o).warden = d.warden := rfl
@[simp] theorem Dev.send_items (d : Dev) (o : Out) : (d.send o).items = d.items := rfl
@[simp] theorem Dev.send_nextItem (d : Dev) (o : Out) : (d.send o).nextItem = d.nextItem := rfl
@[simp] theorem Dev.send_sessions (d : Dev) (o : Out) : (d.send o).sessions = d.sessions := rfl
@[simp] theorem Dev.send_setter (d : Dev) (o : Out) : (d.send o).setter = d.setter := rfl
@[simp] theorem Dev.send_audit (d : Dev) (o : Out) : (d.send o).audit = d.audit := rfl
@[simp] theorem Dev.send_ks (d : Dev) (o : Out) : (d.send o).ks = d.ks := rfl
@[simp] theorem Dev.send_flash (d : Dev) (o : Out) : (d.send o).flash = d.flash := rfl
@[simp] theorem Dev.send_fc (d : Dev) (o : Out) : (d.send o).fc = d.fc := rfl
@[simp] theorem Dev.send_pw (d : Dev) (o : Out) : (d.send o).pw = d.pw := rfl
@[simp] theorem Dev.send_board (d : Dev) (o : Out) : (d.send o).board = d.board := rfl
@[simp] theorem Dev.send_life (d : Dev) (o : Out) : (d.send o).life = d.life := rfl
@[simp] theorem Dev.send_parts (d : Dev) (o : Out) : (d.send o).parts = d.parts := rfl
@[simp] theorem Dev.send_loaded (d : Dev) (o : Out) : (d.send o).loaded = d.loaded := rfl
@[simp] theorem Dev.send_changes (d : Dev) (o : Out) : (d.send o).changes = d.changes := rfl
@[simp] theorem Dev.send_fresh (d : Dev) (o : Out) : (d.send o).fresh = d.fresh := rfl

/-! ### `used` -/

@[simp] theorem Dev.used_time (d : Dev) : (d.used).time = d.time := rfl
@[simp] theorem Dev.used_piers (d : Dev) : (d.used).piers = d.piers := rfl
@[simp] theorem Dev.used_warden (d : Dev) : (d.used).warden = d.warden := rfl
@[simp] theorem Dev.used_host (d : Dev) : (d.used).host = d.host := rfl
@[simp] theorem Dev.used_items (d : Dev) : (d.used).items = d.items := rfl
@[simp] theorem Dev.used_nextItem (d : Dev) : (d.used).nextItem = d.nextItem := rfl
@[simp] theorem Dev.used_sessions (d : Dev) : (d.used).sessions = d.sessions := rfl
@[simp] theorem Dev.used_setter (d : Dev) : (d.used).setter = d.setter := rfl
@[simp] theorem Dev.used_audit (d : Dev) : (d.used).audit = d.audit := rfl
@[simp] theorem Dev.used_ks (d : Dev) : (d.used).ks = d.ks := rfl
@[simp] theorem Dev.used_flash (d : Dev) : (d.used).flash = d.flash := rfl
@[simp] theorem Dev.used_fc (d : Dev) : (d.used).fc = d.fc := rfl
@[simp] theorem Dev.used_pw (d : Dev) : (d.used).pw = d.pw := rfl
@[simp] theorem Dev.used_board (d : Dev) : (d.used).board = d.board := rfl
@[simp] theorem Dev.used_life (d : Dev) : (d.used).life = d.life := rfl
@[simp] theorem Dev.used_parts (d : Dev) : (d.used).parts = d.parts := rfl
@[simp] theorem Dev.used_loaded (d : Dev) : (d.used).loaded = d.loaded := rfl
@[simp] theorem Dev.used_changes (d : Dev) : (d.used).changes = d.changes := rfl

/-! ### `detect` -/

@[simp] theorem Dev.detect_time (d : Dev) (a b x y : Nat) : (d.detect a b x y).time = d.time := rfl
@[simp] theorem Dev.detect_piers (d : Dev) (a b x y : Nat) : (d.detect a b x y).piers = d.piers := rfl
@[simp] theorem Dev.detect_warden (d : Dev) (a b x y : Nat) : (d.detect a b x y).warden = d.warden := rfl
@[simp] theorem Dev.detect_host (d : Dev) (a b x y : Nat) : (d.detect a b x y).host = d.host := rfl
@[simp] theorem Dev.detect_items (d : Dev) (a b x y : Nat) : (d.detect a b x y).items = d.items := rfl
@[simp] theorem Dev.detect_nextItem (d : Dev) (a b x y : Nat) : (d.detect a b x y).nextItem = d.nextItem := rfl
@[simp] theorem Dev.detect_sessions (d : Dev) (a b x y : Nat) : (d.detect a b x y).sessions = d.sessions := rfl
@[simp] theorem Dev.detect_setter (d : Dev) (a b x y : Nat) : (d.detect a b x y).setter = d.setter := rfl
@[simp] theorem Dev.detect_audit (d : Dev) (a b x y : Nat) : (d.detect a b x y).audit = d.audit := rfl
@[simp] theorem Dev.detect_ks (d : Dev) (a b x y : Nat) : (d.detect a b x y).ks = d.ks := rfl
@[simp] theorem Dev.detect_flash (d : Dev) (a b x y : Nat) : (d.detect a b x y).flash = d.flash := rfl
@[simp] theorem Dev.detect_pw (d : Dev) (a b x y : Nat) : (d.detect a b x y).pw = d.pw := rfl
@[simp] theorem Dev.detect_board (d : Dev) (a b x y : Nat) : (d.detect a b x y).board = d.board := rfl
@[simp] theorem Dev.detect_life (d : Dev) (a b x y : Nat) : (d.detect a b x y).life = d.life := rfl
@[simp] theorem Dev.detect_parts (d : Dev) (a b x y : Nat) : (d.detect a b x y).parts = d.parts := rfl
@[simp] theorem Dev.detect_loaded (d : Dev) (a b x y : Nat) : (d.detect a b x y).loaded = d.loaded := rfl
@[simp] theorem Dev.detect_changes (d : Dev) (a b x y : Nat) : (d.detect a b x y).changes = d.changes := rfl
@[simp] theorem Dev.detect_fresh (d : Dev) (a b x y : Nat) : (d.detect a b x y).fresh = d.fresh := rfl

/-! ### What is written -/

@[simp] theorem Dev.pier_setPier_self (d : Dev) (p : Fin 16) (x : Pier) : (d.setPier p x).pier p = x := by
  simp [Dev.pier, Dev.setPier]

theorem Dev.pier_setPier_of_ne (d : Dev) {p q : Fin 16} (x : Pier) (h : q ≠ p) : (d.setPier p x).pier q = d.pier q := by
  have : p.val ≠ q.val := fun e => h (Fin.ext e.symm)
  simp [Dev.pier, Dev.setPier, this]

@[simp] theorem Dev.pier_onPier_self (d : Dev) (p : Fin 16) (f : Pier → Pier) : (d.onPier p f).pier p = f (d.pier p) := by
  simp [Dev.onPier]

theorem Dev.pier_onPier_of_ne (d : Dev) {p q : Fin 16} (f : Pier → Pier) (h : q ≠ p) : (d.onPier p f).pier q = d.pier q := by
  simp [Dev.onPier, Dev.pier_setPier_of_ne d _ h]

@[simp] theorem Dev.pier_allPiers (d : Dev) (p : Fin 16) (f : Pier → Pier) : (d.allPiers f).pier p = f (d.pier p) := by
  simp [Dev.pier, Dev.allPiers]

@[simp] theorem Dev.setPier_setPier (d : Dev) (p : Fin 16) (x y : Pier) : (d.setPier p x).setPier p y = d.setPier p y := by
  simp [Dev.setPier]

@[simp] theorem Dev.setPier_pier (d : Dev) (p : Fin 16) : d.setPier p (d.pier p) = d := by
  simp [Dev.setPier, Dev.pier]

@[simp] theorem Dev.core_setCore_self (d : Dev) (c : CoreId) (x : Core) : (d.setCore c x).core c = x := by
  cases c <;> simp [Dev.core, Dev.setCore]

@[simp] theorem Dev.setCore_core (d : Dev) (c : CoreId) : d.setCore c (d.core c) = d := by
  cases c with
  | pier p => exact d.setPier_pier p
  | warden => rfl

@[simp] theorem Dev.setCore_setCore (d : Dev) (c : CoreId) (x y : Core) : (d.setCore c x).setCore c y = d.setCore c y := by
  cases c <;> simp [Dev.setCore, Dev.onPier]

@[simp] theorem Dev.core_onCore_self (d : Dev) (c : CoreId) (f : Core → Core) : (d.onCore c f).core c = f (d.core c) := by
  simp [Dev.onCore]

theorem Dev.core_setCore_of_ne (d : Dev) {c e : CoreId} (x : Core) (h : e ≠ c) : (d.setCore c x).core e = d.core e := by
  cases c with
  | warden =>
    cases e with
    | warden => exact absurd rfl h
    | pier q => rfl
  | pier p =>
    cases e with
    | warden => rfl
    | pier q => simp [Dev.core, Dev.setCore, Dev.pier_onPier_of_ne d _ (fun e => h (congrArg CoreId.pier e))]

theorem Dev.core_onCore_of_ne (d : Dev) {c e : CoreId} (f : Core → Core) (h : e ≠ c) : (d.onCore c f).core e = d.core e :=
  d.core_setCore_of_ne _ h

/-- A core keeps the pier outside it. -/
@[simp] theorem Dev.pier_setCore_self (d : Dev) (p : Fin 16) (x : Core) :
    (d.setCore (.pier p) x).pier p = { d.pier p with core := x } := by simp [Dev.setCore]

theorem fnNum_injective {f g : FnId} (h : fnNum f = fnNum g) : f = g := by
  have h := congrArg Fin.val h
  cases f with
  | vf v =>
    cases g with
    | vf w => exact congrArg FnId.vf (Fin.ext (Nat.add_right_cancel (h : v.val + 2 = w.val + 2)))
    | pf0 => have e : v.val + 2 = 0 := h; omega
    | pf1 => have e : v.val + 2 = 1 := h; omega
  | pf0 =>
    cases g with
    | vf w => have e : 0 = w.val + 2 := h; omega
    | pf0 => rfl
    | pf1 => have e : (0 : Nat) = 1 := h; omega
  | pf1 =>
    cases g with
    | vf w => have e : 1 = w.val + 2 := h; omega
    | pf0 => have e : (1 : Nat) = 0 := h; omega
    | pf1 => rfl

@[simp] theorem Dev.fn_onFn_self (d : Dev) (f : FnId) (g : Func → Func) : (d.onFn f g).fn f = g (d.fn f) := by
  simp [Dev.fn, Dev.onFn]

theorem Dev.fn_onFn_of_ne (d : Dev) {f e : FnId} (g : Func → Func) (h : e ≠ f) : (d.onFn f g).fn e = d.fn e := by
  have : (fnNum f).val ≠ (fnNum e).val := fun x => h (fnNum_injective (Fin.ext x.symm))
  simp [Dev.fn, Dev.onFn, this]

@[simp] theorem Dev.ring_onRing_self (d : Dev) (f : FnId) (r : Fin 64) (g : Ring → Ring) :
    (d.onRing f r g).ring f r = g (d.ring f r) := by
  simp [Dev.ring, Dev.onRing]

theorem Dev.ring_onRing_of_ne (d : Dev) (f : FnId) {r q : Fin 64} (g : Ring → Ring) (h : q ≠ r) :
    (d.onRing f r g).ring f q = d.ring f q := by
  have : r.val ≠ q.val := fun x => h (Fin.ext x.symm)
  simp [Dev.ring, Dev.onRing, this]

@[simp] theorem Dev.used_fresh (d : Dev) : d.used.fresh = d.fresh + 1 := rfl

@[simp] theorem Dev.send_out (d : Dev) (o : Out) : (d.send o).host.out = d.host.out ++ [o] := rfl

@[simp] theorem Dev.pier_used (d : Dev) (p : Fin 16) : d.used.pier p = d.pier p := rfl

@[simp] theorem Dev.core_used (d : Dev) (c : CoreId) : d.used.core c = d.core c := by cases c <;> rfl

@[simp] theorem Dev.pier_send (d : Dev) (o : Out) (p : Fin 16) : (d.send o).pier p = d.pier p := rfl

@[simp] theorem Dev.core_send (d : Dev) (o : Out) (c : CoreId) : (d.send o).core c = d.core c := by cases c <;> rfl

@[simp] theorem Dev.pier_detect (d : Dev) (a b x y : Nat) (p : Fin 16) : (d.detect a b x y).pier p = d.pier p := rfl

@[simp] theorem Dev.core_detect (d : Dev) (a b x y : Nat) (c : CoreId) : (d.detect a b x y).core c = d.core c := by
  cases c <;> rfl

@[simp] theorem Dev.pier_onFn (d : Dev) (f : FnId) (g : Func → Func) (p : Fin 16) : (d.onFn f g).pier p = d.pier p := rfl

@[simp] theorem Dev.pier_onRing (d : Dev) (f : FnId) (r : Fin 64) (g : Ring → Ring) (p : Fin 16) :
    (d.onRing f r g).pier p = d.pier p := rfl

/-- A command that answers leaves the queue and goes on with the device it names. -/
theorem State.answer_eq (s : State) (d : Dev) : s.answer d = .next { s with dev := d } := rfl

end Sys2Proof.Machine
end

