-- ==== Sys2Proof/Laws/Core.lean ====
section
/-! SUPPORT. What an instruction of a core does, once: its effect concluded, where nothing comes before it. -/

namespace Sys2Proof.Machine

open Sys2Proof

/-- Without a long operation there is nothing to deliver. -/
@[simp] theorem Core.deliver_of_none (k : Core) (h : k.longop = none) : k.deliver = k := by simp [Core.deliver, h]

@[simp] theorem Core.deliverFlags_of_none (k : Core) (h : k.longop = none) : k.deliverFlags = k := by
  simp [Core.deliverFlags, h]

/-- A delivery writes MQ, MH, FPCR and SW, leaves no long operation behind, and writes nothing else. -/
theorem Core.deliver_frame (k : Core) : ∃ mq mh fpcr sw,
    k.deliver = { k with longop := none, mq := mq, mh := mh, fpcr := fpcr, sw := sw } := by
  unfold Core.deliver
  cases h : k.longop with
  | none => exact ⟨k.mq, k.mh, k.fpcr, k.sw, by cases k; simp_all⟩
  | some o =>
    obtain ⟨f36, mq, mh, flags, dc, fp⟩ := o
    cases flags <;> exact ⟨_, _, _, _, rfl⟩

@[simp] theorem Core.deliver_longop (k : Core) : k.deliver.longop = none := by
  obtain ⟨_, _, _, _, h⟩ := k.deliver_frame
  rw [h]

@[simp] theorem Core.deliver_deliver (k : Core) : k.deliver.deliver = k.deliver :=
  k.deliver.deliver_of_none k.deliver_longop

@[simp] theorem Core.deliver_a (k : Core) : k.deliver.a = k.a := by
  obtain ⟨_, _, _, _, h⟩ := k.deliver_frame
  rw [h]

@[simp] theorem Core.deliver_tre (k : Core) : k.deliver.tre = k.tre := by
  obtain ⟨_, _, _, _, h⟩ := k.deliver_frame
  rw [h]

/-- Under the conditions of `Executes`, an instruction is its effect, concluded (R209, R210, R223, R235, R242, R261). -/
theorem Dev.instr_of_executes {d : Dev} {c : CoreId} {n : Nat} {f : Fld} (body : CoreId → Fld → Dev → Act)
    (h : Executes d c n f) : d.instr c n f body = Dev.conclude (d.core c) c n f (body c f d) := by
  have hd : (d.onCore c fun k => { k with sw := d.swHeld c k.sw }) = d := by
    have : ({ d.core c with sw := d.swHeld c (d.core c).sw } : Core) = d.core c := by rw [h.held]
    simp only [Dev.onCore, this, Dev.setCore_core]
  have hw : (if guardWaits f then d.onCore c Core.deliverFlags else d) = d := by
    split
    · rename_i hg
      simp [Dev.onCore, Core.deliverFlags_of_none _ (h.settled hg)]
    · rfl
  simp only [Dev.instr, h.ready, hd, h.taken, h.clean, h.fetched, h.legal, hw, h.guard]
  simp

/-- An instruction as a command, under the conditions of `Executes`. -/
theorem State.instr_of_executes {s : State} {c : CoreId} {n : Nat} {f : Fld} (body : CoreId → Fld → Dev → Act)
    (h : Executes s.dev c n f) :
    s.instr c n f body = .next { s with dev := Dev.conclude (s.dev.core c) c n f (body c f s.dev) } := by
  simp [State.instr, State.answer, Dev.instr_of_executes body h]

/-- An effect that completes. -/
theorem Dev.conclude_next (k : Core) (c : CoreId) {n : Nat} (f : Fld) (d : Dev) (h : n ≠ 0x3B) :
    Dev.conclude k c n f (.next d) = d.complete1 c := by simp [Dev.conclude, h]

/-- An effect that completes and traps. -/
theorem Dev.conclude_trap (k : Core) (c : CoreId) (n : Nat) (f : Fld) (d : Dev) (v : BitVec 7) :
    Dev.conclude k c n f (.trap v d) = withTrap (d.complete1 c) c (some v) := rfl

/-- A port that takes a source value and never traps computes its function. -/
theorem valueAct_computes {i : CoreId → Fld → Instr} {n : Nat} {g : Core → Word → Core} (hn : n ≠ 0x3B)
    (hx : ∀ c f s, exec (i c f) s = s.instr c n f (valueAct g)) : Computes i n g := by
  intro c f s w d he ho
  simp only [Answers, hx, State.instr_of_executes _ he, valueAct, CRes.act, ho, Dev.conclude_next _ _ _ _ hn, withTrap,
    completed, Dev.onCore]

/-- A port that takes a source value and may trap computes its function and takes its trap. -/
theorem trapAct_computes {i : CoreId → Fld → Instr} {n : Nat} {g : Core → Word → Core × Option (BitVec 7)} (hn : n ≠ 0x3B)
    (hx : ∀ c f s, exec (i c f) s = s.instr c n f (trapAct g)) :
    ComputesTrap i n (fun k w => (g k w).1) (fun k w => (g k w).2) := by
  intro c f s w d he ho
  simp only [Answers, hx, State.instr_of_executes _ he, trapAct, CRes.act, ho]
  split
  · rename_i v hv
    simp only [Dev.conclude_trap, completed, hv]
  · rename_i hv
    simp only [Dev.conclude_next _ _ _ _ hn, completed, hv, withTrap]

/-- What a port computes may be stated by any equal functions. -/
theorem ComputesTrap.congr {i : CoreId → Fld → Instr} {n : Nat} {g g' : Core → Word → Core}
    {t t' : Core → Word → Option (BitVec 7)} (h : ComputesTrap i n g t) (hg : ∀ k w, g k w = g' k w)
    (ht : ∀ k w, t k w = t' k w) : ComputesTrap i n g' t' := by
  have h1 : g = g' := funext fun k => funext fun w => hg k w
  have h2 : t = t' := funext fun k => funext fun w => ht k w
  exact h1 ▸ h2 ▸ h

end Sys2Proof.Machine
end

