-- ==== Sys2Proof/Laws/Memory.lean ====
section
/-! SUPPORT. The sparse memories: every operation keeps the canonical form. -/

namespace Sys2Proof.Machine

open Sys2Proof

/-- The canonical form of a memory with an entry in front. -/
theorem SMem.wf_cons {w : Nat} (b : Nat) (v : BitVec w) (m : SMem w) :
    SMem.wf ((b, v) :: m) = true ↔ v ≠ 0 ∧ (∀ e ∈ m, b < e.1) ∧ SMem.wf m = true := by
  simp [SMem.wf, and_assoc]

/-- What a write lists: the old entries and the address written. -/
theorem SMem.mem_set {w : Nat} (m : SMem w) (a : Nat) (x : BitVec w) (e : Nat × BitVec w) (h : e ∈ m.set a x) :
    e ∈ m ∨ e = (a, x) := by
  induction m with
  | nil => by_cases hx : x = 0 <;> simp_all [SMem.set]
  | cons c m ih =>
    obtain ⟨b, v⟩ := c
    simp only [SMem.set] at h
    split at h
    · split at h <;> simp_all <;> tauto
    · split at h
      · split at h <;> simp_all <;> tauto
      · simp_all <;> tauto

/-- A write keeps the canonical form. -/
theorem SMem.wf_set {w : Nat} (m : SMem w) (a : Nat) (x : BitVec w) (h : m.wf = true) : (m.set a x).wf = true := by
  induction m with
  | nil => by_cases hx : x = 0 <;> simp_all [SMem.set, SMem.wf]
  | cons c m ih =>
    obtain ⟨b, v⟩ := c
    have h0 := h
    obtain ⟨hv, hall, hwf⟩ := (SMem.wf_cons b v m).1 h
    simp only [SMem.set]
    split
    · rename_i hab
      split
      · exact h0
      · rename_i hx
        refine (SMem.wf_cons a x _).2 ⟨hx, ?_, h0⟩
        intro e he
        rcases List.mem_cons.1 he with rfl | he
        · exact hab
        · exact lt_trans hab (hall e he)
    · split
      · rename_i hab
        subst hab
        split
        · exact hwf
        · rename_i hx
          exact (SMem.wf_cons a x m).2 ⟨hx, hall, hwf⟩
      · refine (SMem.wf_cons b v _).2 ⟨hv, ?_, ih hwf⟩
        intro e he
        rcases SMem.mem_set m a x e he with he | rfl
        · exact hall e he
        · show b < a
          omega

/-- Consecutive writes keep the canonical form. -/
theorem SMem.wf_setList {w : Nat} (xs : List (BitVec w)) (m : SMem w) (a : Nat) (h : m.wf = true) :
    (m.setList a xs).wf = true := by
  induction xs generalizing m a with
  | nil => exact h
  | cons x xs ih => exact ih _ _ (m.wf_set a x h)

/-- Zeroing a range keeps the canonical form. -/
theorem SMem.wf_clear {w : Nat} (m : SMem w) (lo hi : Nat) (h : m.wf = true) : (SMem.clear m lo hi).wf = true := by
  induction m with
  | nil => rfl
  | cons c m ih =>
    obtain ⟨b, v⟩ := c
    obtain ⟨hv, hall, hwf⟩ := (SMem.wf_cons b v m).1 h
    have hm := ih hwf
    simp only [SMem.clear] at *
    simp only [List.filter_cons]
    split
    · exact (SMem.wf_cons b v _).2 ⟨hv, fun e he => hall e (List.mem_filter.1 he).1, hm⟩
    · exact hm

end Sys2Proof.Machine
end

