-- ==== Sys2Proof/WellFormed.lean ====
section
/-! DEFINITION. What a command's operands must look like for it to be a command of this device: the lengths that the
spec fixes for what reaches the device from outside. The meanings are total and do not rely on it. -/

namespace Sys2Proof

/-- A submission entry that a fetch returns is 64 bytes (R332, R336); a failed fetch returns none. -/
def HostRead.entryOk : HostRead → Bool
  | .data bs => bs.length = 64
  | .err _ => true

/-- A list is at most 16 descriptors of 16 bytes (R338). -/
def HostRead.listOk : HostRead → Bool
  | .data bs => bs.length ≤ 256
  | .err _ => true

/-- A BAR2 access is of one or two DWs, on a DW boundary (R510). -/
def Bar2Access.wellFormed (a : Bar2Access) : Bool := 1 ≤ a.dws && a.off.toNat % 4 = 0

/-- A register access of the host starts on a DW boundary and has a length (R31); 24 die sensors (R474). -/
def RegWrite.wellFormed : RegWrite → Bool
  | .host _ off _ _ dws => off.toNat % 4 = 0 && 1 ≤ dws
  | .core _ _ _ => true
  | .hostRead _ off dws => off.toNat % 4 = 0 && 1 ≤ dws
  | .sensor (.die k) => k < 24
  | .sensor _ => true

/-- The 24 die sensors (R474). -/
def Sample.wellFormed (sm : Sample) : Bool := sm.die.length = 24

/-- A list read stays behind an entry of 64 bytes (R338). -/
def TimeoutOf.wellFormed : TimeoutOf → Bool
  | .list _ _ e _ => e.length = 64
  | _ => true

/-- A flash sector of 4 KiB lies in two devices of at most 256 MiB (R502). -/
def sectorOk (n : Nat) : Bool := n < 131072

/-- Whether a command is well formed. -/
def Instr.wellFormed : Instr → Bool
  | .entryArrival _ _ e gi go => e.entryOk && gi.listOk && go.listOk
  | .msixTableAccess _ acc => acc.wellFormed
  | .registerWrite w => w.wellFormed
  | .temperatureSample sm => sm.wellFormed
  | .completionTimeout w => w.wellFormed
  | .wearLevellingErase n _ => sectorOk n
  | _ => true

end Sys2Proof
end

