-- ==== Sys2Proof/Tests/Slice0.lean ====
section
/-! SUPPORT. Small tests, each of one step or one operation, and a witness for the hypotheses of each statement. Expected
values are the spec's, or a standard's that it names. -/

namespace Sys2Proof.Tests

-- one theorem at a time: each waits for the kernel
set_option Elab.async false

open Sys2Proof Sys2Proof.Machine

/-! ### Well-formedness -/

theorem test_wf_entry : (Instr.entryArrival .pf0 0 (.data (List.replicate 64 0)) (.data []) (.data [])).wellFormed = true ∧
    (Instr.entryArrival .pf0 0 (.data (List.replicate 63 0)) (.data []) (.data [])).wellFormed = false := by decide
theorem test_wf_list : (Instr.entryArrival .pf0 0 (.err .timeout) (.data (List.replicate 257 0)) (.data [])).wellFormed = false := by
  decide +kernel
theorem test_wf_bar2 : (Instr.msixTableAccess .pf0 { write := false, off := 2, dws := 1, full := true, value := 0 }).wellFormed = false := by
  decide
theorem test_wf_register_write : (Instr.registerWrite (.host .pf0 4 0 0xF 1)).wellFormed = true ∧
    (Instr.registerWrite (.host .pf0 5 0 0xF 1)).wellFormed = false := by decide
theorem test_wf_sample : (Instr.temperatureSample ⟨List.replicate 23 0, 0, 0, 0, 0⟩).wellFormed = false := by decide
theorem test_wf_timeout : (Instr.completionTimeout (.list .pf0 0 [] true)).wellFormed = false := by decide
theorem test_wf_sector : (Instr.wearLevellingErase 131071 true).wellFormed = true ∧
    (Instr.wearLevellingErase 131072 true).wellFormed = false := by decide

/-! ### States for the tests -/

/-- Evoari runs: SERVICE, READY, POR_N high, every function reachable. -/
def up : Dev :=
  let d := State.reset.dev
  { d with
    board := { d.board with porLow := false, ready := true }
    host := { d.host with link := .up, cfgReady := true, perst := false, vfEn := true, numVfs := 64, fns := Vector.replicate 66 { memSpace := true } }
    life := { d.life with boot := .ready, op := .service, life := 2, remap := true } }

/-- A running core on bank 0, which resident firmware owns. -/
def withCore (k : Core) : State :=
  { dev := up.setPier 0 { (up.pier 0) with
      core := { k with run := .running }
      mem := { (up.pier 0).mem with bank := (up.pier 0).mem.bank.set 0 { owner := 64, content := 64 } }
      pw := { (up.pier 0).pw with st := .idle, freq := 4, shares := 8 } } }

/-- The same with the warden's core. -/
def withWarden (k : Core) : State := { dev := up.setCore .warden { k with run := .running } }

/-- Pier 0 of `up`, awake, with a change. -/
def withPier (f : Pier → Pier) : State :=
  { dev := ((withCore {}).dev).onPier 0 f }

/-- An immediate operand. -/
def imm (n : BitVec 24) : Fld := ⟨0, false, 0, n⟩
/-- A direct address. -/
def mem (a : BitVec 24) : Fld := ⟨0, false, 1, a⟩
/-- A port as the source. -/
def port (n : BitVec 6) : Fld := ⟨0, false, 3, n ++ 0#18⟩
/-- No guard. -/
def always : Gd := ⟨0, false⟩

/-- Whether the word at PC can be fetched without a report. -/
def fetchClean (d : Dev) : CoreId → Bool
  | .pier _ => true
  | .warden =>
    match wardenTarget d.life.remap d.warden.core.pc with
    | .rom _ => true
    | .sram a => (eccDecode (d.warden.sram.get a)).1 = .clean
    | _ => false

theorem fetchClean_spec {d : Dev} {c : CoreId} (h : fetchClean d c = true) : d.fetchAt c = d := by
  cases c with
  | pier p => rfl
  | warden =>
    simp only [fetchClean] at h
    simp only [Dev.fetchAt]
    cases ht : wardenTarget d.life.remap d.warden.core.pc <;> simp_all [Dev.sramRead]

/-- The conditions of `Executes`, decided. -/
def runs (d : Dev) (c : CoreId) (n : Nat) (f : Fld) : Bool :=
  (d.core c).ready && d.swHeld c (d.core c).sw = (d.core c).sw && !(d.core c).slot.any (·.annul) &&
    ((d.core c).fetchFaults.find? (fun e => e.pc = (d.core c).pc)).isNone && !(d.core c).illegal c n f &&
    (!guardWaits f || (d.core c).longop = none) && (d.core c).guardOk f && fetchClean d c

theorem runs_executes {d : Dev} {c : CoreId} {n : Nat} {f : Fld} (h : runs d c n f = true) : Executes d c n f := by
  simp only [runs, Bool.and_eq_true, decide_eq_true_eq, Bool.not_eq_true', Option.isNone_iff_eq_none, Bool.or_eq_true] at h
  obtain ⟨⟨⟨⟨⟨⟨⟨h1, h2⟩, h3⟩, h4⟩, h5⟩, h6⟩, h7⟩, h8⟩ := h
  exact ⟨h1, h2, h3, fetchClean_spec h8, h4, h5, fun g => h6.resolve_left (by simp [g]), h7⟩

/-- An access that succeeds. -/
def okay {α : Type} : CRes α → Bool
  | .ok _ _ => true
  | _ => false

theorem okay_spec {α : Type} {r : CRes α} (h : okay r = true) : ∃ v d, r = .ok v d := by
  cases r <;> simp_all [okay]

/-- An access that succeeds and satisfies `q`. -/
def okWith {α : Type} (r : CRes α) (q : α → Dev → Bool) : Bool :=
  match r with
  | .ok v d => q v d
  | _ => false

theorem okWith_spec {α : Type} {r : CRes α} {q : α → Dev → Bool} (h : okWith r q = true) : ∃ v d, r = .ok v d ∧ q v d = true := by
  cases r <;> simp_all [okWith]

/-- The device that a command leaves. -/
def after (i : Instr) (s : State) : Dev :=
  match exec i s with
  | .next t => t.dev
  | _ => s.dev

/-- An answer of a partial operation that satisfies `q`. -/
def someWith {α : Type} (o : Option α) (q : α → Bool) : Bool :=
  match o with
  | some x => q x
  | none => false

theorem someWith_spec {α : Type} {o : Option α} {q : α → Bool} (h : someWith o q = true) : ∃ x, o = some x ∧ q x = true := by
  cases o <;> simp_all [someWith]

/-- What a run in the tests fixes: supervisor mode, no translation, every F36 trap and the decimal trap enabled. -/
def fix0 : RunFix := ⟨false, false, 0, 0, 0, {}, 0, 31, true, 8⟩

/-- A run of one unit. -/
def run1 (u n : Nat) (ps : List Word) : Run :=
  { n := n, sr := false, ct := false, ic := false, fix := fix0, units := [{ num := u, params := ps }], conns := [], ins := [], outs := [],
    rubble := none }

/-- Pier 0 with a run that has started. -/
def withRun (r : Run) : State := withPier (fun P => { P with runs := { P.runs with exec := some r, started := true } })

/-! ### Witnesses: the ports of a core -/

/-- The destination ports of RegisterPortsSetTheirRegister, ArithmeticAndLogicPorts, MultiplyDivideAndDelivery, FloatingPortsIssue
and DecimalPorts. -/
def sourcePorts : List Nat :=
  (List.range 0x13) ++ [0x14, 0x15, 0x16, 0x17, 0x18, 0x19, 0x1A, 0x1B, 0x1C, 0x1D, 0x1E, 0x1F, 0x20, 0x21, 0x22, 0x23, 0x24, 0x25,
    0x26, 0x27, 0x29, 0x2A]

theorem witness_source_ports : ∀ n ∈ sourcePorts,
    Executes (withCore {}).dev (.pier 0) n (imm 0xFFFFFF) ∧ Executes (withWarden {}).dev .warden n (port 2) :=
  fun n h => ⟨runs_executes ((by decide +kernel : ∀ n ∈ sourcePorts, runs (withCore {}).dev (.pier 0) n (imm 0xFFFFFF) = true) n h),
    runs_executes ((by decide +kernel : ∀ n ∈ sourcePorts, runs (withWarden {}).dev .warden n (port 2) = true) n h)⟩

theorem witness_operands : okay ((withCore {}).dev.operand (.pier 0) (imm 0xFFFFFF)) = true ∧
    okay ((withWarden {}).dev.operand .warden (port 2)) = true ∧ okay ((withCore {}).dev.operand (.pier 0) (mem 0)) = true := by
  decide +kernel

theorem witness_fixed_immediates : Executes (withCore {}).dev (.pier 0) 0x28 (immFld always 0#24) ∧
    Executes (withCore {}).dev (.pier 0) 0x28 (immFld always 1#24) ∧ Executes (withCore {}).dev (.pier 0) 0x28 (immFld always 2#24) :=
  ⟨runs_executes (by decide +kernel), runs_executes (by decide +kernel), runs_executes (by decide +kernel)⟩

theorem witness_delivery : ((withCore { longop := some ⟨false, 6, some 0, some 0, false, 0⟩ }).dev.core (.pier 0)).longop =
    some ⟨false, 6, some 0, some 0, false, 0⟩ := by decide +kernel

theorem witness_stores : ∀ n ∈ [0x2B, 0x2C, 0x2D],
    Executes (withCore {}).dev (.pier 0) n (mem 0x1FFFF) ∧
    ∃ pa d, (withCore {}).dev.probe (.pier 0) .write true (((withCore {}).dev.core (.pier 0)).ea (mem 0x1FFFF)) = .ok pa d ∧
      decide ((d.core (.pier 0)).sbuf.length ≤ 7) = true :=
  fun n h => ⟨runs_executes ((by decide +kernel : ∀ n ∈ [0x2B, 0x2C, 0x2D], runs (withCore {}).dev (.pier 0) n (mem 0x1FFFF) = true) n h),
    okWith_spec (by decide +kernel)⟩

theorem witness_ldd : Executes (withCore {}).dev (.pier 0) 0x2E (mem 0) ∧
    okWith ((withCore {}).dev.probe (.pier 0) .read false 0) (fun p0 d1 => okWith (d1.probe (.pier 0) .read false 1) (fun p1 d2 =>
      okWith (d2.readVia (.pier 0) 0 p0) (fun _ d3 => okay (d3.readVia (.pier 0) 1 p1)))) = true :=
  ⟨runs_executes (by decide +kernel), by decide +kernel⟩

theorem witness_std_ldn_stn : Executes (withCore {}).dev (.pier 0) 0x2F (mem 0) ∧ Executes (withCore {}).dev (.pier 0) 0x32 (mem 7) ∧
    Executes (withCore {}).dev (.pier 0) 0x33 (mem 7) ∧
    okWith ((withCore {}).dev.probe (.pier 0) .write false 0) (fun _ d1 => okWith (d1.probe (.pier 0) .write false 1) (fun _ d2 =>
      decide ((d2.core (.pier 0)).sbuf.length ≤ 6))) = true ∧
    okay ((withCore {}).dev.load (.pier 0) false 1) = true ∧ okay ((withCore {}).dev.probe (.pier 0) .write false 1) = true :=
  ⟨runs_executes (by decide +kernel), runs_executes (by decide +kernel), runs_executes (by decide +kernel), by decide +kernel⟩

theorem witness_atomics : Executes (withCore {}).dev (.pier 0) 0x30 (mem 5) ∧ Executes (withCore {}).dev (.pier 0) 0x31 (mem 5) ∧
    physTarget 5 = .bank 0 5 ∧
    okWith ((withCore {}).dev.probe (.pier 0) .atomic false 5) (fun pa d =>
      pa = 5 && okay (d.readPhys (.pier 0) .atomic 5 5)) = true :=
  ⟨runs_executes (by decide +kernel), runs_executes (by decide +kernel), by decide +kernel⟩

/-- A store that waits for word 3 of bank 0. -/
def waitingStore : SbEntry := ⟨3, 0x123456789#36, 0xF, .supervisor, 3, false⟩

theorem witness_drain :
    let s := withCore { sbuf := [waitingStore] }
    let P := s.dev.pier 0
    P.core.sbuf = waitingStore :: [] ∧ waitingStore.en = 0xF#4 ∧ physTarget waitingStore.pa = .bank 0 3 ∧
    identMatches waitingStore.ident P.mem.bank[0].owner = true ∧ P.mem.bank[0].scour = false ∧ P.mem.bank[0].retn = .awake ∧
    P.mem.banks.wf = true ∧ ((withCore {}).dev.core (.pier 0)).sbuf = [] := by decide +kernel

/-- The same store, whose bank is being scoured. -/
theorem witness_drain_scoured :
    let P := (withPier (fun P => { P with
      core := { P.core with sbuf := [waitingStore] }
      mem := { P.mem with bank := P.mem.bank.set 0 { owner := 64, content := 64, scour := true } } })).dev.pier 0
    P.core.sbuf = waitingStore :: [] ∧ physTarget waitingStore.pa = .bank 0 3 ∧
    identMatches waitingStore.ident P.mem.bank[0].owner = true ∧ P.mem.bank[0].scour = true := by decide +kernel

theorem witness_warden_memory : let d := (withWarden { pc := 8, sbuf := [waitingStore] }).dev
    d.warden.core.sbuf = waitingStore :: [] ∧ waitingStore.en = 0xF#4 ∧ wardenTarget d.life.remap waitingStore.pa = .sram 3 ∧
    Executes (withWarden {}).dev .warden 0x30 (mem 5) ∧ Executes (withWarden {}).dev .warden 0x31 (mem 5) ∧
    okWith ((withWarden {}).dev.probe .warden .atomic false 5) (fun pa d1 =>
      wardenTarget d1.life.remap pa = .sram 5 && okWith (d1.readPhys .warden .atomic 5 pa) (fun _ d2 =>
        d2.life.remap = d1.life.remap)) = true :=
  ⟨by decide +kernel, by decide +kernel, by decide +kernel, runs_executes (by decide +kernel), runs_executes (by decide +kernel),
    by decide +kernel⟩

theorem witness_tlbi : Executes (withCore {}).dev (.pier 0) 0x13 (mem 9) ∧
    Executes (withCore {}).dev (.pier 0) 0x13 (immFld always 0x800000#24) ∧
    Executes (withCore {}).dev (.pier 0) 0x13 (immFld always (0#1 ++ (BitVec.ofBool true ++ 0x3FFFFF#22))) ∧
    Executes (withWarden {}).dev .warden 0x13 (mem 9) ∧ Executes (withWarden {}).dev .warden 0x13 (immFld always 0x800000#24) ∧
    Executes (withWarden {}).dev .warden 0x13 (immFld always (0#1 ++ (BitVec.ofBool false ++ 0#22))) ∧
    ((withWarden {}).dev.core .warden).user = false ∧ (withCore {}).dev.reachable 0 = true ∧
    ((withCore {}).dev.core (.pier 0)).user = false ∧ ((withCore {}).dev.core (.pier 0)).sbuf = [] :=
  ⟨runs_executes (by decide +kernel), runs_executes (by decide +kernel), runs_executes (by decide +kernel), runs_executes (by decide +kernel),
    runs_executes (by decide +kernel), runs_executes (by decide +kernel), by decide +kernel⟩

theorem witness_branches : ∀ n ∈ [0x34, 0x35, 0x36, 0x37], Executes (withCore {}).dev (.pier 0) n (imm 0x7FFFFF) ∧
    Executes (withCore {}).dev (.pier 0) n (port 2) :=
  fun n h => ⟨runs_executes ((by decide +kernel : ∀ n ∈ [0x34, 0x35, 0x36, 0x37], runs (withCore {}).dev (.pier 0) n (imm 0x7FFFFF) = true) n h),
    runs_executes ((by decide +kernel : ∀ n ∈ [0x34, 0x35, 0x36, 0x37], runs (withCore {}).dev (.pier 0) n (port 2) = true) n h)⟩

theorem witness_loop : Executes (withCore {}).dev (.pier 0) 0x38 (imm 0xFFFFFF) ∧ Executes (withCore {}).dev (.pier 0) 0x38 (imm 1) :=
  ⟨runs_executes (by decide +kernel), runs_executes (by decide +kernel)⟩

theorem witness_boundaries :
    (let k : Core := {}; k.slot = none ∧ k.sw.getLsbD 12 = false) ∧
    (let k : Core := { sw := 0x1000, pc := 9, le := 9, lc := 0x1FFF }; k.slot = none ∧ k.sw.getLsbD 12 = true ∧ k.pc = k.le ∧ 1 < k.lc.toNat) ∧
    (let k : Core := { sw := 0x1000, pc := 9, le := 9, lc := 1 }; k.slot = none ∧ k.sw.getLsbD 12 = true ∧ k.pc = k.le ∧ k.lc = 1) ∧
    (let k : Core := { slot := some ⟨0, some 8, false, 0, 0, 0, 0, 0⟩ }; k.slot = some ⟨0, some 8, false, 0, 0, 0, 0, 0⟩) := by decide +kernel

theorem witness_trap : Executes (withCore {}).dev (.pier 0) 0x39 (imm 63) ∧ ((withCore {}).dev.core (.pier 0)).slot = none :=
  ⟨runs_executes (by decide +kernel), by decide +kernel⟩

theorem witness_rtt : Executes (withCore {}).dev (.pier 0) 0x3A (imm 0) ∧
    ((withCore {}).dev.core (.pier 0)).user = false ∧ ((withCore {}).dev.core (.pier 0)).longop = none ∧
    ((withCore {}).dev.core (.pier 0)).sw.getLsbD 9 = false ∧
    okWith ((withCore {}).dev.load (.pier 0) false 0) (fun _ d1 => (d1.core (.pier 0)).sw = 0 && okay (d1.load (.pier 0) false 1)) = true :=
  ⟨runs_executes (by decide +kernel), by decide +kernel⟩

theorem witness_entry_ranks :
    (let k : Core := { traps := [9] }; k.slot = none ∧ k.sriHold = false ∧ k.raised.any (·.bds) = false ∧ k.traps = 9#7 :: []) ∧
    (let k : Core := { nmi := true }; k.traps = [] ∧ k.nmi = true) ∧
    (let k : Core := { imprecise := some ⟨8, 0, 0⟩ }; k.traps = [] ∧ k.nmi = false ∧ k.imprecise = some ⟨8, 0, 0⟩) ∧
    (let k : Core := { runFault := true }; k.traps = [] ∧ k.nmi = false ∧ k.imprecise = none ∧ k.runFault = true) ∧
    (let k : Core := { sw := 0x80, ipend := 0x100, imask := 0x100 }; k.runFault = false ∧ k.sw.getLsbD 7 = true ∧
      k.ipend.getLsbD 8 = true ∧ k.imask.getLsbD 8 = true ∧ ∀ i, i < 8 → (k.ipend.getLsbD i && k.imask.getLsbD i) = false) ∧
    (let k : Core := { raised := some ⟨64, 1, false, false, none⟩ }; k.raised.any (·.bds) = false ∧ k.traps = [] ∧ k.event = none) := by
  decide +kernel

theorem witness_entry : (let s := withCore { sp := 0x1000, raised := some ⟨64, 1, false, false, none⟩ }
    let k := s.dev.core (.pier 0)
    k.run = .running ∧ ∃ e, k.entryOf = some e ∧
      okWith ((s.dev.setCore (.pier 0) e.core).probe (.pier 0) .write false (k.sp - 1)) (fun p1 d1 =>
        okWith (d1.probe (.pier 0) .write false (k.sp - 2)) (fun p2 d2 => okWith (Dev.drainTo (.pier 0) 6 8 d2) (fun _ d3 =>
          okay ((((d3.enqueue (.pier 0) p1 (k.sp - 1) e.pc 0xF#4).enqueue (.pier 0) p2 (k.sp - 2) (e.pushed k.sw) 0xF#4).onCore (.pier 0)
            (fun j => { j with sw := k.sw &&& ~~~ 0x3CC0#36 })).vectorWord (.pier 0) e.vec)))) = true) ∧
    ((withCore {}).dev.core (.pier 0)).entryOf = none ∧ ((withCore {}).dev.core (.pier 1)).run ≠ .running :=
  ⟨⟨by decide +kernel, _, rfl, by decide +kernel⟩, by decide +kernel⟩

theorem witness_special_registers : Executes (withCore {}).dev (.pier 0) 0x3B (imm 15) ∧
    ∀ n ∈ [0, 1, 2, 3, 4, 5, 6, 7, 8, 10, 11, 12, 13, 14, 15],
      Executes (withCore { sri := BitVec.ofNat 6 n }).dev (.pier 0) 0x3C (imm 0xFFFFFF) ∧
      okWith ((withCore { sri := BitVec.ofNat 6 n }).dev.operand (.pier 0) (imm 0xFFFFFF)) (fun _ d =>
        (d.core (.pier 0)).longop = none && !(d.core (.pier 0)).user && (d.core (.pier 0)).sri = BitVec.ofNat 6 n) = true :=
  ⟨runs_executes (by decide +kernel), fun n h =>
    ⟨runs_executes ((by decide +kernel : ∀ n ∈ [0, 1, 2, 3, 4, 5, 6, 7, 8, 10, 11, 12, 13, 14, 15],
        runs (withCore { sri := BitVec.ofNat 6 n }).dev (.pier 0) 0x3C (imm 0xFFFFFF) = true) n h),
      (by decide +kernel : ∀ n ∈ [0, 1, 2, 3, 4, 5, 6, 7, 8, 10, 11, 12, 13, 14, 15],
        okWith ((withCore { sri := BitVec.ofNat 6 n }).dev.operand (.pier 0) (imm 0xFFFFFF)) (fun _ d =>
          (d.core (.pier 0)).longop = none && !(d.core (.pier 0)).user && (d.core (.pier 0)).sri = BitVec.ofNat 6 n) = true) n h⟩⟩

/-! ### Witnesses: runs, strings and core events -/

/-- The script of a run of 32 elements: IX0.R to IA0.A. -/
def script0 : List Word := [0x10020#36, 0x124080000#36]

/-- A core with that script at words 0 and 1 of bank 0. -/
def withScript : State := withPier (fun P => { P with mem := { P.mem with banks := [(0, eccEncode 0x10020#36), (1, eccEncode 0x124080000#36)] } })

theorem witness_sync : Executes (withCore {}).dev (.pier 0) 0x3F (imm 0) ∧ Executes (withWarden {}).dev .warden 0x3F (imm 0) ∧
    ((withCore {}).dev.pier 0).runs.exec = none ∧ ((withCore {}).dev.pier 0).runs.queued = none ∧
    Executes (withRun (run1 8 32 [])).dev (.pier 0) 0x3F (imm 0) ∧
    ((withRun (run1 8 32 [])).dev.pier 0).runs.exec = some (run1 8 32 []) :=
  ⟨runs_executes (by decide +kernel), runs_executes (by decide +kernel), by decide +kernel, by decide +kernel,
    runs_executes (by decide +kernel), by decide +kernel⟩

theorem witness_bond : Executes withScript.dev (.pier 0) 0x3E (mem 0) ∧ withScript.dev.life.pf = .none ∧
    okWith (withScript.dev.drainAll (.pier 0)) (fun _ d1 => okWith (d1.load (.pier 0) false 0) (fun h d2 =>
      okWith (Dev.scriptWords (.pier 0) 0 (bondWords h - 1) 1 d2) (fun ws d3 =>
        (h :: ws) = script0 && bondCheck (d3.runCourses 0 (parseScript (h :: ws))).1 (d3.core (.pier 0)).user (parseScript (h :: ws)) = none &&
        ((d3.runCourses 0 (parseScript (h :: ws))).2.pier 0).runs.exec = none))) = true :=
  ⟨runs_executes (by decide +kernel), by decide +kernel, by decide +kernel⟩

/-- The same with an unknown unit at either end of its connection, which the checks refuse; and with a run that executes already. -/
theorem witness_bond_refused_or_queued :
    (let s := withPier (fun P => { P with mem := { P.mem with banks := [(0, eccEncode 0x10020#36), (1, eccEncode 0xFFFFFFFFF#36)] } })
     Executes s.dev (.pier 0) 0x3E (mem 0) ∧ s.dev.life.pf = .none ∧
      okWith (s.dev.drainAll (.pier 0)) (fun _ d1 => okWith (d1.load (.pier 0) false 0) (fun h d2 =>
        okWith (Dev.scriptWords (.pier 0) 0 (bondWords h - 1) 1 d2) (fun ws d3 =>
          (bondCheck (d3.runCourses 0 (parseScript (h :: ws))).1 (d3.core (.pier 0)).user (parseScript (h :: ws))).isSome &&
          (d3.core (.pier 0)).slot = none))) = true) ∧
    (let s : State := { withScript with dev := withScript.dev.onPier 0 (fun P => { P with runs := { P.runs with exec := some (run1 8 32 []) } }) }
     Executes s.dev (.pier 0) 0x3E (mem 0) ∧
      okWith (s.dev.drainAll (.pier 0)) (fun _ d1 => okWith (d1.load (.pier 0) false 0) (fun h d2 =>
        okWith (Dev.scriptWords (.pier 0) 0 (bondWords h - 1) 1 d2) (fun ws d3 =>
          (d3.pier 0).runs.exec = some (run1 8 32 []) && (d3.pier 0).runs.queued = none &&
          bondCheck (d3.runCourses 0 (parseScript (h :: ws))).1 (d3.core (.pier 0)).user (parseScript (h :: ws)) = none))) = true) :=
  ⟨⟨runs_executes (by decide +kernel), by decide +kernel, by decide +kernel⟩, runs_executes (by decide +kernel), by decide +kernel⟩

theorem witness_bond_power_fail :
    let s : State := { withScript with dev := { withScript.dev with life := { withScript.dev.life with pf := .stopped } } }
    Executes s.dev (.pier 0) 0x3E (mem 0) ∧ s.dev.life.pf ≠ .none :=
  ⟨runs_executes (by decide +kernel), by decide +kernel⟩

theorem witness_strings : Executes (withCore {}).dev (.pier 0) 0x3D (immFld always 1#24) ∧
    Executes (withCore {}).dev (.pier 0) 0x3D (immFld always 2#24) ∧ Executes (withCore {}).dev (.pier 0) 0x3D (immFld always 3#24) ∧
    Executes (withCore {}).dev (.pier 0) 0x3D (immFld always 4#24) ∧ Executes (withCore {}).dev (.pier 0) 0x3D (immFld always 5#24) ∧
    Executes (withCore {}).dev (.pier 0) 0x3D (immFld always 6#24) ∧
    ((withCore {}).dev.core (.pier 0)).a = 0 ∧ ((withCore {}).dev.core (.pier 0)).longop = none ∧
    (let d := (withCore { a := 3, x1 := 5, x2 := 9 }).dev
     wordsNow d (.pier 0) none = 3 ∧ wordsNow d (.pier 0) (some 0) = 0 ∧ wordsNow d (.pier 0) (some 2) = 2 ∧
     okay (Dev.strLoop (.pier 0) (movsWord (.pier 0)) 3 (d.onCore (.pier 0) Core.strBegin)) = true ∧
     okay (Dev.strLoop (.pier 0) (fillsWord (.pier 0)) 2 (d.onCore (.pier 0) Core.strBegin)) = true ∧
     okay (Dev.strLoop (.pier 0) (xltsWord (.pier 0)) 3 (d.onCore (.pier 0) Core.strBegin)) = true) :=
  ⟨runs_executes (by decide +kernel), runs_executes (by decide +kernel), runs_executes (by decide +kernel), runs_executes (by decide +kernel),
    runs_executes (by decide +kernel), runs_executes (by decide +kernel), by decide +kernel⟩

theorem witness_cmps :
    let s := withCore { a := 1, x1 := 5, x2 := 9 }
    Executes s.dev (.pier 0) 0x3D (immFld always 5) ∧ (s.dev.core (.pier 0)).a ≠ 0 ∧ (s.dev.core (.pier 0)).longop = none ∧
    wordsNow s.dev (.pier 0) none = (s.dev.core (.pier 0)).a.toNat ∧
    okay (cmpsLoop (.pier 0) (s.dev.core (.pier 0)).a.toNat (s.dev.onCore (.pier 0) Core.strBegin)) = true :=
  ⟨runs_executes (by decide +kernel), by decide +kernel⟩

/-- A core before DADDS of two one-word strings: +5 at word 5 and +9 at word 9 (R48: the sign digit of a positive number is 0xC). -/
def withDecimals : State := withPier (fun P => { P with
  core := { P.core with a := 1, x1 := 5, x2 := 9 }
  mem := { P.mem with banks := [(5, eccEncode (sdecWord 5)), (9, eccEncode (sdecWord 9))] } })

theorem witness_decimal_strings : Executes withDecimals.dev (.pier 0) 0x3D (immFld always ((3#3).setWidth 24)) ∧
    Executes withDecimals.dev (.pier 0) 0x3D (immFld always ((4#3).setWidth 24)) ∧
    (let k := withDecimals.dev.core (.pier 0)
     let d0 := withDecimals.dev.onCore (.pier 0) (fun k => { k with mh := (3#3).setWidth 36 <<< 33, strNow := {} })
     (k.a = 1 && k.longop = none && !k.sw.getLsbD 11 && k.tre = 0 &&
      okWith (d0.load (.pier 0) false (k.x1 + 0)) (fun u d1 => okWith (d1.load (.pier 0) false (k.x2 + 0)) (fun v d2 =>
        let dw := d2.onCore (.pier 0) (fun k => { k with mh := decMh 3#3 (some (decFix false [u] [v])) })
        sdecOk u && sdecOk v && (d2.core (.pier 0)).strNow = {} && okWith (dw.load (.pier 0) false (d2.core (.pier 0)).x1) (fun u' d3 =>
          u' = u && okWith (d3.load (.pier 0) false (d3.core (.pier 0)).x2) (fun v' d4 =>
            v' = v && okWith (d4.store (.pier 0) false (d4.core (.pier 0)).x2 (sdecWord (sdecVal v + sdecVal u)) 0xF#4) (fun _ d5 =>
              (d5.core (.pier 0)).tre = 0)))))) = true) :=
  ⟨runs_executes (by decide +kernel), runs_executes (by decide +kernel), by decide +kernel⟩

theorem witness_core_events : (withCore {}).dev.reachable 0 = true ∧
    (let s := withCore { tmrRun := true }; (s.dev.core (.pier 0)).tmrRun = true ∧ (s.dev.core (.pier 0)).tmr = 0) ∧
    (let s := withCore {}; let P := s.dev.pier 0
     P.core.run = .running ∧ P.core.user = false ∧ P.core.te = false ∧ physTarget 0x1FFF8 = .bank 0 0x1FFF8 ∧ P.mem.icache = []) ∧
    (let s := withPier (fun P => { P with core := {} }); s.dev.mayRelease 0 = true ∧ s.dev.mayRelease 1 = false ∧ s.dev.reachable 1 = false) ∧
    ((withCore {}).dev.core (.pier 0)).tmrRun = false ∧ ((withCore {}).dev.pier 1).core.run ≠ .running := by decide +kernel

/-- A pier in user mode of partition 0, whose stage 2 maps the first block of 2^18 words of the partition's space to banks 0 and 1,
and whose stage-1 table, at word 64, maps the first block likewise. -/
def withTables : State := withPier (fun P => { P with
  core := { P.core with sw := 0x40 }
  regs := { P.regs with tag := 0, s1w := 0, s1root := 1, s2cfg := P.regs.s2cfg.set 0 ⟨0, BitVec.ofNat 30 (tablesBase / 64)⟩ }
  mem := { P.mem with
    bank := P.mem.bank.set 0 { owner := 0, content := 0 }
    banks := [(64, eccEncode 0x3D#36)]
    quarry := [((tablesBase - quarryBase) / 15,
      lineEncode ((List.range 15).map (fun i => if i = (tablesBase - quarryBase) % 15 then 0x3D#36 else 0)))] } })

theorem witness_walk : let P := withTables.dev.pier 0
    P.core.run = .running ∧ P.core.user = true ∧ P.mem.tlb = [] ∧
    (match (walk (pierTrCtx P true) withTables.dev.now .read 5 P).1 with
      | .ok (pa, e) => pa = 5 && e.size = 262144
      | .error _ => false) = true := by decide +kernel

/-- The same with no stage-1 table, and with bank 0, which holds it, in retention. -/
theorem witness_walk_stops :
    (match (walk (pierTrCtx (withTables.dev.pier 0) true) 0 .read 5
        { (withTables.dev.pier 0) with mem := { (withTables.dev.pier 0).mem with banks := [] } }).1 with
      | .error (.kind _ _ _ _) => true
      | _ => false) = true ∧
    (match (walk (pierTrCtx (withTables.dev.pier 0) true) 0 .read 5 { (withTables.dev.pier 0) with mem := { (withTables.dev.pier 0).mem with
        bank := (withTables.dev.pier 0).mem.bank.set 0 { owner := 0, content := 0, retn := .retained } } }).1 with
      | .error .held => true
      | _ => false) = true ∧
    (∀ c, ¬ WalksFor (withCore {}).dev 0 false c) ∧ (∀ c, ¬ WalksFor (withCore {}).dev 0 true c) :=
  ⟨by decide +kernel, by decide +kernel, fun c h => absurd (show ((withCore {}).dev.pier 0).core.user = true ∨
      ((withCore {}).dev.pier 0).core.te = true from h.2.1) (by decide +kernel),
    fun c ⟨t, h, _⟩ => absurd h (by
      have : ((withCore {}).dev.pier 0).hod.cur = none := by decide +kernel
      rw [this]; simp)⟩

theorem witness_tables_fetch :
    (match translate (pierTrCtx (withTables.dev.pier 0) true) 0 false .execute 0x7FFFFFFFF (withTables.dev.pier 0) with
      | .fault _ _ _ => true
      | _ => false) = true ∧
    (match translate (pierTrCtx (withTables.dev.pier 0) true) 0 false .execute 5 { (withTables.dev.pier 0) with
        mem := { (withTables.dev.pier 0).mem with
          bank := (withTables.dev.pier 0).mem.bank.set 0 { owner := 0, content := 0, retn := .retained } } } with
      | .held _ => true
      | _ => false) = true := by decide +kernel

theorem witness_instruction_cache_fill : let P := (withCore {}).dev.pier 0
    let read := fun (pa : Word) (P : Pier) => physRead P (withCore {}).dev.now .supervisor .fetch pa
    let words := fun (P : Pier) => (icWords (withCore {}).dev.now .supervisor 8 0x1FFF8 P).1
    (match read 0x1FFF8 P with
      | .ok w P1 => w = 0 && words P1 = some (List.replicate 8 0)
      | _ => false) = true ∧
    (match read 0x1FFF8 { P with mem := { P.mem with banks := [(0x1FFFF, eccPoison)] } } with
      | .ok _ P1 => words P1 = none
      | _ => false) = true ∧
    (match read 0x1FFFF { P with mem := { P.mem with banks := [(0x1FFFF, eccPoison)] } } with
      | .rubble _ => true
      | _ => false) = true ∧
    (match read 0x300000 P with
      | .bus 0xC _ => true
      | _ => false) = true ∧
    (match read 0x1FFF8 { P with mem := { P.mem with bank := P.mem.bank.set 0 { owner := 64, content := 64, retn := .retained } } } with
      | .held _ => true
      | _ => false) = true := by decide +kernel

/-! ### Witnesses: streams, stones and courses -/

/-- A load streamer that has read two groups' room: LD0 reads words 8 on of bank 0 into IA0. -/
def loadRun : Run :=
  { run1 0 32 [0, 8] with units := [{ num := 0, params := [0, 8] }, { num := 8, params := [0] }], conns := [⟨mkPort 0 4, mkPort 8 0, 0⟩] }

theorem witness_run_start : let s := withPier (fun P => { P with
      runs := { P.runs with exec := some loadRun }, pw := { P.pw with st := .run } })
    let P := s.dev.pier 0
    P.runs.exec = some loadRun ∧ P.runs.started = false ∧ P.pw.st = .run ∧ P.pw.change ≠ .ramp ∧
    (runBanks P s.dev.now loadRun) = [0] ∧ (runBanks P s.dev.now loadRun).all (fun b => P.mem.bank[b].retn = .awake) = true ∧
    (let Q := { P with mem := { P.mem with bank := P.mem.bank.set 0 { owner := 64, content := 64, retn := .retained } } }
     (runBanks Q s.dev.now loadRun).any (fun b => Q.mem.bank[b].retn ≠ .awake) = true) ∧
    ((withCore {}).dev.pier 0).runs.exec = none := by
  decide +kernel

theorem witness_load : let s := withRun loadRun
    let P := s.dev.pier 0
    P.runs.exec = some loadRun ∧ P.runs.started = true ∧ someWith (loadRun.unit? 0) (fun x =>
      let stop := min (32 * (x.fired / 32 + 1)) (x.len loadRun.n)
      !x.ended && x.fired < stop && loadRun.room x x.fired && loadRun.near (stop - 1) &&
      someWith (loadGroup s.dev.now s.dev.fresh x (stop - x.fired) x.fired P loadRun) (fun e => e.2.isSome)) = true := by decide +kernel

/-- A row with no room, one at H + 512, one past the end, and one whose bank is in retention. -/
theorem witness_load_waits :
    let x : RUnit := { num := 0, params := [0, 8] }
    let y : RUnit := { x with fired := 32 }
    let P := (withRun loadRun).dev.pier 0
    ({ loadRun with units := [y], outs := [(mkPort 0 4, [⟨0, 0, false⟩])] } : Run).room y 32 = false ∧
    ({ loadRun with n := 1024 } : Run).near 511 = true ∧ ({ loadRun with n := 1024 } : Run).near 512 = false ∧
    (let stop := min (32 * (y.fired / 32 + 1)) (y.len 32); stop ≤ y.fired) ∧
    loadGroup 0 0 x 32 0 { P with mem := { P.mem with bank := P.mem.bank.set 0 { owner := 64, content := 64, retn := .retained } } } loadRun =
      none := by decide +kernel

/-- The same run with its whole group on the joint. -/
def joined : Run := { loadRun with outs := [(mkPort 0 4, (List.range 32).map (fun i => ⟨i, 0, false⟩))] }

theorem witness_joint : let P := (withRun joined).dev.pier 0
    P.runs.exec = some joined ∧ joined.outAt (mkPort 0 4) = ⟨0, 0, false⟩ :: ((List.range 31).map (fun i => ⟨i + 1, 0, false⟩)) ∧
    joined.groupWhole (mkPort 0 4) (joined.outAt (mkPort 0 4)) = true ∧
    (joined.conns.filter (fun c => c.src = mkPort 0 4)).all joined.accepts = true := by decide +kernel

/-- The same with a rubble element that nothing has observed, in a run with SR and in one without; and with half a group. -/
theorem witness_joint_rubble : ∀ sr : Bool,
    let r : Run := { joined with sr := sr, outs := [(mkPort 0 4, (List.range 32).map (fun i => ⟨i, 0, i = 31⟩))] }
    r.groupWhole (mkPort 0 4) (r.outAt (mkPort 0 4)) = true ∧
    (r.outAt (mkPort 0 4)).find? (fun x => x.rub && !r.rubIdx.contains x.idx) = some ⟨31, 0, true⟩ ∧
    ({ loadRun with n := 64 } : Run).groupWhole (mkPort 0 4) [⟨0, 0, false⟩] = true ∧
    ({ loadRun with outs := [(mkPort 0 4, [⟨0, 0, false⟩])] } : Run).groupWhole (mkPort 0 4) [⟨0, 0, false⟩] = false := by decide +kernel

/-- A run of one element at a store streamer that writes word `a`. -/
def storeRun (a : Word) : Run :=
  { run1 8 1 [0] with
    units := [{ num := 8, params := [0], fired := 1, ended := true }, { num := 4, params := [0, a] }]
    conns := [⟨mkPort 8 4, mkPort 4 0, 0⟩], ins := [(mkPort 4 0, [⟨0, 7, false⟩])] }

/-- What the commit of such a run meets: 0 its write, 1 a fault, 2 a hold. -/
def commitMeets (a : Word) (f : Pier → Pier) : Nat :=
  match (translateAhead 0 (storeRun a) 0 [{ num := 4, params := [0, a] }] (f ((withRun (storeRun a)).dev.pier 0))).1 with
  | .ok () => 0
  | .error (some _) => 1
  | .error none => 2

theorem witness_store_commit : let r := storeRun 8
    let P := (withRun r).dev.pier 0
    P.runs.exec = some r ∧ someWith (r.unit? 4) (fun x =>
      !x.ended && x.p 0 ≠ 1 && r.memStores = [x] && r.inAt (mkPort 4 0) = [⟨0, 7, false⟩] && 0 < x.len r.n &&
      !r.fed (mkPort 4 3) && !r.sr && r.horizonPast 0 && (storeAddrs 0 r x [0] P).1 = .ok [(0, 8)] && physTarget 8 = .bank 0 8) = true ∧
    commitMeets 8 id = 0 ∧ commitMeets 0x300000 id = 1 ∧
    commitMeets 8 (fun P => { P with mem := { P.mem with bank := P.mem.bank.set 0 { owner := 64, content := 64, retn := .retained } } }) = 2 ∧
    (storeAddrs 0 { storeRun 0x300000 with conns := [] } { num := 4, params := [0, 0x300000] } [0] P).1 ≠ .ok [(0, 0x300000)] := by
  decide +kernel

/-- Quarry line 0 with an uncorrectable error. -/
def withPoison (r : Run) : Pier :=
  let P := (withRun r).dev.pier 0
  { P with mem := { P.mem with quarry := [(0, linePoison (List.replicate 15 0))] } }

/-- Under SR: the group itself meets the poison line, or the other store streamer may meet it, or rubble waits on a joint. -/
theorem witness_store_commit_sr :
    let a : Word := BitVec.ofNat 36 quarryBase
    let put : List (Nat × Word × Elem) := [(0, a, ⟨0, 7, false⟩)]
    let other : Run := { storeRun 8 with sr := true, units := (storeRun 8).units ++ [{ num := 5, params := [0, a] }],
                                         conns := (storeRun 8).conns ++ [⟨mkPort 8 4, mkPort 5 0, 0⟩] }
    groupLines put = [0] ∧ meetsPoison (withPoison (storeRun a)) put 0 = true ∧
    groupLines [(0, 8, ⟨0, 7, false⟩)] = [] ∧ other.rubbleAhead 0 4 32 (withPoison other) = true ∧
    ({ storeRun 8 with sr := true, outs := [(mkPort 8 4, [⟨31, 0, true⟩])] } : Run).rubbleAhead 0 4 32 (withPoison (storeRun 8)) = true ∧
    ({ storeRun 8 with sr := true } : Run).rubbleAhead 0 4 32 (withPoison (storeRun 8)) = false := by decide +kernel

/-- Whether a unit of a run may fire, on inputs without rubble. -/
def fires (s : State) (u : Nat) (q : Run → RUnit → Nat → Bool) : Bool :=
  someWith (firing (s.dev.pier 0) u) (fun t => !t.1.rubbleIn t.2.1 && q t.1 t.2.1 t.2.2)

theorem witness_stones : ∀ u ∈ [8, 9, 0xC, 0xD, 0x12, 0x13], fires (withRun (run1 u 32 [1, 5, 6, 7])) u (fun _ _ _ => true) = true := by
  decide +kernel

/-- DC0 on an invalid digit, and FP0 adding infinities of opposite signs: both trap where the run enables it. -/
theorem witness_stone_traps :
    fires (withRun (run1 0xC 32 [1, 0xA, 0])) 0xC (fun r x _ =>
      (dcOp (x.p 0).toNat (r.operand x 0) (r.operand x 1) (r.operand x 2)).trap && r.fix.dve) = true ∧
    fires (withRun (run1 0xD 32 [1, 0x7FC000000, 0xFFC000000])) 0xD (fun r x _ =>
      (fpOp (x.p 0).toNat (x.p 4) r.fix.rm r.fix.fpEn (r.operand x 0) (r.operand x 1) (r.operand x 2)).trap) = true := by decide +kernel

theorem witness_stones_with_state :
    fires (withRun (run1 0xA 32 [3, 5, 6])) 0xA (fun _ x i => x.p 0 = 3 && i = 0) = true ∧
    fires (withRun (run1 0xB 32 [3, 5, 6])) 0xB (fun _ x _ => x.p 0 = 3) = true ∧
    (0 ∉ ((withRun (run1 0xA 32 [3, 5, 6])).dev.pier 0).runs.accRub) ∧
    fires (withRun (run1 0xE 32 [0xC, 5])) 0xE (fun r x i => (x.p 0).toNat = 0xC && rdSeg r x = some 32 && (i + 1) % 32 ≠ 0 && i + 1 ≠ r.n) = true ∧
    fires (withRun (run1 0xE 1 [0xC, 5])) 0xE (fun r _ i => i + 1 = r.n) = true ∧ fires (withRun (run1 0xE 32 [0, 5])) 0xE (fun _ x _ => x.p 0 = 0) = true ∧
    fires (withRun (run1 0xE 32 [0xD, 5])) 0xE (fun _ x _ => decide (0xC < (x.p 0).toNat)) = true ∧
    fires (withRun (run1 0xF 32 [1, 5, 6, 7, 4097])) 0xF (fun _ x _ => x.p 0 = 1 && decide (4096 < (x.p 4).toNat % 8192)) = true ∧
    fires (withRun (run1 0xF 32 [2, 5, 6])) 0xF (fun _ x _ => x.p 0 ≠ 1) = true ∧
    fires (withRun (run1 0xF 32 [1, 5, 6, 7, 4096])) 0xF (fun _ x i => x.p 0 = 1 && assocGet x.carry (i % 4096) (some 0) = some 0) = true := by
  decide +kernel

/-- A directory entry of partition 0, algorithm 1 (TDES, two keys), with every usage. -/
def entry0 : KeyEntry :=
  { handle := 5, owner := 0, alg := 1, version := 1, state := 1, usage := 0xFFFF, expiry := 0, size := 0, kcv := 0, bline := 0,
    wrap := List.replicate 40 0, pub := [], blob := [] }

theorem witness_audit_stone : let s := withRun { run1 0x11 16 [1, 9] with
      units := [{ num := 8, params := [0], ended := true }, { num := 0x11, params := [1, 9] }], conns := [⟨mkPort 8 4, mkPort 0x11 0, 0⟩]
      ins := [(mkPort 0x11 0, (List.range 16).map (fun i => ⟨i, 0, false⟩))] }
    fires s 0x11 (fun r x _ => x.p 0 = 1 && r.n % 16 = 0 && (r.inputs 0x11).all (fun q => decide (16 ≤ (r.inAt q).length))) = true := by
  decide +kernel

theorem witness_tiles :
    (let r := run1 0x20 64 [1, 0, 0, 0, 64, 1]
     let P := (withRun r).dev.pier 0
     P.runs.exec = some r ∧ P.runs.started = true ∧ someWith (r.unit? 0x20) (fun x => tileShape r.n x = some (64, 1, 1) && !x.ended && x.tiles + 1 < 64 / 32) = true) ∧
    (let r := run1 0x25 1536 [1, 0, 0, 0, 64, 1]
     someWith (r.unit? 0x25) (fun x => tileShape r.n x = some (64, 8, 3) && !x.ended && x.tiles + 1 < 64 / 32) = true) ∧
    (tileShape 64 { num := 0x20, params := [1, 0, 0, 0, 64, 1], tiles := 1 } = some (64, 1, 1)) ∧
    fires (withRun (run1 0x20 64 [1, 0, 0, 0, 65, 1])) 0x20 (fun r x _ => tileShape r.n x = none) = true := by decide +kernel

theorem witness_segments :
    fires (withRun (run1 0x21 32 [1, 5])) 0x21 (fun r x k => !segReserved r.n x && (k + 1) % segLen r.n x ≠ 0 && k + 1 ≠ r.n) = true ∧
    fires (withRun (run1 0x22 32 [1, 5])) 0x22 (fun r x k => !segReserved r.n x && (k + 1) % segLen r.n x ≠ 0 && k + 1 ≠ r.n) = true ∧
    fires (withRun (run1 0x23 1 [1, 5])) 0x23 (fun r x i => !segReserved r.n x && i + 1 = r.n) = true ∧
    fires (withRun { run1 0x21 4 [1, 5] with units := [{ num := 0x21, params := [1, 5], fired := 3 }] }) 0x21 (fun r x k =>
      !segReserved r.n x && k + 1 = r.n) = true ∧
    fires (withRun (run1 0x23 32 [1, 5])) 0x23 (fun r x i => !segReserved r.n x && (i + 1) % segLen r.n x ≠ 0 && i + 1 ≠ r.n) = true ∧
    (∀ u ∈ [0x21, 0x22, 0x23], fires (withRun (run1 u 32 [15, 5, 5, 5, 0xFFF])) u (fun r x _ => segReserved r.n x) = true) := by decide +kernel

theorem witness_xlat :
    fires (withRun (run1 0x24 32 [1, 5])) 0x24 (fun _ x _ => x.p 0 ≠ 6) = true ∧
    fires (withRun (run1 0x24 32 [6, 5, 5, 5, 0])) 0x24 (fun _ x i => x.p 0 = 6 && (x.p 4).toNat % 8 = 0 && i < 128) = true ∧
    ((withRun (run1 0x24 32 [6])).dev.pier 0).runs.xlat = ({} : XlatTab) :: List.replicate 7 {} := by decide +kernel

theorem witness_run_control : (0xE#32).getLsbD 0 = false ∧ (1#32).getLsbD 0 = true ∧
    (withCore {}).dev.reachable 0 = true ∧ (withCore {}).dev.reachable 1 = false ∧ ((withRun (run1 8 32 [])).dev.pier 0).runs.exec = some (run1 8 32 []) := by decide +kernel

/-- The words of that entry's line. -/
def line0 : List Word := entry0.line (List.replicate 32 0)

/-- Pier 0 with that line in its merge buffer, as a write of the replica leaves it. -/
def withEntry : State := withPier (fun P => { P with
  mem := { P.mem with merge := [⟨dirLine 5, line0, false⟩] }, runs := { P.runs with exec := some (run1 0x10 32 [1, 5]), started := true } })

theorem line0_check : entryCheck (List.replicate 32 0) line0 = line0.getD 14 0 := rfl

theorem witness_read_head (P : Pier) (h : P.mem.merge = [⟨dirLine 5, line0, false⟩]) :
    readHead (some (List.replicate 32 0)) 5 P = (some ⟨parseEntry 5 line0, 0⟩, P) := by
  have hf : lineFetch P .run (dirLine 5) = (some line0, P) := by simp [lineFetch, h]
  have hb : entryBlen line0 = 0 := by decide +kernel
  simp only [readHead, hf, headOf, hb, line0_check, Option.all_some, decide_true, Bool.or_true, if_true]

theorem witness_read_body (P : Pier) : ∃ e, readBody ⟨parseEntry 5 line0, 0⟩ P = (.entry e, P) := by
  have hs : (parseEntry 5 line0).state = 1#3 := by decide +kernel
  exact ⟨_, by simp only [readBody, hs, readBlob, show ¬ (1#3 = 0#3) from by decide, if_false]; rfl⟩

/-- A lookup of that entry in a constant-time run. -/
theorem witness_lookup :
    fires withEntry 0x10 (fun r x i => slotFree r i && (kfAsk r x i).op = 1 && r.operand x 0 = 5 && i = 0) = true ∧
    (∃ e, readHead (some (List.replicate 32 0)) 5 (withEntry.dev.pier 0) = (some e, withEntry.dev.pier 0) ∧
      kfReason ⟨some (List.replicate 32 0), none⟩ ⟨1, none, 0, 0, 1, 0⟩ e.entry = 0 ∧
      kfReason ⟨none, none⟩ ⟨1, none, 0, 0, 1, 0⟩ e.entry = 8 ∧
      ∃ b, readBody e (withEntry.dev.pier 0) = (.entry b, withEntry.dev.pier 0)) ∧
    ∃ l P1 P2, kfLook ⟨some (List.replicate 32 0), none⟩ ⟨1, none, 0, 0, 1, 0⟩ 0 5 true (withEntry.dev.pier 0) = (some (l, P1), P2) := by
  refine ⟨by decide +kernel, ⟨_, witness_read_head _ (by rfl), by decide +kernel, by decide +kernel, witness_read_body _⟩, ?_⟩
  exact ⟨_, _, _, by simp only [kfLook, Bool.or_true, if_true]; rfl⟩

/-- Handles that are none, a reserved operation and a rubble handle; a slot that still serves index 0; a bank that holds the lookup;
and a public component's width. -/
theorem witness_lookup_corners :
    fires (withRun (run1 0x10 32 [1, 0])) 0x10 (fun r x i => slotFree r i && r.operand x 0 = 0) = true ∧
    fires (withRun (run1 0x10 32 [1, 0x400000])) 0x10 (fun r x _ => decide (2 ^ 22 ≤ (r.operand x 0).toNat)) = true ∧
    fires (withRun (run1 0x10 32 [4, 5])) 0x10 (fun r x i => decide (3 < (kfAsk r x i).op)) = true ∧
    (let r : Run := { run1 0x10 32 [1, 5] with
        units := [{ num := 8, params := [0], ended := true }, { num := 0x10, params := [1, 5] }]
        conns := [⟨mkPort 8 4, mkPort 0x10 0, 0⟩], ins := [(mkPort 0x10 0, [⟨0, 0, true⟩])] }
     someWith (firing ((withRun r).dev.pier 0) 0x10) (fun t => t.1.rubbleIn t.2.1)) = true ∧
    fires (withRun { run1 0x10 1024 [1, 5] with
      units := [{ num := 0x10, params := [1, 5], fired := 512 }, { num := 0xE, params := [0xC, 5], fired := 512 }, { num := 0x21, params := [1, 5] }]
      conns := [⟨mkPort 0xE 4, mkPort 0x21 0, 0⟩, ⟨mkPort 0x10 4, mkPort 0x21 2, 0⟩] }) 0x10 (fun r _ i => i = 512 && !slotFree r i) = true ∧
    (let P := (withRun (run1 0x10 32 [1, 5])).dev.pier 0
     (kfLook ⟨some (List.replicate 32 0), none⟩ ⟨1, none, 0, 0, 1, 0⟩ 0 5 false { P with mem := { P.mem with
       bank := P.mem.bank.set 15 { owner := 64, content := 64, retn := .retained } } }).1.isNone = true) ∧
    kfWidth 0 = some 1 ∧ kfWidth 4096 = some 4096 ∧ kfWidth 4097 = none := by decide +kernel

/-- Commands of a run that find nothing to do. -/
theorem witness_nothing_to_do :
    (∀ u ∈ [8, 9, 0xA, 0xB, 0xC, 0xD, 0xE, 0xF, 0x10, 0x11, 0x12, 0x13, 0x21, 0x22, 0x23, 0x24], firing ((withCore {}).dev.pier 0) u = none) ∧
    fires (withRun (run1 0x11 16 [2, 9])) 0x11 (fun _ x _ => x.p 0 ≠ 1) = true ∧
    fires (withRun (run1 0x11 17 [1, 9])) 0x11 (fun r _ _ => r.n % 16 ≠ 0) = true ∧
    fires (withRun { run1 0x11 16 [1, 9] with
      units := [{ num := 8, params := [0], ended := true }, { num := 0x11, params := [1, 9] }], conns := [⟨mkPort 8 4, mkPort 0x11 0, 0⟩]
      ins := [(mkPort 0x11 0, [⟨0, 0, false⟩])] }) 0x11 (fun r x _ => x.p 0 = 1 && r.n % 16 = 0 &&
        !(r.inputs 0x11).all (fun q => decide (16 ≤ (r.inAt q).length))) = true ∧
    (run1 8 32 []).unit? 0x20 = none ∧ tileShape 64 { num := 0x20, params := [1, 0, 0, 0, 63, 1] } = none ∧
    fires (withRun (run1 0x20 64 [1, 0, 0, 0, 63, 1])) 0x20 (fun r x _ => tileShape r.n x = none) = true ∧
    tileShape 64 { num := 0x20, params := [1, 0, 0, 0, 64, 1], tiles := 2 } = some (64, 1, 1) := by decide +kernel

/-! ### Witnesses: banks, quarry, background work, checker and hod -/

/-- A device at AON tick `t`. -/
def atTick (t : Nat) (s : State) : State := { s with dev := { s.dev with time := BitVec.ofNat 64 t } }

theorem witness_bank_ownership : (withCore {}).dev.reachable 0 = true ∧
    (let o := (66#32).setWidth 7; 66 ≤ o.toNat ∧ o.toNat ≤ 126) ∧ (let o := (126#32).setWidth 7; 66 ≤ o.toNat ∧ o.toNat ≤ 126) ∧
    (let o := (65#32).setWidth 7
     ¬ ((66 ≤ o.toNat ∧ o.toNat ≤ 126) ∨ (((withCore {}).dev.pier 0).regs.retire.getLsbD 1 = true ∧ o ≠ 0x7F#7) ∨
       ((1 : Fin 16) = 0 ∧ ((withCore {}).dev.pier 0).core.run ≠ .reset ∧ o ≠ 0x40#7)) ∧ o ≠ ((withCore {}).dev.pier 0).mem.bank[1].owner) ∧
    (let s := withPier (fun P => P.onBank 3 (fun k => { k with scour := true })); (s.dev.pier 0).mem.bank[3].scour = true) := by decide +kernel

theorem witness_retention :
    (let s := atTick 625 (withCore {})
     let P := s.dev.pier 0
     let k := P.mem.bank[0]
     P.awake = true ∧ P.regs.reten.getLsbD 0 = true ∧ k.retn = .awake ∧ k.lastUse + P.regs.idle.toNat ≤ s.dev.now ∧ k.scour = false ∧
     P.mem.lockOn ≠ some (BitVec.ofFin 0) ∧ runUses P s.dev.now 0 = false) ∧
    (let s := atTick 50 (withPier (fun P => P.onBank 3 (fun k => { k with retn := .waking })))
     (s.dev.pier 0).mem.bank[3].retn = .waking ∧ (s.dev.pier 0).mem.bank[3].lastUse + 50 ≤ s.dev.now ∧
     (atTick 49 s).dev.now < (s.dev.pier 0).mem.bank[3].lastUse + 50) ∧
    (let s := withPier (fun P => { P with mem := { P.mem with lockWait := some 2 } })
     (s.dev.pier 0).mem.lockWait = some 2 ∧
     (s.dev.pier 0).runs.exec.any (fun r => (runBanks (s.dev.pier 0) s.dev.now r).contains (2#4).toFin) = false) ∧
    (let s := withPier (fun P => { P with mem := { P.mem with lockOn := some 2 } }); (s.dev.pier 0).mem.lockOn = some 2) ∧
    ((2#32).setWidth 16 &&& 0xFFFE#16).getLsbD 1 = true := by decide +kernel

/-- Banks, lines and passes that have nothing to do. -/
theorem witness_banks_at_rest :
    (let P := (withCore {}).dev.pier 0
     P.mem.bank[3].scour = false ∧ P.mem.bank[3].retn ≠ .waking ∧ (∀ b, P.mem.lockWait = some b → False) ∧ P.mem.lockOn = none ∧
     9 ∉ P.mem.wback ∧ ¬ (P.mem.bank[3].lastUse + P.regs.idle.toNat ≤ (withCore {}).dev.now) ∧ P.mem.selfRefresh = true ∧
     (eccDecode (P.mem.banks.get 9)).1 ≠ .corrected ∧ P.lapB.ticks ≤ P.lapB.limit.toNat ∧ P.lapQ.ticks ≤ P.lapQ.limit.toNat) ∧
    (withCore {}).dev.reachable 1 = false ∧ ((withCore {}).dev.pier 1).awake = false ∧
    (withCore {}).dev.now < ((withCore {}).dev.pier 0).mem.retrainAt + 5000000 ∧ (withCore {}).dev.now < (withCore {}).dev.fc.calAt + 25000000 ∧
    (withCore {}).dev.flash.region 131071 = none ∧
    ((withPier (fun P => P.onBank 0 (fun k => { k with retn := .retained }))).dev.pier 0).mem.bank[bankOf 9].retn = .retained ∧
    ((withPier (fun P => { P with mem := { P.mem with lockOn := some 0 } })).dev.pier 0).mem.lockOn = some (BitVec.ofFin (bankOf 9)) ∧
    ((withPier (fun P => P.onBank 0 (fun k => { k with owner := 64 }))).dev.pier 0).mem.bank[bankOf 0].owner ≠ 65#7 := by decide +kernel

/-- A line that no correction brings back, and one that is poison. -/
theorem witness_bad_lines :
    (lineDecode (1#576 <<< 35 ||| 1#576 <<< 80 ||| 1#576 <<< 130)).1 = .uncorrectable ∧
    (lineDecode (linePoison (List.replicate 15 0))).1 = .poison ∧ (lineDecode 0#576).1 = .clean := by decide +kernel

theorem witness_write_back :
    let P := (withPier (fun P => { P with mem := { P.mem with banks := [(3, eccEncode 5#36 ^^^ 1#43)], wback := [3] } })).dev.pier 0
    P.mem.lockOn ≠ some (BitVec.ofFin (bankOf 3)) ∧ 3 ∈ P.mem.wback ∧ eccDecode (P.mem.banks.get 3) = (.corrected, 5#36) := by decide +kernel

theorem witness_lines :
    (let P := (withPier (fun P => { P with mem := { P.mem with selfRefresh := false, quarry := [(7, 1#576)] } })).dev.pier 0
     P.mem.selfRefresh = false ∧ P.mem.merge = [] ∧ lineDecode (P.mem.quarry.get 7) = (.corrected 1, 0#576)) ∧
    (let e : MergeLine := ⟨7, List.replicate 15 0, false⟩
     let P := (withPier (fun P => { P with mem := { P.mem with selfRefresh := false, merge := [e] } })).dev.pier 0
     P.mem.selfRefresh = false ∧ P.mem.merge = [e] ∧ e.line = (7#25).toNat ∧ P.regs.injLine ≠ 7) := by decide +kernel

theorem witness_pointing :
    (let P := (withCore {}).dev.pier 0
     P.awake = true ∧ P.regs.pause = false ∧ P.regs.retire.getLsbD 0 = false ∧ P.mem.bank[0].scour = false ∧ P.mem.bank[0].retn = .awake ∧
     P.mem.lockOn ≠ some (BitVec.ofFin 0) ∧ P.lapB.count + 1 < bankLapWords P ∧ eccDecode (P.mem.banks.get 9) = (.clean, 0)) ∧
    (let P := (withPier (fun P => { P with lapB := { P.lapB with ticks := 25000001 } })).dev.pier 0
     P.lapB.overdue = false ∧ P.lapB.limit.toNat < P.lapB.ticks) := by decide +kernel

theorem witness_background :
    ((withPier (fun P => { P with mem := { P.mem with selfRefresh := false } })).dev.pier 0).mem.selfRefresh = false ∧
    (let s := atTick 5000000 (withPier (fun P => { P with mem := { P.mem with trained := true } }))
     (s.dev.pier 0).mem.trained = true ∧ (s.dev.pier 0).mem.retrainAt + 5000000 ≤ s.dev.now) ∧
    (let s := atTick 25000000 (withCore {}); s.dev.fc.calAt + 25000000 ≤ s.dev.now) ∧
    (withCore {}).dev.flash.region 0x1100 = some (3, 0x1100, 0x400) ∧ assocGet (withCore {}).dev.flash.erases 0x1100 0 + 1 < 80000 ∧
    80000 ≤ assocGet [(0x1100, 79999)] 0x1100 0 + 1 := by decide +kernel

theorem witness_checker :
    (let s : State := { dev := { (withPier (fun P => P.onBank 0 (fun k => { k with owner := 65 }))).dev with life := { up.life with op := .test } } }
     let P := s.dev.pier 0
     s.dev.reachable 0 = true ∧ s.dev.life.op = .test ∧ P.mem.bank[bankOf P.regs.chkAddr.toNat].owner = 65#7 ∧
     P.mem.bank[bankOf P.regs.chkAddr.toNat].scour = false ∧ P.mem.banks.wf = true ∧
     eccDecode (P.mem.banks.get P.regs.chkAddr.toNat) = (.clean, 0)) ∧
    ((withCore {}).dev.reachable 0 = true ∧ (withCore {}).dev.life.op ≠ .test) := by decide +kernel

/-- A ticket of one inbound segment of four bytes at pier address 64. -/
def ticket0 : List Word := [0x000000000#36, 64#36, 0, 0, 0, 0x1000#36, 0, 4]

/-- Pier 0 with that ticket at word 64 of bank 0. -/
def withTicket : State := withPier (fun P => { P with
  mem := { P.mem with banks := (((List.range 8).map (fun i => (64 + i, eccEncode (ticket0.getD i 0)))).filter (fun e => e.2 ≠ 0)) }
  hod := { P.hod with queue := [⟨1, false⟩] } })

theorem witness_hod_commands : (withCore {}).dev.reachable 0 = true ∧
    (let P := (withCore {}).dev.pier 0; P.hod.queue.length + P.hod.cur.toList.length < 16 ∧ P.hod.suspd = false ∧ P.hod.cur = none) ∧
    (let P := (withPier (fun P => { P with hod := { P.hod with queue := List.replicate 16 ⟨1, false⟩ } })).dev.pier 0
     16 ≤ P.hod.queue.length + P.hod.cur.toList.length) := by decide +kernel

theorem witness_hod_start :
    let P := withTicket.dev.pier 0
    P.hod.queue = ⟨1, false⟩ :: [] ∧ P.hod.cur = none ∧ P.hod.suspd = false ∧ P.awake = true ∧
    (match ticketWords { P with hod := { P.hod with queue := [] } } withTicket.dev.now .supervisor 64 5 with
     | .ok h Q1 => h = ticket0.take 5 && (match ticketWords Q1 withTicket.dev.now .supervisor 64 8 with
       | .ok ws _ => ws = ticket0
       | _ => false)
     | _ => false) = true ∧
    ticketReserved ticket0 1 = false ∧ ticketLengths 0 (ticketSegs ticket0 1) = true := by decide +kernel

/-- An outbound ticket of the frontage at its first of two segments of four bytes, one word each. -/
def cur0 : HodCur := ⟨1, true, true, 0, 0, 128, false, 0, [(0x1000, 4), (0x2000, 4)]⟩

theorem witness_hod_segment :
    let s := withPier (fun P => { P with hod := { P.hod with cur := some cur0 } })
    let d : Dev := { s.dev with host := { s.dev.host with fns := s.dev.host.fns.set 0 { busMaster := true } } }
    (d.pier 0).hod.cur = some cur0 ∧ d.canSend (d.hodFn cur0.frontage cur0.tag) = true ∧ cur0.outbound = true ∧
    (match hodRead ⟨hodIdent true 0, none⟩ d.now (packWords 0 4) cur0.segBase (d.pier 0) with
     | .ok ws P1 => ws = [0] && !P1.hod.suspReq
     | _ => false) = true ∧ cur0.seg + 1 < cur0.segs.length := by decide +kernel

/-- What the reading of a ticket's words and the check of an inbound destination meet: 0 a value, 1 a hold, 2 a fault, 3 rubble. -/
def ticketMeets (f : Pier → Pier) : Nat :=
  match ticketWords (f (withTicket.dev.pier 0)) 0 (.owner 0x40#7) 64 5 with
  | .ok _ _ => 0
  | .held _ => 1
  | .bus _ _ => 2
  | .rubble _ => 3

/-- The same for the words of an inbound segment at `a` under the frontage. -/
def destMeets (a : Word) (f : Pier → Pier) : Nat :=
  match hodDests ⟨hodIdent true 0, none⟩ 0 [0] 0 a (f (withTicket.dev.pier 0)) with
  | .ok ws P => if (hodPoison ws (groupLines ws) P).1.isSome then 3 else 0
  | .held _ => 1
  | .fault _ _ _ => 2

theorem witness_hod_corners :
    let bank (b : Bank) (P : Pier) : Pier := { P with mem := { P.mem with bank := P.mem.bank.set 0 b } }
    ticketMeets id = 0 ∧ ticketMeets (bank { owner := 64, content := 64, retn := .retained }) = 1 ∧
    ticketMeets (bank { owner := 5, content := 5 }) = 2 ∧
    ticketMeets (fun P => { P with mem := { P.mem with banks := [(64, eccPoison)] } }) = 3 ∧
    destMeets 9 id = 0 ∧ destMeets 9 (bank { owner := 64, content := 64, retn := .retained }) = 1 ∧
    destMeets 9 (bank { owner := 5, content := 5 }) = 2 ∧
    destMeets (BitVec.ofNat 36 quarryBase) (fun P => { P with
      mem := { P.mem with selfRefresh := false, quarry := [(0, linePoison (List.replicate 15 0))] } }) = 3 ∧
    ticketReserved [0x300000000#36] 1 = true ∧ ticketReserved ticket0 1 = false ∧
    ticketLengths 2 [(0x1000, 3)] = false ∧ ticketLengths 0 [(0x1000, 16777216)] = true ∧ ticketLengths 0 [(0x1000, 16777217)] = false ∧
    up.canSend (up.hodFn true 0) = false := by decide +kernel

/-! ### Witnesses: rings, entries, items -/

/-- `up` with function `f` enabled on the bus and its ring `r` changed. -/
def withRing (f : FnId) (r : Fin 64) (g : Ring → Ring) : State :=
  { dev := (up.onFn f (fun F => { F with busMaster := true, msixEn := true })).onRing f r g }

/-- A ring with one entry to fetch. -/
def ring1 (R : Ring) : Ring := { R with en := true, sqTail := 1, log2sq := 4, log2cq := 4 }

theorem witness_doorbells :
    up.doorbellTaken .pf0 = true ∧ 0 < up.ringCount .pf0 ∧ isEvent .pf0 0 = false ∧ (up.ring .pf0 0).en = false ∧
    (let v := 0x80400000#32
     v.getLsbD 31 = true ∧ 4 ≤ (v.extractLsb' 20 5).toNat ∧ (v.extractLsb' 20 5).toNat ≤ 16 ∧ isEvent .pf1 1 = true ∧
     up.doorbellTaken .pf1 = true ∧ 1 < up.ringCount .pf1 ∧ (v.extractLsb' 0 6).toNat < vectorCount .pf1) ∧
    ¬ ((0x80000000#32).extractLsb' 20 5).toNat ≥ 4 ∧
    State.reset.dev.doorbellTaken .pf0 = false ∧ up.ringCount (.vf 0) ≤ 63 ∧
    ((withRing .pf0 0 ring1).dev.ring .pf0 0).en = true ∧ (withCore {}).dev.nextRing = none ∧ (up.ring .pf0 0).fetching = [] := by decide +kernel

theorem witness_entry_fetch :
    (withRing .pf0 0 ring1).dev.nextRing = some (.pf0, 0) ∧
    (let s := withRing .pf0 0 (fun R => { R with fetching := [3] }); (s.dev.ring .pf0 0).fetching = 3 :: []) := by decide +kernel

/-- The bytes of an entry: opcode, and the rest zero. -/
def entryOf (opc : Byte) : List Byte := opc :: List.replicate 63 0

theorem witness_entry_passes :
    let s := withRing .pf0 0 (fun R => { R with fetching := [0] })
    let dws := entryDws (fitBytes 64 (entryOf 1))
    (s.dev.ring .pf0 0).fetching = 0 :: [] ∧
    entryCheck7 (s.dev.onRing .pf0 0 (fun R => { R with fetching := [] })) .pf0 dws (inField dws (.data [])) (outField dws (.data [])) =
      .pass none := by decide +kernel

/-- Partition 0 with one session, number 5 of VF1. -/
def session5 : Session := ⟨5, .vf 0, 0, 15, 0, 0, 0, 1, 0, true⟩

/-- A VF1 entry of ECHO with session 5 and sequence number 1. -/
def entryVf : List Byte := [1, 0, 0, 0, 5, 0, 0, 0, 1] ++ List.replicate 55 0

theorem witness_entry_session :
    let s := withRing (.vf 0) 0 (fun R => { R with fetching := [0] })
    let d : Dev := { s.dev with sessions := [session5], parts := [⟨0, 1, 1, []⟩] }
    let dws := entryDws (fitBytes 64 entryVf)
    entryCheck7 d (.vf 0) dws (inField dws (.data [])) (outField dws (.data [])) =
      .pass (some { session5 with h := 1, w := 3, items := 1 }) := by decide +kernel

theorem witness_entry_fails :
    let s := withRing .pf0 0 (fun R => { R with fetching := [0] })
    let dws := entryDws (fitBytes 64 (entryOf 0))
    (s.dev.ring .pf0 0).fetching = 0 :: [] ∧ s.dev.recordsAllowed = true ∧ (s.dev.acceptedHead 16).1 < cseqMax ∧ s.dev.items = [] ∧
    entryCheck7 (s.dev.onRing .pf0 0 (fun R => { R with fetching := [] })) .pf0 dws (inField dws (.data [])) (outField dws (.data [])) =
      .fail 0x10 := by decide +kernel

/-- The same where no record may be made, and on an exhausted chain 16. -/
theorem witness_entry_fails_unrecorded :
    let s := withRing .pf0 0 (fun R => { R with fetching := [0] })
    let d1 : Dev := { s.dev with fc := { s.dev.fc with halt := true, haltHard := true } }
    let d2 : Dev := { s.dev with audit := { s.dev.audit with recs := [⟨16, cseqMax, List.replicate 16 7, List.replicate 64 0, none⟩] } }
    d1.recordsAllowed = false ∧ d2.recordsAllowed = true ∧ cseqMax ≤ (d2.acceptedHead 16).1 ∧ d2.audit.full.contains 16 = false := by
  decide +kernel

theorem witness_sequence_numbers :
    session5.h.toNat = 0 ∧ session5.h.toNat ≠ 2 ^ 48 - 1 ∧ session5.h.toNat < 300 ∧ (BitVec.ofNat 48 (2 ^ 48 - 1)).toNat = 2 ^ 48 - 1 ∧
    session5.w.getLsbD 0 = true ∧ session5.w.getLsbD 255 = false ∧ (300 : Nat) - 45 ≤ 255 ∧ 255 < (300 : Nat) - 44 := by decide +kernel

/-- A masked vector, and a function whose MSI-X is off. -/
theorem witness_interrupts_masked :
    (let s := withRing .pf0 0 (fun R => { R with vec := 55 })
     let d := s.dev.onFn .pf0 (fun F => { F with fmask := true })
     d.postsAllowed = true ∧ (d.fn .pf0).msixEn = true ∧ (d.fn .pf0).fmask = true ∧ (d.ring .pf0 0).vec.toNat < 56) ∧
    (up.fn .pf0).msixEn = false := by decide +kernel

/-- R343: a number in the window is accepted once; one 255 behind the highest number still, one 256 behind no more. -/
theorem test_replay_window :
    let x : Session := { session5 with h := 300, w := 1 }
    (replayJudge x 45).isSome = true ∧ replayJudge x 44 = none ∧ (replayJudge x 300).isSome = false := by decide +kernel

/-- An item of VF1. -/
def item0 (opc : Nat) (st : Stage) : Item :=
  { id := 1, fn := .vf 0, slot := 0, dws := BitVec.ofNat 32 opc :: List.replicate 15 0, inSegs := [], outSegs := [(0x1000, 4096)],
    stage := st, part := some 0 }

/-- `up` with an item and the bus enabled for its function. -/
def withItem (i : Item) : State := { dev := { (withRing i.fn 0 id).dev with items := [i], nextItem := 2 } }

theorem witness_item_result :
    let i := item0 1 (.result 0)
    (withItem i).dev.item? 1 = some i ∧ i.output = [] ∧
    (let j := { i with output := [1, 2] }
     (withItem j).dev.item? 1 = some j ∧ j.flr = false ∧ j.outSegs = [(0x1000, 4096)] ∧ (withItem j).dev.canSend j.fn = true ∧
     ({ up with items := [j] } : Dev).canSend j.fn = false ∧ ({ up with items := [j] } : Dev).item? 1 = some j) ∧
    (let k := item0 1 (.result 16); (withItem k).dev.item? 1 = some k ∧ (16 : Fin 17).val = 16) ∧
    up.item? 1 = none := by
  decide +kernel

/-- A record of chain 16 that waits. -/
def record0 : AuditRec := ⟨16, 1, List.replicate 16 7, List.replicate 64 0, none⟩

/-- `up` with PF1 slot 1 enabled and a record waiting. -/
def withRecord (head : BitVec 16) : State :=
  let s := withRing .pf1 1 (fun R => { ring1 R with cqHead := head })
  { dev := { s.dev with audit := { s.dev.audit with recs := [record0] } } }

theorem witness_audit_record :
    (withRecord 0).dev.audit.recs.find? (fun r => r.chain = 16) = some record0 ∧ (withRecord 0).dev.delivering = true ∧
    (withRecord 0).dev.eventRoom 1 1 = true ∧ (withRecord 1).dev.eventRoom 1 1 = false ∧
    (withRecord 0).dev.audit.older ≤ (withRecord 0).dev.audit.recs.idxOf record0 ∧ up.audit.waitAt = none ∧
    up.audit.recs.find? (fun r => r.chain = 16) = none := by decide +kernel

theorem witness_audit_notice :
    let s := withRecord 1
    let d : Dev := { s.dev with time := 250000, audit := { s.dev.audit with waitAt := some (0, false) } }
    d.audit.waitAt = some (0, false) ∧ d.audit.recs ≠ [] ∧ d.eventRoom 1 1 = false ∧ 0 + 250000 ≤ d.now := by decide +kernel

theorem witness_completion :
    let i := item0 1 (.posted 16 1 0)
    (withItem i).dev.item? 1 = some i ∧ i.flr = false ∧ i.drop = false ∧ (withItem i).dev.mayComplete i = true ∧
    up.mayComplete i = false ∧ (item0 1 (.posted 16 1 0)).flr = false := by decide +kernel

theorem witness_interrupts :
    (let s := atTick 25 (withRing .pf0 0 (fun R => { R with unsig := 1, ctime := 1 }))
     (s.dev.ring .pf0 0).unsig ≠ 0 ∧ (s.dev.ring .pf0 0).ctime ≠ 0 ∧
     (s.dev.ring .pf0 0).unsigAt + 25 * (s.dev.ring .pf0 0).ctime.toNat ≤ s.dev.now ∧ s.dev.postsAllowed = true ∧
     (s.dev.fn .pf0).msixEn = true ∧ s.dev.canSend .pf0 = true) ∧
    (up.ring .pf0 0).unsig = 0 ∧ State.reset.dev.barReached .pf0 = false ∧ (10#14).toNat % (4 * 1) ≠ 0 ∧
    up.barReached .pf0 = true ∧ (8#14).toNat / 16 < vectorCount .pf0 ∧ (8#14).toNat % 16 = 8 ∧
    ∀ e ∈ (up.fn .pf0).msix.toList, e.pend = false := by decide +kernel

/-! ### Witnesses: functions, link, sideband, setter -/

theorem witness_resets_of_functions :
    (up.fnExists .pf1 = true ∧ up.barReached .pf1 = true) ∧ (up.onFn .pf1 (fun F => { F with d3 := true })).barReached .pf1 = false ∧
    up.host.vfEn = true ∧ up.fnExists (.vf 63) = true ∧
    (let i := { item0 1 .setter with flr := true }
     (withItem i).dev.item? 1 = some i ∧ i.flr = true ∧ (withItem i).dev.recordsAllowed = true ∧
     ((withItem i).dev.acceptedHead 16).1 < cseqMax) ∧
    up.host.link = .up ∧ up.host.perst = false ∧ up.board.porLow = false ∧ State.reset.dev.host.perst = true := by decide +kernel

/-- A function in D3hot or out of reach; an item of a reset function on a pier, after its record, and at its completion. -/
theorem witness_flr_items :
    State.reset.dev.cfgReached .pf1 = false ∧ up.cfgReached .pf1 = true ∧ (up.fn .pf1).d3 = false ∧
    ((up.onFn .pf1 (fun F => { F with d3 := true })).fn .pf1).d3 = true ∧ (up.onFn .pf1 (fun F => { F with d3 := true })).cfgReached .pf1 = true ∧
    State.reset.dev.host.vfEn = false ∧
    (∀ st ∈ ([.pier 0, .result 0, .record 0, .overLimit 0, .setter, .warden, .keyChange, .stateWait, .destroyWait, .result 16, .record 16,
        .recorded 16 1, .posted 16 1 0] : List Stage),
      (withItem { item0 1 st with flr := true }).dev.item? 1 = some { item0 1 st with flr := true }) ∧
    (up.pier 0).runs.au0.cseq < cseqMax ∧ up.recordsAllowed = true := by decide +kernel

theorem witness_link_states :
    State.reset.dev.host.link = .down ∧ up.host.link ≠ .down ∧ State.reset.dev.board.porLow = true := by decide +kernel

theorem witness_configuration :
    up.host.link = .up ∧ up.fnExists .pf0 = true ∧ up.host.cfgReady = true ∧
    (let h : HostPort := { up.host with cfgReady := false, ptmEn := true, spdm := { session := true, ide := [(0, [1])] } }
     up.host.spdm.ide = [] ∧ up.host.ptmEn = false ∧ State.reset.dev.host.cfgReady = false ∧ h.link = .up ∧ h.cfgReady = false ∧ h.ptmEn = true ∧ h.spdm.session = true ∧ h.spdm.ide ≠ []) ∧
    0 + 250000 ≤ (atTick 250000 (withCore {})).dev.now := by decide +kernel

/-- A partition that exists. -/
def withPart (d : Dev) : Dev := { d with parts := [⟨0, 8, 8, [0]⟩] }

/-- A component of a KEK whose check value is its own. -/
def comp0 : List Byte := List.replicate 32 1

theorem witness_steward :
    up.sidebandAnswers = true ∧ up.life.pf = .none ∧ up.evoariRuns = true ∧ up.chainsUp = true ∧ up.kekStates = true ∧
    up.recordsAllowed = true ∧ (up.acceptedHead 16).1 < cseqMax ∧ up.openOf 16 = none ∧
    State.reset.dev.sidebandAnswers = false ∧
    ({ up with life := { up.life with pf := .stopped } } : Dev).sidebandAnswers = true ∧
    (let d : Dev := { up with life := { up.life with boot := .filled } }; d.evoariRuns = false) ∧
    ({ up with life := { up.life with op := .startUp } } : Dev).kekStates = false ∧ 120 ≤ leNat [200, 0] ∧ leNat [200, 0] ≤ up.cap ∧ leNat [119, 0] < 120 ∧ up.cap < leNat [0, 3] := by decide +kernel

theorem leNat_leBytes3 (n : Nat) (h : n < 2 ^ 24) : leNat (leBytes 3 n) = n := by
  simp [leBytes, leNat]; omega

theorem witness_kek_component :
    let kcv := (symKcv 5 comp0).toNat
    let payload := 0 :: 2 :: leBytes 3 kcv ++ comp0
    let d0 := ((withPart up).chooseBus false).onCore .warden (fun k => { k with ipend := k.ipend ||| 0x100#9 })
    5 ≤ payload.length ∧ (payload.getD 0 0).toNat = 0 ∧ (payload.getD 1 0).toNat = 2 ∧ leNat ((payload.drop 2).take 3) = kcv ∧
    payload.drop 5 = comp0 ∧ (d0.kekArrive 0 2 kcv comp0 false).1 = .pending := by
  have h0 : (symKcv 5 comp0).toNat < 2 ^ 24 := BitVec.isLt _
  generalize hk : (symKcv 5 comp0).toNat = kcv at h0
  intro kcv' payload d0
  have e : (leBytes 3 kcv').length = 3 := by simp [leBytes]
  have h1 : d0.partExists 0 = true := by decide +kernel
  have h2 : d0.ks.pendOf 0 = none := by decide +kernel
  have h3 : d0.ks.pendFree = some 0 := by decide +kernel
  have h4 : comp0.length = 32 := by decide
  refine ⟨by simp [payload, e], by simp [payload], by simp [payload], ?_, ?_, ?_⟩
  · simp [payload, e]; exact leNat_leBytes3 kcv h0
  · simp [payload, e]
  · simp [Dev.kekArrive, h1, h2, h3, h4, kalgAlg, hk, kcv']

theorem witness_kek_expires :
    let e : KekPend := ⟨0, 0, 2, true, 0⟩
    let d : Dev := { up with time := 15000000000, ks := { up.ks with pend := [e] } }
    d.ks.pendOf 0 = some e ∧ e.since + 15000000000 ≤ d.now ∧ (d.acceptedHead 16).1 < cseqMax := by decide +kernel

theorem witness_buses :
    up.board.sbMode ≠ some false ∧ up.board.dynAddr = none ∧ 0x58#7 + up.board.sbAddr.setWidth 7 = 0x58#7 ∧ up.life.life ≠ 0 ∧
    up.life.life ≠ 4 ∧ State.reset.dev.life.life = 0 := by decide +kernel

/-- A batch of item 1. -/
def batch0 (st : BatchState) : Batch := { id := 7, cls := ⟨3, 0x40, []⟩, items := [1], oldest := 0, state := st }

/-- Pier 0 awake at AON tick `t`, with item 1 and its batch. -/
def withBatch (t : Nat) (i : Item) (b : Batch) : State :=
  let s := atTick t (withCore {})
  { dev := { (s.dev.onFn i.fn (fun F => { F with busMaster := true })) with
      items := [i], nextItem := 2, parts := [⟨0, 8, 8, [0]⟩], setter := { s.dev.setter with batches := [b], minawake := 0 } } }

theorem witness_batches :
    (let s := withBatch 2500 (item0 0x40 .setter) (batch0 .gathering)
     s.dev.batch? 7 = some (batch0 .gathering) ∧ 0 + 25 * s.dev.setter.win.toNat ≤ s.dev.now ∧
     (batch0 .ready).readyAt + 250000 ≤ 250000) ∧
    (let i := { item0 0x40 .setter with dws := [0x40, 0, 0, 0x40000] ++ List.replicate 12 0 }
     let s := withBatch 50 i (batch0 .gathering)
     s.dev.item? 1 = some i ∧ s.dev.setter.batches.find? (fun b => b.items.contains 1) = some (batch0 .gathering) ∧
     (i.dw 3).toNat / 65536 ≠ 0 ∧ i.joined + 25 * min s.dev.setter.win.toNat ((i.dw 3).toNat / 65536 / 2) ≤ s.dev.now) := by
  decide +kernel

theorem witness_placement :
    State.reset.dev.placing = false ∧
    (let s := withBatch 0 (item0 0x40 .setter) (batch0 .ready)
     s.dev.placing = true ∧ s.dev.readyOrder = batch0 .ready :: [] ∧ s.dev.allowed (s.dev.batchParts (batch0 .ready)) 0 = true ∧
     s.dev.rule1 (batch0 .ready) = some 0 ∧ s.dev.setter.minawake = 0 ∧ s.dev.fc.inReset.getLsbD 0 = false) ∧
    (withCore {}).dev.readyOrder.findSome? (withCore {}).dev.placeOne = none ∧
    (let s := withBatch 0 (item0 0x40 .setter) (batch0 .ready)
     ({ s.dev with fc := { s.dev.fc with inReset := 1 } } : Dev).fc.inReset.getLsbD 0 = true ∧
     (s.dev.readyOrder.findSome? s.dev.placeOne).isSome = true) := by decide +kernel

/-- Piers and batches whose time has not come. -/
theorem witness_setter_waits :
    (withCore {}).dev.runningOn 0 = none ∧ (withCore {}).dev.batch? 7 = none ∧ (withCore {}).dev.item? 1 = none ∧
    ((withCore {}).dev.pier 1).awake = false ∧ ((withCore {}).dev.pier 0).pw.st ≠ .sleep ∧ ((withCore {}).dev.pier 0).regs.req = false ∧
    (withCore {}).dev.victimRecorded 0 = false ∧ (withCore {}).dev.readyOrder = [] := by decide +kernel

theorem witness_idle_piers :
    (let s := withBatch 0 (item0 0x40 (.recorded 0 1)) (batch0 (.running 0))
     let d : Dev := { s.dev with life := { s.dev.life with op := .startUp } }
     d.runningOn 0 = some (batch0 (.running 0)) ∧
     d.items.any (fun i => (batch0 (.running 0)).items.contains i.id && i.unfinished 0) = false ∧ d.placing = false ∧
     d.setter.eager = false) ∧
    (let s := withBatch 12500 (item0 0x40 .setter) (batch0 .ready)
     (s.dev.pier 0).awake = true ∧ s.dev.holdsNoBatch 0 = true ∧
     s.dev.setter.idleSince[(0 : Fin 16)] + 25 * s.dev.setter.sleept.toNat ≤ s.dev.now ∧ s.dev.setter.minawake.toNat ≤ s.dev.awakeBeside 0) ∧
    (let s := atTick 2500000 (withPier (fun P => { P with
        pw := { P.pw with st := .sleep }, mem := { P.mem with bank := Vector.replicate 16 { owner := 64 } } }))
     let d : Dev := { s.dev with setter := { s.dev.setter with offok := true } }
     (d.pier 0).pw.st = .sleep ∧ (d.pier 0).pw.change = .none ∧ d.setter.offok = true ∧ (d.pier 0).pw.since + 2500000 ≤ d.now ∧
     ∀ b : Fin 16, b.val < 15 → 64 ≤ (d.pier 0).mem.bank[b].owner.toNat) := by decide +kernel

/-- A second batch, of a higher QoS. -/
def batch1 : Batch := { id := 8, cls := ⟨9, 0x30, []⟩, items := [2], oldest := 0, state := .ready }

/-- Pier 0 full, of the piers in `en`, with rule 3 on or off. -/
def fullPier (en : BitVec 16) (pre : Bool) : Dev :=
  let d := (withBatch 501 (item0 0x40 (.pier 0)) (batch0 (.running 0))).dev
  { d with setter := { d.setter with batches := [batch0 (.running 0), batch1], qd := 0, en := en, preEn := pre } }

/-- A batch that finds pier 0 full: rule 2 wakes a pier, rule 3 preempts where none may be woken, and else it waits; where no pier is
allowed it waits too. -/
theorem witness_placement_rules :
    (fullPier 0xFFFF true).allowed ((fullPier 0xFFFF true).batchParts batch1) 0 = true ∧ (fullPier 0xFFFF true).rule1 batch1 = none ∧
    (fullPier 0xFFFF true).fc.inReset = 0 ∧
    (fullPier 1 true).allowed ((fullPier 1 true).batchParts batch1) 0 = true ∧ (fullPier 1 true).rule1 batch1 = none ∧
    (fullPier 1 true).fc.inReset = 0 ∧
    (fullPier 1 false).allowed ((fullPier 1 false).batchParts batch1) 0 = true ∧ (fullPier 1 false).rule1 batch1 = none ∧
    (fullPier 1 false).fc.inReset = 0 ∧
    ((fullPier 0xFFFF true).rule2 batch1).isSome = true ∧ ((fullPier 1 true).rule2 batch1).isNone = true ∧
    ((fullPier 1 true).rule3 batch1).map (·.1) = some 0 ∧ ((fullPier 1 false).rule2 batch1).isNone = true ∧
    ((fullPier 1 false).rule3 batch1).isNone = true ∧
    ∀ p, (fullPier 0 true).allowed ((fullPier 0 true).batchParts batch1) p = false := by decide +kernel

theorem witness_preemption :
    (let s := withBatch 25000 (item0 0x40 (.pier 0)) (batch0 (.running 0))
     let d := { (s.dev.onPier 0 (fun P => { P with regs := { P.regs with req := true } })) with
       setter := { s.dev.setter with batches := [batch0 (.running 0), batch1], preempts := [(0, 8, 7)] } }
     (d.pier 0).regs.req = true ∧ d.setter.preempts.find? (fun e => e.1 = 0) = some (0, 8, 7) ∧ (8 : Nat) ≠ 7 ∧
     d.victimRecorded 0 = false ∧ (d.pier 0).hod.cur = none ∧ ((d.suspendWork 0).pier 0).hod.suspd = true ∧
     d.placing = true ∧ (d.pier 0).awake = true ∧ d.allowed (d.batchParts batch1) 0 = true ∧ (d.pier 0).lapOverdue = false ∧
     ((d.held 0).filter (fun x => x.id ≠ 7)).length < d.setter.qd.toNat + 1 ∧
     ({ d with items := [item0 0x40 (.recorded 0 1)] } : Dev).victimRecorded 0 = true ∧
     d.batch? 8 = some batch1 ∧ batch1.state = .ready ∧ (d.pier 0).regs.reqAt + 25000 ≤ d.now ∧
     (∀ e ∈ (d.pier 0).detq, e.cause ≠ 0x0E#8) ∧
     (let e := d.onPier 0 (fun P => { P with hod := { P.hod with cur := some cur0 } })
      ((e.suspendWork 0).pier 0).hod.suspd = false)) := by decide +kernel

theorem witness_minrun :
    let s := withBatch 501 (item0 0x40 (.pier 0)) (batch0 (.running 0))
    let d : Dev := { s.dev with
      setter := { s.dev.setter with batches := [batch0 (.running 0), batch1], qd := 0, en := 1 } }
    d.placing = true ∧ d.setter.preEn = true ∧
    d.readyOrder.find? (fun b => !d.preempting b.id && (d.rule1 b).isNone && (d.rule2 b).isNone && d.victimOk b.cls.qos b 0) =
      some batch1 ∧ d.runningOn 0 = some (batch0 (.running 0)) := by decide +kernel

/-- The quarry line that holds one word, and zeros. -/
def lineHolding (a : Nat) (w : Word) : Nat × BitVec 576 :=
  ((a - quarryBase) / 15, lineEncode ((List.range 15).map (fun i => if i = (a - quarryBase) % 15 then w else 0)))

/-- Partition 0's tables in the reserve: three levels, IPA 0 at word 0x20100 of bank 1, 64 words. -/
def leafPier (P : Pier) : Pier := { P with
  regs := { P.regs with s2cfg := P.regs.s2cfg.set 0 ⟨0, BitVec.ofNat 30 (tablesBase / 64)⟩ }
  mem := { P.mem with quarry := [lineHolding tablesBase (BitVec.ofNat 36 (tablesBase + 67)),
    lineHolding (tablesBase + 64) (BitVec.ofNat 36 (tablesBase + 131)), lineHolding (tablesBase + 128) 0x2010D#36] } }

/-- The same with bank 1 and 2 of partition 0. -/
def withLeaf : State := withPier (fun P =>
  ((leafPier P).onBank 1 (fun k => { k with owner := 0, content := 0 })).onBank 2 (fun k => { k with owner := 0, content := 0 }))

theorem witness_leaf_move : withLeaf.dev.partActive 0 0 = false ∧ (withLeaf.dev.pier 0).awake = true ∧
    withLeaf.dev.bankFor 0 0 0x40000 = none ∧
    someWith ((withLeaf.dev.pier 0).leafOf 0 0) (fun f => f.size = 64 && f.at_ = tablesBase + 128 && !f.pte.getLsbD 5 &&
      (copyLeaf 0 0 2 none (f.pte.toNat / 64 * 64) 0x40000 (withLeaf.dev.pier 0)).1) = true ∧
    leafDestOk (withLeaf.dev.pier 0) 0 0x40000 64 = true ∧ leafDestOk (withLeaf.dev.pier 0) 0 0x40001 64 = false ∧
    leafDestOk (withLeaf.dev.pier 0) 0 0x60000 64 = false ∧ ((withLeaf.dev.pier 0).leafOf 1 0).isNone = true ∧
    (copyLeaf 0 0 2 none 0x300000 0x40000 (withLeaf.dev.pier 0)).1 = false := by decide +kernel

/-- A bank of owner 64 that ST_PART lets the setter give to partition 0. -/
theorem witness_bank_for :
    let s := withPier (fun P => (leafPier P).onBank 3 (fun k => { k with owner := 64, content := 64 }))
    let d : Dev := { s.dev with setter := { s.dev.setter with part := s.dev.setter.part.set 0 { banks := 1 } } }
    (d.onPier 0 (fun P => { P with mem := { P.mem with bank := Vector.replicate 16 { owner := 64, content := 64 } } })).bankFor 0 0 0x60000 = some 3 := by
  decide +kernel

/-! ### Witnesses: items on a pier and on the warden -/

/-- An item of VF1 with an opcode, KH1 and DW12 to DW14. -/
def itemOf (opc kh1 w12 w13 w14 : Nat) (inp : List (QW × Nat)) (st : Stage) : Item :=
  { item0 opc st with
    dws := [BitVec.ofNat 32 opc, 0, 0, 0, BitVec.ofNat 32 kh1, 0, 0, 0, 0, 0, 0, 0, BitVec.ofNat 32 w12, BitVec.ofNat 32 w13,
      BitVec.ofNat 32 w14, 0]
    inSegs := inp }

/-- Item 1 placed on pier 0. -/
def placedItem (i : Item) : Dev := (withBatch 0 i (batch0 (.placed 0))).dev

/-- The item reaches its operation on pier 0, and meets `q`. -/
def onPier0 (opc : Nat) (i : Item) (q : Item → Dev → Bool) : Bool :=
  someWith ((placedItem i).pierItem 1 opc) (fun x => x.1 = i && x.2.1 = 0 && q i x.2.2)

/-- A hash of three bytes: no key, the output fits, the input arrives. -/
def hashItem : Item := itemOf 0x40 0 1 0 0 [(0x5000, 3)] (.pier 0)

theorem witness_pier_operation :
    onPier0 0x40 hashItem (fun x d =>
      paramChecks x [(x.bits 12 3 0 = 0 || 3 < x.bits 12 3 0, 0x01)] = none && dalgLen (x.bits 12 3 0) ≤ x.room &&
      (match (d.pierKeys 0 x 0 []).1 with
       | .ok es => es = []
       | .error _ => false) && x.fetch (.data [0x61, 0x62, 0x63]) = .ok [0x61, 0x62, 0x63] && x.fetch (.err .abort) = .error 0x20) = true := by
  decide +kernel

theorem witness_pier_operations_param :
    onPier0 0x10 (itemOf 0x10 0 0 0 0 [] (.pier 0)) (fun x _ => (signDef.param x).isSome) = true ∧
    onPier0 0x11 (itemOf 0x11 0 0 0 0 [] (.pier 0)) (fun x _ => (verifyDef.param x).isSome) = true ∧
    onPier0 0x12 (itemOf 0x12 0 3 0 0 [] (.pier 0)) (fun x _ => (signDef.param x).isNone) = true ∧
    onPier0 0x13 (itemOf 0x13 0 3 0 0 [] (.pier 0)) (fun x _ => (verifyDef.param x).isNone) = true ∧
    onPier0 0x14 (itemOf 0x14 0 0 0 0 [] (.pier 0)) (fun x _ => (signDef.param x).isSome) = true ∧
    onPier0 0x15 (itemOf 0x15 0 0 0 0 [] (.pier 0)) (fun x _ => (verifyDef.param x).isSome) = true ∧
    onPier0 0x20 (itemOf 0x20 0 2 0 0 [] (.pier 0)) (fun x _ => (pinParam x).isSome) = true ∧
    onPier0 0x30 (itemOf 0x30 0 0 0 0 [] (.pier 0)) (fun x _ => (macParam x).isSome) = true ∧
    onPier0 0x31 (itemOf 0x31 0 0 0 0 [] (.pier 0)) (fun x _ => (macParam x).isSome) = true ∧
    onPier0 0x38 (itemOf 0x38 0 3 0 0 [] (.pier 0)) (fun x _ => (arqcParam x).isSome) = true := by decide +kernel

/-- Handle 0 fails its key check with reason 1 before anything else is looked at (R380). -/
theorem witness_pier_key_refused :
    onPier0 0x12 (itemOf 0x12 0 3 0 0 [] (.pier 0)) (fun x d =>
      match (d.pierKeys 0 x 0 (signDef.needs x)).1 with
      | .ok _ => false
      | .error v => v = .key 1 0) = true := by decide +kernel

/-- The key of MAC_GENERATE is read and passes its checks: entry 5 allows every use. -/
theorem witness_pier_keys : macNeed (itemOf 0x30 5 0x0811 0 0 [] (.pier 0)) = [⟨5, 2 ^ 2, algTdes⟩] ∧
    ∃ e d, withEntry.dev.pierKeys 0 (itemOf 0x30 5 0x0811 0 0 [] (.pier 0)) 0 [⟨5, 2 ^ 2, algTdes⟩] = (.ok [e], d) := by
  have hh := witness_read_head (withEntry.dev.pier 0) (by rfl)
  obtain ⟨e, hb⟩ := witness_read_body (withEntry.dev.pier 0)
  have hk : withEntry.dev.ks.kek = some (List.replicate 32 0) := by decide +kernel
  have hr : keyReason withEntry.dev (itemOf 0x30 5 0x0811 0 0 [] (.pier 0)) ⟨5, 2 ^ 2, algTdes⟩ (parseEntry 5 line0) = 0 := by decide +kernel
  exact ⟨rfl, e, _, by simp only [Dev.pierKeys, hk, hh, hr, hb]; rfl⟩

theorem witness_echo :
    (let i := itemOf 1 0 0 0 0 [(0x5000, 3)] .warden
     (withItem i).dev.wardenItem 1 0x01 = some i ∧ i.pki = i.pko ∧ i.inLen ≤ i.room ∧ i.fetch (.data [1, 2, 3]) = .ok [1, 2, 3]) ∧
    (let i := itemOf 1 0 0 0 0 [(0x5000, 3)] (.pier 0)
     (placedItem i).wardenItem 1 0x01 = none ∧ onPier0 0x01 i (fun x _ => x.pki = x.pko && x.inLen ≤ x.room) = true) := by
  decide +kernel

/-- An HMAC of 32 bytes under an empty key. -/
def macIn : OpIn := ⟨itemOf 0x31 5 0x2004 0 0 [] (.pier 0), [parseEntry 5 []], [], []⟩

theorem witness_verification : (macOf macIn [0x61]).length = macIn.item.mlen ∧ macIn.item.mlen = 32 := by decide +kernel

/-- A map of one rule: the MTI, four ASCII digits, kept. -/
def map0 : List Byte := leBytes 8 (1 + 2 ^ 16) ++ leBytes 8 (4 * 2 ^ 26)

/-- `d` with a map and a program in slot 0 of partition 0. -/
def withLoaded (d : Dev) : Dev :=
  { d with
    loaded := [⟨0, true, 0, map0, []⟩, ⟨0, false, 0, [], [0x100000001#36, 0, 0, 0, 0, 4, 0, 4, 0, 0]⟩]
    sessions := [{ session5 with num := 0 }] }

theorem witness_programs :
    mapOk map0 = true ∧
    (let d := withLoaded (placedItem (itemOf 0x48 0 0 0 0 [(0x5000, 4)] (.pier 0)))
     someWith (d.pierItem 1 0x48) (fun x => (findLoaded (d.snapOf 1) x.1.part true 0).isSome && x.1.part = some 0 &&
       plainOnly x.1 = none && (findLoaded (d.snapOf 1) x.1.part true 1).isNone &&
       ((d.onPier 0 (loadTables 0 (parseMap map0).tabs)).pierItem 1 0x48).isSome) = true) ∧
    (let d := withLoaded (placedItem (itemOf 0x70 0 0 0 0 [(0x5000, 4)] (.pier 0)))
     someWith (d.pierItem 1 0x70) (fun x => x.1.part = some 0 && (x.2.2.session? x.1.session).isSome &&
       someWith (findLoaded (d.snapOf 1) (some 0) false 0) (fun l => packWords x.1.pki x.1.inLen ≤ (parseImage l.words).inCap &&
         (parseImage l.words).inCap < packWords x.1.pki 1000)) = true) ∧
    (let i := itemOf 0x70 0 0 0 0 [] (.overLimit 0)
     (withItem i).dev.item? 1 = some i) := by decide +kernel

/-- A warden item of `d` that meets `q` once its input has come. -/
def served (d : Dev) (i : Item) (opc : Nat) (bs : List Byte) (q : Dev → Item → Bool) : Bool :=
  let e := { d with items := [i], nextItem := 2 }
  someWith (e.wardenItem 1 opc) (fun x => x = i && x.fetch (.data bs) = .ok bs && q e x)

/-- A program of one word for an empty region. -/
def image0 : List Word := [0x100000001#36, 0, 0, 0, 0, 0, 0, 0, 0, 0]

theorem witness_loads :
    served up (itemOf 0x71 0 1 0 0 [(0x5000, 16)] .warden) 0x71 map0 (fun _ x => loadParam x = none && x.part = some 0 && x.inLen ≠ 0) = true ∧
    served (withPart up) (itemOf 0x71 0 0 0 0 [] .warden) 0x71 [] (fun _ x => loadParam x = none && x.part = some 0 && x.inLen = 0) = true ∧
    imageRefused ((withPart up).ipaWords 0) image0 = none := by decide +kernel

theorem witness_warden_items : up.recordsAllowed = true ∧ (up.acceptedHead 16).1 < cseqMax := by decide +kernel

/-- A key in the log: handle 5, AES-128, with the usage bits given. -/
def key5 (usage : Nat) : KeyEntry :=
  { handle := 5, owner := 0, alg := 3, version := 1, state := 1, usage := BitVec.ofNat 16 usage, expiry := 0, size := 4, kcv := 0,
    bline := 0, wrap := List.replicate 24 7, pub := [], blob := [] }

/-- `up` with partition 0, its KEK's algorithm AES, and key 5. -/
def withKeys (usage : Nat) : Dev :=
  { withPart up with flash := { up.flash with keys := [key5 usage] }, ks := up.ks.put 0x300 2 }

theorem witness_key_operations :
    served (withKeys 0) (itemOf 0x50 0 0 0 0 [(0x5000, 1)] .warden) 0x50 [0] (fun d x => d.keyTurn x && x.part = some 0 &&
      (match d.importKey x 0 with
       | .ok e => e.1 && (match kbOpen e.1 e.2 0 [0] with
         | .ok _ => false
         | .error _ => true)
       | .error _ => false)) = true ∧
    served (withKeys 0) (itemOf 0x51 5 0 0 0 [] .warden) 0x51 [] (fun _ x => x.bits 12 7 0 ≠ 0x42 && x.bits 12 7 0 ≠ 0x44) = true ∧
    served (withKeys 0) (itemOf 0x52 0 3 0 0 [] .warden) 0x52 [] (fun d x => d.keyTurn x && x.part = some 0 &&
      algSym (x.bits 12 7 0) && sizeOk (x.bits 12 7 0) (x.bits 13 11 0) && generatedLen (x.bits 12 7 0) (x.bits 13 11 0) ≤ x.room) = true ∧
    served (withKeys 0x100) (itemOf 0x53 5 0x303 0 0 [] .warden) 0x53 [] (fun d x => d.keyTurn x && (deriveParam x).isNone &&
      (match d.wardenKey x 0 (deriveNeed x) with
       | .ok e => e = key5 0x100
       | .error _ => false)) = true ∧
    served (withKeys 0) (itemOf 0x54 5 0 0 0 [] .warden) 0x54 [] (fun d x => d.keyTurn x && (match d.anyEntry x with
       | .ok e => e = key5 0
       | .error _ => false)) = true ∧
    served (withKeys 0) (itemOf 0x55 5 0 0 0 [] .warden) 0x55 [] (fun _ x => x.bits 12 0 0 = 0 && 32 ≤ x.room) = true ∧
    served (withKeys 0) (itemOf 0x55 0 1 0 0 [] .warden) 0x55 [] (fun _ x => x.bits 12 0 0 = 1) = true := by decide +kernel

theorem witness_key_log :
    (let d : Dev := { withKeys 0 with changes := [⟨1, key5 1⟩] }; d.changes = ⟨1, key5 1⟩ :: [] ∧ d.wardenServes = true) ∧
    someWith ((withKeys 0).placeEntry 6 (key5 1)) (fun x => x.handle = 6 && x.version = 1) = true ∧
    (withKeys 0).placeEntry 4194304 (key5 1) = none := by decide +kernel

theorem witness_sessions :
    (let d : Dev := withPart { up with sessions := [{ session5 with num := 0 }] }
     served d (itemOf 0x60 0 0 0 0 [] .warden) 0x60 [] (fun d x => x.fn = .vf 0 && d.partExists 0 &&
       someWith (d.openSession (paramSession x 0)) (fun r => r.1 = 1)) = true ∧
     served d (itemOf 0x61 0 0 0 0 [] .warden) 0x61 [] (fun d x => (d.session? x.session).isSome) = true) ∧
    served up (itemOf 0x60 0 0 0 0 [] .warden) 0x60 [] (fun d x => x.fn = .vf 0 && !d.partExists 0) = true ∧
    served up (itemOf 0x7E 0 0x100 0 0 [] .warden) 0x7E [] (fun d x =>
      x.bits 12 4 0 ≤ 16 && x.bits 12 9 8 = 1 && d.flash.cert.length ≤ x.room) = true ∧
    served up (itemOf 0x7F 0 0 0 0 [] .warden) 0x7F [] (fun _ _ => true) = true := by decide +kernel

/-- A seal of the wrong length anchors nothing, whatever the identity (R426). -/
theorem witness_attest (pub : List Byte) : anchorOk pub 0 [] = false ∧
    served up (itemOf 0x7E 0 0 0 0 [(0x5000, 4)] .warden) 0x7E [0, 0, 0, 0] (fun _ x => x.bits 12 9 8 = 0) = true :=
  ⟨rfl, by decide +kernel⟩

theorem witness_administration :
    served up (itemOf 0x80 0 0 1 1 [] .warden) 0x80 [] (fun d x => d.createRefused (partOf 0) (x.bits 13 12 0) (x.bits 14 21 0) = none) = true ∧
    served (withPart up) (itemOf 0x80 0 0 1 1 [] .warden) 0x80 [] (fun d _ => d.createRefused (partOf 0) 1 1 = some 1) = true ∧
    served (withPart up) { itemOf 0x81 0 0 0 0 [] .warden with fn := .pf0, part := none } 0x81 [] (fun d x =>
      d.life.destroying = none && (d.parts.find? (fun p => p.part = partOf 0)).isSome &&
      !({ d with life := { d.life with destroying := some (x.id, partOf 0) } }).partBusy (partOf 0) x.id) = true ∧
    served up (itemOf 0x81 0 0 0 0 [] .warden) 0x81 [] (fun d _ => d.life.destroying = none && !d.partExists (partOf 0)) = true ∧
    served (withPart up) (itemOf 0x82 0 0x200 0 0 [(0x5000, 32)] .warden) 0x82 comp0 (fun d x =>
      d.partExists (partOf 0) && x.bits 12 9 8 = 2 && x.inLen = 32) = true ∧
    served up (itemOf 0x83 0 0 0 0 [] .warden) 0x83 [] (fun _ _ => true) = true ∧
    served up { itemOf 0x84 0 1 0 0 [] .warden with fn := .pf0 } 0x84 [] (fun d x =>
      x.stage = .warden && x.bits 12 3 0 = 1 && d.life.op = .service && d.life.testWait = none && !d.vfBusy) = true ∧
    served up (itemOf 0x84 0 6 0xDEC00DED 0 [] .warden) 0x84 [] (fun d x =>
      x.bits 12 3 0 = 6 && x.dw 13 = 0xDEC00DED#32 && d.life.life ≠ 0 && d.life.life ≠ 4) = true ∧
    served up (itemOf 0x84 0 4 0 0 [] .warden) 0x84 [] (fun d x => x.bits 12 3 0 = 4 && d.stateMay 4) = true ∧
    served up (itemOf 0x84 0 3 0 0 [] .warden) 0x84 [] (fun d x => x.bits 12 3 0 = 3 && !d.stateMay 3) = true ∧
    served up (itemOf 0x85 0 0 0 0 [] .warden) 0x85 [] (fun _ _ => true) = true ∧
    served up (itemOf 0x86 0 0 0 0 [] .warden) 0x86 [] (fun _ _ => true) = true ∧
    served up (itemOf 0x87 0 0 0 0 [] .warden) 0x87 [] (fun _ _ => true) = true := by decide +kernel

/-- `withKeys` as a member of a ward. -/
def inWard : Dev := { withKeys 0 with ks := up.ks.put 0x2A 65536 }

theorem witness_ward :
    served up (itemOf 0x88 0 0 0 0 [] .warden) 0x88 [] (fun _ x => 194 ≤ x.room) = true ∧
    served up (itemOf 0x89 0 0 0 0 [] .warden) 0x89 [] (fun d _ => !d.ks.ward) = true ∧
    served up (itemOf 0x8B 0 0 0 0 [] .warden) 0x8B [] (fun d _ => !d.ks.ward) = true ∧
    served inWard (itemOf 0x8A 0 0 0 0 [] .warden) 0x8A [] (fun d _ => d.ks.ward) = true ∧
    served up (itemOf 0x8A 0 1 0 0 [] .warden) 0x8A [] (fun d x => !d.ks.ward && x.bits 12 0 0 = 1) = true ∧
    served inWard (itemOf 0x8B 0 0 0 0 [] .warden) 0x8B [] (fun d _ => d.ks.ward) = true ∧
    served inWard (itemOf 0x8C 5 0 0 0 [] .warden) 0x8C [] (fun d x => x.stage = .warden && d.ks.ward && x.bits 12 0 0 = 0 &&
      (match d.activeEntry x with
       | .ok e => blobLen (31 + kbKeyLen e) ≤ x.room
       | .error _ => false)) = true ∧
    served inWard (itemOf 0x8D 0 0 0 0 [] .warden) 0x8D [] (fun d x => d.keyTurn x && d.ks.ward &&
      (match d.openBlob 0 [] with
       | .ok _ => false
       | .error r => r = 0x36)) = true := by decide +kernel

/-- An RSA key of modulus 1 and exponent 1. -/
def rsaKey1 : KeyEntry := { key5 0 with size := 1, pub := [0, 0, 0, 1, 0, 0, 0, 1] }

theorem witness_rsa_check (i : Item) (kek bs : List Byte) : (rsaSign ⟨i, [rsaKey1], kek, bs⟩).2 = true := by
  have h : rsaPublic rsaKey1 = (1, 1) := by decide
  have e (b : Nat) : powMod b 1 1 = 0 := Nat.mod_one _
  have k : OpIn.key ⟨i, [rsaKey1], kek, bs⟩ 0 = rsaKey1 := rfl
  simp [rsaSign, k, h, e, Nat.mod_one]

/-- Items that are not where their operation is, that wait, or that come without what they need. -/
theorem witness_items_refused :
    (∀ opc ∈ [1, 0x10, 0x11, 0x12, 0x13, 0x14, 0x15, 0x20, 0x30, 0x31, 0x38, 0x40, 0x48, 0x70], (up.pierItem 1 opc).isNone = true) ∧
    (∀ opc ∈ [1, 0x50, 0x60, 0x71, 0x7E, 0x80, 0x88], up.wardenItem 1 opc = none) ∧
    (let d : Dev := { withKeys 0 with changes := [⟨9, key5 1⟩] }
     served d (itemOf 0x52 0 3 0 0 [] .warden) 0x52 [] (fun d x => !d.keyTurn x)) = true ∧
    served up (itemOf 0x71 0 0x40000000 0 0 [] .warden) 0x71 [] (fun _ x => (loadParam x).isSome || x.bits 12 0 0 ≠ 1) = true ∧
    (item0 1 (.result 16)).flr = false ∧ up.canSend (.vf 0) = false ∧ (withKeys 0).changes = [] := by decide +kernel

/-! ### Witnesses: seals, failures, start-up, faults, power, registers -/

/-- A change of `up`'s audit. -/
def withAudit (f : Audit → Audit) (d : Dev) : Dev := { d with audit := f d.audit }

/-- A seal of the sealer that waits for PF1 slot 2. -/
def seal0 (per : Bool) : Seal := ⟨1, 1, [], per, false⟩

theorem witness_seals :
    (let d := (atTick 1250000 { dev := up }).dev
     d.sealing = true ∧ d.audit.due = false ∧ d.audit.lastSeal + 1250000 ≤ d.now ∧ d.audit.seals.length ≤ 1 ∧ d.audit.sealNow = []) ∧
    (withAudit (fun a => { a with since := List.replicate 17 65536 }) up).audit.since = List.replicate 17 65536 ∧
    (withAudit (fun a => { a with due := true }) up).audit.due = true ∧
    (let d := withAudit (fun a => { a with sealNow := [(1, true)] }) (atTick 250000 (withItem (item0 0x7F (.sealWait 0 true)))).dev
     d.sealing = true ∧ d.audit.sealNow = (1, true) :: [] ∧ d.audit.lastSeal + 250000 ≤ d.now ∧ (d.item? 1).isSome = true) ∧
    (let d := withAudit (fun a => { a with seals := [seal0 false] }) (withRing .pf1 2 ring1).dev
     d.audit.seals = seal0 false :: [] ∧ (seal0 false).persist = false ∧ d.delivering = true ∧ d.eventRoom 2 9 = true) ∧
    (let d := withAudit (fun a => { a with seals := [seal0 true] }) up
     d.audit.seals.find? (fun y => y.persist && !y.flashed) = some (seal0 true) ∧ d.delivering = true) := by decide +kernel

theorem witness_seals_wait :
    State.reset.dev.sealing = false ∧ up.audit.due = false ∧ up.audit.seals = [] ∧ up.fc.halt = false ∧
    (let d := withAudit (fun a => { a with seals := [seal0 false, seal0 true] }) up
     2 ≤ d.audit.seals.length ∧ d.audit.seals = seal0 false :: [seal0 true] ∧ d.eventRoom 2 9 = false) ∧
    (let d := withAudit (fun a => { a with seals := [seal0 false] }) (withRing .pf1 2 (fun R => { ring1 R with cqHead := 1 })).dev
     d.audit.seals ≠ [] ∧ d.slot2Full = true) ∧
    (let d := withAudit (fun a => { a with sealNow := [(1, true)] }) (atTick 250000 { dev := up }).dev
     d.audit.sealNow = (1, true) :: [] ∧ d.audit.lastSeal + 250000 ≤ d.now ∧ d.item? 1 = none) ∧
    (let d : Dev := { up with fc := { up.fc with halt := true, haltStep2 := true } }
     d.fc.halt = true ∧ d.fc.haltStep2 = true ∧ d.items = [] ∧ d.audit.recs = [] ∧ d.hasIdentity = true ∧ d.chainsUp = true ∧
     State.reset.dev.hasIdentity = false) := by decide +kernel

theorem witness_power_failure :
    up.board.porLow = false ∧ up.life.pf = .none ∧ up.life.zero = .none ∧ up.fc.haltHard = false ∧ up.headsKnown = true ∧
    (let d : Dev := { up with time := 2500, life := { up.life with pf := .stopped } }
     d.life.pf = .stopped ∧ d.life.zero = .none ∧ d.life.pfAt + 2500 ≤ d.now) ∧
    (let d : Dev := withAudit (fun a => { a with final := some (1, []) }) { up with life := { up.life with pf := .sealed } }
     d.life.pf = .sealed ∧ d.life.zero = .none ∧ d.audit.final = some (1, [])) := by decide +kernel

/-- The device at a step of start-up. -/
def booting (b : Boot) : Dev :=
  let d := State.reset.dev
  { d with board := { d.board with porLow := false }, life := { d.life with boot := b } }

theorem witness_zeroize : up.board.porLow = false ∧ up.life.zero = .none ∧
    (let d : Dev := { booting .pll with life := { (booting .pll).life with zeroLow := true } }
     d.life.zero = .none ∧ d.life.boot = .pll ∧ d.life.zeroLow = true ∧ d.life.warm = false ∧ d.life.pf = .none) ∧
    ∀ z ∈ [ZStage.cleared, .fused, .zeroed], ({ up with life := { up.life with zero := z } } : Dev).life.zero = z := by decide +kernel

theorem witness_device_resets :
    (∀ b : Bool, (⟨false, b⟩ : RailEvent).overTen = b) ∧ (0xA55A0001#32).getLsbD 0 = true ∧ (0xA55A0001#32).extractLsb' 16 16 = 0xA55A#16 ∧
    (1#32).extractLsb' 16 16 ≠ 0xA55A#16 ∧ up.life.pf = .none ∧ up.life.zero = .none ∧ up.evoariRuns = true ∧ up.fc.haltHard = false ∧
    up.hasIdentity = true ∧ up.chainsUp = true := by decide +kernel

/-- The fill of every pier is done. -/
def filled (d : Dev) : Dev := { d with piers := d.piers.map (fun P => { P with pw := { P.pw with filled := true } }) }

theorem witness_start_up :
    State.reset.dev.board.porLow = true ∧ (booting .released).bootOk 2 = true ∧ (booting .released).life.boot = .released ∧
    (booting .pll).bootOk 4 = true ∧ (booting .pll).life.zeroLow = false ∧ (booting .pll).pickImage = none ∧
    (booting .image).bootOk 5 = true ∧ (booting .image).life.terminal = false ∧ (booting .image).flash.image = none ∧
    (booting .image).flash.life = some (0, true) ∧
    (let d := booting .image; let f : Dev := { d with flash := { d.flash with image := some ⟨0, []⟩ } }
     f.flash.image = some ⟨0, []⟩ ∧ f.life.zcnt = 0) ∧
    (booting .keystone).bootOk 6 = true ∧ ((booting .keystone).pier 0).pw.filled = false ∧ (∀ q : Fin 16, ¬ q < 0) ∧
    (filled (booting .keystone)).bootOk 7 = true ∧ (∀ q : Fin 16, ((filled (booting .keystone)).pier q).pw.filled = true) ∧
    (booting .evoari).bootOk 8 = true ∧ (booting .tables).bootOk 9 = true ∧ (booting .tables).hasIdentity = false ∧
    (booting .seals).bootOk 10 = true := by decide +kernel

/-- The base point of P-384: the public key of the private key 1. -/
def pub1 : List Byte := beBytes 48 p384.gx ++ beBytes 48 p384.gy

/-- An image of security version 1, signed by the private key 1 (ECDSA with k = 1, computed outside the model). -/
def image1 : FwImage :=
  { version := 1, body := [], pubKey := pub1
    sig := beBytes 48 p384.gx ++ beBytes 48 0x1c98793bd2e9c7e071026f1d81bf9c20811f208766531dcefecab2bfdbe0505b9f71f4c9bf6f580d929bc3fcd8723120 }

/-- A seal of a kind with nothing else in it, signed by the private key 1 in the same way. -/
def signedSeal (kind s : Nat) : List Byte :=
  [0, BitVec.ofNat 8 kind] ++ List.replicate 470 0 ++ (beBytes 48 p384.gx ++ beBytes 48 s) ++ List.replicate 8 0

/-- A device whose identity is the private key 1, at step 9 of start-up with one seal in its slots. -/
def withSeal (b : List Byte) : Dev :=
  let d := booting .tables
  { d with ks := d.ks.put 0x10 1, flash := { d.flash with seals := [(0, b)] }, life := { d.life with life := 2 } }

theorem witness_image :
    ({ booting .pll with flash := { (booting .pll).flash with imgA := some image1 }
                         life := { (booting .pll).life with keyHash := sha384 pub1 } } : Dev).pickImage = some (image1, false) := by
  decide +kernel

theorem witness_resumed_epoch_seal :
    (withSeal (signedSeal 1 0x8ecd6054e9116716b65d40608388dcf9afb85868a7870aa34b725e70bbc4be8798a5424af1a4c5967d571460fe2baaf2)).bestSeal = some (signedSeal 1 0x8ecd6054e9116716b65d40608388dcf9afb85868a7870aa34b725e70bbc4be8798a5424af1a4c5967d571460fe2baaf2) := by decide +kernel

theorem witness_resumed_final_seal :
    (withSeal (signedSeal 2 0x8693d276eb5b835ec4fd6fdb15875bcfcd650976d0bafed3a231f244eacb44fd655ae76e3e084a40407bb6d6671e21dc)).bestSeal = some (signedSeal 2 0x8693d276eb5b835ec4fd6fdb15875bcfcd650976d0bafed3a231f244eacb44fd655ae76e3e084a40407bb6d6671e21dc) := by decide +kernel

/-- A seal of a signature that does not verify counts for nothing. -/
theorem witness_no_seal : (withSeal (signedSeal 1 0)).bestSeal = none ∧ (withSeal []).hasIdentity = true ∧ sealKind (signedSeal 2 0) = 2 ∧
    sealKind (signedSeal 1 0) = 1 := by decide +kernel

/-- A step whose turn has not come, one that a too early release of POR_N stops, and one that a power failure holds. -/
theorem witness_start_up_waits :
    (booting .seals).life.boot ≠ .released ∧ up.board.porLow = false ∧
    (let d : Dev := { booting .released with board := { (booting .released).board with stuckAt := some 2 } }
     d.life.boot = .released ∧ d.board.stuckAt = some 2) ∧
    (let d : Dev := { booting .released with life := { (booting .released).life with pf := .stopped } }
     d.life.boot = .released ∧ d.board.stuckAt ≠ some 2 ∧ d.bootOk 2 = false) ∧
    (let d : Dev := { booting .image with life := { (booting .image).life with terminal := true } }; d.life.terminal = true) ∧
    (let d : Dev := { booting .image with flash := { (booting .image).flash with image := some ⟨3, []⟩, life := none } }
     d.flash.image = some ⟨3, []⟩ ∧ (3 : Nat) ≠ d.life.zcnt ∧ d.flash.life = none) := by decide +kernel

/-- `up` with an open record of class `c` and cause `x` for region `r` in slot 3. -/
def withRec (r : Nat) (c : BitVec 3) (x : BitVec 8) (levels : List (BitVec 8)) : Dev :=
  up.setFrec 3 { val := true, opened := true, cls := c, region := BitVec.ofNat 5 r, cause := x, levels := levels }

theorem witness_detections :
    State.reset.dev.board.porLow = true ∧
    (((up.onPier 0 (fun P => { P with detq := [mkDetection 0x0E 0 0 0] })).pier 0).detq = mkDetection 0x0E 0 0 0 :: []) ∧
    (let x : Detection := ⟨0x1C, 16, 0, 0, false⟩
     (withRec 16 1 0x1C []).openOf 16 = some 3 ∧ causeClass x.cause.toNat 16 ≤ ((withRec 16 1 0x1C []).frec 3).cls.toNat ∧
     x.cause ≠ 0x1A#8 ∧ up.openOf 16 = none ∧ up.freeSlot = some 0 ∧ causeClass 0x1C 16 = 1 ∧ up.fc.halt = false) ∧
    causeClass 0x0E 0 = 2 ∧ up.fc.out.getLsbD 0 = false ∧ up.fc.quar.getLsbD 0 = false ∧ up.openOf 0 = none ∧
    causeClass 0x17 16 = 3 ∧ up.fc.hold = false ∧ causeClass 0x19 16 = 4 := by decide +kernel

/-- Detections that are not taken, or join what is open; and what two samples of a pair say. -/
theorem witness_detections_beside :
    causeIn 0x0E 0 = true ∧ causeIn 0x0E 16 = false ∧ causeIn 0x01 22 = true ∧ causeIn 0x01 23 = false ∧ (up.pier 0).detq = [] ∧
    up.fc.detq = [] ∧
    (let d : Dev := { up with fc := { up.fc with detq := [mkDetection 0x1C 16 0 0] } }
     d.fc.detq.find? (fun y => y.region = 16) = some (mkDetection 0x1C 16 0 0)) ∧
    (let d := up.setFrec 3 { val := true, opened := true, cls := 2, region := 0, cause := 0x0E, shadow := some 0 }
     d.openOf 0 = some 3 ∧ (d.frec 3).shadow.isSome = true) ∧
    (let e := withRec 16 4 0x19 []
     let d : Dev := { e with fc := { e.fc with halt := true } }; d.haltSlot = some 3) ∧
    ((withRec 16 1 0x1C []).frec 3).cls.toNat < causeClass 0x19 16 ∧
    ({ up with fc := { up.fc with out := 1 } } : Dev).fc.out.getLsbD 0 = true ∧
    (let d : Dev := { up with fc := { up.fc with recs := Vector.replicate 64 { opened := true, region := 1 } } }
     d.freeSlot = none ∧ d.openOf 16 = none) := by decide +kernel

theorem witness_recoveries :
    ((withRec 16 1 0x1C [0x17]).frec 3).levels.contains 0x17 = true ∧
    (let d : Dev := { withRec 16 1 0x1C [] with time := 25000 }
     (d.frec 3).opened = true ∧ (d.frec 3).levels = [] ∧ (d.frec 3).cls.toNat ≤ 1 ∧
     max (d.frec 3).tLast (d.frec 3).tClear + 25000 ≤ d.now) ∧
    (let d : Dev := { up.setFrec 3 { val := true, opened := true, cls := 2, cause := 0x0E, shadow := some 10 } with time := 10 }
     d.openOf 0 = some 3 ∧ (d.frec 3).shadow = some 10 ∧ (10 : Nat) ≤ d.now) ∧
    (let e := withRec 0 2 0x0E []
     let d : Dev := { e with time := 2500000, fc := { e.fc with quar := 1 } }
     d.openOf 0 = some 3 ∧ (d.frec 3).cls = 2#3 ∧ d.fc.quar.getLsbD 0 = true ∧ d.fc.resetDue.getLsbD 0 = false ∧
     d.fc.inReset.getLsbD 0 = false ∧ (d.frec 3).shadow = none ∧ (d.frec 3).levels = [] ∧
     max (max (d.frec 3).shadowEnd (d.frec 3).tLast) (d.frec 3).tClear + 2500000 ≤ d.now ∧ d.precOf 0 < 8) ∧
    (let e := withRec 16 3 0x17 []
     let d : Dev := { e with time := 25000000, fc := { e.fc with hold := true } }
     (d.frec 3).opened = true ∧ (d.frec 3).cls = 3#3 ∧ max (d.frec 3).tLast (d.frec 3).tClear + 25000000 ≤ d.now ∧ d.drecOf < 4 ∧
     ∀ j, j ≠ (3 : Fin 64) → ¬ ((d.frec j).opened = true ∧ (d.frec j).cls = 3#3)) := by decide +kernel

/-- Records, shadows and piers whose time has not come; a second HOLD record; a pier past its recoveries. -/
theorem witness_recoveries_wait :
    (∀ k, (up.frec k).opened = false) ∧ (up.frec 0).levels.contains 0x17 = false ∧ (∀ k, up.openOf 0 ≠ some k) ∧
    (let e := withRec 16 3 0x17 []
     let d := e.setFrec 4 (e.frec 3); (d.frec 4).opened = true ∧ (d.frec 4).cls = 3#3) ∧
    (let d : Dev := { up with fc := { up.fc with prec := List.replicate 8 (0, 0), drec := [0, 0, 0, 0] } }; 8 ≤ d.precOf 0 ∧ 4 ≤ d.drecOf) ∧
    (let e := withRec 0 2 0x0E []; (e.frec 3).cls = 2#3 ∧ (e.frec 3).opened = true ∧ e.fc.quar.getLsbD 0 = false) := by decide +kernel

theorem witness_corrections :
    ({ up with fc := { up.fc with resetDue := 1 } } : Dev).fc.resetDue.getLsbD 0 = true ∧
    (let d : Dev := { up with fc := { up.fc with inReset := 1 }, time := 256 }
     d.fc.inReset.getLsbD 0 = true ∧ (d.pier 0).pw.since + 256 ≤ d.now) ∧
    (let d := (withPier (fun P => { P with mem := { P.mem with frames := [0x800, 0x801, 0x802], bank := P.mem.bank.set 1 { owner := 64 } } })).dev
     (∃ b, (d.pier 0).bankDue b = true) ∧ d.fc.clog[(0 : Fin 16)][(0 : Fin 16)].val = false) ∧ (∀ b, (up.pier 0).bankDue b = false) ∧
    (0x80000000#32).getLsbD 31 = true ∧ (1#32).getLsbD 31 = false ∧
    (let c : CLog := { val := true, adv := true, addr := 64 }
     let d : Dev := { up with fc := { up.fc with clog := up.fc.clog.set 0 (up.fc.clog[0].set 0 c) } }
     d.fc.clog[(0 : Fin 16)][(0 : Fin 16)].val = true ∧ d.fc.clog[(0 : Fin 16)][(0 : Fin 16)].adv = true ∧
     d.fc.clog[(0 : Fin 16)][(0 : Fin 16)].qy = false) ∧
    up.fc.resetDue.getLsbD 0 = false ∧ up.fc.inReset.getLsbD 0 = false ∧ up.fc.clog[(0 : Fin 16)][(0 : Fin 16)].val = false ∧
    partitionLines ≤ partitionLines ∧ partitionLines - 1 < partitionLines ∧
    (let d := up.setFrec 3 { val := true, opened := true, cls := 2, region := 0, cause := 0x0E, shadow := some 0 }
     d.openOf 0 = some 3 ∧ (d.frec 3).shadow = some 0) := by decide +kernel

theorem witness_telemetry :
    (let d : Dev := { up with time := 2500000 }; d.fc.telemAt + 25000 * d.fc.period.toNat ≤ d.now ∧ d.board.porLow = false) ∧
    (let m : Sample := ⟨[850], 0, 0, 0, 0⟩; 840 < (hottest m).2) ∧ (let m : Sample := ⟨[800], 0, 0, 0, 0⟩; (hottest m).2 ≤ 800) ∧
    (let m : Sample := ⟨[921], 0, 0, 0, 0⟩; 920 < (hottest m).2) ∧ up.openOf 21 = none ∧ up.fc.hotRun = 0 ∧
    up.now < up.fc.telemAt + 25000 * up.fc.period.toNat ∧
    (let m : Sample := ⟨[800], 841, 841, 100000, 0⟩
     840 < m.stack0 ∧ 840 < m.stack1 ∧ 525 * up.cap < 100 * m.current ∧ up.openOf 19 = none ∧ up.openOf 20 = none ∧
     2 ≤ ({ up with fc := { up.fc with overRun := 2 } } : Dev).fc.overRun) := by decide +kernel

theorem witness_power :
    (∀ n ∈ [120, 560], n ≠ up.pw.budget ∧ 120 ≤ n ∧ n ≤ 560) ∧ State.reset.dev.unlocked = true ∧ up.unlocked = false ∧
    up.targetWritable .host = false ∧ up.targetWritable .warden = true ∧
    ¬ ((0x102#32).extractLsb' 8 2 = (up.pier 0).pw.tst ∧ (0x102#32).extractLsb' 0 5 = (up.pier 0).pw.tfreq) ∧
    (let d := (withCore {}).dev
     (0x102#32).extractLsb' 8 2 = 1#2 ∧ (d.pier 0).pw.tst ≠ 1#2 ∧ 2 ≤ ((0x102#32).extractLsb' 0 5).toNat ∧ (d.pier 0).awake = true ∧
     d.holdsNoBatch 0 = true ∧ (d.pier 0).pw.change = .none ∧ d.staggerOk = true ∧ (d.raiseNext).map (·.1) = some 0 ∧
     d.fc.out.getLsbD 0 = false) ∧
    (let d := (atTick 600 (withPier (fun P => { P with pw := { P.pw with st := .sleep, change := .wake 4 } }))).dev
     (d.pier 0).pw.change = .wake 4 ∧ (d.pier 0).pw.since + wakeTicks (d.pier 0).pw.st 4 ≤ d.now) ∧
    (let d := (atTick 250 (withPier (fun P => { P with pw := { P.pw with change := .freq 5 4 } }))).dev
     (d.pier 0).pw.change = .freq 5 4 ∧ (d.pier 0).pw.since + 250 ≤ d.now) ∧
    (let d := (atTick 2 (withPier (fun P => { P with pw := { P.pw with change := .ramp } }))).dev
     (d.pier 0).pw.change = .ramp ∧ (d.pier 0).pw.since + 2 ≤ d.now) ∧
    wakeTicks .off 4 = 1756 ∧
    (∀ c ∈ [PChange.freq 5 4, .wake 4, .ramp],
      let d := (withPier (fun P => { P with pw := { P.pw with change := c } })).dev
      (d.pier 0).pw.change = c ∧ d.now < (d.pier 0).pw.since + 2) ∧
    (let d := (atTick 2500 (withPier (fun P => { P with pw := { P.pw with st := .run } }))).dev
     (d.pier 0).pw.st = .run ∧ (d.pier 0).runs.exec = none ∧ (d.pier 0).runs.queued = none ∧ (d.pier 0).pw.lastRun + 2500 ≤ d.now) := by
  decide +kernel

theorem witness_registers :
    State.reset.dev.barReached .pf0 = false ∧ up.barReached .pf0 = true ∧ windowAt ((0x100004#26).toNat / 4) = some (.st 1) ∧
    windowAt ((0x600000#26).toNat / 4) = none ∧ coreWindow .warden 0x40000001 = some (.fr 1) ∧
    (withCore {}).dev.reachable 0 = true ∧ State.reset.dev.reachable 0 = false ∧ State.reset.dev.unlocked = true ∧ up.unlocked = false ∧
    up.life.remap = true ∧ pageOffset .pf0 0x2000004 = some 4 ∧ pageOffset (.vf 0) 0xFFC = some 0xFFC ∧ pageOffset (.vf 0) 0x1000 = none ∧
    pageOffset .pf0 0x100004 = none ∧ coreWindow .warden 0 = none ∧ up.sidebandAnswers = true ∧ State.reset.dev.sidebandAnswers = false ∧
    (up.reachable 1 = false) ∧ ((0x3E8#32).extractLsb' 0 10).toNat = 1000 ∧ 1000 < ((0x3E9#32).extractLsb' 0 10).toNat := by decide +kernel

/-- Power commands with nothing to do, or refused. -/
theorem witness_power_waits :
    ((0x1E0#32).extractLsb' 0 10).toNat = up.pw.budget ∧ ((119#32).extractLsb' 0 10).toNat < 120 ∧ 560 < ((561#32).extractLsb' 0 10).toNat ∧
    (let v := (up.pier 0).pw.tst.setWidth 32 <<< 8 ||| (up.pier 0).pw.tfreq.setWidth 32
     v.extractLsb' 8 2 = (up.pier 0).pw.tst ∧ v.extractLsb' 0 5 = (up.pier 0).pw.tfreq) ∧
    up.raiseNext = none ∧ (up.pier 0).pw.change = .none ∧ up.fc.out.getLsbD 0 = false ∧
    ({ up with fc := { up.fc with out := 1 } } : Dev).fc.out.getLsbD 0 = true ∧
    ¬ (2 ≤ ((1#32).extractLsb' 0 5).toNat) ∧ ((16#32).extractLsb' 0 5).toNat ≤ 16 := by decide +kernel

theorem witness_caps : capsLegal State.reset.dev ∧ ∃ t, step State.reset = .next t :=
  ⟨by simp only [capsLegal]; decide, _, rfl⟩

theorem witness_front : ∃ i t, step { dev := State.reset.dev, pending := [i] } = .next t := ⟨.batchPlacement, _, rfl⟩

theorem witness_sparse_memory : SMem.wf ([] : SMem 36) = true ∧ SMem.wf (SMem.set ([] : SMem 36) 5 7) = true := by decide

/-! ### The spec's examples -/

/-- The core of pier 0 after an instruction. -/
def coreAfter (i : Instr) (k : Core) : Core := (after i (withCore k)).core (.pier 0)

/-- Spec: SAR of 0x8_0000_0000 by 40 gives 0xF_FFFF_FFFF with CY = 1. -/
theorem test_sar_40 :
    let k := coreAfter (.sar (.pier 0) (imm 40)) { a := 0x800000000#36 }
    k.a = 0xFFFFFFFFF#36 ∧ k.cy = true ∧ k.pc = 1 := by decide +kernel

/-- Spec: ROL of 1 by 72 gives 1 with CY = 1; by 0 it leaves CY. -/
theorem test_rol :
    (let k := coreAfter (.rol (.pier 0) (imm 72)) { a := 1 }; k.a = 1 ∧ k.cy = true) ∧
    (let k := coreAfter (.rol (.pier 0) (imm 0)) { a := 1, sw := 4 }; k.a = 1 ∧ k.cy = true) ∧
    (let k := coreAfter (.rol (.pier 0) (imm 0)) { a := 1 }; k.a = 1 ∧ k.cy = false) := by decide +kernel

/-- Spec: DIV of -2^35 by -1 with TRE.OVE takes trap 9, and delivers MQ = 0x8_0000_0000, MH = 0, V = 1, N = 1. -/
theorem test_div_overflow :
    let k := coreAfter (.div (.pier 0) (imm 0xFFFFFF)) { a := 0x800000000#36, tre := 1 }
    k.traps = [9] ∧ k.deliver.mq = 0x800000000#36 ∧ k.deliver.mh = 0 ∧ k.deliver.sw.extractLsb' 0 4 = 0xA#4 := by decide +kernel

/-- Spec: with the divide check disabled, a divisor of 0 sets DC at delivery; MQ and MH read 0 and the dividend. -/
theorem test_div_zero :
    let k := coreAfter (.div (.pier 0) (imm 0)) { a := 0x800000000#36, tre := 1 }
    k.traps = [] ∧ k.deliver.mq = 0 ∧ k.deliver.mh = 0x800000000#36 ∧ k.deliver.sw.getLsbD 5 = true := by decide +kernel

/-- Spec: nine bytes with plain and dense packing, and eight with raw-nonet packing. -/
theorem test_packing :
    let bs := bytesOf [0x11, 0x22, 0x33, 0x44, 0x55, 0x66, 0x77, 0x88, 0x99]
    packIn 0 bs = [0x220CC4411#36, 0x441DCCC55#36, 0x99#36] ∧ packIn 1 bs = [0x544332211#36, 0x998877665#36] ∧
    packIn 2 (bs.take 8) = [0x3B9546611#36] := by decide +kernel

/-- Spec: pier 11's quarry word 0x1_0123_4567 is word 13 of line 1,272,582. -/
theorem test_quarry_line : physTarget 0x101234567#36 = .quarry 1272582 13 := by decide +kernel

/-- Spec: where the host, the warden and pier 3 itself reach register 0x45 of pier 3. -/
theorem test_register_addresses :
    windowAt (0x1300114 / 4) = some (.pr 3 0x45) ∧ coreWindow .warden 0x404C0045#36 = some (.pr 3 0x45) ∧
    coreWindow (.pier 3) 0x1000045#36 = some (.pr 3 0x45) := by decide +kernel

/-- Spec: LOWER_CAP with 300 makes SCAP and CAP 300. -/
theorem test_lower_cap :
    let d := after (.lowerCap 0 [0x2C, 0x01]) { dev := up }
    d.pw.scap = 300 ∧ d.cap = 300 ∧ d.pw.budget = 480 := by decide +kernel

/-- FIPS 180-4: SHA-256 of "abc". -/
theorem test_sha256 : (sha256 [0x61, 0x62, 0x63]).take 4 = bytesOf [0xBA, 0x78, 0x16, 0xBF] := by decide +kernel

/-- Spec: LOOP takes its count in bits 23 to 12 and its body length in bits 11 to 0. -/
theorem test_loop :
    let k := coreAfter (.loop (.pier 0) (imm (16 * 4096 + 1))) {}
    k.lc = 16 ∧ k.ls = 1 ∧ k.le = 1 ∧ k.sw.getLsbD 12 = true := by decide +kernel

/-- R492: only a rail more than 10 % outside its tolerance stops the model. -/
theorem test_rail : exec (.railOutOfTolerance ⟨false, true⟩) State.reset = .fault .railDamage ∧
    (after (.railOutOfTolerance ⟨false, false⟩) { dev := up }).board.porLow = true := ⟨rfl, by decide +kernel⟩

end Sys2Proof.Tests
end

section
/-! Register accesses: what a host access, a core's store, a sensor reading and a register write do, and O57 from them. -/

namespace Sys2Proof

open Sys2Proof.Machine

/-- A command that answers with a device answers with what holds of that device. -/
theorem Answers.answersWith {i : Instr} {s : State} {e : Dev} {Q : Dev → Prop} (h : Answers i s e) (hq : Q e) :
    AnswersWith i s Q :=
  ⟨_, h, rfl, hq⟩

end Sys2Proof

namespace Sys2Proof.Machine

open Sys2Proof

/-! ### REGISTER_WRITE as a command: its answer is the access of its operand -/

theorem answers_host {f : FnId} {off : BitVec 26} {v : DW} {be : BitVec 4} {n : Nat} {s : State} {e : Dev}
    (h : s.dev.hostWrite f off.toNat v be n = e) : Answers (.registerWrite (.host f off v be n)) s e :=
  congrArg s.answer h

theorem answers_hostRead {f : FnId} {off : BitVec 26} {n : Nat} {s : State} {e : Dev}
    (h : s.dev.hostRead f off.toNat n = e) : Answers (.registerWrite (.hostRead f off n)) s e :=
  congrArg s.answer h

theorem answers_core {c : CoreId} {a v : Word} {s : State} {e : Dev} (h : s.dev.coreWrite c a v = e) :
    Answers (.registerWrite (.core c a v)) s e :=
  congrArg s.answer h

theorem answers_sensor {n : Sensor} {s : State} {e : Dev} (h : s.dev.sensorRead n = e) :
    Answers (.registerWrite (.sensor n)) s e :=
  congrArg s.answer h

/-! ### Host accesses by the place that they reach (R28, R30, R31, R33) -/

section Host

variable {d : Dev} {f : FnId} {off o n : Nat} {v : DW} {be : BitVec 4} {r : RegAt}

theorem Dev.hostWrite_of_unreached (hb : d.barReached f = false) : d.hostWrite f off v be n = d := by
  simp [Dev.hostWrite, hb]

theorem Dev.hostWrite_of_page (hb : d.barReached f = true) (ho : pageOffset f off = some o) :
    d.hostWrite f off v be n = d.pageWrite f o v be n := by
  simp [Dev.hostWrite, hb, ho]

/-- A write to a register window: a longer one, a partial one, or one whole DW (R31). -/
theorem Dev.hostWrite_of_window (hb : d.barReached .pf0 = true) (ho : pageOffset .pf0 off = none)
    (hr : windowAt (off / 4) = some r) :
    d.hostWrite .pf0 off v be n =
      if n ≠ 1 then d.aer .pf0 aerUr else if be ≠ 0xF#4 then d.blockError r else d.regWrite .host r v := by
  simp [Dev.hostWrite, hb, ho, hr]

theorem Dev.hostWrite_of_reserved (hb : d.barReached f = true) (ho : pageOffset f off = none)
    (hr : f ≠ .pf0 ∨ windowAt (off / 4) = none) : d.hostWrite f off v be n = d := by
  by_cases hf : f = .pf0
  · subst hf
    have hw := hr.resolve_left (not_not_intro rfl)
    simp [Dev.hostWrite, hb, ho, hw]
  · simp [Dev.hostWrite, hb, ho, hf]

theorem Dev.hostRead_of_unreached (hb : d.barReached f = false) : d.hostRead f off n = d.readBack none := by
  simp [Dev.hostRead, hb]

theorem Dev.hostRead_of_page (hb : d.barReached f = true) (ho : pageOffset f off = some o) :
    d.hostRead f off n =
      if n ≠ 1 then (d.readBack none).send (.unsupported f) else d.readBack (some ((d.pageRead f o).setWidth 64)) := by
  simp [Dev.hostRead, hb, ho]

theorem Dev.hostRead_of_window (hb : d.barReached .pf0 = true) (ho : pageOffset .pf0 off = none)
    (hr : windowAt (off / 4) = some r) :
    d.hostRead .pf0 off n =
      if n ≠ 1 then (d.readBack none).send (.unsupported .pf0)
      else d.readBack (some ((d.regRead .host r).setWidth 64)) := by
  simp [Dev.hostRead, hb, ho, hr]

theorem Dev.hostRead_of_reserved (hb : d.barReached f = true) (ho : pageOffset f off = none)
    (hr : f ≠ .pf0 ∨ windowAt (off / 4) = none) : d.hostRead f off n = d.readBack (some 0) := by
  by_cases hf : f = .pf0
  · subst hf
    have hw := hr.resolve_left (not_not_intro rfl)
    simp [Dev.hostRead, hb, ho, hw]
  · simp [Dev.hostRead, hb, ho, hf]

end Host

/-! ### A core's store (R32) -/

theorem Dev.coreWrite_of_window {d : Dev} {c : CoreId} {a v : Word} {r : RegAt} (h : coreWindow c a = some r) :
    d.coreWrite c a v = d.regWrite (coreAgent c) r (v.extractLsb' 0 32) := by
  simp [Dev.coreWrite, h]

theorem Dev.coreWrite_of_none {d : Dev} {c : CoreId} {a v : Word} (h : coreWindow c a = none) :
    d.coreWrite c a v = d := by
  simp [Dev.coreWrite, h]

/-! ### Sensors (R358, R455, R474) -/

@[simp] theorem Dev.readBack_lastRead (d : Dev) (v : Option (BitVec 64)) : (d.readBack v).host.lastRead = v := rfl
@[simp] theorem Dev.readBack_items (d : Dev) (v : Option (BitVec 64)) : (d.readBack v).items = d.items := rfl
@[simp] theorem Dev.readBack_piers (d : Dev) (v : Option (BitVec 64)) : (d.readBack v).piers = d.piers := rfl

/-- The choice of the bus mode writes nothing outside the board. -/
theorem Dev.chooseBus_frame (d : Dev) (i3c : Bool) : ∃ b, d.chooseBus i3c = { d with board := b } := by
  unfold Dev.chooseBus
  split
  · exact ⟨_, rfl⟩
  · exact ⟨d.board, rfl⟩

@[simp] theorem Dev.chooseBus_items (d : Dev) (i3c : Bool) : (d.chooseBus i3c).items = d.items := by
  obtain ⟨_, h⟩ := d.chooseBus_frame i3c
  rw [h]

@[simp] theorem Dev.chooseBus_piers (d : Dev) (i3c : Bool) : (d.chooseBus i3c).piers = d.piers := by
  obtain ⟨_, h⟩ := d.chooseBus_frame i3c
  rw [h]

@[simp] theorem Dev.chooseBus_fc (d : Dev) (i3c : Bool) : (d.chooseBus i3c).fc = d.fc := by
  obtain ⟨_, h⟩ := d.chooseBus_frame i3c
  rw [h]

@[simp] theorem Dev.chooseBus_life (d : Dev) (i3c : Bool) : (d.chooseBus i3c).life = d.life := by
  obtain ⟨_, h⟩ := d.chooseBus_frame i3c
  rw [h]

/-- What a sensor shows of a sample; the lifecycle code and a die sensor that does not exist are in none (R358, R474). -/
def sensorValue (m : Sample) : Sensor → Option Int
  | .die k => if k < 24 then m.die[k]? else none
  | .stack k => some (if k = 0 then m.stack0 else m.stack1)
  | .current => some m.current
  | .power => some m.power
  | .lifecycle => none

theorem Dev.sensorRead_of_unanswered {d : Dev} {n : Sensor} (h : d.sidebandAnswers = false) :
    d.sensorRead n = d.readBack none := by
  simp [Dev.sensorRead, h]

/-- A reading, whatever the sensor answers, is a read-back with the bus mode chosen, and draws at most one free value. -/
theorem Dev.sensorRead_cases (d : Dev) (n : Sensor) :
    ∃ v, d.sensorRead n = d.readBack v ∨ d.sensorRead n = (d.chooseBus false).readBack v ∨
      d.sensorRead n = ((d.chooseBus false).readBack v).used := by
  unfold Dev.sensorRead
  split
  · exact ⟨_, .inl rfl⟩
  · cases n with
    | die k =>
      dsimp only
      split
      · exact ⟨_, .inr (.inl rfl)⟩
      · split
        · exact ⟨_, .inr (.inr rfl)⟩
        · exact ⟨_, .inr (.inl rfl)⟩
    | lifecycle => exact ⟨_, .inr (.inl rfl)⟩
    | stack _ | current | power =>
      dsimp only
      split
      · exact ⟨_, .inr (.inr rfl)⟩
      · exact ⟨_, .inr (.inl rfl)⟩

@[simp] theorem Dev.sensorRead_items (d : Dev) (n : Sensor) : (d.sensorRead n).items = d.items := by
  obtain ⟨v, h | h | h⟩ := d.sensorRead_cases n <;> simp [h]

@[simp] theorem Dev.sensorRead_piers (d : Dev) (n : Sensor) : (d.sensorRead n).piers = d.piers := by
  obtain ⟨v, h | h | h⟩ := d.sensorRead_cases n <;> simp [h]

theorem Dev.sensorRead_lifecycle {d : Dev} (ha : d.sidebandAnswers = true) :
    (d.sensorRead .lifecycle).host.lastRead = some (d.life.life.setWidth 64) := by
  simp [Dev.sensorRead, ha]

/-- After a sample, a sensor other than the lifecycle code reads what the sample shows of it. -/
theorem Dev.sensorRead_of_sample {d : Dev} {n : Sensor} {m : Sample} (ha : d.sidebandAnswers = true)
    (hm : d.fc.sample = some m) (hn : n ≠ .lifecycle) :
    (d.sensorRead n).host.lastRead = (sensorValue m n).map (BitVec.ofInt 64) := by
  cases n with
  | die k =>
    by_cases hk : k < 24
    · simp [Dev.sensorRead, sensorValue, ha, hm, hk, Nat.not_le.2 hk]
    · simp [Dev.sensorRead, sensorValue, ha, hk, Nat.not_lt.1 hk]
  | lifecycle => exact absurd rfl hn
  | stack _ | current | power => simp [Dev.sensorRead, sensorValue, ha, hm]

/-! ### Register writes (R8, R11) -/

section Writes

variable {d : Dev} {a : Agent} {v : DW}

/-- ST_WIN: 0 is reserved (R11, R361, R376). -/
theorem Dev.stPut_window (d : Dev) (v : DW) :
    d.stPut 1 v = if v.extractLsb' 0 16 = 0#16 then { d with setter := { d.setter with err := true } }
      else { d with setter := { d.setter with win := v.extractLsb' 0 16 } } := rfl

/-- FC_PERIOD: the legal values are 1 to 1000 (R11, R450). -/
theorem Dev.fcWrite_period (d : Dev) (v : DW) :
    d.fcWrite 8 v =
      if (v.extractLsb' 0 10).toNat = 0 ∨ 1000 < (v.extractLsb' 0 10).toNat then { d with fc := { d.fc with err := true } }
      else { d with fc := { d.fc with period := v.extractLsb' 0 10 } } := by
  simp only [← Bool.decide_or, Dev.fcWrite, Dev.blockError, decide_eq_true_eq]

theorem Dev.bootWrite_of_locked (hu : d.unlocked = false) (hv : v.getLsbD 0 ≠ d.life.remap) :
    d.bootWrite v = { d with life := { d.life with frErr := true } } := by
  rw [Dev.bootWrite, if_neg hv, hu]
  rfl

theorem Dev.bootWrite_remap (hu : d.unlocked = true) : (d.bootWrite v).life.remap = v.getLsbD 0 := by
  by_cases hv : v.getLsbD 0 = d.life.remap
  · rw [Dev.bootWrite, if_pos hv, hv]
  · rw [Dev.bootWrite, if_neg hv, if_pos hu]

/-- PR_SPACE, field by field: a width of 3 is reserved (R11, R304). -/
theorem spaceWrite_eq (P : Pier) (v : DW) :
    spaceWrite P v = { P with regs := { P.regs with
      tag := v.extractLsb' 0 22
      s1w := if v.extractLsb' 22 2 = 3#2 then P.regs.s1w else v.extractLsb' 22 2
      prErr := P.regs.prErr || decide (v.extractLsb' 22 2 = 3#2) } } := by
  by_cases h : v.extractLsb' 22 2 = 3#2 <;> simp [spaceWrite, prError, h]

/-- PR_BANK_PWR, field by field: an idle time of 0 is reserved (R11, R283). -/
theorem bankPwrWrite_eq (P : Pier) (v : DW) :
    bankPwrWrite P v = { P with regs := { P.regs with
      reten := v.extractLsb' 0 16
      idle := if v.extractLsb' 16 16 = 0#16 then P.regs.idle else v.extractLsb' 16 16
      prErr := P.regs.prErr || decide (v.extractLsb' 16 16 = 0#16) } } := by
  by_cases h : v.extractLsb' 16 16 = 0#16 <;> simp [bankPwrWrite, prError, h]

theorem Dev.pier_onReg_self {p : Fin 16} (g : Pier → Pier) (h : d.reachable p = true) :
    (d.onReg p g).pier p = g (d.pier p) := by
  simp [Dev.onReg, h]

theorem Dev.regWrite_space {p : Fin 16} (h : d.reachable p = true) :
    (d.regWrite a (.pr p 0x10) v).pier p = spaceWrite (d.pier p) v := by
  simp [Dev.regWrite, Dev.prWrite, h, Dev.pier_onReg_self]

theorem Dev.regWrite_bankPwr {p : Fin 16} (h : d.reachable p = true) :
    (d.regWrite a (.pr p 0x0C) v).pier p = bankPwrWrite (d.pier p) v := by
  simp [Dev.regWrite, Dev.prWrite, h, Dev.pier_onReg_self]

/-- A pier in reset or OFF takes no write in any of its blocks (log 69). -/
theorem Dev.regWrite_of_unreachable {p : Fin 16} (h : d.reachable p = false) (k : Nat) :
    d.regWrite a (.pr p k) v = d ∧ d.regWrite a (.qy p k) v = d ∧ d.regWrite a (.pt p k) v = d := by
  simp [Dev.regWrite, h]

end Writes

/-- Settles O57. Each clause is the lemma about the access in the place that the operand reaches, or about the register
that is written. -/
theorem registerWrites : Obligations.RegisterWrites := by
  unfold Obligations.RegisterWrites
  refine ⟨⟨?_, ?_, ?_, ?_, ?_, ?_, ?_, ?_, ?_, ?_, ?_, ?_⟩, ?_⟩
  · intro f off v be n s hb
    exact answers_host (Dev.hostWrite_of_unreached hb)
  · intro f off v be n o s hb ho
    exact answers_host (Dev.hostWrite_of_page hb ho)
  · intro off v s r hb ho hr
    refine ⟨answers_host ?_, fun be hbe => answers_host ?_, fun be n hn => answers_host ?_⟩
    · rw [Dev.hostWrite_of_window hb ho hr, if_neg (not_not_intro rfl), if_neg (not_not_intro rfl)]
    · rw [Dev.hostWrite_of_window hb ho hr, if_neg (not_not_intro rfl), if_pos hbe]
    · rw [Dev.hostWrite_of_window hb ho hr, if_pos hn]
  · intro f off v be n s hb ho hr
    exact answers_host (Dev.hostWrite_of_reserved hb ho hr)
  · intro f off n s hb
    exact answers_hostRead (Dev.hostRead_of_unreached hb)
  · intro f off o s hb ho
    refine ⟨answers_hostRead ?_, fun n hn => answers_hostRead ?_⟩
    · rw [Dev.hostRead_of_page hb ho, if_neg (not_not_intro rfl)]
    · rw [Dev.hostRead_of_page hb ho, if_pos hn]
  · intro off r s hb ho hr
    refine ⟨answers_hostRead ?_, fun n hn => answers_hostRead ?_⟩
    · rw [Dev.hostRead_of_window hb ho hr, if_neg (not_not_intro rfl)]
    · rw [Dev.hostRead_of_window hb ho hr, if_pos hn]
  · intro f off n s hb ho hr
    exact answers_hostRead (Dev.hostRead_of_reserved hb ho hr)
  · intro c a v s r hr
    exact answers_core (Dev.coreWrite_of_window hr)
  · intro c a v s hr
    exact answers_core (Dev.coreWrite_of_none hr)
  · intro n s ha
    exact answers_sensor (Dev.sensorRead_of_unanswered ha)
  · intro n s ha
    refine (answers_sensor rfl).answersWith ⟨Dev.sensorRead_items _ _, Dev.sensorRead_piers _ _, ?_, ?_⟩
    · rintro rfl
      exact Dev.sensorRead_lifecycle ha
    · intro m hm
      refine ⟨?_, ?_, ?_, ?_⟩
      · rintro k rfl hk
        simpa [sensorValue, hk] using Dev.sensorRead_of_sample (n := .die k) ha hm (by simp)
      · rintro k rfl
        exact Dev.sensorRead_of_sample ha hm (by simp)
      · rintro rfl
        exact Dev.sensorRead_of_sample ha hm (by simp)
      · rintro rfl
        exact Dev.sensorRead_of_sample ha hm (by simp)
  · intro d a v
    refine ⟨?_, ?_, ?_, ?_, Dev.bootWrite_of_locked, Dev.bootWrite_remap, ?_, fun p h k => Dev.regWrite_of_unreachable h k⟩
    · intro hw
      simp only [Dev.regWrite, Dev.stWrite, Dev.stPut_window, hw, if_true]
    · intro hw
      simp only [Dev.regWrite, Dev.stWrite, Dev.stPut_window, hw, if_false]
    · intro hn
      exact (Dev.fcWrite_period d v).trans (if_pos (hn.imp_left (congrArg BitVec.toNat)))
    · intro h1 h2
      exact (Dev.fcWrite_period d v).trans (if_neg (by omega))
    · intro p h
      exact ⟨Dev.regWrite_space h ▸ spaceWrite_eq _ _, Dev.regWrite_bankPwr h ▸ bankPwrWrite_eq _ _⟩

end Sys2Proof.Machine
end

section
/-! The state after reset: O59 from what a pier and a core hold there. -/

namespace Sys2Proof.Machine

open Sys2Proof

/-- Every pier stands at its reset values (R15). -/
@[simp] theorem State.reset_pier (p : Fin 16) : State.reset.dev.pier p = {} := by
  simp [State.reset, Dev.pier]

/-- Every core stands at its reset values (R199). -/
@[simp] theorem State.reset_core (c : CoreId) : State.reset.dev.core c = {} := by
  cases c with
  | pier p => simp [Dev.core]
  | warden => rfl

/-- The owner of a bank at reset: resident firmware for bank 15, nobody for the others (R278). -/
theorem PierMem.reset_owner (b : Fin 16) : ({} : PierMem).bank[b].owner = if b = 15 then 0x40#7 else 0x7F#7 := by
  revert b
  decide

/-- Settles O59. The values are those of the fields' defaults; DESIGN CHOICE of the model, log 5: PC is 0 before release. -/
theorem resetState : Obligations.ResetState := by
  unfold Obligations.ResetState
  refine ⟨⟨rfl, rfl, rfl, rfl, rfl, rfl, rfl, rfl, rfl, rfl, rfl, rfl, ?_, ?_⟩, ?_⟩
  · intro c
    rw [State.reset_core]
    exact ⟨rfl, rfl, rfl, rfl, rfl⟩
  · intro p
    rw [State.reset_pier]
    refine ⟨⟨rfl, rfl⟩, rfl, rfl, rfl, rfl, rfl, PierMem.reset_owner, ?_⟩
    intro q
    exact congrArg S2Cfg.s2w (Vector.getElem_replicate q.isLt)
  · show 120 ≤ 480 ∧ 480 ≤ 560 ∧ 120 ≤ 560 ∧ 560 ≤ 560
    omega

end Sys2Proof.Machine
end

section
/-! Frames of what several commands share: keystone reads, the records of chain 16, the tracker. Each says which parts of
the device an operation may write. -/

namespace Sys2Proof.Machine

open Sys2Proof

/-! ### The tracker -/

/-- An item that the tracker finds under a number has that number and stands in it. -/
theorem Dev.item?_eq_some {d : Dev} {id : Nat} {i : Item} (h : d.item? id = some i) : i.id = id ∧ i ∈ d.items := by
  have hid := List.find?_some h
  exact ⟨by simpa using hid, List.mem_of_find?_eq_some h⟩

/-- Putting one item in the place of a number: an item of another number stands as before, one of that number is the new one. -/
theorem Dev.mem_onItem_const {d : Dev} {id : Nat} {j x : Item} (hj : j.id = id) :
    x ∈ (d.onItem id (fun _ => j)).items ↔ (x.id ≠ id ∧ x ∈ d.items) ∨ (x = j ∧ ∃ y ∈ d.items, y.id = id) := by
  simp only [Dev.onItem, List.mem_map]
  constructor
  · rintro ⟨y, hy, rfl⟩
    by_cases h : y.id = id
    · rw [if_pos h]
      exact .inr ⟨rfl, y, hy, h⟩
    · rw [if_neg h]
      exact .inl ⟨h, hy⟩
  · rintro (⟨h, hx⟩ | ⟨rfl, y, hy, h⟩)
    · exact ⟨x, hx, if_neg h⟩
    · exact ⟨y, hy, if_pos h⟩

/-- An item dropped from the tracker leaves the others. -/
theorem Dev.mem_dropItem {d : Dev} {id : Nat} {x : Item} : x ∈ (d.dropItem id).items ↔ x.id ≠ id ∧ x ∈ d.items := by
  simp [Dev.dropItem, and_comm]

/-! ### Keystone reads and the lifecycle record (R432, R437, R438) -/

/-- Detections only join the reporting path of the frontage (R445). -/
theorem Dev.foldl_detect_frame {α : Type} (c r x y : Dev → α → Nat) (l : List α) (d : Dev) :
    ∃ q, l.foldl (fun d k => d.detect (c d k) (r d k) (x d k) (y d k)) d = { d with fc := { d.fc with detq := q } } := by
  induction l generalizing d with
  | nil => exact ⟨_, rfl⟩
  | cons k l ih =>
    obtain ⟨q, h⟩ := ih (d.detect (c d k) (r d k) (x d k) (y d k))
    exact ⟨q, h⟩

/-- A read of the keystone reports broken words and writes nothing else (R438). -/
theorem Dev.keyUse_frame (d : Dev) (w n : Nat) : ∃ q, d.keyUse w n = { d with fc := { d.fc with detq := q } } :=
  d.foldl_detect_frame (fun d k => if d.ks.split k then 0x1B else 0x1A) (fun _ _ => 17) (fun _ k => k) (fun _ _ => 0) _

/-- The image is programmed, and the words that are read for it may be reported (R438). -/
theorem Dev.persist_frame (d : Dev) :
    ∃ q fl, d.persist = { d with fc := { d.fc with detq := q }, flash := fl } := by
  obtain ⟨_, h⟩ := d.keyUse_frame 0 0x1C
  obtain ⟨_, h2⟩ := (d.keyUse 0 0x1C).keyUse_frame 0x20 0x1D
  obtain ⟨_, h3⟩ := ((d.keyUse 0 0x1C).keyUse 0x20 0x1D).keyUse_frame 0x100 0x240
  unfold Dev.persist
  rw [h3, h2, h]
  exact ⟨_, _, rfl⟩

/-- The device enters RECOVERY: the lifecycle code, its copies in keystone and flash, and SB_ALERT_N (R427, R428, R440, R499). -/
theorem Dev.enterRecovery_frame (d : Dev) :
    ∃ q fl ks, d.enterRecovery = { d with
      fc := { d.fc with detq := q }, flash := fl, ks := ks, board := { d.board with alert := true }
      life := { d.life with life := 3#3, op := .recovery } } := by
  unfold Dev.enterRecovery Dev.setLife Dev.writeLife
  obtain ⟨q, fl, h⟩ := Dev.persist_frame _
  rw [h]
  exact ⟨_, _, _, rfl⟩

/-- Chain 16 is exhausted: nothing, where it was, else RECOVERY with the chain noted (R416). -/
theorem Dev.exhaust16_cases (d : Dev) :
    d.exhaust16 = d ∨ ∃ full, d.exhaust16 = Dev.enterRecovery { d with audit := { d.audit with full := full } } := by
  unfold Dev.exhaust16
  split
  · exact .inl rfl
  · exact .inr ⟨_, rfl⟩

/-! ### Records of chain 16 (R378, R382, R414 to R417) -/

/-- A record for chain 16 is accepted behind those that wait; a keystone read may be reported (R417, R438). -/
theorem Dev.append16_of_lt {d : Dev} (f : RecFields) (item : Option Nat) (h : (d.acceptedHead 16).1 < cseqMax) :
    ∃ q mark bytes w, d.append16 f item = { d with
      fc := { d.fc with detq := q }
      audit := { d.audit with
        recs := d.audit.recs ++ [⟨16, (d.acceptedHead 16).1 + 1, mark, bytes, item⟩], waitAt := w } } := by
  obtain ⟨_, h1⟩ := d.keyUse_frame 8 8
  obtain ⟨_, h2⟩ := (d.keyUse 8 8).keyUse_frame 0xC0 6
  unfold Dev.append16 Dev.accept
  rw [if_neg (Nat.not_le.2 h), h2, h1]
  exact ⟨_, _, _, _, rfl⟩

theorem Dev.append16_of_le {d : Dev} (f : RecFields) (item : Option Nat) (h : cseqMax ≤ (d.acceptedHead 16).1) :
    d.append16 f item = d.exhaust16 := by
  simp only [Dev.append16, if_pos h]

/-- What a record on chain 16 may write: the reporting path, the audit state, and with the end of the chain the lifecycle, which
then is RECOVERY (R416). -/
theorem Dev.append16_frame (d : Dev) (f : RecFields) (item : Option Nat) :
    ∃ q au fl ks bd lf, d.append16 f item = { d with
      fc := { d.fc with detq := q }, audit := au, flash := fl, ks := ks, board := bd, life := lf } ∧
      (lf = d.life ∨ lf = { d.life with life := 3#3, op := .recovery }) := by
  rcases Nat.lt_or_ge (d.acceptedHead 16).1 cseqMax with h | h
  · obtain ⟨q, m, b, w, e⟩ := d.append16_of_lt f item h
    exact ⟨q, _, d.flash, d.ks, d.board, d.life, e, .inl rfl⟩
  · rw [Dev.append16_of_le f item h]
    rcases d.exhaust16_cases with e | ⟨full, e⟩
    · exact ⟨d.fc.detq, d.audit, d.flash, d.ks, d.board, d.life, e, .inl rfl⟩
    · obtain ⟨q, fl, ks, e2⟩ := Dev.enterRecovery_frame { d with audit := { d.audit with full := full } }
      exact ⟨q, _, fl, ks, _, _, e.trans e2, .inr rfl⟩

/-- The record of an item keeps its number. -/
@[simp] theorem Item.settled_id (i : Item) : i.settled.id = i.id := by
  unfold Item.settled
  split <;> rfl

/-- What a record of an item on chain 16 may write beside the tracker. -/
theorem Dev.record16_frame (d : Dev) (i : Item) :
    ∃ its q au fl ks bd lf, d.record16 i = { d with
      items := its, fc := { d.fc with detq := q }, audit := au, flash := fl, ks := ks, board := bd, life := lf } ∧
      (∀ x ∈ its, (x.id ≠ i.id ∧ x ∈ d.items) ∨ ∃ n, x.stage = .recorded 16 n) := by
  have hdrop : ∀ e : Dev, e.items = d.items → ∀ x ∈ (e.dropItem i.id).items, x.id ≠ i.id ∧ x ∈ d.items := by
    intro e he x hx
    rw [← he]
    exact Dev.mem_dropItem.1 hx
  unfold Dev.record16
  simp only [Item.settled_id]
  split
  · exact ⟨_, d.fc.detq, d.audit, d.flash, d.ks, d.board, d.life, rfl, fun x hx => .inl (hdrop d rfl x hx)⟩
  · split
    · rename_i hmax
      obtain ⟨q, au, fl, ks, bd, lf, e, -⟩ := d.append16_frame (d.itemFields i.settled) none
      rw [Dev.append16_of_le _ _ hmax] at e
      rw [e]
      exact ⟨_, q, au, fl, ks, bd, lf, rfl, fun x hx => .inl (hdrop _ rfl x hx)⟩
    · obtain ⟨q, au, fl, ks, bd, lf, e, -⟩ := d.append16_frame (d.itemFields i.settled) (some i.id)
      rw [e]
      refine ⟨_, q, au, fl, ks, bd, lf, rfl, fun x hx => ?_⟩
      rcases (Dev.mem_onItem_const (by simp)).1 hx with h | ⟨rfl, -⟩
      · exact .inl h
      · exact .inr ⟨_, rfl⟩

/-- An item recorded on chain 16 while the chain lasts: it waits with the next number, one record joins the queue, and the other
items, the piers, keys, flash and sessions stand (R382, R417). -/
theorem Dev.record16_of_lt {d : Dev} (i : Item) (ha : d.recordsAllowed = true) (h : (d.acceptedHead 16).1 < cseqMax) :
    (∀ x ∈ (d.record16 i).items, x.id = i.id →
      x = { i.settled with stage := .recorded 16 ((d.acceptedHead 16).1 + 1) }) ∧
    (∀ x, x.id ≠ i.id → (x ∈ (d.record16 i).items ↔ x ∈ d.items)) ∧
    (∃ a, (d.record16 i).audit.recs = d.audit.recs ++ [a] ∧ a.chain = 16 ∧ a.cseq = (d.acceptedHead 16).1 + 1) ∧
    (d.record16 i).piers = d.piers ∧ (d.record16 i).flash = d.flash ∧ (d.record16 i).ks = d.ks ∧
    (d.record16 i).sessions = d.sessions := by
  obtain ⟨q, m, b, w, e⟩ := d.append16_of_lt (d.itemFields i.settled) (some i.id) h
  have hr : d.record16 i = Dev.onItem (d.append16 (d.itemFields i.settled) (some i.id)) i.id
      (fun _ => { i.settled with stage := .recorded 16 ((d.acceptedHead 16).1 + 1) }) := by
    simp only [Dev.record16, ha, if_neg (Nat.not_le.2 h), Item.settled_id, Bool.not_true, Bool.false_eq_true, if_false]
  rw [hr, e]
  have hj : ({ i.settled with stage := .recorded 16 ((d.acceptedHead 16).1 + 1) } : Item).id = i.id := i.settled_id
  refine ⟨fun x hx hid => ?_, fun x hne => ?_, ⟨_, rfl, rfl, rfl⟩, rfl, rfl, rfl, rfl⟩
  · rcases (Dev.mem_onItem_const hj).1 hx with ⟨hne, -⟩ | ⟨hx, -⟩
    · exact absurd hid hne
    · exact hx
  · rw [Dev.mem_onItem_const hj]
    constructor
    · rintro (⟨-, h⟩ | ⟨rfl, -⟩)
      · exact h
      · exact absurd hj hne
    · exact fun h => .inl ⟨hne, h⟩

end Sys2Proof.Machine
end

section
/-! Results and the end of a warden item (stages 7 and 8 of R19), and O45 from them. -/

namespace Sys2Proof.Machine

open Sys2Proof

/-! ### Results (R20, R325) -/

/-- A function that may send posts its writes (R20). -/
theorem Dev.write_of_canSend {d : Dev} {f : FnId} (k : WriteKind) (a : QW) (bs : List Byte) (r : Bool) (h : d.canSend f = true) :
    d.write f k a bs r = d.send (.write f k a bs r) := by
  simp only [Dev.write, h, if_true]

/-- Where a function may send, the segments of a result leave one write each (R325). -/
theorem Dev.writeSegs_of_canSend {f : FnId} (id : Nat) (r : Bool) (segs : List (QW × Nat)) (bs : List Byte) {d : Dev}
    (h : d.canSend f = true) :
    d.writeSegs f id r segs bs = { d with host := { d.host with out := d.host.out ++ segWrites f id r segs bs } } := by
  induction segs generalizing d bs with
  | nil => simp [Dev.writeSegs, segWrites]
  | cons e segs ih =>
    cases bs with
    | nil => simp [Dev.writeSegs, segWrites]
    | cons b bs =>
      have h2 : (d.send (.write f (.result id) e.1 ((b :: bs).take e.2) r)).canSend f = true := h
      simp only [Dev.writeSegs, Dev.write_of_canSend _ _ _ _ h, ih _ h2]
      simp only [Dev.send, segWrites, List.append_assoc, List.singleton_append]

/-- Without bytes there is nothing to post. -/
theorem segWrites_nil (f : FnId) (id : Nat) (r : Bool) (segs : List (QW × Nat)) : segWrites f id r segs [] = [] := by
  cases segs <;> rfl

theorem Dev.writeSegs_nil (d : Dev) (f : FnId) (id : Nat) (r : Bool) (segs : List (QW × Nat)) : d.writeSegs f id r segs [] = d := by
  cases segs <;> rfl

/-- Results that may go are posted behind everything sent before; none after an FLR (R20, R353). -/
theorem Dev.writeResult_of_resultsGo {d : Dev} {i : Item} (h : d.resultsGo i = true) :
    d.writeResult i = { d with host := { d.host with out :=
      if i.flr = true then d.host.out else d.host.out ++ segWrites i.fn i.id (d.fn i.fn).relaxed i.outSegs i.output } } := by
  unfold Dev.writeResult
  by_cases hf : i.flr = true
  · rw [if_pos hf, if_pos hf]
  · rw [if_neg hf, if_neg hf]
    by_cases ho : i.output = []
    · simp only [ho, Dev.writeSegs_nil, segWrites_nil, List.append_nil]
    · have hs : d.canSend i.fn = true := by simpa [Dev.resultsGo, hf, ho] using h
      exact d.writeSegs_of_canSend i.id _ i.outSegs i.output hs

/-- When an item's results can leave (R20; log 43). -/
theorem Dev.resultsGo_iff {d : Dev} {i : Item} :
    d.resultsGo i = true ↔ (i.flr = true ∨ i.output = []) ∨ d.canSend i.fn = true := by
  simp [Dev.resultsGo]

/-! ### Stage 7 (R19, R378) -/

/-- Results that cannot leave wait in their stage. -/
theorem Dev.passResults_of_waiting {d : Dev} {i : Item} (c : Fin 17) (h : d.resultsGo i = false) :
    d.passResults i c = d.onItem i.id (fun _ => { i with stage := .result c }) := by
  simp only [Dev.passResults, h, Bool.not_false, if_true]

/-- An item of a pier goes on to its record. -/
theorem Dev.passResults_of_pier {d : Dev} {i : Item} {c : Fin 17} (h : d.resultsGo i = true) (hc : c.val < 16) :
    d.passResults i c = (d.writeResult i).onItem i.id (fun _ => { i with stage := .record c }) := by
  simp only [Dev.passResults, h, Bool.not_true, Bool.false_eq_true, if_false, hc, if_true]

/-- An item of the warden is recorded at once on chain 16. -/
theorem Dev.passResults_of_warden {d : Dev} {i : Item} {c : Fin 17} (h : d.resultsGo i = true) (hc : c.val = 16) :
    d.passResults i c = (d.writeResult i).record16 i := by
  simp only [Dev.passResults, h, Bool.not_true, Bool.false_eq_true, if_false, hc, lt_self_iff_false]

/-! ### What a record carries (R353) -/

theorem Item.settled_of_flr {i : Item} (h : i.flr = true) :
    i.settled = { i with status := 0x20, result := 0x01, outLen := 0, output := [], rdata6 := 0, rdata7 := 0 } := by
  simp only [Item.settled, h, if_true]

theorem Item.settled_of_not_flr {i : Item} (h : i.flr = false) : i.settled = i := by
  simp only [Item.settled, h, Bool.false_eq_true, if_false]

@[simp] theorem Item.settled_inBytes (i : Item) : i.settled.inBytes = i.inBytes := by
  unfold Item.settled
  split <;> rfl

/-- Settles O45. An item's end is its results, posted, and then its one record on chain 16. -/
theorem wardenItemsEndOnChain16 : Obligations.WardenItemsEndOnChain16 := by
  unfold Obligations.WardenItemsEndOnChain16
  intro d i v bs
  have hgo : d.resultsGo (i.withVerdict v bs) = true ↔ (i.flr = true ∨ v.out = []) ∨ d.canSend i.fn = true :=
    Dev.resultsGo_iff
  refine ⟨?_, ?_⟩
  · intro hf ho hs
    refine Dev.passResults_of_waiting 16 (Bool.eq_false_iff.2 fun h => ?_)
    simp [hgo, hf, ho, hs] at h
  · intro ha hm hg
    have hgo := hgo.2 (or_assoc.2 hg)
    obtain ⟨o, hw⟩ : ∃ o, d.writeResult (i.withVerdict v bs) = { d with host := { d.host with out := o } } :=
      ⟨_, Dev.writeResult_of_resultsGo hgo⟩
    have he := Dev.passResults_of_warden (c := 16) hgo rfl
    have hh : ({ d with host := { d.host with out := o } } : Dev).acceptedHead 16 = d.acceptedHead 16 := rfl
    rw [hw] at he
    obtain ⟨hi, ho, hrec⟩ := Dev.record16_of_lt (d := { d with host := { d.host with out := o } }) (i.withVerdict v bs) ha hm
    rw [hh] at hi hrec
    rw [← he] at hi ho hrec
    refine ⟨fun x hx hid => ?_, ho, hrec⟩
    rw [hi x hx hid]
    refine ⟨Item.settled_inBytes _, rfl, fun hf => ?_, fun hf => ?_⟩
    · rw [Item.settled_of_not_flr (i := i.withVerdict v bs) hf]
      exact ⟨rfl, rfl, rfl, rfl⟩
    · rw [Item.settled_of_flr (i := i.withVerdict v bs) hf]
      exact ⟨rfl, rfl, rfl, rfl⟩

end Sys2Proof.Machine
end

section
/-! Laws of the PCIe port: what a post, an interrupt, a completion count and an event-ring entry write, and what they leave
(R20, R325, R334, R335, R345, R346, R455). -/

namespace Sys2Proof.Machine

open Sys2Proof

/-! ### Operations that write the PCIe port alone -/

/-- `e` is `d` after it has sent more: nothing outside the PCIe port differs, and what was sent before stands in front (R20). -/
def Dev.SendsOn (d e : Dev) : Prop := ∃ h, e = { d with host := h } ∧ d.host.out <+: h.out

theorem Dev.SendsOn.refl (d : Dev) : d.SendsOn d := ⟨d.host, rfl, List.prefix_refl _⟩

theorem Dev.SendsOn.trans {d e g : Dev} (h : d.SendsOn e) (h2 : e.SendsOn g) : d.SendsOn g := by
  obtain ⟨x, rfl, hx⟩ := h
  obtain ⟨y, rfl, hy⟩ := h2
  exact ⟨y, rfl, hx.trans hy⟩

theorem Dev.SendsOn.mem_out {d e : Dev} (h : d.SendsOn e) {o : Out} (ho : o ∈ d.host.out) : o ∈ e.host.out := by
  obtain ⟨x, rfl, hx⟩ := h
  exact hx.subset ho

theorem Dev.send_sendsOn (d : Dev) (o : Out) : d.SendsOn (d.send o) := ⟨_, rfl, List.prefix_append _ _⟩

theorem Dev.onFn_sendsOn (d : Dev) (f : FnId) (g : Func → Func) : d.SendsOn (d.onFn f g) := ⟨_, rfl, List.prefix_refl _⟩

theorem Dev.onRing_sendsOn (d : Dev) (f : FnId) (r : Fin 64) (g : Ring → Ring) : d.SendsOn (d.onRing f r g) :=
  d.onFn_sendsOn f _

theorem Dev.write_sendsOn (d : Dev) (f : FnId) (k : WriteKind) (a : QW) (bs : List Byte) (r : Bool) :
    d.SendsOn (d.write f k a bs r) := by
  unfold Dev.write
  split
  · exact d.send_sendsOn _
  · exact .refl d

theorem Dev.onMsix_sendsOn (d : Dev) (f : FnId) (v : Nat) (g : MsixEntry → MsixEntry) : d.SendsOn (d.onMsix f v g) := by
  unfold Dev.onMsix
  split
  · exact d.onFn_sendsOn f _
  · exact .refl d

/-! ### Functions and rings -/

/-- A change of a function that keeps its rings keeps every ring. -/
theorem Dev.ring_onFn (d : Dev) {f : FnId} {g : Func → Func} (hg : ∀ F, (g F).rings = F.rings) (e : FnId) (r : Fin 64) :
    (d.onFn f g).ring e r = d.ring e r := by
  by_cases h : e = f
  · subst h
    simp only [Dev.ring, Dev.fn_onFn_self, hg]
  · simp only [Dev.ring, Dev.fn_onFn_of_ne d g h]

/-- Changes of one ring join. -/
theorem Dev.fn_onRing_self (d : Dev) (f : FnId) (r : Fin 64) (g : Ring → Ring) :
    (d.onRing f r g).fn f = { d.fn f with rings := (d.fn f).rings.set r (g (d.ring f r)) } := by
  simp only [Dev.onRing, Dev.fn_onFn_self, Dev.ring]

/-- A change of a ring leaves whether its function may send. -/
theorem Dev.canSend_onRing_self (d : Dev) (f : FnId) (r : Fin 64) (g : Ring → Ring) : (d.onRing f r g).canSend f = d.canSend f := by
  have he : (d.onRing f r g).fnExists f = d.fnExists f := by cases f <;> rfl
  have hl : (d.onRing f r g).host.link = d.host.link := rfl
  simp only [Dev.canSend, he, hl, Dev.fn_onRing_self]

/-! ### Interrupts (R346) -/

@[simp] theorem Dev.ring_onMsix (d : Dev) (f : FnId) (v : Nat) (g : MsixEntry → MsixEntry) (e : FnId) (r : Fin 64) :
    (d.onMsix f v g).ring e r = d.ring e r := by
  unfold Dev.onMsix
  split
  · exact Dev.ring_onFn d (by exact fun _ => rfl) e r
  · rfl

/-- A change of an entry that the table has. -/
theorem Dev.msix_onMsix (d : Dev) {f : FnId} {v : Nat} (g : MsixEntry → MsixEntry) (h : v < 56) :
    ((d.onMsix f v g).fn f).msix.toList.getD v {} = g ((d.fn f).msix.toList.getD v {}) := by
  simp [Dev.onMsix, h]

section Raise

variable {d : Dev} {f : FnId} {v : Nat}

/-- Where messages are off, none is raised. -/
theorem Dev.raiseMsix_of_off (h : ¬ (d.postsAllowed = true ∧ (d.fn f).msixEn = true)) : d.raiseMsix f v = d := by
  have : (!d.postsAllowed || !(d.fn f).msixEn) = true := by
    simpa [Classical.or_iff_not_imp_left] using h
  simp only [Dev.raiseMsix, this, if_true]

/-- A masked vector's message waits in the PBA. -/
theorem Dev.raiseMsix_of_masked (h : d.postsAllowed = true ∧ (d.fn f).msixEn = true)
    (hm : ((d.fn f).msix.toList.getD v {}).mask = true ∨ (d.fn f).fmask = true) :
    d.raiseMsix f v = d.onMsix f v (fun e => { e with pend := true }) := by
  simp only [Dev.raiseMsix, h.1, h.2, Bool.not_true, Bool.or_self, Bool.false_eq_true, if_false, Bool.or_eq_true, hm, if_true]

/-- A vector's message that is not masked is sent where the function may send. -/
theorem Dev.raiseMsix_of_open (h : d.postsAllowed = true ∧ (d.fn f).msixEn = true)
    (hm : ¬ (((d.fn f).msix.toList.getD v {}).mask = true ∨ (d.fn f).fmask = true)) :
    d.raiseMsix f v = if d.canSend f then
      d.send (.msix f v ((d.fn f).msix.toList.getD v {}).addr ((d.fn f).msix.toList.getD v {}).data) else d := by
  simp only [Dev.raiseMsix, h.1, h.2, Bool.not_true, Bool.or_self, Bool.false_eq_true, if_false, Bool.or_eq_true, hm]

end Raise

/-- A raised message is none, an entry that changes, or one transaction. -/
theorem Dev.raiseMsix_cases (d : Dev) (f : FnId) (v : Nat) :
    d.raiseMsix f v = d ∨ (∃ g, d.raiseMsix f v = d.onMsix f v g) ∨ ∃ o, d.raiseMsix f v = d.send o := by
  by_cases h : d.postsAllowed = true ∧ (d.fn f).msixEn = true
  · by_cases hm : ((d.fn f).msix.toList.getD v {}).mask = true ∨ (d.fn f).fmask = true
    · exact .inr (.inl ⟨_, Dev.raiseMsix_of_masked h hm⟩)
    · rw [Dev.raiseMsix_of_open h hm]
      split
      · exact .inr (.inr ⟨_, rfl⟩)
      · exact .inl rfl
  · exact .inl (Dev.raiseMsix_of_off h)

theorem Dev.raiseMsix_sendsOn (d : Dev) (f : FnId) (v : Nat) : d.SendsOn (d.raiseMsix f v) := by
  rcases d.raiseMsix_cases f v with h | ⟨g, h⟩ | ⟨o, h⟩ <;> rw [h]
  · exact .refl d
  · exact d.onMsix_sendsOn f v g
  · exact d.send_sendsOn o

@[simp] theorem Dev.ring_raiseMsix (d : Dev) (f : FnId) (v : Nat) (e : FnId) (r : Fin 64) :
    (d.raiseMsix f v).ring e r = d.ring e r := by
  rcases d.raiseMsix_cases f v with h | ⟨g, h⟩ | ⟨o, h⟩ <;> rw [h]
  · exact d.ring_onMsix f v g e r
  · rfl

/-! ### Coalescing (R345) -/

theorem Dev.signal_sendsOn (d : Dev) (f : FnId) (r : Fin 64) : d.SendsOn (d.signal f r) := by
  unfold Dev.signal
  dsimp only
  split
  · exact (d.onRing_sendsOn f r _).trans (Dev.raiseMsix_sendsOn _ f _)
  · exact d.onRing_sendsOn f r _

/-- A completion counted changes the count of its ring and the time of the oldest, and no other field of it. -/
theorem Dev.signal_ring (d : Dev) (f : FnId) (r : Fin 64) :
    ∃ n t, (d.signal f r).ring f r = { d.ring f r with unsig := n, unsigAt := t } := by
  unfold Dev.signal
  dsimp only
  split
  · exact ⟨_, _, by rw [Dev.ring_raiseMsix, Dev.ring_onRing_self]⟩
  · exact ⟨_, _, by rw [Dev.ring_onRing_self]⟩

/-! ### Event rings (R335, R455) -/

theorem Dev.eventEntry_sendsOn (d : Dev) (r : Fin 64) (k : WriteKind) (bs : List Byte) : d.SendsOn (d.eventEntry r k bs) := by
  unfold Dev.eventEntry
  exact (d.write_sendsOn _ _ _ _ _).trans (Dev.onRing_sendsOn _ _ _ _)

theorem Dev.eventPut_sendsOn (d : Dev) (r : Fin 64) (k : WriteKind) (es : List (List Byte)) : d.SendsOn (d.eventPut r k es) := by
  have hl : ∀ (l : List (List Byte)) (e : Dev), e.SendsOn (l.foldl (fun d b => d.eventEntry r k b) e) := by
    intro l
    induction l with
    | nil => exact fun e => .refl e
    | cons b l ih => exact fun e => (e.eventEntry_sendsOn r k b).trans (ih _)
  unfold Dev.eventPut
  exact (hl es d).trans ((Dev.write_sendsOn _ _ _ _ _ _).trans (Dev.signal_sendsOn _ _ _))

/-- An event ring of PF1 with room is one that PF1 may write. -/
theorem Dev.canSend_of_eventRoom {d : Dev} {r : Fin 64} {n : Nat} (h : d.eventRoom r n = true) : d.canSend .pf1 = true := by
  simp only [Dev.eventRoom, Bool.and_eq_true] at h
  exact h.1.2

/-- One entry put into an event ring with room is among what is sent, at the producer index. -/
theorem Dev.mem_out_eventPut {d : Dev} {r : Fin 64} (k : WriteKind) (bs : List Byte) (h : d.canSend .pf1 = true) :
    .write .pf1 k ((d.ring .pf1 r).sqb + BitVec.ofNat 64 (64 * (d.ring .pf1 r).sqHead.toNat)) bs false ∈
      (d.eventPut r k [bs]).host.out := by
  have h1 : Out.write .pf1 k ((d.ring .pf1 r).sqb + BitVec.ofNat 64 (64 * (d.ring .pf1 r).sqHead.toNat)) bs false ∈
      (d.eventEntry r k bs).host.out := by
    unfold Dev.eventEntry
    refine (Dev.onRing_sendsOn _ _ _ _).mem_out ?_
    rw [Dev.write_of_canSend _ _ _ _ h, Dev.send_out]
    exact List.mem_append_right _ (List.mem_singleton_self _)
  unfold Dev.eventPut
  exact ((Dev.write_sendsOn _ _ _ _ _ _).trans (Dev.signal_sendsOn _ _ _)).mem_out h1

/-- An entry of the fault and telemetry stream takes the next number; it writes the PCIe port and the counts of the stream alone,
and what was sent before stands in front (R455). -/
theorem Dev.fcEntry_frame (d : Dev) (t : Nat) (body : List Byte) :
    ∃ h n, d.fcEntry t body = { d with host := h, audit := { d.audit with eseq := d.audit.eseq + 1, drop := n } } ∧
      d.host.out <+: h.out := by
  unfold Dev.fcEntry
  dsimp only
  split
  · obtain ⟨h, e, hp⟩ := Dev.eventPut_sendsOn { d with audit := { d.audit with eseq := d.audit.eseq + 1, drop := 0 } } 3
      (.event d.audit.eseq.toNat)
      [bytesOf [1, t] ++ leBytes 2 (min d.audit.drop 65535) ++ leBytes 4 d.audit.eseq.toNat ++ leBytes 8 d.now ++ fitBytes 48 body]
    exact ⟨h, 0, e, hp⟩
  · exact ⟨d.host, _, rfl, List.prefix_refl _⟩

end Sys2Proof.Machine
end

section
/-! Stages 7 to 10 of an item, coalescing and the MSI-X table (R19 to R25, R334, R335, R340, R345, R346, R417, R510), and O36 from
them. -/

namespace Sys2Proof.Machine

open Sys2Proof

/-! ### An item leaves (R19, R353) -/

/-- The end of an FLR changes no ring and sends nothing. -/
theorem Dev.flrSettle_cases (d : Dev) (f : FnId) :
    d.flrSettle f = d ∨ d.flrSettle f = d.onFn f (fun F => { F with flr := false }) := by
  unfold Dev.flrSettle
  split
  · exact .inr rfl
  · exact .inl rfl

/-- An item that leaves takes every item of its number from the tracker, and writes beside it the setter's batches and its
function's FLR. -/
theorem Dev.retire_frame (d : Dev) (i : Item) :
    ∃ st h, d.retire i = { d with items := d.items.filter (fun x => x.id ≠ i.id), setter := st, host := h } ∧
      h.out = d.host.out ∧ ∀ f r, (d.retire i).ring f r = d.ring f r := by
  unfold Dev.retire
  rcases Dev.flrSettle_cases ((d.dropItem i.id).leaveBatch i.id) i.fn with h | h <;> rw [h]
  · exact ⟨_, d.host, rfl, rfl, fun _ _ => rfl⟩
  · exact ⟨_, _, rfl, rfl, fun f r => Dev.ring_onFn _ (by exact fun _ => rfl) f r⟩

/-- No item of its number stays when an item leaves. -/
theorem Dev.id_ne_of_mem_retire {d : Dev} {i x : Item} (hx : x ∈ (d.retire i).items) : x.id ≠ i.id := by
  obtain ⟨st, h, e, -, -⟩ := d.retire_frame i
  rw [e] at hx
  simpa using (List.mem_filter.1 hx).2

/-! ### Stage 9 (R417) -/

/-- The items that a device finds are those of its tracker. -/
theorem Dev.bind_item?_congr {d e : Dev} (o : Option Nat) (h : e.items = d.items) : o.bind e.item? = o.bind d.item? := by
  have : e.item? = d.item? := funext fun id => by simp only [Dev.item?, h]
  rw [this]

theorem Dev.deliver_of_waiting {d : Dev} {c : Fin 17}
    (h : d.audit.recs.find? (fun r => r.chain = c) = none ∨ d.delivering = false ∨ d.eventRoom 1 1 = false) :
    d.deliver c = d := by
  unfold Dev.deliver
  split
  · rfl
  · rename_i r hr
    have hw : (!d.delivering || !d.eventRoom 1 1) = true := by
      rcases h with h | h | h
      · exact absurd (hr.symm.trans h) (by simp)
      · simp [h]
      · simp [h]
    rw [if_pos hw]

/-- A record that may be delivered is written into PF1 slot 1 and leaves the queue, its chain's head and count move, and its item
goes on; PROVISION's genesis heads do not move for a record of before (R417, R436; log 68). -/
theorem Dev.deliver_cases {d : Dev} {c : Fin 17} {x : AuditRec} (hx : d.audit.recs.find? (fun r => r.chain = c) = some x)
    (hd : d.delivering = true) (hr : d.eventRoom 1 1 = true) :
    ∃ e, (e.ks = if d.audit.recs.idxOf x < d.audit.older then d.ks else d.ks.setHead c.val x.cseq x.mark) ∧
      e.audit.recs = d.audit.recs.erase x ∧
      e.audit.since = d.audit.since.set c.val (d.audit.since.getD c.val 0 + 1) ∧
      e.items = d.items ∧ e.host = (d.eventPut 1 (.audit c.val x.cseq) [x.bytes]).host ∧
      d.deliver c = (x.item.bind d.item?).elim e (fun i =>
        if i.flr || i.drop then e.retire i
        else e.onItem i.id (fun i => { i with stage := .posted c x.cseq (leNat ((x.bytes.drop 24).take 8)) })) := by
  obtain ⟨h, hs, -⟩ := d.eventPut_sendsOn 1 (.audit c.val x.cseq) [x.bytes]
  have hw : (!d.delivering || !d.eventRoom 1 1) = false := by simp [hd, hr]
  by_cases hn : (decide (65536 ≤ d.audit.since.getD c.val 0 + 1) && !d.audit.due && !d.fc.halt) = true
  all_goals
    simp only [Dev.deliver, hx, hw, Bool.false_eq_true, if_false, hs, decide_eq_true_eq, hn, if_true]
    rw [Dev.bind_item?_congr (d := d)]
    · cases x.item.bind d.item? with
      | none => exact ⟨_, by rfl, by rfl, by rfl, by rfl, by rfl, rfl⟩
      | some i => exact ⟨_, by rfl, by rfl, by rfl, by rfl, by rfl, rfl⟩
    · rfl

/-! ### Stage 10 (R334, R340) -/

/-- A completion as it leaves the device (R340). -/
def completionOut (i : Item) (c : Fin 17) (cseq time : Nat) (R : Ring) : Out :=
  .write i.fn (.completion i.id) (R.cqb + BitVec.ofNat 64 (32 * R.cqTail.toNat)) (completionBytes i c.val cseq time R) false

/-- A ring after its next completion, the place taken from `R` (R334). -/
def Ring.cqMoved (R Q : Ring) : Ring :=
  let t := (R.cqTail.toNat + 1) % R.cqDepth
  { Q with cqTail := BitVec.ofNat 16 t, phase := if t = 0 then !Q.phase else Q.phase }

/-- A completion is among what is sent, the CQ tail moves on and the phase turns where it wraps, and the item leaves. -/
theorem Dev.complete_spec {d : Dev} (i : Item) (c : Fin 17) (cseq time : Nat) (h : d.canSend i.fn = true) :
    let r : Fin 64 := ⟨i.slot % 64, Nat.mod_lt _ (by decide)⟩
    let R := d.ring i.fn r
    let e := d.complete i c cseq time
    .write i.fn (.completion i.id) (R.cqb + BitVec.ofNat 64 (32 * R.cqTail.toNat)) (completionBytes i c.val cseq time R) false ∈
      e.host.out ∧
    (e.ring i.fn r).cqTail = BitVec.ofNat 16 ((R.cqTail.toNat + 1) % R.cqDepth) ∧
    (e.ring i.fn r).phase = (if (R.cqTail.toNat + 1) % R.cqDepth = 0 then !R.phase else R.phase) ∧
    ∀ x ∈ e.items, x.id ≠ i.id := by
  intro r R e
  let w : Out := completionOut i c cseq time R
  let a := (d.send w).onRing i.fn r R.cqMoved
  have he : e = (a.retire i).signal i.fn r := by
    simp only [e, Dev.complete, Dev.write_of_canSend _ _ _ _ h]
    rfl
  obtain ⟨st, hp, hf, ho, hring⟩ := a.retire_frame i
  obtain ⟨n, u, hsig⟩ := (a.retire i).signal_ring i.fn r
  have hR : e.ring i.fn r = { a.ring i.fn r with unsig := n, unsigAt := u } := by rw [he, hsig, hring]
  have ha : a.ring i.fn r = R.cqMoved R :=
    Dev.ring_onRing_self _ _ _ _
  have hs := (a.retire i).signal_sendsOn i.fn r
  refine ⟨?_, ?_, ?_, ?_⟩
  · rw [he]
    refine hs.mem_out ?_
    rw [hf]
    show w ∈ hp.out
    rw [ho]
    exact List.mem_append_right _ (List.mem_singleton_self w)
  · rw [hR, ha]
    rfl
  · rw [hR, ha]
    rfl
  · intro x hx
    obtain ⟨h2, e2, -⟩ := hs
    rw [he, e2] at hx
    exact Dev.id_ne_of_mem_retire hx

/-! ### The MSI-X table (R510) -/

/-- DW `k` of entry `n` as read. -/
theorem Dev.bar2Read_of_table (d : Dev) {f : FnId} {n k : Nat} (hn : n < vectorCount f) (hk : k < 4) :
    d.bar2Read f (16 * n + 4 * k) = ((d.fn f).msix.toList.getD n {}).get k := by
  have h1 : (16 * n + 4 * k) / 16 = n := by omega
  have h2 : (16 * n + 4 * k) / 4 % 4 = k := by omega
  simp only [Dev.bar2Read, h1, h2, hn, if_true]

/-- DW `k` of entry `n` written. -/
theorem Dev.bar2Write_of_table (d : Dev) {f : FnId} {n k : Nat} (v : DW) (hn : n < vectorCount f) (hk : k < 4) :
    d.bar2Write f (16 * n + 4 * k) v = (d.onMsix f n (fun e => e.put k v)).msixFlush f := by
  have h1 : (16 * n + 4 * k) / 16 = n := by omega
  have h2 : (16 * n + 4 * k) / 4 % 4 = k := by omega
  simp only [Dev.bar2Write, h1, h2, hn, if_true]

/-- Where no message is pending, a flush sends none. -/
theorem Dev.msixFlush_of_none_pending {d : Dev} {f : FnId} (h : ∀ e ∈ (d.fn f).msix.toList, e.pend = false) : d.msixFlush f = d := by
  have hp : ∀ v, ((d.fn f).msix.toList.getD v {}).pend = false := by
    intro v
    rw [List.getD_eq_getElem?_getD]
    cases hv : (d.fn f).msix.toList[v]? with
    | none => rfl
    | some e => exact h e (List.mem_of_getElem? hv)
  exact List.foldl_fixed' (fun v => by simp only [hp, Bool.false_and, Bool.false_eq_true, if_false]) _

/-- A DW written into an entry leaves its PBA bit. -/
@[simp] theorem MsixEntry.put_pend (e : MsixEntry) (k : Nat) (v : DW) : (e.put k v).pend = e.pend := by
  unfold MsixEntry.put
  split <;> rfl

/-- The low address DW is written with bits 1 and 0 clear. -/
theorem and_fffffffc (v : DW) : v &&& 0xFFFFFFFC#32 = v.extractLsb' 2 30 ++ 0#2 := by
  have hm : 0xFFFFFFFC#32 = BitVec.allOnes 30 ++ 0#2 := by decide
  have hv : v.extractLsb' 2 30 ++ v.extractLsb' 0 2 = v :=
    (BitVec.extractLsb'_append_extractLsb'_eq_extractLsb' (start₁ := 0) (len₁ := 2) rfl).trans BitVec.extractLsb'_eq_self
  calc v &&& 0xFFFFFFFC#32 = (v.extractLsb' 2 30 ++ v.extractLsb' 0 2) &&& (BitVec.allOnes 30 ++ 0#2) := by rw [hv, hm]
    _ = v.extractLsb' 2 30 ++ 0#2 := by rw [BitVec.and_append, BitVec.and_allOnes, BitVec.and_zero]

theorem MsixEntry.get_eq (e : MsixEntry) {k : Nat} (hk : k < 4) :
    e.get k = if k = 0 then e.addr.extractLsb' 0 32 else if k = 1 then e.addr.extractLsb' 32 32 else if k = 2 then e.data
      else if e.mask then 1 else 0 := by
  match k with
  | 0 => rfl
  | 1 => rfl
  | 2 => rfl
  | 3 => rfl

theorem MsixEntry.put_eq (e : MsixEntry) {k : Nat} (v : DW) (hk : k < 4) :
    e.put k v = if k = 0 then { e with addr := e.addr.extractLsb' 32 32 ++ v.extractLsb' 2 30 ++ 0#2 }
      else if k = 1 then { e with addr := v ++ e.addr.extractLsb' 0 32 }
      else if k = 2 then { e with data := v } else { e with mask := v.getLsbD 0 } := by
  match k with
  | 0 =>
    simp only [MsixEntry.put, and_fffffffc, if_true]
    exact congrArg (fun a : QW => { e with addr := a })
      (BitVec.append_assoc (x₁ := e.addr.extractLsb' 32 32) (x₂ := v.extractLsb' 2 30) (x₃ := 0#2)).symm
  | 1 => rfl
  | 2 => rfl
  | 3 => rfl

/-! ### The commands -/

section Commands

variable {s : State}

theorem answers_itemResultWrite {id : Nat} {i : Item} {c : Fin 17} (hi : s.dev.item? id = some i) (hs : i.stage = .result c) :
    Answers (.itemResultWrite id) s (s.dev.passResults i c) := by
  show execItemResultWrite id s = _
  simp only [execItemResultWrite, hi, hs]
  rfl

theorem answers_itemResultWrite_of_none {id : Nat} (h : ∀ i c, s.dev.item? id = some i → i.stage ≠ .result c) :
    Answers (.itemResultWrite id) s s.dev := by
  show execItemResultWrite id s = _
  unfold execItemResultWrite
  dsimp only
  split
  · rename_i i hi
    split
    · rename_i c hc
      exact absurd hc (h i c hi)
    · rfl
  · rfl

theorem answers_completionWrite {id : Nat} {i : Item} {c : Fin 17} {cseq time : Nat} (hi : s.dev.item? id = some i)
    (hs : i.stage = .posted c cseq time) :
    Answers (.completionWrite id) s (if i.flr || i.drop then s.dev.retire i
      else if s.dev.mayComplete i then s.dev.complete i c cseq time else s.dev) := by
  show execCompletionWrite id s = _
  simp only [execCompletionWrite, hi, hs]
  split
  · rfl
  · split <;> rfl

theorem answers_completionWrite_of_none {id : Nat}
    (h : ∀ i c cseq time, s.dev.item? id = some i → i.stage = .posted c cseq time →
      i.flr = false ∧ i.drop = false ∧ s.dev.mayComplete i = false) :
    Answers (.completionWrite id) s s.dev := by
  show execCompletionWrite id s = _
  unfold execCompletionWrite
  dsimp only
  split
  · rename_i i hi
    split
    · rename_i c cseq time hc
      obtain ⟨hf, hd, hm⟩ := h i c cseq time hi hc
      simp only [hf, hd, hm, Bool.or_self, Bool.false_eq_true, if_false]
      rfl
    · rfl
  · rfl

theorem answers_auditRingFullNotice {t : Nat} (hw : s.dev.audit.waitAt = some (t, false)) :
    Answers .auditRingFullNotice s
      (if s.dev.audit.recs ≠ [] ∧ s.dev.eventRoom 1 1 = false ∧ t + 250000 ≤ s.dev.now then { s.dev with
        audit := { s.dev.audit with waitAt := some (t, true) }
        fc := { s.dev.fc with detq := s.dev.fc.detq ++ [mkDetection 0x1C 16 0 0] } } else s.dev) := by
  show execAuditRingFullNotice s = _
  simp only [execAuditRingFullNotice, hw, Bool.and_eq_true, Bool.not_eq_true', List.isEmpty_eq_false_iff, decide_eq_true_eq,
    and_assoc]
  rfl

theorem answers_auditRingFullNotice_of_none (h : ¬ ∃ t, s.dev.audit.waitAt = some (t, false)) :
    Answers .auditRingFullNotice s s.dev := by
  show execAuditRingFullNotice s = _
  unfold execAuditRingFullNotice
  dsimp only
  split
  · rename_i t ht
    exact absurd ⟨t, ht⟩ h
  · rfl

theorem answers_coalescingTimerExpiry (f : FnId) (r : Fin 64) :
    Answers (.coalescingTimerExpiry f r) s
      (if (s.dev.ring f r).unsig ≠ 0 ∧ (s.dev.ring f r).ctime ≠ 0 ∧
          (s.dev.ring f r).unsigAt + 25 * (s.dev.ring f r).ctime.toNat ≤ s.dev.now then
        (s.dev.onRing f r (fun R => { R with unsig := 0 })).raiseMsix f (s.dev.ring f r).vec.toNat else s.dev) := by
  show execCoalescingTimerExpiry f r s = _
  simp only [execCoalescingTimerExpiry, Bool.and_eq_true, decide_eq_true_eq, and_assoc]
  rfl

end Commands

/-! ### The parts of O36 -/

/-- What the record of a chain does when it is delivered, as a command (R417). -/
theorem auditRecordWrite_delivers {c : Fin 17} {s : State} {x : AuditRec}
    (hx : s.dev.audit.recs.find? (fun r => r.chain = c) = some x) (hd : s.dev.delivering = true) (hr : s.dev.eventRoom 1 1 = true) :
    AnswersWith (.auditRecordWrite c) s (fun d =>
      (s.dev.audit.older ≤ s.dev.audit.recs.idxOf x → d.ks.head c.val = (s.dev.ks.setHead c.val x.cseq x.mark).head c.val) ∧
      (s.dev.audit.recs.idxOf x < s.dev.audit.older → d.ks = s.dev.ks) ∧
      d.audit.recs = s.dev.audit.recs.erase x ∧
      d.audit.since = s.dev.audit.since.set c.val (s.dev.audit.since.getD c.val 0 + 1) ∧
      .write .pf1 (.audit c.val x.cseq)
        ((s.dev.ring .pf1 1).sqb + BitVec.ofNat 64 (64 * (s.dev.ring .pf1 1).sqHead.toNat)) x.bytes false ∈ d.host.out ∧
      ∀ id i, x.item = some id → s.dev.item? id = some i →
        (i.flr = true ∨ i.drop = true → ∀ y ∈ d.items, y.id ≠ id) ∧
        (i.flr = false → i.drop = false → ∀ y ∈ d.items, y.id = id →
          y.stage = .posted c x.cseq (leNat ((x.bytes.drop 24).take 8)))) := by
  obtain ⟨e, hks, hrecs, hsince, hitems, hhost, he⟩ := Dev.deliver_cases hx hd hr
  have hout := Dev.mem_out_eventPut (d := s.dev) (r := 1) (.audit c.val x.cseq) x.bytes (Dev.canSend_of_eventRoom hr)
  rw [← hhost] at hout
  have hold : ∀ d : Dev, d.ks = e.ks →
      (s.dev.audit.older ≤ s.dev.audit.recs.idxOf x → d.ks.head c.val = (s.dev.ks.setHead c.val x.cseq x.mark).head c.val) ∧
      (s.dev.audit.recs.idxOf x < s.dev.audit.older → d.ks = s.dev.ks) := by
    intro d hdk
    rw [hdk, hks]
    exact ⟨fun h => by rw [if_neg (Nat.not_lt.2 h)], fun h => by rw [if_pos h]⟩
  refine Answers.answersWith (e := s.dev.deliver c) rfl ?_
  rw [he]
  cases hb : x.item.bind s.dev.item? with
  | none =>
    refine ⟨(hold e rfl).1, (hold e rfl).2, hrecs, hsince, hout, fun id i hid hi => ?_⟩
    rw [hid] at hb
    exact absurd (hb.symm.trans hi) (by simp)
  | some i =>
    obtain ⟨id, hid, hi⟩ := Option.bind_eq_some_iff.1 hb
    obtain ⟨rfl, -⟩ := Dev.item?_eq_some hi
    have hsame : ∀ id' j, x.item = some id' → s.dev.item? id' = some j → id' = i.id ∧ j = i := by
      intro id' j hid' hj
      obtain rfl : i.id = id' := Option.some.inj (hid.symm.trans hid')
      exact ⟨rfl, Option.some.inj (hj.symm.trans hi)⟩
    by_cases hg : (i.flr || i.drop) = true
    · obtain ⟨st, h, hf, ho, -⟩ := e.retire_frame i
      simp only [Option.elim, hg, if_true]
      refine ⟨(hold _ (by rw [hf])).1, (hold _ (by rw [hf])).2, by rw [hf, ← hrecs], by rw [hf, ← hsince], ?_, ?_⟩
      · rw [hf]
        exact ho ▸ hout
      · intro id' j hid' hj
        obtain ⟨rfl, rfl⟩ := hsame id' j hid' hj
        refine ⟨fun _ y hy => Dev.id_ne_of_mem_retire hy, fun h1 h2 => ?_⟩
        simp [h1, h2] at hg
    · simp only [Option.elim, hg]
      refine ⟨(hold (e.onItem _ _) rfl).1, (hold (e.onItem _ _) rfl).2, hrecs, hsince, hout, ?_⟩
      intro id' j hid' hj
      obtain ⟨rfl, rfl⟩ := hsame id' j hid' hj
      refine ⟨fun h => absurd (by simpa using h) hg, fun _ _ y hy hyid => ?_⟩
      obtain ⟨z, -, rfl⟩ := List.mem_map.1 hy
      by_cases hz : z.id = j.id
      · rw [if_pos hz]
      · rw [if_neg hz] at hyid
        exact absurd hyid hz

/-- What a due coalescing timer does, as a command (R345, R346). -/
theorem coalescingTimerExpiry_signals {f : FnId} {r : Fin 64} {s : State} (hu : (s.dev.ring f r).unsig ≠ 0)
    (hc : (s.dev.ring f r).ctime ≠ 0) (ht : (s.dev.ring f r).unsigAt + 25 * (s.dev.ring f r).ctime.toNat ≤ s.dev.now) :
    AnswersWith (.coalescingTimerExpiry f r) s (fun d =>
      (d.ring f r).unsig = 0 ∧
      let on : Prop := s.dev.postsAllowed = true ∧ (s.dev.fn f).msixEn = true
      let v := (s.dev.ring f r).vec.toNat
      let e := (s.dev.fn f).msix.toList.getD v {}
      let masked : Prop := e.mask = true ∨ (s.dev.fn f).fmask = true
      (on → ¬ masked → s.dev.canSend f = true → d.host.out = s.dev.host.out ++ [.msix f v e.addr e.data]) ∧
      (¬ on ∨ masked ∨ s.dev.canSend f = false → d.host.out = s.dev.host.out) ∧
      (on → masked → v < 56 → (d.fn f).msix.toList.getD v {} = { e with pend := true })) := by
  have ha := answers_coalescingTimerExpiry (s := s) f r
  rw [if_pos ⟨hu, hc, ht⟩] at ha
  refine ha.answersWith ⟨by rw [Dev.ring_raiseMsix, Dev.ring_onRing_self], ?_⟩
  generalize hd : s.dev.onRing f r (fun R => { R with unsig := 0 }) = d
  intro on v e masked
  have hfn : d.fn f = { s.dev.fn f with rings := (d.fn f).rings } := by rw [← hd, Dev.fn_onRing_self]
  have hout : d.host.out = s.dev.host.out := by rw [← hd]; rfl
  have hpost : d.postsAllowed = s.dev.postsAllowed := by rw [← hd]; rfl
  have hsend : d.canSend f = s.dev.canSend f := by rw [← hd, Dev.canSend_onRing_self]
  have hon : (d.postsAllowed = true ∧ (d.fn f).msixEn = true) ↔ on := by rw [hpost, hfn]
  have hmask : (((d.fn f).msix.toList.getD v {}).mask = true ∨ (d.fn f).fmask = true) ↔ masked := by rw [hfn]
  refine ⟨fun h1 h2 h3 => ?_, fun h => ?_, fun h1 h2 h3 => ?_⟩
  · rw [Dev.raiseMsix_of_open (hon.2 h1) (mt hmask.1 h2), hsend, if_pos h3, Dev.send_out, hout, hfn]
  · by_cases h1 : on
    · by_cases h2 : masked
      · rw [Dev.raiseMsix_of_masked (hon.2 h1) (hmask.2 h2)]
        unfold Dev.onMsix
        split <;> exact hout
      · have h3 : s.dev.canSend f = false := (h.resolve_left (not_not_intro h1)).resolve_left h2
        rw [Dev.raiseMsix_of_open (hon.2 h1) (mt hmask.1 h2), hsend, h3]
        exact hout
    · rw [Dev.raiseMsix_of_off (mt hon.1 h1)]
      exact hout
  · rw [Dev.raiseMsix_of_masked (hon.2 h1) (hmask.2 h2), Dev.msix_onMsix _ _ h3, hfn]

/-- What a BAR2 access does, as a command (R31, R510; the AER bit is log 5's). -/
theorem msixTableAccess_answers (f : FnId) (a : Bar2Access) (s : State) :
    let o := a.off.toNat / 4 * 4
    (s.dev.barReached f = false → Answers (.msixTableAccess f a) s s.dev) ∧
    (s.dev.barReached f = true →
      (a.write = false → 2 < a.dws → Answers (.msixTableAccess f a) s
        ({ s.dev with host := { s.dev.host with lastRead := none } }.send (.unsupported f))) ∧
      (a.write = false → a.dws ≤ 1 → Answers (.msixTableAccess f a) s
        { s.dev with host := { s.dev.host with lastRead := some ((s.dev.bar2Read f o).setWidth 64) } }) ∧
      (a.write = false → a.dws = 2 → Answers (.msixTableAccess f a) s
        { s.dev with host := { s.dev.host with lastRead := some (s.dev.bar2Read f (o + 4) ++ s.dev.bar2Read f o) } }) ∧
      (a.write = true → a.full = true → a.dws = 1 → a.off.toNat % 4 = 0 →
        Answers (.msixTableAccess f a) s (s.dev.bar2Write f o (a.value.extractLsb' 0 32))) ∧
      (a.write = true → a.full = true → a.dws = 2 → a.off.toNat % 8 = 0 →
        Answers (.msixTableAccess f a) s
          ((s.dev.bar2Write f o (a.value.extractLsb' 0 32)).bar2Write f (o + 4) (a.value.extractLsb' 32 32))) ∧
      (a.write = true → (a.full = false ∨ (a.dws ≠ 1 ∧ a.dws ≠ 2) ∨ a.off.toNat % (4 * a.dws) ≠ 0) →
        Answers (.msixTableAccess f a) s (s.dev.onFn f (fun F => { F with aer := F.aer ++ [20] })))) := by
  intro o
  have hx : ∀ e, execMsixTableAccess f a s = s.answer e → Answers (.msixTableAccess f a) s e := fun e h => h
  refine ⟨fun hb => hx _ ?_, fun hb => ⟨fun hw hn => hx _ ?_, fun hw hn => hx _ ?_, fun hw hn => hx _ ?_, fun hw hf hn ho => hx _ ?_,
    fun hw hf hn ho => hx _ ?_, fun hw hn => hx _ ?_⟩⟩
  · simp [execMsixTableAccess, hb]
  · simp only [execMsixTableAccess, hb, hw, hn, Bool.not_true, Bool.false_eq_true, if_false, if_true]
    rfl
  · have h1 : ¬ 2 < a.dws := by omega
    have h2 : a.dws ≠ 2 := by omega
    simp only [execMsixTableAccess, hb, hw, h1, h2, Bool.not_true, Bool.false_eq_true, if_false]
    rw [show (0 : DW) ++ s.dev.bar2Read f o = (s.dev.bar2Read f o).setWidth 64 from (BitVec.setWidth_eq_append (by decide)).symm]
    rfl
  · simp only [execMsixTableAccess, hb, hw, hn, Bool.not_true, Bool.false_eq_true, if_false, if_true]
    rfl
  · simp [execMsixTableAccess, hb, hw, hf, hn, ho, o]
  · simp [execMsixTableAccess, hb, hw, hf, hn, ho, o]
  · have h1 : (a.full && ((a.dws = 1 && a.off.toNat % 4 = 0) || (a.dws = 2 && a.off.toNat % 8 = 0))) = false := by
      rw [Bool.eq_false_iff]
      intro h
      simp only [Bool.and_eq_true, Bool.or_eq_true, decide_eq_true_eq] at h
      obtain ⟨hf, ⟨hn1, ho⟩ | ⟨hn2, ho⟩⟩ := h
      · rcases hn with hn | ⟨hn, -⟩ | hn
        · simp [hf] at hn
        · exact hn hn1
        · exact hn (by rw [hn1]; exact ho)
      · rcases hn with hn | ⟨-, hn⟩ | hn
        · simp [hf] at hn
        · exact hn hn2
        · exact hn (by rw [hn2]; exact ho)
    simp only [execMsixTableAccess, hb, hw, h1, Bool.not_true, Bool.false_eq_true, if_false, if_true]
    rfl

/-- A DW written into the table while no message is pending changes its entry alone (R510). -/
theorem Dev.bar2Write_of_none_pending {d : Dev} {f : FnId} {n k : Nat} (v : DW) (hn : n < vectorCount f) (hk : k < 4)
    (hp : ∀ e ∈ (d.fn f).msix.toList, e.pend = false) (h : n < 56) :
    d.bar2Write f (16 * n + 4 * k) v = d.onFn f (fun F => { F with msix := F.msix.set n (F.msix[n].put k v) }) := by
  rw [Dev.bar2Write_of_table d v hn hk]
  simp only [Dev.onMsix, h, dif_pos]
  refine Dev.msixFlush_of_none_pending fun e he => ?_
  rw [Dev.fn_onFn_self, Vector.mem_toList_iff] at he
  rcases Vector.mem_or_eq_of_mem_set (hi := h) he with he | rfl
  · exact hp e (Vector.mem_toList_iff.2 he)
  · rw [MsixEntry.put_pend]
    exact hp _ (Vector.mem_toList_iff.2 (Vector.getElem_mem h))

/-- Settles O36. The model's own choices that it rests on: a record of before PROVISION moves no head (log 68), what a function may
not send waits or is lost (log 43), and the AER bit of an Unsupported Request (log 5). -/
theorem itemsCompleteAndSignal : Obligations.ItemsCompleteAndSignal := by
  unfold Obligations.ItemsCompleteAndSignal
  refine ⟨⟨?_, ?_, ?_, ?_, ?_, ?_, ?_, ?_⟩, ?_, ?_, msixTableAccess_answers, ?_, ?_⟩
  · exact fun id s h => answers_itemResultWrite_of_none h
  · intro id s i c hi hs none' out
    obtain ⟨rfl, -⟩ := Dev.item?_eq_some hi
    have ha := answers_itemResultWrite hi hs
    refine ⟨fun h1 h2 => ?_, fun h hc => ?_, fun h hc => ?_⟩
    · have hg : s.dev.resultsGo i = false := Bool.eq_false_iff.2 fun h => by
        rcases Dev.resultsGo_iff.1 h with h | h
        · exact h1 h
        · simp [h2] at h
      have hst : ({ i with stage := .result c } : Item) = i := by rw [← hs]
      rwa [Dev.passResults_of_waiting c hg, hst] at ha
    · have hg := Dev.resultsGo_iff.2 h
      rwa [Dev.passResults_of_pier hg hc, Dev.writeResult_of_resultsGo hg] at ha
    · have hg := Dev.resultsGo_iff.2 h
      rwa [Dev.passResults_of_warden hg hc, Dev.writeResult_of_resultsGo hg] at ha
  · exact fun c s h => congrArg s.answer (Dev.deliver_of_waiting h)
  · exact fun c s x hx hd hr => auditRecordWrite_delivers hx hd hr
  · intro s t hw hr he ht
    have ha := answers_auditRingFullNotice hw
    rwa [if_pos ⟨hr, he, ht⟩] at ha
  · intro s h
    by_cases hw : ∃ t, s.dev.audit.waitAt = some (t, false)
    · obtain ⟨t, hw⟩ := hw
      have ha := answers_auditRingFullNotice hw
      rwa [if_neg] at ha
      rintro ⟨h1, h2, h3⟩
      rcases h t hw with h | h | h
      · exact h1 h
      · simp [h2] at h
      · omega
    · exact answers_auditRingFullNotice_of_none hw
  · exact fun id s h => answers_completionWrite_of_none h
  · intro id s i c cseq time hi hs
    obtain ⟨rfl, -⟩ := Dev.item?_eq_some hi
    have ha := answers_completionWrite hi hs
    refine ⟨fun h => ?_, fun hf hd hm => ?_⟩
    · rw [if_pos (by simpa using h)] at ha
      obtain ⟨st, p, he, ho, -⟩ := s.dev.retire_frame i
      refine ha.answersWith ⟨?_, fun x hx => Dev.id_ne_of_mem_retire hx⟩
      rw [he]
      exact ho
    · rw [if_neg (by simp [hf, hd]), if_pos hm] at ha
      have hsend : s.dev.canSend i.fn = true := by
        simp only [Dev.mayComplete, Bool.and_eq_true] at hm
        exact hm.1.2
      obtain ⟨hout, htail, hphase, hitems⟩ := s.dev.complete_spec i c cseq time hsend
      exact ha.answersWith ⟨hout, by rw [htail, BitVec.toNat_ofNat], hphase, hitems⟩
  · intro f r s h
    have ha := answers_coalescingTimerExpiry (s := s) f r
    rwa [if_neg] at ha
    rintro ⟨h1, h2, h3⟩
    rcases h with h | h | h
    · exact h1 h
    · exact h2 h
    · omega
  · exact fun f r s hu hc ht => coalescingTimerExpiry_signals hu hc ht
  · intro f n k d hn hk
    rw [Dev.bar2Read_of_table d hn hk, MsixEntry.get_eq _ hk]
  · intro f n k v d hn hk hp h
    rw [Dev.bar2Write_of_none_pending v hn hk hp h]
    simp only [MsixEntry.put_eq _ _ hk]

end Sys2Proof.Machine
end

section
/-! Records that close and reactions that end (R18, R449, R453, R454): what each of these commands does at its time and before it. -/

namespace Sys2Proof.Machine

open Sys2Proof

/-! ### Record slots and pier masks -/

@[simp] theorem Dev.frec_setFrec_self (d : Dev) (k : Fin 64) (r : FRec) : (d.setFrec k r).frec k = r := by
  simp [Dev.frec, Dev.setFrec]

theorem Dev.frec_setFrec_of_ne (d : Dev) {k j : Fin 64} (r : FRec) (h : j ≠ k) : (d.setFrec k r).frec j = d.frec j := by
  have : k.val ≠ j.val := fun e => h (Fin.ext e.symm)
  simp [Dev.frec, Dev.setFrec, this]

/-- One bit of a pier mask cleared. -/
@[simp] theorem clearBit_getLsbD (m : BitVec 16) (p q : Fin 16) :
    (clearBit m p.val).getLsbD q.val = (m.getLsbD q.val && !decide (p = q)) := by
  simp only [clearBit, BitVec.getLsbD_and, BitVec.getLsbD_not, BitVec.getLsbD_ofNat, Nat.testBit_two_pow, q.isLt, decide_true,
    Bool.true_and, Fin.ext_iff]

/-- One bit of a pier mask set. -/
@[simp] theorem setBit_getLsbD (m : BitVec 16) (p q : Fin 16) :
    (m ||| BitVec.ofNat 16 (2 ^ p.val)).getLsbD q.val = (m.getLsbD q.val || decide (p = q)) := by
  simp only [BitVec.getLsbD_or, BitVec.getLsbD_ofNat, Nat.testBit_two_pow, q.isLt, decide_true, Bool.true_and, Fin.ext_iff]

/-- A record whose levels are gone does not stand (R449). -/
theorem FRec.now_eq_false_iff (r : FRec) : r.now = false ↔ r.levels = [] := by
  simp [FRec.now]

/-! ### A record closes (R449, R455) -/

/-- A record closes: its slot alone changes, and an entry of the fault stream is formed. -/
theorem Dev.closeRec_frame (d : Dev) (k : Fin 64) :
    ∃ h au, d.closeRec k = { d.setFrec k { d.frec k with opened := false, closedAt := d.now, shadow := none } with
      host := h, audit := au } := by
  obtain ⟨h, n, e, -⟩ := Dev.fcEntry_frame (d.setFrec k { d.frec k with opened := false, closedAt := d.now, shadow := none }) 1
    (({ d.frec k with opened := false, closedAt := d.now, shadow := none } : FRec).dws.flatMap (fun w => leBytes 4 w.toNat))
  exact ⟨h, _, e⟩

theorem Dev.frec_closeRec_self (d : Dev) (k : Fin 64) :
    (d.closeRec k).frec k = { d.frec k with opened := false, closedAt := d.now, shadow := none } := by
  obtain ⟨h, au, e⟩ := d.closeRec_frame k
  rw [e]
  exact d.frec_setFrec_self k _

theorem Dev.frec_closeRec_of_ne (d : Dev) {k j : Fin 64} (hj : j ≠ k) : (d.closeRec k).frec j = d.frec j := by
  obtain ⟨h, au, e⟩ := d.closeRec_frame k
  rw [e]
  exact d.frec_setFrec_of_ne _ hj

/-! ### When a record closes, a shadow or a quiet period ends -/

/-- When RECORD_CLOSE_TIMER closes a record (R449). -/
def Dev.closes (d : Dev) (k : Fin 64) : Prop :=
  (d.frec k).opened = true ∧
    (((d.frec k).cls.toNat ≤ 1 ∧ (d.frec k).levels = [] ∧ max (d.frec k).tLast (d.frec k).tClear + 25000 ≤ d.now) ∨
      ((d.frec k).cls = 2#3 ∧ d.fc.quar.getLsbD (d.frec k).region.toNat = false))

/-- When a pier's reaction shadow ends (R453). -/
def Dev.shadowEnds (d : Dev) (p : Fin 16) (k : Fin 64) : Prop :=
  d.openOf p.val = some k ∧ ∃ t, (d.frec k).shadow = some t ∧ t ≠ 0 ∧ t ≤ d.now

/-- When a pier leaves quarantine (R454). -/
def Dev.quiet (d : Dev) (p : Fin 16) (k : Fin 64) : Prop :=
  d.openOf p.val = some k ∧ (d.frec k).cls = 2#3 ∧ d.fc.quar.getLsbD p.val = true ∧ d.fc.resetDue.getLsbD p.val = false ∧
    d.fc.inReset.getLsbD p.val = false ∧ (d.frec k).shadow = none ∧ (d.frec k).levels = [] ∧
    max (max (d.frec k).shadowEnd (d.frec k).tLast) (d.frec k).tClear + 2500000 ≤ d.now

/-- When a HOLD record closes (R454). -/
def Dev.holdEnds (d : Dev) (k : Fin 64) : Prop :=
  (d.frec k).opened = true ∧ (d.frec k).cls = 3#3 ∧ (d.frec k).levels = [] ∧
    max (d.frec k).tLast (d.frec k).tClear + 25000000 ≤ d.now

section Commands

variable {s : State}

/-- FALL_OF_NOW where the record holds the cause, and where it does not (R449). -/
theorem answers_fallOfNow (k : Fin 64) (c : BitVec 8) :
    ((s.dev.frec k).levels.contains c = false → Answers (.fallOfNow k c) s s.dev) ∧
    ((s.dev.frec k).levels.contains c = true →
      let d := s.dev.setFrec k { s.dev.frec k with
        levels := (s.dev.frec k).levels.erase c
        tClear := if ((s.dev.frec k).levels.erase c).isEmpty then s.dev.now else (s.dev.frec k).tClear }
      Answers (.fallOfNow k c) s { d with pw := { d.pw with ceiling := if c = 0x1E#8 then false else d.pw.ceiling } }) := by
  have hx : ∀ e, execFallOfNow k c s = s.answer e → Answers (.fallOfNow k c) s e := fun e h => h
  refine ⟨fun h => hx _ ?_, fun h => hx _ ?_⟩
  · simp only [execFallOfNow, h, Bool.false_eq_true, if_false]
  · simp only [execFallOfNow, h, if_true, FRec.fall]
    by_cases hc : c = 0x1E#8
    · simp only [hc, if_true]
    · simp only [hc, if_false]

theorem Dev.closes_iff (d : Dev) (k : Fin 64) : d.closes k ↔
    ((d.frec k).opened && (((d.frec k).cls.toNat ≤ 1 && !(d.frec k).now &&
      max (d.frec k).tLast (d.frec k).tClear + 25000 ≤ d.now) ||
      ((d.frec k).cls = 2#3 && !d.fc.quar.getLsbD (d.frec k).region.toNat))) = true := by
  simp only [Dev.closes, Bool.and_eq_true, Bool.or_eq_true, decide_eq_true_eq, FRec.now_eq_false_iff, Bool.not_eq_true', and_assoc]

theorem answers_recordCloseTimer {k : Fin 64} (h : s.dev.closes k) : Answers (.recordCloseTimer k) s (s.dev.closeRec k) :=
  congrArg s.answer (if_pos ((s.dev.closes_iff k).1 h))

theorem answers_recordCloseTimer_of_not {k : Fin 64} (h : ¬ s.dev.closes k) : Answers (.recordCloseTimer k) s s.dev :=
  congrArg s.answer (if_neg (mt (s.dev.closes_iff k).2 h))

theorem answers_reactionShadowEnd {p : Fin 16} {k : Fin 64} {t : Nat} (h : s.dev.shadowEnds p k)
    (ht : (s.dev.frec k).shadow = some t) :
    Answers (.reactionShadowEnd p) s (s.dev.setFrec k { s.dev.frec k with shadow := none, shadowEnd := t }) := by
  obtain ⟨ho, u, hu, h0, hn⟩ := h
  obtain rfl : t = u := Option.some.inj (ht.symm.trans hu)
  show execReactionShadowEnd p s = _
  simp only [execReactionShadowEnd, ho, ht, h0, hn, ne_eq, not_false_eq_true, decide_true, Bool.and_self, if_true]
  rfl

theorem answers_reactionShadowEnd_of_not {p : Fin 16} (h : ∀ k, ¬ s.dev.shadowEnds p k) :
    Answers (.reactionShadowEnd p) s s.dev := by
  show execReactionShadowEnd p s = _
  unfold execReactionShadowEnd
  dsimp only
  split
  · rename_i k hk
    split
    · rename_i t ht
      have hc : ¬ (decide (t ≠ 0) && decide (t ≤ s.dev.now)) = true := by
        intro hc
        simp only [Bool.and_eq_true, decide_eq_true_eq] at hc
        exact h k ⟨hk, t, ht, hc⟩
      rw [if_neg hc]
      rfl
    · rfl
  · rfl

theorem Dev.quiet_iff {d : Dev} {p : Fin 16} {k : Fin 64} (hk : d.openOf p.val = some k) : d.quiet p k ↔
    ((d.frec k).cls = 2#3 && d.fc.quar.getLsbD p.val && !d.fc.resetDue.getLsbD p.val && !d.fc.inReset.getLsbD p.val &&
      (d.frec k).shadow.isNone && !(d.frec k).now && (d.frec k).quietFrom + 2500000 ≤ d.now) = true := by
  unfold FRec.quietFrom
  simp only [Dev.quiet, hk, true_and, Bool.and_eq_true, decide_eq_true_eq, FRec.now_eq_false_iff, Bool.not_eq_true', and_assoc,
    Option.isNone_iff_eq_none]

theorem answers_containQuietPeriodExpiry {p : Fin 16} {k : Fin 64} (h : s.dev.quiet p k) :
    Answers (.containQuietPeriodExpiry p) s (((s.dev.leaveQuarantine p).closeRec k).eagerAll) := by
  have hk := h.1
  show execContainQuietPeriodExpiry p s = _
  simp only [execContainQuietPeriodExpiry, hk]
  exact congrArg s.answer (if_pos ((Dev.quiet_iff hk).1 h))

theorem answers_containQuietPeriodExpiry_of_not {p : Fin 16} (h : ∀ k, ¬ s.dev.quiet p k) :
    Answers (.containQuietPeriodExpiry p) s s.dev := by
  show execContainQuietPeriodExpiry p s = _
  unfold execContainQuietPeriodExpiry
  dsimp only
  split
  · rename_i k hk
    exact congrArg s.answer (if_neg (mt (Dev.quiet_iff hk).2 (h k)))
  · rfl

theorem Dev.holdEnds_iff (d : Dev) (k : Fin 64) : d.holdEnds k ↔
    ((d.frec k).opened && (d.frec k).cls = 3#3 && !(d.frec k).now &&
      max (d.frec k).tLast (d.frec k).tClear + 25000000 ≤ d.now) = true := by
  simp only [Dev.holdEnds, Bool.and_eq_true, decide_eq_true_eq, FRec.now_eq_false_iff, Bool.not_eq_true', and_assoc]

theorem answers_holdQuietPeriodExpiry {k : Fin 64} (h : s.dev.holdEnds k) :
    Answers (.holdQuietPeriodExpiry k) s
      (if (List.finRange 64).any (fun j => ((s.dev.closeRec k).frec j).opened && ((s.dev.closeRec k).frec j).cls = 3#3) then
        s.dev.closeRec k else (s.dev.closeRec k).leaveHold) :=
  congrArg s.answer (if_pos ((s.dev.holdEnds_iff k).1 h))

theorem answers_holdQuietPeriodExpiry_of_not {k : Fin 64} (h : ¬ s.dev.holdEnds k) :
    Answers (.holdQuietPeriodExpiry k) s s.dev :=
  congrArg s.answer (if_neg (mt (s.dev.holdEnds_iff k).2 h))

end Commands

/-! ### Quarantine and HOLD end (R18, R454) -/

/-- Open batches that EAGER closes: the setter's batches alone change (R361). -/
theorem Dev.eagerAll_frame (d : Dev) : ∃ bs, d.eagerAll = { d with setter := { d.setter with batches := bs } } := by
  unfold Dev.eagerAll
  generalize d.setter.batches.filter (fun b => b.state = .gathering) = l
  induction l generalizing d with
  | nil => exact ⟨_, rfl⟩
  | cons b l ih =>
    rw [List.foldl_cons]
    split
    · obtain ⟨bs, e⟩ := ih (d.closeBatch b.id)
      exact ⟨bs, e⟩
    · exact ih d

/-- A record that closes with EAGER's answer leaves the reactions, the recoveries and the piers. -/
theorem Dev.closeRec_eagerAll (d : Dev) (k : Fin 64) :
    (d.closeRec k).eagerAll.fc.quar = d.fc.quar ∧ (d.closeRec k).eagerAll.fc.prec = d.fc.prec ∧
    (d.closeRec k).eagerAll.fc.out = d.fc.out ∧ (d.closeRec k).eagerAll.setter.out = d.setter.out ∧
    (∀ p, (d.closeRec k).eagerAll.pier p = d.pier p) ∧ ((d.closeRec k).eagerAll.frec k).opened = false := by
  have hself := congrArg FRec.opened (d.frec_closeRec_self k)
  obtain ⟨h, au, e⟩ := d.closeRec_frame k
  obtain ⟨bs, e2⟩ := (d.closeRec k).eagerAll_frame
  rw [e2]
  refine ⟨?_, ?_, ?_, ?_, ?_, hself⟩ <;> rw [e]
  · rfl
  · rfl
  · rfl
  · rfl
  · exact fun _ => rfl

/-- A pier leaves quarantine (R18, R454): a ninth recovery within the hour leaves it OUT and OFF. -/
theorem Dev.leaveQuarantine_spec (d : Dev) (p : Fin 16) :
    (d.leaveQuarantine p).fc.quar.getLsbD p.val = false ∧ (p, d.now) ∈ (d.leaveQuarantine p).fc.prec ∧
    (d.precOf p.val < 8 → (d.leaveQuarantine p).setter.out.getLsbD p.val = false ∧ (d.leaveQuarantine p).fc.out = d.fc.out ∧
      ((d.leaveQuarantine p).pier p).mem.selfRefresh = (!(d.pier p).mem.trained || !(d.pier p).awake)) ∧
    (8 ≤ d.precOf p.val → (d.leaveQuarantine p).fc.out.getLsbD p.val = true ∧ ((d.leaveQuarantine p).pier p).pw.st = .off) := by
  have hmem : (p, d.now) ∈ d.fc.prec.filter (fun (e : Fin 16 × Nat) => d.now < e.2 + 90000000000) ++ [(p, d.now)] :=
    List.mem_append_right _ (List.mem_singleton_self _)
  have hquar : (clearBit d.fc.quar p.val).getLsbD p.val = false := (clearBit_getLsbD _ p p).trans (by simp)
  by_cases h8 : 8 ≤ d.precOf p.val
  · simp only [Dev.leaveQuarantine, h8, if_true]
    refine ⟨hquar, hmem, fun h => absurd h8 (Nat.not_le.2 h), fun _ => ⟨?_, ?_⟩⟩
    · exact (setBit_getLsbD _ p p).trans (by simp)
    · exact congrArg (fun P : Pier => P.pw.st) (Dev.pier_onPier_self _ p _)
  · simp only [Dev.leaveQuarantine, h8, if_false]
    refine ⟨hquar, hmem, fun _ => ⟨?_, rfl, ?_⟩, fun h => h.elim⟩
    · exact (clearBit_getLsbD _ p p).trans (by simp)
    · exact congrArg (fun P : Pier => P.mem.selfRefresh) (Dev.pier_onPier_self _ p _)

/-- CONTAIN_QUIET_PERIOD_EXPIRY at its time: the pier leaves quarantine and its record closes (R454). -/
theorem containQuietPeriodExpiry_releases {p : Fin 16} {k : Fin 64} {s : State} (h : s.dev.quiet p k) :
    AnswersWith (.containQuietPeriodExpiry p) s (fun d =>
      d.fc.quar.getLsbD p.val = false ∧ (p, s.dev.now) ∈ d.fc.prec ∧ (d.frec k).opened = false ∧
      (s.dev.precOf p.val < 8 → d.setter.out.getLsbD p.val = false ∧ d.fc.out = s.dev.fc.out ∧
        (d.pier p).mem.selfRefresh = (!(s.dev.pier p).mem.trained || !(s.dev.pier p).awake)) ∧
      (8 ≤ s.dev.precOf p.val → d.fc.out.getLsbD p.val = true ∧ (d.pier p).pw.st = .off)) := by
  refine (answers_containQuietPeriodExpiry h).answersWith ?_
  obtain ⟨hquar, hprec, hlow, hhigh⟩ := s.dev.leaveQuarantine_spec p
  obtain ⟨e1, e2, e3, e4, e5, e6⟩ := (s.dev.leaveQuarantine p).closeRec_eagerAll k
  rw [e1, e2, e3, e4, e5]
  exact ⟨hquar, hprec, e6, hlow, hhigh⟩

/-- The device leaves HOLD (R415, R454): the fifth recovery within 24 hours leaves it into RECOVERY. -/
theorem Dev.leaveHold_spec (d : Dev) :
    d.leaveHold.fc.hold = false ∧ d.now ∈ d.leaveHold.fc.drec ∧ (∀ k, d.leaveHold.frec k = d.frec k) ∧
      (d.drecOf < 4 → d.leaveHold.life.op = d.life.op) ∧
      (4 ≤ d.drecOf → d.leaveHold.life.op = .recovery ∧ d.leaveHold.life.life = 3#3) := by
  have hmem : d.now ∈ d.fc.drec.filter (fun t => d.now < t + 2160000000000) ++ [d.now] :=
    List.mem_append_right _ (List.mem_singleton_self _)
  by_cases h4 : 4 ≤ d.drecOf
  · obtain ⟨q, fl, ks, e1⟩ := Dev.enterRecovery_frame (({ d with fc := { d.fc with
      hold := false, drec := (d.fc.drec.filter (fun t => d.now < t + 2160000000000)) ++ [d.now] } } : Dev).alertUp)
    simp only [Dev.leaveHold, h4, if_true, e1, Dev.recoveryEvent]
    obtain ⟨q2, au, fl2, ks2, bd, lf, e2, hlf⟩ := Dev.append16_frame _ _ _
    rw [e2]
    refine ⟨rfl, hmem, fun _ => rfl, fun h => absurd h4 (Nat.not_le.2 h), fun _ => ?_⟩
    rcases hlf with rfl | rfl <;> exact ⟨rfl, rfl⟩
  · simp only [Dev.leaveHold, h4, if_false]
    exact ⟨rfl, hmem, fun _ => rfl, fun _ => rfl, fun h => h.elim⟩

/-- A HOLD record closes; the last one takes the device out of HOLD (R454). -/
theorem holdQuietPeriodExpiry_releases {k : Fin 64} {s : State} (h : s.dev.holdEnds k) :
    let otherHold : Prop := ∃ j, j ≠ k ∧ (s.dev.frec j).opened = true ∧ (s.dev.frec j).cls = 3#3
    AnswersWith (.holdQuietPeriodExpiry k) s (fun d => (d.frec k).opened = false ∧
      (otherHold → d.fc.hold = s.dev.fc.hold ∧ d.fc.drec = s.dev.fc.drec ∧ d.life = s.dev.life) ∧
      (¬ otherHold → d.fc.hold = false ∧ s.dev.now ∈ d.fc.drec ∧
        (s.dev.drecOf < 4 → d.life.op = s.dev.life.op) ∧
        (4 ≤ s.dev.drecOf → d.life.op = .recovery ∧ d.life.life = 3#3))) := by
  intro otherHold
  have hself : ((s.dev.closeRec k).frec k).opened = false := congrArg FRec.opened (s.dev.frec_closeRec_self k)
  have hany : (List.finRange 64).any (fun j => ((s.dev.closeRec k).frec j).opened && ((s.dev.closeRec k).frec j).cls = 3#3) = true ↔
      otherHold := by
    simp only [List.any_eq_true, List.mem_finRange, true_and, Bool.and_eq_true, decide_eq_true_eq]
    constructor
    · rintro ⟨j, ho, hc⟩
      by_cases hj : j = k
      · subst hj
        exact absurd ho (by simp [hself])
      · rw [Dev.frec_closeRec_of_ne _ hj] at ho hc
        exact ⟨j, hj, ho, hc⟩
    · rintro ⟨j, hj, ho, hc⟩
      refine ⟨j, ?_⟩
      rw [Dev.frec_closeRec_of_ne _ hj]
      exact ⟨ho, hc⟩
  have ha := answers_holdQuietPeriodExpiry h
  obtain ⟨hp, au, e⟩ := s.dev.closeRec_frame k
  by_cases hother : otherHold
  · rw [if_pos (hany.2 hother)] at ha
    refine ha.answersWith ⟨hself, fun _ => ?_, fun h => absurd hother h⟩
    rw [e]
    exact ⟨rfl, rfl, rfl⟩
  · rw [if_neg (mt hany.1 hother)] at ha
    obtain ⟨h1, h2, h3, h4, h5⟩ := (s.dev.closeRec k).leaveHold_spec
    refine ha.answersWith ⟨by rw [h3, hself], fun h => absurd h hother, fun _ => ?_⟩
    have hnow : (s.dev.closeRec k).now = s.dev.now := by rw [e]; rfl
    have hdrec : (s.dev.closeRec k).drecOf = s.dev.drecOf := by rw [e]; rfl
    have hop : (s.dev.closeRec k).life.op = s.dev.life.op := by rw [e]; rfl
    rw [hdrec, hop] at h4
    rw [hnow] at h2
    rw [hdrec] at h5
    exact ⟨h1, h2, h4, h5⟩

end Sys2Proof.Machine
end

section
/-! A pier's reset and its end, and FC_RESTORE (R16, R23, R282, R305, R375, R451, R453, R454, R466). -/

namespace Sys2Proof.Machine

open Sys2Proof

/-! ### A bank handed over (R280, R281) -/

/-- The release of a lock leaves registers, memories and banks. -/
theorem unlockBank_frame (P : Pier) (b : Fin 16) :
    ∃ c l w, unlockBank P b = { P with core := c, mem := { P.mem with lockOn := l, lockWait := w } } := by
  unfold unlockBank
  dsimp only
  split <;> split
  · exact ⟨_, _, _, rfl⟩
  · exact ⟨_, _, _, rfl⟩
  · exact ⟨_, _, _, rfl⟩
  · exact ⟨P.core, P.mem.lockOn, P.mem.lockWait, rfl⟩

/-- A bank's record changed leaves the other banks. -/
theorem Pier.bank_onBank_of_ne (P : Pier) {b c : Fin 16} (f : Bank → Bank) (h : c ≠ b) :
    (P.onBank b f).mem.bank[c] = P.mem.bank[c] := by
  have : b.val ≠ c.val := fun e => h (Fin.ext e.symm)
  simp [Pier.onBank, this]

@[simp] theorem icDropBank_bank (P : Pier) (b : Fin 16) : (icDropBank P b).mem.bank = P.mem.bank := rfl

/-- A bank handed over leaves registers, quarry, retired frames and the other banks. -/
theorem handOver_frame (P : Pier) (now : Nat) (b : Fin 16) (o : BitVec 7) :
    (handOver P now b o).regs = P.regs ∧ (handOver P now b o).mem.quarry = P.mem.quarry ∧
    (handOver P now b o).mem.frames = P.mem.frames ∧ ∀ c, c ≠ b → (handOver P now b o).mem.bank[c] = P.mem.bank[c] := by
  obtain ⟨k, l, w, e⟩ := unlockBank_frame P b
  unfold handOver
  rw [e]
  dsimp only
  split
  · refine ⟨rfl, rfl, rfl, fun c hc => ?_⟩
    rw [Pier.bank_onBank_of_ne _ _ hc, icDropBank_bank, Pier.bank_onBank_of_ne _ _ hc]
  · exact ⟨rfl, rfl, rfl, fun c hc => Pier.bank_onBank_of_ne _ _ hc⟩

/-- A write of PR_BANK_OWN leaves the quarry and the retired banks. -/
theorem bankOwnWrite_frame (P : Pier) (now : Nat) (b : Fin 16) (v : DW) :
    (bankOwnWrite P now b v).mem.quarry = P.mem.quarry ∧ (bankOwnWrite P now b v).regs.retire = P.regs.retire := by
  unfold bankOwnWrite
  dsimp only
  split
  · exact ⟨rfl, rfl⟩
  · split
    · exact ⟨rfl, rfl⟩
    · split
      · exact ⟨rfl, rfl⟩
      · split
        · exact ⟨rfl, rfl⟩
        · obtain ⟨hr, hq, -⟩ := handOver_frame P now b (v.extractLsb' 0 7)
          exact ⟨hq, by rw [hr]⟩

/-! ### A pier without batches (R319, R366, R367) -/

/-- What a change of KC on a pier leaves. -/
theorem Dev.kcSync_frame (d : Dev) (p : Fin 16) :
    ∃ ps, d.kcSync p = { d with piers := ps } ∧ ((d.kcSync p).pier p).mem.quarry = (d.pier p).mem.quarry ∧
      ((d.kcSync p).pier p).regs.retire = (d.pier p).regs.retire := by
  unfold Dev.kcSync
  split
  · exact ⟨d.piers, rfl, rfl, rfl⟩
  · dsimp only
    split
    · unfold Dev.onReg
      split
      · obtain ⟨hq, hr⟩ := bankOwnWrite_frame ((d.onPier p (fun P => { P with kcOn := d.setter.kc })).pier p) d.now 15 64
        rw [Dev.pier_onPier_self] at hq hr
        refine ⟨_, rfl, ?_, ?_⟩ <;> rw [Dev.pier_onPier_self, Dev.pier_onPier_self]
        · exact hq
        · exact hr
      · refine ⟨_, rfl, ?_, ?_⟩ <;> rw [Dev.pier_onPier_self]
    · refine ⟨_, rfl, ?_, ?_⟩ <;> rw [Dev.pier_onPier_self]

/-- A pier that has lost a batch: only the setter and that pier may change, and neither its batches nor the pier's quarry and
retired banks do. -/
theorem Dev.emptied_frame (d : Dev) (p : Fin 16) :
    ∃ st ps, d.emptied p = { d with setter := st, piers := ps } ∧ st.batches = d.setter.batches ∧
      ((d.emptied p).pier p).mem.quarry = (d.pier p).mem.quarry ∧
      ((d.emptied p).pier p).regs.retire = (d.pier p).regs.retire := by
  have hs : ∃ st ps, d.s2Late p = { d with setter := st, piers := ps } ∧ st.batches = d.setter.batches ∧
      ((d.s2Late p).pier p).mem.quarry = (d.pier p).mem.quarry ∧
      ((d.s2Late p).pier p).regs.retire = (d.pier p).regs.retire := by
    unfold Dev.s2Late
    refine ⟨_, _, rfl, rfl, ?_, ?_⟩ <;> rw [Dev.pier_onPier_self] <;> rfl
  obtain ⟨st, ps, e, hb, hq, hr⟩ := hs
  unfold Dev.emptied
  dsimp only
  split
  · exact ⟨st, ps, e, hb, hq, hr⟩
  · obtain ⟨ps2, e2, hq2, hr2⟩ := Dev.kcSync_frame { d.s2Late p with setter :=
      { (d.s2Late p).setter with idleSince := (d.s2Late p).setter.idleSince.set p (d.s2Late p).now } } p
    refine ⟨{ st with idleSince := st.idleSince.set p d.now }, ps2, ?_, hb, hq2.trans hq, hr2.trans hr⟩
    rw [e2, e]
    rfl

/-! ### Lost items (R16, R23, R375) -/

/-- Items that end on chain 16: an item still in the tracker is one of before with another number, or is recorded. -/
theorem Dev.endItems_frame (st r : Nat) (l : List Item) (d : Dev) :
    ∃ its q au fl ks bd lf, l.foldl (fun d i => d.endItem16 i st r) d = { d with
      items := its, fc := { d.fc with detq := q }, audit := au, flash := fl, ks := ks, board := bd, life := lf } ∧
      ∀ x ∈ its, (x ∈ d.items ∧ ∀ i ∈ l, x.id ≠ i.id) ∨ ∃ n, x.stage = .recorded 16 n := by
  induction l generalizing d with
  | nil => exact ⟨d.items, d.fc.detq, d.audit, d.flash, d.ks, d.board, d.life, rfl, fun x hx => .inl ⟨hx, by simp⟩⟩
  | cons i l ih =>
    obtain ⟨its, q, au, fl, ks, bd, lf, e, h1⟩ := d.record16_frame { i with
      status := BitVec.ofNat 8 st, result := BitVec.ofNat 8 r, outLen := 0, output := [], rdata6 := 0, rdata7 := 0 }
    obtain ⟨its2, q2, au2, fl2, ks2, bd2, lf2, e2, h2⟩ := ih (d.endItem16 i st r)
    have e1 : d.endItem16 i st r = _ := e
    rw [e1] at e2 h2
    refine ⟨its2, q2, au2, fl2, ks2, bd2, lf2, by rw [List.foldl_cons, e1, e2], fun x hx => ?_⟩
    rcases h2 x hx with ⟨hm, hl⟩ | hrec
    · rcases h1 x hm with ⟨hne, hd⟩ | hrec
      · exact .inl ⟨hd, List.forall_mem_cons.2 ⟨hne, hl⟩⟩
      · exact .inr hrec
    · exact .inr hrec

/-- A device whose pier has lost its batches, its preemption requests and its REQ; the items are still to end. -/
def Dev.unbatched (d : Dev) (p : Fin 16) : Dev :=
  ({ d with setter := { d.setter with
      batches := d.setter.batches.filter (fun (b : Batch) => b.pier? ≠ some p)
      preempts := d.setter.preempts.filter (fun e => e.1 ≠ p) } } : Dev).onPier p
    (fun P => { P with regs := { P.regs with req := false } })

theorem Dev.loseItems_eq (d : Dev) (p : Fin 16) : d.loseItems p =
    ((d.items.filter (fun i => i.unfinished p)).foldl (fun d i => d.endItem16 i 0x23 0) (d.unbatched p)).emptied p := rfl

theorem Dev.unbatched_pier (d : Dev) (p : Fin 16) :
    (d.unbatched p).pier p = { d.pier p with regs := { (d.pier p).regs with req := false } } :=
  Dev.pier_onPier_self _ p _

/-- What the loss of a pier's items leaves: beside the collector's queue only items, audit, keys, lifecycle, the setter and that pier
may change; no batch and no unfinished item of the pier remains, and its quarry and retired banks stand. -/
theorem Dev.loseItems_spec (d : Dev) (p : Fin 16) :
    (∃ q, (d.loseItems p).fc = { d.fc with detq := q }) ∧ (d.loseItems p).time = d.time ∧
    (∀ b ∈ (d.loseItems p).setter.batches, b.pier? ≠ some p) ∧ (∀ i ∈ (d.loseItems p).items, i.unfinished p = false) ∧
    ((d.loseItems p).pier p).mem.quarry = (d.pier p).mem.quarry ∧
    ((d.loseItems p).pier p).regs.retire = (d.pier p).regs.retire := by
  obtain ⟨its, q, au, fl, ks, bd, lf, e, hitems⟩ :=
    Dev.endItems_frame 0x23 0 (d.items.filter (fun i => i.unfinished p)) (d.unbatched p)
  obtain ⟨st, ps, e2, hb, hq, hr⟩ := Dev.emptied_frame { d.unbatched p with
    items := its, fc := { d.fc with detq := q }, audit := au, flash := fl, ks := ks, board := bd, life := lf } p
  have he0 : d.loseItems p = _ := (d.loseItems_eq p).trans (congrArg (fun d => Dev.emptied d p) e)
  have he : d.loseItems p = _ := he0.trans e2
  have hq1 : ((d.loseItems p).pier p).mem.quarry = ((d.unbatched p).pier p).mem.quarry := by
    rw [he0]
    exact hq
  have hr1 : ((d.loseItems p).pier p).regs.retire = ((d.unbatched p).pier p).regs.retire := by
    rw [he0]
    exact hr
  rw [Dev.unbatched_pier] at hq1 hr1
  refine ⟨⟨q, by rw [he]⟩, by rw [he]; rfl, fun b hbm => ?_, fun i hi => ?_, hq1, hr1⟩
  · rw [he] at hbm
    replace hbm : b ∈ st.batches := hbm
    rw [hb] at hbm
    simpa using (List.mem_filter.1 hbm).2
  · rw [he] at hi
    rcases hitems i hi with ⟨hm, hl⟩ | ⟨n, hn⟩
    · rw [Bool.eq_false_iff]
      exact fun hu => hl i (List.mem_filter.2 ⟨hm, hu⟩) rfl
    · simp [Item.unfinished, hn]

/-! ### The reset of a pier (R9, R282, R451, R466) -/

/-- The open record of a region depends on the records alone. -/
theorem Dev.openOf_congr {d e : Dev} (h : e.fc.recs = d.fc.recs) (r : Nat) : e.openOf r = d.openOf r := by
  unfold Dev.openOf Dev.frec
  rw [h]

/-- A reset asserted: the pier stands in reset with its quarry and retired banks, and without batch or unfinished item. -/
theorem Dev.assertReset_spec (d : Dev) (p : Fin 16) :
    (∃ q, (d.assertReset p).fc = { d.fc with
      detq := q, inReset := d.fc.inReset ||| BitVec.ofNat 16 (2 ^ p.val), resetDue := clearBit d.fc.resetDue p.val }) ∧
    (∀ b ∈ (d.assertReset p).setter.batches, b.pier? ≠ some p) ∧ (∀ i ∈ (d.assertReset p).items, i.unfinished p = false) ∧
    ((d.assertReset p).core (.pier p)).run = .reset ∧ ((d.assertReset p).pier p).mem.banks = [] ∧
    ((d.assertReset p).pier p).runs.exec = none ∧
    ((d.assertReset p).pier p).mem.quarry = (d.pier p).mem.quarry ∧
    ((d.assertReset p).pier p).regs.retire = (d.pier p).regs.retire := by
  obtain ⟨⟨q, hfc⟩, -, hb, hi, hq, hr⟩ := Dev.loseItems_spec { d with fc := { d.fc with
    inReset := d.fc.inReset ||| BitVec.ofNat 16 (2 ^ p.val), resetDue := clearBit d.fc.resetDue p.val } } p
  unfold Dev.assertReset
  dsimp only
  refine ⟨⟨q, hfc⟩, hb, hi, ?_, ?_, ?_, ?_, ?_⟩
  · exact congrArg (fun P : Pier => P.core.run) (Dev.pier_onPier_self _ p _)
  · exact congrArg (fun P : Pier => P.mem.banks) (Dev.pier_onPier_self _ p _)
  · exact congrArg (fun P : Pier => P.runs.exec) (Dev.pier_onPier_self _ p _)
  · exact (congrArg (fun P : Pier => P.mem.quarry) (Dev.pier_onPier_self _ p _)).trans hq
  · exact (congrArg (fun P : Pier => P.regs.retire) (Dev.pier_onPier_self _ p _)).trans hr

/-- PER_PIER_RESET where a reset is due (R23, R451, R453). -/
theorem perPierReset_asserts {p : Fin 16} {s : State} (h : s.dev.fc.resetDue.getLsbD p.val = true) :
    AnswersWith (.perPierReset p) s (fun d =>
      d.fc.inReset.getLsbD p.val = true ∧ d.fc.resetDue.getLsbD p.val = false ∧ (d.core (.pier p)).run = .reset ∧
      (d.pier p).mem.banks = [] ∧ (d.pier p).mem.quarry = (s.dev.pier p).mem.quarry ∧
      (d.pier p).regs.retire = (s.dev.pier p).regs.retire ∧ (d.pier p).runs.exec = none ∧
      (∀ k, s.dev.openOf p.val = some k → (d.frec k).shadow = some 0) ∧
      (∀ b ∈ d.setter.batches, b.pier? ≠ some p) ∧ ∀ i ∈ d.items, i.unfinished p = false) := by
  obtain ⟨⟨q, hfc⟩, hb, hi, hrun, hbanks, hexec, hq, hr⟩ := s.dev.assertReset_spec p
  have hin : (s.dev.assertReset p).fc.inReset.getLsbD p.val = true := by
    rw [hfc]
    exact (setBit_getLsbD _ p p).trans (by simp)
  have hdue : (s.dev.assertReset p).fc.resetDue.getLsbD p.val = false := by
    rw [hfc]
    exact (clearBit_getLsbD _ p p).trans (by simp)
  have hopen : (s.dev.assertReset p).openOf p.val = s.dev.openOf p.val := Dev.openOf_congr (by rw [hfc]) _
  have ha : execPerPierReset p s = s.answer (match (s.dev.assertReset p).openOf p.val with
      | some k => (s.dev.assertReset p).setFrec k { (s.dev.assertReset p).frec k with shadow := some 0 }
      | none => s.dev.assertReset p) := if_neg (by rw [h]; decide)
  refine Answers.answersWith ha ?_
  cases hk : s.dev.openOf p.val with
  | none =>
    rw [hopen, hk]
    exact ⟨hin, hdue, hrun, hbanks, hq, hr, hexec, by simp, hb, hi⟩
  | some k =>
    rw [hopen, hk]
    refine ⟨hin, hdue, hrun, hbanks, hq, hr, hexec, ?_, hb, hi⟩
    rintro j hj
    obtain rfl : k = j := Option.some.inj hj
    exact congrArg FRec.shadow (Dev.frec_setFrec_self _ k _)

/-- A pier as the end of its reset leaves it, its detections' record still to follow (R181, R282, R305, R466). -/
def Dev.afterReset (d : Dev) (p : Fin 16) : Dev :=
  { d with fc := { d.fc with inReset := clearBit d.fc.inReset p.val } }.setPier p { d.pier p with
    runs := { (d.pier p).runs with au0 := d.au0For p }
    mem := { (d.pier p).mem with selfRefresh := d.fc.quar.getLsbD p.val || !(d.pier p).mem.trained }
    pw := { (d.pier p).pw with st := .idle, freq := 4, shares := 8, change := .none, since := d.now, lastRun := d.now }
    regs := { (d.pier p).regs with
      s2cfg := Vector.ofFn (fun (q : Fin 64) => s2CfgFor (d.partExists q && d.setter.part[q].piers.getLsbD p.val) q.val) } }

/-- PER_PIER_RESET_COMPLETE at its time (R282, R453; the 256 ticks are log 75's). -/
theorem execPerPierResetComplete_eq {p : Fin 16} {s : State} (h : s.dev.fc.inReset.getLsbD p.val = true)
    (ht : (s.dev.pier p).pw.since + 256 ≤ s.dev.now) :
    execPerPierResetComplete p s = s.answer (match s.dev.openOf p.val with
      | some k => if (s.dev.frec k).shadow = some 0 then
          (s.dev.afterReset p).setFrec k { s.dev.frec k with shadow := some (s.dev.now + 256) } else s.dev.afterReset p
      | none => (s.dev.afterReset p).eagerAll) := by
  have hc : (!s.dev.fc.inReset.getLsbD p.val || decide (s.dev.now < (s.dev.pier p).pw.since + 256)) = false := by
    simp [h, ht]
  have hd : (({ s.dev with fc := { s.dev.fc with inReset := clearBit s.dev.fc.inReset p.val } }.onPier p (fun P => { P with
      runs := { P.runs with au0 := s.dev.au0For p }
      mem := { P.mem with selfRefresh := s.dev.fc.quar.getLsbD p.val || !P.mem.trained }
      pw := { P.pw with st := .idle, freq := 4, shares := 8, change := .none, since := s.dev.now, lastRun := s.dev.now } })).s2Restore p) =
      s.dev.afterReset p := by
    simp only [Dev.s2Restore, Dev.onPier, Dev.setPier_setPier, Dev.pier_setPier_self]
    rfl
  unfold execPerPierResetComplete
  dsimp only
  rw [if_neg (Bool.not_eq_true _ ▸ hc)]
  exact congrArg s.answer (by rw [← hd]; rfl)

end Sys2Proof.Machine
end

section
/-! The end of a pier's reset, FC_RESTORE and the correction log (R181, R282, R305, R450, R453, R454, R457). -/

namespace Sys2Proof.Machine

open Sys2Proof

/-! ### A reset that ends (R282, R453) -/

theorem answers_perPierReset_of_not {p : Fin 16} {s : State} (h : s.dev.fc.resetDue.getLsbD p.val = false) :
    Answers (.perPierReset p) s s.dev := by
  show execPerPierReset p s = _
  simp only [execPerPierReset, h, Bool.not_false, if_true]
  rfl

theorem answers_perPierResetComplete_of_not {p : Fin 16} {s : State}
    (h : s.dev.fc.inReset.getLsbD p.val = false ∨ s.dev.now < (s.dev.pier p).pw.since + 256) :
    Answers (.perPierResetComplete p) s s.dev := by
  have hc : (!s.dev.fc.inReset.getLsbD p.val || decide (s.dev.now < (s.dev.pier p).pw.since + 256)) = true := by
    simpa using h
  exact if_pos hc

/-- What the end of a reset leaves on the pier, whatever becomes of its record. -/
theorem Dev.afterReset_spec (d : Dev) (p : Fin 16) :
    (d.afterReset p).fc.inReset.getLsbD p.val = false ∧ ((d.afterReset p).pier p).pw.st = .idle ∧
    ((d.afterReset p).pier p).pw.freq = 4 ∧ ((d.afterReset p).pier p).pw.shares = 8 ∧
    ((d.afterReset p).pier p).runs.au0 = d.au0For p ∧ ((d.afterReset p).pier p).mem.quarry = (d.pier p).mem.quarry ∧
    ((d.afterReset p).pier p).mem.selfRefresh = (d.fc.quar.getLsbD p.val || !(d.pier p).mem.trained) ∧
    ∀ q : Fin 64, ((d.afterReset p).pier p).regs.s2cfg[q] =
      s2CfgFor (d.partExists q && d.setter.part[q].piers.getLsbD p.val) q.val := by
  have hin : (d.afterReset p).fc.inReset.getLsbD p.val = false := (clearBit_getLsbD _ p p).trans (by simp)
  refine ⟨hin, ?_⟩
  unfold Dev.afterReset
  rw [Dev.pier_setPier_self]
  exact ⟨rfl, rfl, rfl, rfl, rfl, rfl, fun q => Vector.getElem_ofFn q.isLt⟩

/-- PER_PIER_RESET_COMPLETE at its time (R181, R282, R305, R453, R466). -/
theorem perPierResetComplete_restores {p : Fin 16} {s : State} (h : s.dev.fc.inReset.getLsbD p.val = true)
    (ht : (s.dev.pier p).pw.since + 256 ≤ s.dev.now) :
    AnswersWith (.perPierResetComplete p) s (fun d =>
      d.fc.inReset.getLsbD p.val = false ∧ (d.pier p).pw.st = .idle ∧ (d.pier p).pw.freq = 4 ∧ (d.pier p).pw.shares = 8 ∧
      (d.pier p).runs.au0 = s.dev.au0For p ∧ (d.pier p).mem.quarry = (s.dev.pier p).mem.quarry ∧
      (d.pier p).mem.selfRefresh = (s.dev.fc.quar.getLsbD p.val || !(s.dev.pier p).mem.trained) ∧
      (∀ q : Fin 64, (d.pier p).regs.s2cfg[q] = s2CfgFor (s.dev.partExists q && s.dev.setter.part[q].piers.getLsbD p.val) q.val) ∧
      (∀ k, s.dev.openOf p.val = some k → (s.dev.frec k).shadow = some 0 → (d.frec k).shadow = some (s.dev.now + 256))) := by
  obtain ⟨h1, h2, h3, h4, h5, h6, h7, h8⟩ := s.dev.afterReset_spec p
  refine Answers.answersWith (execPerPierResetComplete_eq h ht) ?_
  cases hk : s.dev.openOf p.val with
  | none =>
    obtain ⟨bs, e⟩ := (s.dev.afterReset p).eagerAll_frame
    simp only [e]
    exact ⟨h1, h2, h3, h4, h5, h6, h7, h8, by simp⟩
  | some k =>
    by_cases hsh : (s.dev.frec k).shadow = some 0
    · simp only [hsh, if_true]
      refine ⟨h1, h2, h3, h4, h5, h6, h7, h8, fun j hj _ => ?_⟩
      obtain rfl : k = j := Option.some.inj hj
      exact congrArg FRec.shadow (Dev.frec_setFrec_self _ k _)
    · simp only [hsh, if_false]
      refine ⟨h1, h2, h3, h4, h5, h6, h7, h8, fun j hj hs0 => ?_⟩
      obtain rfl : k = j := Option.some.inj hj
      exact absurd hs0 hsh

/-! ### FC_RESTORE (R450, R454) -/

/-- FC_RESTORE's work on one pier. -/
def Dev.restoreOne (v : DW) (d : Dev) (p : Fin 16) : Dev :=
  if v.getLsbD p.val && d.fc.out.getLsbD p.val then
    { d with
      fc := { d.fc with out := clearBit d.fc.out p.val, prec := d.fc.prec.filter (fun (e : Fin 16 × Nat) => e.1 ≠ p) }
      setter := { d.setter with out := clearBit d.setter.out p.val } }
  else d

theorem Dev.restore_eq (d : Dev) (v : DW) : d.restore v = (List.finRange 16).foldl (Dev.restoreOne v) d := rfl

/-- A pier in service again: the setter does not hold it OUT and it has no recovery history (R454). -/
def Dev.inService (d : Dev) (q : Fin 16) : Prop := d.setter.out.getLsbD q.val = false ∧ ∀ e ∈ d.fc.prec, e.1 ≠ q

theorem Dev.restoreOne_out (d : Dev) (v : DW) (p q : Fin 16) :
    (d.restoreOne v p).fc.out.getLsbD q.val = (d.fc.out.getLsbD q.val && !(v.getLsbD q.val && decide (p = q))) := by
  unfold Dev.restoreOne
  split
  · next h =>
    refine (clearBit_getLsbD _ p q).trans ?_
    rw [Bool.and_eq_true] at h
    by_cases hpq : p = q
    · subst hpq
      simp [h.1]
    · simp [hpq]
  · next h =>
    by_cases hpq : p = q
    · subst hpq
      rw [Bool.not_eq_true, Bool.and_eq_false_iff] at h
      rcases h with h | h <;> rw [h]
      · simp
      · rw [Bool.false_and]
    · simp [hpq]

theorem Dev.inService.restoreOne {d : Dev} {q : Fin 16} (h : d.inService q) (v : DW) (p : Fin 16) :
    (d.restoreOne v p).inService q := by
  obtain ⟨ho, hp⟩ := h
  unfold Dev.restoreOne
  split
  · exact ⟨(clearBit_getLsbD _ p q).trans (by rw [ho, Bool.false_and]), fun e he => hp e (List.mem_filter.1 he).1⟩
  · exact ⟨ho, hp⟩

theorem Dev.inService_restoreOne_self {d : Dev} {v : DW} {p : Fin 16} (hv : v.getLsbD p.val = true)
    (ho : d.fc.out.getLsbD p.val = true) : (d.restoreOne v p).inService p := by
  rw [Dev.restoreOne, hv, ho]
  exact ⟨(clearBit_getLsbD _ p p).trans (by simp), fun e he => by simpa using (List.mem_filter.1 he).2⟩

/-- FC_RESTORE's work on a list of piers. -/
theorem Dev.foldl_restoreOne (v : DW) (l : List (Fin 16)) (d : Dev) (q : Fin 16) :
    (l.foldl (Dev.restoreOne v) d).fc.out.getLsbD q.val = (d.fc.out.getLsbD q.val && !(v.getLsbD q.val && decide (q ∈ l))) ∧
    (d.inService q → (l.foldl (Dev.restoreOne v) d).inService q) ∧
    (q ∈ l → v.getLsbD q.val = true → d.fc.out.getLsbD q.val = true → (l.foldl (Dev.restoreOne v) d).inService q) := by
  induction l generalizing d with
  | nil => exact ⟨by simp, id, by simp⟩
  | cons p l ih =>
    obtain ⟨hout, hkeep, hnew⟩ := ih (d.restoreOne v p)
    rw [List.foldl_cons]
    refine ⟨?_, fun h => hkeep (h.restoreOne v p), fun hm hv ho => ?_⟩
    · rw [hout, Dev.restoreOne_out]
      by_cases hpq : p = q
      · subst hpq
        cases v.getLsbD p.val <;> simp
      · simp [hpq, Ne.symm hpq]
    · by_cases hpq : p = q
      · subst hpq
        exact hkeep (Dev.inService_restoreOne_self hv ho)
      · refine hnew ((List.mem_cons.1 hm).resolve_left (Ne.symm hpq)) hv ?_
        rw [Dev.restoreOne_out, ho]
        simp [hpq]

/-- FC_RESTORE_WRITE (R450, R454). -/
theorem fcRestoreWrite_restores (v : DW) (s : State) : AnswersWith (.fcRestoreWrite v) s (fun d => ∀ p : Fin 16,
    d.fc.out.getLsbD p.val = (s.dev.fc.out.getLsbD p.val && !v.getLsbD p.val) ∧
    (v.getLsbD p.val = true → s.dev.fc.out.getLsbD p.val = true →
      d.setter.out.getLsbD p.val = false ∧ ∀ e ∈ d.fc.prec, e.1 ≠ p)) := by
  refine Answers.answersWith (e := s.dev.restore v) rfl fun p => ?_
  obtain ⟨hout, -, hnew⟩ := Dev.foldl_restoreOne v (List.finRange 16) s.dev p
  rw [Dev.restore_eq]
  exact ⟨by rw [hout]; simp, hnew (List.mem_finRange p)⟩

/-! ### The correction log's entries (R457) -/

theorem Dev.clogWrite_of_val {v : DW} (h : v.getLsbD 31 = true) (d : Dev) (p e : Fin 16) : d.clogWrite p e v =
    { d with fc := { d.fc with clog := d.fc.clog.set p (d.fc.clog[p].set e {}) } } := if_pos h

/-- An entry freed: it is empty, and no other entry changes. -/
theorem Dev.clogWrite_clog {v : DW} (h : v.getLsbD 31 = true) (d : Dev) (p e : Fin 16) :
    (d.clogWrite p e v).fc.clog[p][e] = {} ∧ (∀ f, f ≠ e → (d.clogWrite p e v).fc.clog[p][f] = d.fc.clog[p][f]) ∧
    ∀ q, q ≠ p → (d.clogWrite p e v).fc.clog[q] = d.fc.clog[q] := by
  rw [Dev.clogWrite_of_val h]
  refine ⟨by simp, fun f hf => ?_, fun q hq => ?_⟩
  · have : e.val ≠ f.val := fun e => hf (Fin.ext e.symm)
    simp [this]
  · have : p.val ≠ q.val := fun e => hq (Fin.ext e.symm)
    simp [this]

theorem answers_clogEntryFree_of_not {v : DW} (h : v.getLsbD 31 = false) (p e : Fin 16) (s : State) :
    Answers (.clogEntryFree p e v) s s.dev :=
  congrArg s.answer (if_neg (Bool.eq_false_iff.1 h))

end Sys2Proof.Machine
end

section
/-! Frames and banks that RETIREMENT_ACTION retires (R285, R458, log 74). -/

namespace Sys2Proof.Machine

open Sys2Proof

/-! ### Banks (R285) -/

/-- A bank retired: registers, retired frames and the other banks stand. -/
theorem retireBank_frame (P : Pier) (now : Nat) (b : Fin 16) :
    (retireBank P now b).regs = P.regs ∧ (retireBank P now b).mem.frames = P.mem.frames ∧
    ∀ c, c ≠ b → (retireBank P now b).mem.bank[c] = P.mem.bank[c] := by
  obtain ⟨hr, -, hf, hb⟩ := handOver_frame P now b 0x7F#7
  exact ⟨hr, hf, fun c hc => (Pier.bank_onBank_of_ne _ _ hc).trans (hb c hc)⟩

/-- What a write of PR_BANK_RETIRE does to one bank: a bit that it has set retires the bank. -/
def retireNew (old : BitVec 16) (now : Nat) (P : Pier) (b : Fin 16) : Pier :=
  if P.regs.retire.getLsbD b.val && !old.getLsbD b.val then retireBank P now b else P

/-- The banks that a write of PR_BANK_RETIRE has not set keep their records. -/
theorem foldl_retireNew (old : BitVec 16) (now : Nat) (l : List (Fin 16)) (P : Pier) :
    (l.foldl (retireNew old now) P).regs = P.regs ∧ (l.foldl (retireNew old now) P).mem.frames = P.mem.frames ∧
    ∀ c : Fin 16, (P.regs.retire.getLsbD c.val && !old.getLsbD c.val) = false →
      (l.foldl (retireNew old now) P).mem.bank[c] = P.mem.bank[c] := by
  induction l generalizing P with
  | nil => exact ⟨rfl, rfl, fun _ _ => rfl⟩
  | cons b l ih =>
    rw [List.foldl_cons]
    by_cases h : (P.regs.retire.getLsbD b.val && !old.getLsbD b.val) = true
    · have e : retireNew old now P b = retireBank P now b := if_pos h
      obtain ⟨hr, hf, hb⟩ := retireBank_frame P now b
      obtain ⟨ir, ifr, ib⟩ := ih (retireBank P now b)
      rw [e]
      refine ⟨ir.trans hr, ifr.trans hf, fun c hc => ?_⟩
      have hne : c ≠ b := by
        rintro rfl
        rw [h] at hc
        exact absurd hc (by simp)
      exact (ib c (by rw [hr]; exact hc)).trans (hb c hne)
    · have e : retireNew old now P b = P := if_neg h
      rw [e]
      exact ih P

/-- The bits that PR_BANK_RETIRE takes from a word with one bit. -/
theorem retireBits_getLsbD : ∀ b c : Fin 16, b.val ≠ 0 →
    ((BitVec.ofNat 32 (2 ^ b.val)).extractLsb' 0 16 &&& 0xFFFE#16).getLsbD c.val = decide (b = c) ∧
    (BitVec.ofNat 32 (2 ^ b.val)).getLsbD 0 = false := by decide

/-- One bank other than 0 retired by PR_BANK_RETIRE. -/
theorem bankRetireWrite_one (P : Pier) (now : Nat) {b : Fin 16} (h : b.val ≠ 0) :
    (∀ c : Fin 16, (bankRetireWrite P now (BitVec.ofNat 32 (2 ^ b.val))).regs.retire.getLsbD c.val =
      (P.regs.retire.getLsbD c.val || decide (b = c))) ∧
    (bankRetireWrite P now (BitVec.ofNat 32 (2 ^ b.val))).mem.frames = P.mem.frames ∧
    ∀ c, c ≠ b → (bankRetireWrite P now (BitVec.ofNat 32 (2 ^ b.val))).mem.bank[c] = P.mem.bank[c] := by
  have hz := (retireBits_getLsbD b 0 h).2
  have e : bankRetireWrite P now (BitVec.ofNat 32 (2 ^ b.val)) = (List.finRange 16).foldl (retireNew P.regs.retire now)
      { P with regs := { P.regs with
        retire := P.regs.retire ||| ((BitVec.ofNat 32 (2 ^ b.val)).extractLsb' 0 16 &&& 0xFFFE#16) } } := by
    unfold bankRetireWrite
    dsimp only
    rw [hz]
    rfl
  have hbits : ∀ c : Fin 16, (P.regs.retire ||| ((BitVec.ofNat 32 (2 ^ b.val)).extractLsb' 0 16 &&& 0xFFFE#16)).getLsbD c.val =
      (P.regs.retire.getLsbD c.val || decide (b = c)) := by
    intro c
    rw [BitVec.getLsbD_or, (retireBits_getLsbD b c h).1]
  obtain ⟨hr, hf, hb⟩ := foldl_retireNew P.regs.retire now (List.finRange 16) { P with regs := { P.regs with
        retire := P.regs.retire ||| ((BitVec.ofNat 32 (2 ^ b.val)).extractLsb' 0 16 &&& 0xFFFE#16) } }
  rw [e, hr, hf]
  refine ⟨hbits, rfl, fun c hc => hb c ?_⟩
  rw [hbits c]
  cases P.regs.retire.getLsbD c.val <;> simp [Ne.symm hc]

/-! ### Banks with three retired frames (R458) -/

theorem Pier.bankDue_iff (P : Pier) (b : Fin 16) : P.bankDue b = true ↔ b.val ≠ 0 ∧
    3 ≤ (P.mem.frames.filter (fun f => 64 * f < 0x200000 && bankOf (64 * f) = b)).length ∧
    64 ≤ P.mem.bank[b].owner.toNat ∧ P.regs.retire.getLsbD b.val = false := by
  simp only [Pier.bankDue, Bool.and_eq_true, decide_eq_true_eq, Bool.not_eq_true', and_assoc]

theorem Pier.bankDue_congr {P Q : Pier} {c : Fin 16} (hf : Q.mem.frames = P.mem.frames) (hb : Q.mem.bank[c] = P.mem.bank[c])
    (hr : Q.regs.retire.getLsbD c.val = P.regs.retire.getLsbD c.val) : Q.bankDue c = P.bankDue c := by
  unfold Pier.bankDue
  rw [hf, hb, hr]

theorem Dev.retireFull_of_not {d : Dev} {p b : Fin 16} (h : (d.pier p).bankDue b = false) : d.retireFull p b = d := by
  unfold Dev.retireFull
  rw [h]
  rfl

theorem Dev.retireFull_of_due {d : Dev} {p b : Fin 16} (h : (d.pier p).bankDue b = true) : d.retireFull p b =
    { d.setPier p (bankRetireWrite (d.pier p) d.now (BitVec.ofNat 32 (2 ^ b.val))) with
      flash := { d.flash with retiredBanks := d.flash.retiredBanks ++ [(p, b)] } } := by
  unfold Dev.retireFull
  rw [h]
  rfl

/-- The step of RETIREMENT_ACTION for one bank: a bank that is due is retired and logged, and is due no more; nothing else of what
makes a bank due and none of the retired frames changes. -/
theorem Dev.retireFull_spec (d : Dev) (p b : Fin 16) :
    (∀ c : Fin 16, ((d.retireFull p b).pier p).regs.retire.getLsbD c.val =
      ((d.pier p).regs.retire.getLsbD c.val || (decide (b = c) && (d.pier p).bankDue c))) ∧
    (∀ c : Fin 16, ((d.retireFull p b).pier p).bankDue c = ((d.pier p).bankDue c && !decide (b = c))) ∧
    ((d.pier p).bankDue b = true → (p, b) ∈ (d.retireFull p b).flash.retiredBanks) ∧
    (∀ x ∈ d.flash.retiredBanks, x ∈ (d.retireFull p b).flash.retiredBanks) ∧
    ((d.retireFull p b).pier p).mem.frames = (d.pier p).mem.frames ∧
    (d.retireFull p b).flash.retired = d.flash.retired := by
  by_cases h : (d.pier p).bankDue b = true
  · obtain ⟨h0, -⟩ := (Pier.bankDue_iff _ b).1 h
    obtain ⟨hr, hf, hb⟩ := bankRetireWrite_one (d.pier p) d.now h0
    have hp : (d.retireFull p b).pier p = bankRetireWrite (d.pier p) d.now (BitVec.ofNat 32 (2 ^ b.val)) := by
      rw [Dev.retireFull_of_due h]
      exact Dev.pier_setPier_self d p _
    rw [hp, Dev.retireFull_of_due h]
    refine ⟨fun c => ?_, fun c => ?_, fun _ => List.mem_append_right _ (List.mem_singleton_self _),
      fun x hx => List.mem_append_left _ hx, hf, rfl⟩
    · rw [hr c]
      by_cases hc : b = c
      · subst hc
        rw [h, Bool.and_true]
      · simp [hc]
    · by_cases hc : b = c
      · subst hc
        rw [decide_eq_true rfl, Bool.not_true, Bool.and_false, Bool.eq_false_iff]
        intro hd
        obtain ⟨-, -, -, hn⟩ := (Pier.bankDue_iff _ b).1 hd
        rw [hr b] at hn
        simp at hn
      · rw [Pier.bankDue_congr hf (hb c (Ne.symm hc)) (by rw [hr c]; simp [hc])]
        simp [hc]
  · rw [Bool.not_eq_true] at h
    rw [Dev.retireFull_of_not h]
    refine ⟨fun c => ?_, fun c => ?_, fun hd => absurd hd (by simp [h]), fun x hx => hx, rfl, rfl⟩ <;>
    · by_cases hc : b = c
      · subst hc
        simp [h]
      · simp [hc]

/-- The banks of a list retired where they are due. -/
theorem Dev.foldl_retireFull (p : Fin 16) (l : List (Fin 16)) (d : Dev) (c : Fin 16) :
    ((l.foldl (fun d b => d.retireFull p b) d).pier p).regs.retire.getLsbD c.val =
      ((d.pier p).regs.retire.getLsbD c.val || (decide (c ∈ l) && (d.pier p).bankDue c)) ∧
    (c ∈ l → (d.pier p).bankDue c = true → (p, c) ∈ (l.foldl (fun d b => d.retireFull p b) d).flash.retiredBanks) ∧
    ∀ x ∈ d.flash.retiredBanks, x ∈ (l.foldl (fun d b => d.retireFull p b) d).flash.retiredBanks := by
  induction l generalizing d with
  | nil => exact ⟨by simp, by simp, fun x hx => hx⟩
  | cons b l ih =>
    obtain ⟨hr, hdue, hnew, hkeep, -⟩ := d.retireFull_spec p b
    obtain ⟨ir, inew, ikeep⟩ := ih (d.retireFull p b)
    rw [List.foldl_cons]
    refine ⟨?_, fun hm hd => ?_, fun x hx => ikeep x (hkeep x hx)⟩
    · rw [ir, hr, hdue]
      by_cases hc : b = c
      · subst hc
        simp
      · simp [hc, Ne.symm hc]
    · by_cases hc : b = c
      · subst hc
        exact ikeep _ (hnew hd)
      · exact inew ((List.mem_cons.1 hm).resolve_left (Ne.symm hc)) (by rw [hdue, hd]; simp [hc])

/-- No bank is due: nothing is retired. -/
theorem Dev.retireBanks_of_not {d : Dev} {p : Fin 16} (h : ∀ b, (d.pier p).bankDue b = false) : d.retireBanks p = d :=
  List.foldl_fixed' (fun b => Dev.retireFull_of_not (h b)) _

/-! ### Frames (R458) -/

/-- A frame that a pier and the fault log hold as retired. -/
def Dev.frameRetired (d : Dev) (p : Fin 16) (f : Nat) : Prop := f ∈ (d.pier p).mem.frames ∧ (p, f) ∈ d.flash.retired

/-- A frame added to a pier's list of retired frames. -/
def Pier.addFrame (f : Nat) (P : Pier) : Pier :=
  if P.mem.frames.contains f then P else { P with mem := { P.mem with frames := P.mem.frames ++ [f] } }

theorem Pier.mem_addFrame {f g : Nat} {P : Pier} : g ∈ (P.addFrame f).mem.frames ↔ g = f ∨ g ∈ P.mem.frames := by
  unfold Pier.addFrame
  split
  · next h => exact ⟨.inr, fun hg => hg.elim (fun e => e ▸ List.contains_iff_mem.1 h) id⟩
  · simp [or_comm]

theorem Dev.pier_retireFrame (d : Dev) (p : Fin 16) (f : Nat) : (d.retireFrame p f).pier p = (d.pier p).addFrame f := by
  have h : (d.onPier p (Pier.addFrame f)).pier p = (d.pier p).addFrame f := Dev.pier_onPier_self d p _
  unfold Dev.retireFrame
  dsimp only
  split <;> exact h

theorem Dev.mem_retired_retireFrame {d : Dev} {p : Fin 16} {f : Nat} {x : Fin 16 × Nat} :
    x ∈ (d.retireFrame p f).flash.retired ↔ x = (p, f) ∨ x ∈ d.flash.retired := by
  unfold Dev.retireFrame
  dsimp only
  split
  · next h => exact ⟨.inr, fun hx => hx.elim (fun e => e ▸ List.contains_iff_mem.1 h) id⟩
  · simp [or_comm]

/-- A frame retired: it stands in the pier's list and in the fault log, beside the frames of before. -/
theorem Dev.frameRetired_retireFrame {d : Dev} {p : Fin 16} {f g : Nat} :
    (d.retireFrame p f).frameRetired p g ↔ g = f ∨ d.frameRetired p g := by
  unfold Dev.frameRetired
  rw [Dev.pier_retireFrame, Pier.mem_addFrame, Dev.mem_retired_retireFrame, Prod.mk.injEq]
  tauto

/-- Frames retired in turn. -/
theorem Dev.foldl_retireFrame (p : Fin 16) (l : List Nat) (d : Dev) (g : Nat) (h : g ∈ l ∨ d.frameRetired p g) :
    (l.foldl (fun d f => d.retireFrame p f) d).frameRetired p g := by
  induction l generalizing d with
  | nil => exact h.resolve_left (by simp)
  | cons f l ih =>
    refine ih (d.retireFrame p f) ?_
    rw [Dev.frameRetired_retireFrame]
    rw [List.mem_cons] at h
    tauto

/-! ### Quarry writes leave the retired frames -/

@[simp] theorem frames_hbmWrite (P : Pier) (l : Nat) (c : BitVec 576) : (hbmWrite P l c).mem.frames = P.mem.frames := by
  unfold hbmWrite
  split <;> rfl

@[simp] theorem frames_mergeOut (P : Pier) (e : MergeLine) : (mergeOut P e).mem.frames = P.mem.frames :=
  frames_hbmWrite _ _ _

@[simp] theorem frames_mergePut (P : Pier) (e : MergeLine) : (mergePut P e).mem.frames = P.mem.frames := by
  unfold mergePut
  dsimp only
  split
  · rfl
  · split
    · rfl
    · split
      · exact frames_mergeOut _ _
      · rfl

@[simp] theorem frames_lineFetch (P : Pier) (m : Master) (l : Nat) : (lineFetch P m l).2.mem.frames = P.mem.frames := by
  unfold lineFetch
  split
  · rfl
  · dsimp only
    split <;> rfl

@[simp] theorem frames_lineWrite (P : Pier) (m : Master) (stream : Bool) (l : Nat) (ws : List LineWrite) :
    (lineWrite P m stream l ws).2.mem.frames = P.mem.frames := by
  unfold lineWrite
  split
  · exact frames_hbmWrite _ _ _
  · dsimp only
    split <;> exact (frames_mergePut _ _).trans (frames_lineFetch _ _ _)

@[simp] theorem frames_gatewayQuarry (l : List (Nat × Word × Bool)) (P : Pier) : (gatewayQuarry P l).mem.frames = P.mem.frames := by
  induction l generalizing P with
  | nil => rfl
  | cons x l ih =>
    obtain ⟨a, w, rub⟩ := x
    unfold gatewayQuarry
    generalize (a - quarryBase) / 15 = line
    generalize (a - quarryBase) % 15 = pos
    rw [ih, frames_lineWrite]

@[simp] theorem frames_zeroLines (P : Pier) (lo hi : Nat) : (zeroLines P lo hi).mem.frames = P.mem.frames := rfl

@[simp] theorem frames_writeEntry (kek : List Byte) (e : KeyEntry) (P : Pier) : (writeEntry kek e P).mem.frames = P.mem.frames := by
  unfold writeEntry
  refine (List.foldlRecOn e.blobLines.zipIdx _ (motive := fun Q : Pier => Q.mem.frames = P.mem.frames) ?_ fun Q hQ b _ => ?_)
  · exact frames_hbmWrite _ _ _
  · exact (frames_hbmWrite _ _ _).trans hQ

@[simp] theorem frames_rewriteEntry (d : Dev) (h : Nat) (P : Pier) : (d.rewriteEntry h P).mem.frames = P.mem.frames := by
  unfold Dev.rewriteEntry
  split
  · exact frames_writeEntry _ _ _
  · rfl

/-- The retired frames of a pier and the flash are as before. -/
def Dev.keepsFrames (d e : Dev) (p : Fin 16) : Prop :=
  (e.pier p).mem.frames = (d.pier p).mem.frames ∧ e.flash = d.flash

theorem Dev.keepsFrames_onPier (d : Dev) (p : Fin 16) {f : Pier → Pier} (h : ∀ P, (f P).mem.frames = P.mem.frames) :
    d.keepsFrames (d.onPier p f) p :=
  ⟨by rw [Dev.pier_onPier_self, h], rfl⟩

/-- A line of the device reserve rewritten retires nothing (R458). -/
theorem Dev.rewriteReserve_keepsFrames (d : Dev) (p : Fin 16) (l : Nat) : d.keepsFrames (d.rewriteReserve p l) p := by
  unfold Dev.rewriteReserve
  dsimp only
  split
  · exact d.keepsFrames_onPier p (frames_rewriteEntry d _)
  · split
    · split
      · exact d.keepsFrames_onPier p (frames_rewriteEntry d _)
      · exact d.keepsFrames_onPier p fun P => frames_zeroLines P _ _
    · unfold Dev.rewriteTables
      split
      · exact d.keepsFrames_onPier p fun P => (frames_gatewayQuarry _ _).trans (frames_zeroLines P _ _)
      · exact d.keepsFrames_onPier p fun P => (frames_gatewayQuarry _ _).trans (frames_zeroLines P _ _)

/-! ### RETIREMENT_ACTION (R458, log 74) -/

/-- Whether a correction-log entry advises a retirement (R457). -/
def Dev.advised (d : Dev) (p e : Fin 16) : Prop := d.fc.clog[p][e].val = true ∧ d.fc.clog[p][e].adv = true

section Commands

variable {p e : Fin 16} {s : State}

/-- RETIREMENT_ACTION on an entry without advice looks for banks to retire (log 74). -/
theorem answers_retirementAction_of_not (h : ¬ s.dev.advised p e) : Answers (.retirementAction p e) s (s.dev.retireBanks p) := by
  have hc : (!s.dev.fc.clog[p][e].val || !s.dev.fc.clog[p][e].adv) = true := by
    rw [Dev.advised, not_and_or] at h
    simpa using h
  exact if_pos hc

/-- What RETIREMENT_ACTION retires or rewrites for an entry of advice, before it frees the entry. -/
def Dev.actOn (d : Dev) (p : Fin 16) (qy : Bool) (a : Nat) : Dev :=
  if !qy then (d.retireFrame p (a / 64)).retireFull p (bankOf a)
  else if a < partitionLines then
    (((List.range 15).map (fun i => (quarryBase + 15 * a + i) / 64)).eraseDups).foldl (fun d f => d.retireFrame p f) d
  else d.rewriteReserve p a

theorem answers_retirementAction (h : s.dev.advised p e) : Answers (.retirementAction p e) s
    ((s.dev.actOn p s.dev.fc.clog[p][e].qy s.dev.fc.clog[p][e].addr.toNat).clogWrite p e 0x80000000#32) := by
  have hc : ¬ (!s.dev.fc.clog[p][e].val || !s.dev.fc.clog[p][e].adv) = true := by
    obtain ⟨hv, ha⟩ := h
    rw [hv, ha]
    decide
  exact if_neg hc

end Commands

/-- The frame of a bank word that is retired (R458). -/
theorem Dev.actOn_bank (d : Dev) (p : Fin 16) (a : Nat) : (d.actOn p false a).frameRetired p (a / 64) := by
  obtain ⟨hf, hl⟩ := Dev.frameRetired_retireFrame.2 (.inl rfl : a / 64 = a / 64 ∨ d.frameRetired p (a / 64))
  obtain ⟨-, -, -, -, hfr, hre⟩ := (d.retireFrame p (a / 64)).retireFull_spec p (bankOf a)
  rw [← hfr] at hf
  rw [← hre] at hl
  exact ⟨hf, hl⟩

/-- The frames of a partition line that are retired (R458). -/
theorem Dev.actOn_line (d : Dev) (p : Fin 16) {a i : Nat} (ha : a < partitionLines) (hi : i < 15) :
    (d.actOn p true a).frameRetired p ((quarryBase + 15 * a + i) / 64) := by
  simp only [Dev.actOn, Bool.not_true, Bool.false_eq_true, if_false, if_pos ha]
  refine Dev.foldl_retireFrame p _ d _ (.inl (List.mem_eraseDups.2 (List.mem_map.2 ⟨i, List.mem_range.2 hi, rfl⟩)))

theorem Dev.actOn_reserve (d : Dev) (p : Fin 16) {a : Nat} (ha : partitionLines ≤ a) : d.keepsFrames (d.actOn p true a) p := by
  simp only [Dev.actOn, Bool.not_true, Bool.false_eq_true, if_false, if_neg (Nat.not_lt.2 ha)]
  exact d.rewriteReserve_keepsFrames p a

/-- An entry of the correction log freed leaves piers and flash. -/
theorem Dev.clogWrite_frame (d : Dev) (p e q : Fin 16) {v : DW} (h : v.getLsbD 31 = true) :
    ((d.clogWrite p e v).pier q = d.pier q) ∧ (d.clogWrite p e v).flash = d.flash := by
  rw [Dev.clogWrite_of_val h]
  exact ⟨rfl, rfl⟩

/-- RETIREMENT_ACTION without advice, no bank being due. -/
theorem retirementAction_idle {p e : Fin 16} {s : State} (h : ¬ s.dev.advised p e) (hd : ∀ b, (s.dev.pier p).bankDue b = false) :
    Answers (.retirementAction p e) s s.dev := by
  have ha := answers_retirementAction_of_not h
  rwa [Dev.retireBanks_of_not hd] at ha

/-- RETIREMENT_ACTION without advice retires the banks that are due. -/
theorem retirementAction_banks {p e : Fin 16} {s : State} (h : ¬ s.dev.advised p e) :
    AnswersWith (.retirementAction p e) s (fun d => ∀ b : Fin 16,
      (d.pier p).regs.retire.getLsbD b.val = ((s.dev.pier p).regs.retire.getLsbD b.val || (s.dev.pier p).bankDue b) ∧
      ((s.dev.pier p).bankDue b = true → (p, b) ∈ d.flash.retiredBanks)) := by
  refine (answers_retirementAction_of_not h).answersWith fun b => ?_
  obtain ⟨hr, hnew, -⟩ := Dev.foldl_retireFull p (List.finRange 16) s.dev b
  rw [decide_eq_true (List.mem_finRange b), Bool.true_and] at hr
  unfold Dev.retireBanks
  exact ⟨hr, hnew (List.mem_finRange b)⟩

/-- RETIREMENT_ACTION on an entry of advice. -/
theorem retirementAction_advised {p e : Fin 16} {s : State} (h : s.dev.advised p e) :
    let a := s.dev.fc.clog[p][e].addr.toNat
    AnswersWith (.retirementAction p e) s (fun d => d.fc.clog[p][e] = {} ∧
      (s.dev.fc.clog[p][e].qy = false → a / 64 ∈ (d.pier p).mem.frames ∧ (p, a / 64) ∈ d.flash.retired) ∧
      (s.dev.fc.clog[p][e].qy = true → a < partitionLines → ∀ i, i < 15 →
        (quarryBase + 15 * a + i) / 64 ∈ (d.pier p).mem.frames ∧ (p, (quarryBase + 15 * a + i) / 64) ∈ d.flash.retired) ∧
      (s.dev.fc.clog[p][e].qy = true → partitionLines ≤ a →
        (d.pier p).mem.frames = (s.dev.pier p).mem.frames ∧ d.flash = s.dev.flash)) := by
  intro a
  refine (answers_retirementAction h).answersWith ⟨(Dev.clogWrite_clog (by decide) _ p e).1, ?_⟩
  obtain ⟨hp, hl⟩ := Dev.clogWrite_frame (s.dev.actOn p s.dev.fc.clog[p][e].qy a) p e p (v := 0x80000000#32) (by decide)
  rw [hp, hl]
  refine ⟨fun hq => ?_, fun hq ha i hi => ?_, fun hq ha => ?_⟩ <;> rw [hq]
  · exact s.dev.actOn_bank p a
  · exact s.dev.actOn_line p ha hi
  · exact s.dev.actOn_reserve p ha

end Sys2Proof.Machine
end

section
/-! Telemetry, temperatures and current (R451, R452, R455, R474). -/

namespace Sys2Proof.Machine

open Sys2Proof

/-! ### Telemetry (R455) -/

/-- When TELEMETRY_PERIOD forms an entry (R455). -/
def Dev.telemetryDue (d : Dev) : Prop := d.fc.telemAt + 25000 * d.fc.period.toNat ≤ d.now ∧ d.board.porLow = false

theorem Dev.telemetryDue_iff (d : Dev) :
    d.telemetryDue ↔ (d.fc.telemAt + 25000 * d.fc.period.toNat ≤ d.now && !d.board.porLow) = true := by
  simp only [Dev.telemetryDue, Bool.and_eq_true, decide_eq_true_eq, Bool.not_eq_true']

theorem answers_telemetryPeriod_of_not {s : State} (h : ¬ s.dev.telemetryDue) : Answers .telemetryPeriod s s.dev :=
  congrArg s.answer (if_neg (mt s.dev.telemetryDue_iff.2 h))

theorem telemetryPeriod_forms {s : State} (h : s.dev.telemetryDue) : AnswersWith .telemetryPeriod s (fun d =>
    d.fc.telemAt = s.dev.now ∧ d.fc.dieMax = none ∧ d.audit.eseq = s.dev.audit.eseq + 1 ∧ d.items = s.dev.items) := by
  obtain ⟨hp, n, e, -⟩ := Dev.fcEntry_frame s.dev 2 s.dev.telemetryBody
  refine Answers.answersWith (congrArg s.answer (if_pos (s.dev.telemetryDue_iff.1 h))) ?_
  rw [e]
  exact ⟨rfl, rfl, rfl, rfl⟩

/-! ### Open records of a region (R448) -/

theorem Dev.openOf_eq_none_iff {d : Dev} {g : Nat} :
    d.openOf g = none ↔ ∀ k, (d.frec k).opened = true → (d.frec k).region.toNat ≠ g := by
  simp [Dev.openOf]

theorem Dev.of_openOf {d : Dev} {g : Nat} {k : Fin 64} (h : d.openOf g = some k) :
    (d.frec k).opened = true ∧ (d.frec k).region.toNat = g := by
  simpa using List.find?_some h

/-- A record replaced by one that is as open and of the same region leaves every region as open as it was. -/
theorem Dev.openOf_setFrec_eq_none {d : Dev} {g : Nat} {k : Fin 64} {r : FRec} (h : d.openOf g = none)
    (hr : r.opened = true → r.region.toNat ≠ g) : (d.setFrec k r).openOf g = none := by
  rw [Dev.openOf_eq_none_iff] at h ⊢
  intro j
  by_cases hj : j = k
  · subst hj
    rwa [Dev.frec_setFrec_self]
  · rw [Dev.frec_setFrec_of_ne _ _ hj]
    exact h j

/-! ### What storing a detection leaves (R448 to R450, R455) -/

/-- What the record of a detection of region `g` leaves: the samples, the reactions and the power control are as before, and a
region other than `g` without an open record stays without. -/
structure Dev.Notes (g : Nat) (d e : Dev) : Prop where
  fc : ∃ rs a b n, e.fc = { d.fc with recs := rs, newRid := a, newSlot := b, lost := n }
  pw : e.pw = d.pw
  elsewhere : ∀ j, j ≠ g → d.openOf j = none → e.openOf j = none

theorem Dev.Notes.refl (g : Nat) (d : Dev) : Dev.Notes g d d := ⟨⟨_, _, _, _, rfl⟩, rfl, fun _ _ h => h⟩

theorem Dev.Notes.setFrec {g : Nat} (d : Dev) (k : Fin 64) (r : FRec) (h : r.opened = true → r.region.toNat = g) :
    Dev.Notes g d (d.setFrec k r) :=
  ⟨⟨_, _, _, _, rfl⟩, rfl, fun _ hj ho => Dev.openOf_setFrec_eq_none ho fun hr e => hj (e.symm.trans (h hr))⟩

/-- A record of before, changed but as open and of the same region. -/
theorem Dev.Notes.updateFrec (g : Nat) (d : Dev) (k : Fin 64) {r : FRec} (ho : r.opened = (d.frec k).opened)
    (hr : r.region = (d.frec k).region) : Dev.Notes g d (d.setFrec k r) :=
  ⟨⟨_, _, _, _, rfl⟩, rfl, fun _ _ h => Dev.openOf_setFrec_eq_none h
    (by rw [ho, hr]; exact Dev.openOf_eq_none_iff.1 h k)⟩

theorem FRec.mergeCount_spec (r : FRec) (x : Detection) (now : Nat) :
    (r.mergeCount x now).opened = r.opened ∧ (r.mergeCount x now).region = r.region ∧ (r.mergeCount x now).cls = r.cls := by
  unfold FRec.mergeCount
  dsimp only
  split <;> exact ⟨rfl, rfl, rfl⟩

theorem FRec.merge_spec (r : FRec) (x : Detection) (now : Nat) :
    (r.merge x now).opened = r.opened ∧ (r.merge x now).region = r.region ∧ (r.merge x now).cls = r.cls := by
  have h := r.mergeCount_spec x now
  unfold FRec.merge
  dsimp only
  split
  · exact h
  · split <;> exact h

/-- A record entered in the fault stream and the fault log: host side, event numbers and flash alone change. -/
theorem Dev.logged_frame (d : Dev) (q r : FRec) :
    ∃ h au fl, (d.entry1 q).logFault r = { d with host := h, audit := au, flash := fl } := by
  obtain ⟨h, n, e, -⟩ := Dev.fcEntry_frame d 1 (q.dws.flatMap (fun w => leBytes 4 w.toNat))
  have e : d.entry1 q = _ := e
  unfold Dev.logFault
  rw [e]
  split
  · exact ⟨_, _, d.flash, rfl⟩
  · exact ⟨_, _, _, rfl⟩

theorem Dev.Notes.logged {g : Nat} {d e : Dev} (h : Dev.Notes g d e) (q r : FRec) : Dev.Notes g d ((e.entry1 q).logFault r) := by
  obtain ⟨hp, au, fl, eq⟩ := Dev.logged_frame e q r
  rw [eq]
  exact ⟨h.fc, h.pw, h.elsewhere⟩

/-- The record that a detection opens (R448). -/
def Dev.freshRec (d : Dev) (x : Detection) (cls : Nat) : FRec :=
  { val := true, opened := true, levels := if x.level then [x.cause] else [], cls := BitVec.ofNat 3 cls, region := x.region,
    cause := x.cause, count := 1, rid := d.fc.newRid + 1, detail := x.detail, detail2 := x.detail2, tFirst := d.now,
    tLast := d.now, tClear := d.now, closedAt := 0 }

/-- A detection without an open record is lost or takes a slot (R448, R450). -/
theorem Dev.newRec_frame (d : Dev) (x : Detection) (cls : Nat) : ∃ h au fl a b n, d.newRec x cls true =
      { d with fc := { d.fc with lost := n }, host := h, audit := au, flash := fl } ∨
    ∃ k, d.newRec x cls true = { d.setFrec k (d.freshRec x cls) with
      fc := { (d.setFrec k (d.freshRec x cls)).fc with newRid := a, newSlot := b }, host := h, audit := au, flash := fl } := by
  unfold Dev.newRec
  split
  · exact ⟨d.host, d.audit, d.flash, d.fc.newRid, d.fc.newSlot, _, .inl rfl⟩
  · next k _ =>
    obtain ⟨h, au, fl, e⟩ := Dev.logged_frame { d.setFrec k (d.freshRec x cls) with
      fc := { (d.setFrec k (d.freshRec x cls)).fc with newRid := d.fc.newRid + 1, newSlot := BitVec.ofNat 6 k.val } }
      (d.freshRec x cls) (d.freshRec x cls)
    exact ⟨h, au, fl, _, _, d.fc.lost, .inr ⟨k, e⟩⟩

theorem Dev.newRec_notes (d : Dev) (x : Detection) (cls : Nat) : Dev.Notes x.region.toNat d (d.newRec x cls true) := by
  obtain ⟨h, au, fl, a, b, n, e | ⟨k, e⟩⟩ := d.newRec_frame x cls
  · rw [e]
    exact ⟨⟨_, _, _, _, rfl⟩, rfl, fun _ _ ho => ho⟩
  · rw [e]
    exact ⟨⟨_, _, _, _, rfl⟩, rfl, (Dev.Notes.setFrec d k (d.freshRec x cls) fun _ => rfl).elsewhere⟩

/-- The record that a region has after its first detection is the new one. -/
theorem Dev.frec_newRec {d : Dev} {x : Detection} {cls : Nat} {k : Fin 64} (h : d.openOf x.region.toNat = none)
    (hk : (d.newRec x cls true).openOf x.region.toNat = some k) : (d.newRec x cls true).frec k = d.freshRec x cls := by
  obtain ⟨hp, au, fl, a, b, n, e | ⟨j, e⟩⟩ := d.newRec_frame x cls
  · rw [e] at hk
    exact absurd (h.symm.trans hk) (by simp)
  · obtain ⟨ho, hr⟩ := Dev.of_openOf hk
    have hf : ∀ i, (d.newRec x cls true).frec i = (d.setFrec j (d.freshRec x cls)).frec i := by
      intro i
      rw [e]
      rfl
    rw [hf] at ho hr ⊢
    by_cases hj : k = j
    · subst hj
      exact d.frec_setFrec_self k _
    · rw [Dev.frec_setFrec_of_ne _ _ hj] at ho hr
      exact absurd hr (Dev.openOf_eq_none_iff.1 h k ho)

/-! ### A detection recorded (R448, R451 to R453) -/

/-- A detection of a class above CONTAIN in a region without an open record, outside a HALT. -/
theorem Dev.record_of_none {d : Dev} {x : Detection} {cls : Nat} (hcls : 2 < cls) (hh : d.fc.halt = false)
    (ho : d.openOf x.region.toNat = none) :
    d.record x cls = (d.newRec x cls true).react cls x.cause.toNat x.region.toNat := by
  have h2 : decide (cls = 2) = false := decide_eq_false (by omega)
  simp only [Dev.record, hh, ho, h2, Bool.false_and, Bool.not_false, Bool.false_eq_true, if_false]

/-- The record of a detection that raises its class, stored and logged (R448, R450). -/
def Dev.raiseClass (d : Dev) (x : Detection) (cls : Nat) (k : Fin 64) : Dev :=
  let r := { (d.frec k).merge x d.now with cls := BitVec.ofNat 3 cls }
  ((d.setFrec k r).entry1 r).logFault r

theorem Dev.raiseClass_notes (d : Dev) (x : Detection) (cls : Nat) (k : Fin 64) (g : Nat) :
    Dev.Notes g d (d.raiseClass x cls k) := by
  obtain ⟨h1, h2, -⟩ := (d.frec k).merge_spec x d.now
  exact Dev.Notes.logged (.updateFrec (r := { (d.frec k).merge x d.now with cls := BitVec.ofNat 3 cls }) g d k h1 h2) _ _

/-- A detection of a class above CONTAIN in a region with an open record, outside a HALT. -/
theorem Dev.record_of_some {d : Dev} {x : Detection} {cls : Nat} {k : Fin 64} (hcls : 2 < cls) (hh : d.fc.halt = false)
    (ho : d.openOf x.region.toNat = some k) : d.record x cls =
      if (d.frec k).inShadow then d.setFrec k ((d.frec k).mergeCount x d.now)
      else if cls ≤ ((d.frec k).merge x d.now).cls.toNat then d.setFrec k ((d.frec k).merge x d.now)
      else (d.raiseClass x cls k).react cls x.cause.toNat x.region.toNat := by
  have h2 : decide (cls = 2) = false := decide_eq_false (by omega)
  simp only [Dev.record, Dev.raiseClass, hh, ho, h2, Bool.false_and, Bool.false_eq_true, if_false]

/-- A detection of a class above CONTAIN is stored, and its reaction is taken at most once and never in a HALT. -/
theorem Dev.record_cases (d : Dev) (x : Detection) {cls : Nat} (hcls : 2 < cls) : ∃ e, Dev.Notes x.region.toNat d e ∧
    (d.record x cls = e ∨ d.fc.halt = false ∧ d.record x cls = e.react cls x.cause.toNat x.region.toNat) := by
  by_cases hh : d.fc.halt = true
  · refine ⟨d.record x cls, ?_, .inl rfl⟩
    simp only [Dev.record, hh, if_true]
    split
    · next k _ =>
      obtain ⟨h1, h2, -⟩ := (d.frec k).mergeCount_spec x d.now
      exact .updateFrec _ d k h1 h2
    · exact .refl _ d
  · rw [Bool.not_eq_true] at hh
    cases ho : d.openOf x.region.toNat with
    | none => exact ⟨_, d.newRec_notes x cls, .inr ⟨hh, Dev.record_of_none hcls hh ho⟩⟩
    | some k =>
      obtain ⟨h1, h2, -⟩ := (d.frec k).merge_spec x d.now
      rw [Dev.record_of_some hcls hh ho]
      split
      · obtain ⟨c1, c2, -⟩ := (d.frec k).mergeCount_spec x d.now
        exact ⟨_, .updateFrec _ d k c1 c2, .inl rfl⟩
      · split
        · exact ⟨_, .updateFrec _ d k h1 h2, .inl rfl⟩
        · exact ⟨_, d.raiseClass_notes x cls k _, .inr ⟨hh, rfl⟩⟩

/-! ### What a sample's reactions leave (R451, R452) -/

/-- The sample, its runs and the ceiling are as before; a HOLD or a HALT that stands still stands. -/
structure Dev.Watches (d e : Dev) : Prop where
  sample : e.fc.sample = d.fc.sample
  hotRun : e.fc.hotRun = d.fc.hotRun
  overRun : e.fc.overRun = d.fc.overRun
  ceiling : e.pw.ceiling = d.pw.ceiling
  hold : d.fc.hold = true → e.fc.hold = true
  halt : d.fc.halt = true → e.fc.halt = true

theorem Dev.Watches.refl (d : Dev) : d.Watches d := ⟨rfl, rfl, rfl, rfl, id, id⟩

theorem Dev.Watches.trans {d e f : Dev} (h : d.Watches e) (h2 : e.Watches f) : d.Watches f :=
  ⟨h2.sample.trans h.sample, h2.hotRun.trans h.hotRun, h2.overRun.trans h.overRun, h2.ceiling.trans h.ceiling,
    fun hd => h2.hold (h.hold hd), fun hd => h2.halt (h.halt hd)⟩

theorem Dev.Notes.watches {g : Nat} {d e : Dev} (h : Dev.Notes g d e) : d.Watches e := by
  obtain ⟨rs, a, b, n, hfc⟩ := h.fc
  exact ⟨by rw [hfc], by rw [hfc], by rw [hfc], by rw [h.pw], by rw [hfc]; exact id, by rw [hfc]; exact id⟩

theorem Dev.Notes.halt {g : Nat} {d e : Dev} (h : Dev.Notes g d e) : e.fc.halt = d.fc.halt := by
  obtain ⟨rs, a, b, n, hfc⟩ := h.fc
  rw [hfc]

/-- The reaction of class HOLD: the device holds, its records and its HALT state stand. -/
theorem Dev.react_hold (d : Dev) (cause g : Nat) : d.Watches (d.react 3 cause g) ∧ (d.react 3 cause g).fc.hold = true ∧
    (d.react 3 cause g).fc.halt = d.fc.halt ∧ (d.react 3 cause g).fc.recs = d.fc.recs := by
  by_cases h : d.fc.hold = true
  · have e : d.react 3 cause g = d := if_pos h
    rw [e]
    exact ⟨.refl d, h, rfl, rfl⟩
  · have e : d.react 3 cause g = ({ d with fc := { d.fc with hold := true } } : Dev).alertUp := if_neg h
    rw [e]
    exact ⟨⟨rfl, rfl, rfl, rfl, fun _ => rfl, id⟩, rfl, rfl, rfl⟩

theorem Dev.endItem16_watches (d : Dev) (i : Item) (st r : Nat) : d.Watches (d.endItem16 i st r) := by
  obtain ⟨its, q, au, fl, ks, bd, lf, e, -⟩ := d.record16_frame { i with
      status := BitVec.ofNat 8 st, result := BitVec.ofNat 8 r, outLen := 0, output := [], rdata6 := 0, rdata7 := 0 }
  have e : d.endItem16 i st r = _ := e
  rw [e]
  exact ⟨rfl, rfl, rfl, rfl, id, id⟩

/-- Items without a record that end with DEVICE_HALT (R452). -/
theorem Dev.endUnrecorded_watches (l : List Item) (d : Dev) :
    d.Watches (l.foldl (fun d i => if i.isRecorded then d else d.endItem16 i 0x30 0) d) := by
  induction l generalizing d with
  | nil => exact .refl d
  | cons i l ih =>
    rw [List.foldl_cons]
    split
    · exact ih d
    · exact (d.endItem16_watches i 0x30 0).trans (ih _)

/-- The start of a HALT: its state and its signals, no fetching, and every pier stopped (R452). -/
def Dev.haltStart (d : Dev) (cause : Nat) : Dev :=
  let hard := cause = 0x19 || cause = 0x1B
  let d := d.alertUp.abandonFetches
  ({ d with
    fc := { d.fc with halt := true, haltHard := hard, halt1B := cause = 0x1B, haltStep2 := !hard, dieTrip := cause = 0x1F }
    board := { d.board with fault := true, ready := false } } : Dev).haltPiers

/-- The work that a HALT drops before the items end (R452). -/
def Dev.dropWork (d : Dev) : Dev :=
  { d with
    changes := [], setter := { d.setter with batches := [], preempts := [] }
    audit := { d.audit with sealNow := [] }
    life := { d.life with testWait := none, destroying := none } }

theorem Dev.haltNow_eq {d : Dev} (h : d.fc.halt = false) (cause : Nat) : d.haltNow cause =
    if cause = 0x19 || cause = 0x1B then (d.haltStart cause).dropAll
    else (d.haltStart cause).items.foldl (fun d i => if i.isRecorded then d else d.endItem16 i 0x30 0)
      (d.haltStart cause).dropWork := by
  unfold Dev.haltNow
  rw [h]
  rfl

theorem Dev.haltStart_watches (d : Dev) (cause : Nat) : d.Watches (d.haltStart cause) ∧ (d.haltStart cause).fc.halt = true :=
  ⟨⟨rfl, rfl, rfl, rfl, id, fun _ => rfl⟩, rfl⟩

/-- A HALT (R452). -/
theorem Dev.haltNow_watches (d : Dev) (cause : Nat) : d.Watches (d.haltNow cause) ∧ (d.haltNow cause).fc.halt = true := by
  by_cases hh : d.fc.halt = true
  · have e : d.haltNow cause = d := if_pos hh
    rw [e]
    exact ⟨.refl d, hh⟩
  · obtain ⟨hw, ht⟩ := d.haltStart_watches cause
    rw [Dev.haltNow_eq (Bool.not_eq_true _ ▸ hh)]
    split
    · have hd : (d.haltStart cause).Watches (d.haltStart cause).dropAll := ⟨rfl, rfl, rfl, rfl, id, id⟩
      exact ⟨hw.trans hd, hd.halt ht⟩
    · have hd : (d.haltStart cause).Watches (d.haltStart cause).dropWork := ⟨rfl, rfl, rfl, rfl, id, id⟩
      have hi := hd.trans (Dev.endUnrecorded_watches (d.haltStart cause).items _)
      exact ⟨hw.trans hi, hi.halt ht⟩

/-! ### A level of the frontage raised (R445, R449) -/

/-- A level that a frontage detector reports. -/
def levelDetection (cause region detail detail2 : Nat) : Detection :=
  { mkDetection cause region detail detail2 with level := true }

/-- The levels of R474: their causes, their regions and their classes, HOLD or HALT (R447). -/
structure SampleLevel (cause region cls : Nat) : Prop where
  region_ge : 16 ≤ region
  region_lt : region < 32
  cause_lt : cause < 256
  cause_ne : cause ≠ 0x1A
  cls_eq : causeClass cause region = cls

theorem SampleLevel.detected {c g cls : Nat} (h : SampleLevel c g cls) (d : Dev) (x y : Nat) :
    d.detected (levelDetection c g x y) = d.record (levelDetection c g x y) cls := by
  have hr : (levelDetection c g x y).region.toNat = g := Nat.mod_eq_of_lt h.region_lt
  have hc : (levelDetection c g x y).cause.toNat = c := Nat.mod_eq_of_lt h.cause_lt
  have hs : ∀ e : Dev, e.sideEffects (levelDetection c g x y) = e := by
    intro e
    unfold Dev.sideEffects
    simp only [hr, hc, h.cause_ne, if_false, dif_neg (Nat.not_lt.2 h.region_ge)]
  rw [Dev.detected, hs, hr, hc, h.cls_eq]

/-- A level raised: it is stored, and its reaction is taken at most once and never in a HALT. -/
theorem SampleLevel.raiseLevel_cases {c g cls : Nat} (h : SampleLevel c g cls) (h2 : 2 < cls) (d : Dev) (x y : Nat) :
    ∃ e, Dev.Notes g d e ∧ (d.raiseLevel c g x y = e ∨ d.fc.halt = false ∧ d.raiseLevel c g x y = e.react cls c g) := by
  have hr : (levelDetection c g x y).region.toNat = g := Nat.mod_eq_of_lt h.region_lt
  have hc : (levelDetection c g x y).cause.toNat = c := Nat.mod_eq_of_lt h.cause_lt
  have hrec := d.record_cases (levelDetection c g x y) h2
  rw [hr, hc, ← h.detected d x y] at hrec
  unfold Dev.raiseLevel
  split
  · split
    · exact ⟨d, .refl g d, .inl rfl⟩
    · exact hrec
  · exact hrec

/-- A first level of a region outside a HALT takes its reaction. -/
theorem SampleLevel.raiseLevel_of_none {c g cls : Nat} (h : SampleLevel c g cls) (h2 : 2 < cls) {d : Dev} (x y : Nat)
    (hh : d.fc.halt = false) (ho : d.openOf g = none) :
    d.raiseLevel c g x y = (d.newRec (levelDetection c g x y) cls true).react cls c g := by
  have hr : (levelDetection c g x y).region.toNat = g := Nat.mod_eq_of_lt h.region_lt
  have hc : (levelDetection c g x y).cause.toNat = c := Nat.mod_eq_of_lt h.cause_lt
  have hrec := Dev.record_of_none (x := levelDetection c g x y) h2 hh (by rw [hr]; exact ho)
  rw [hr, hc, ← h.detected d x y] at hrec
  unfold Dev.raiseLevel
  rw [ho]
  exact hrec

/-- A level of class HOLD raised. -/
theorem SampleLevel.raise_hold {c g : Nat} (h : SampleLevel c g 3) (d : Dev) (x y : Nat) :
    d.Watches (d.raiseLevel c g x y) ∧ (d.raiseLevel c g x y).fc.halt = d.fc.halt ∧
    (∀ j, j ≠ g → d.openOf j = none → (d.raiseLevel c g x y).openOf j = none) ∧
    (d.fc.halt = false → d.openOf g = none → (d.raiseLevel c g x y).fc.hold = true) := by
  have hhold : d.fc.halt = false → d.openOf g = none → (d.raiseLevel c g x y).fc.hold = true := by
    intro hh ho
    rw [h.raiseLevel_of_none (by decide) x y hh ho]
    exact (Dev.react_hold _ c g).2.1
  obtain ⟨e, hn, he | ⟨-, he⟩⟩ := h.raiseLevel_cases (by decide) d x y
  · rw [he] at hhold ⊢
    exact ⟨hn.watches, hn.halt, hn.elsewhere, hhold⟩
  · obtain ⟨hw, -, hha, hrs⟩ := e.react_hold c g
    rw [he] at hhold ⊢
    exact ⟨hn.watches.trans hw, hha.trans hn.halt, fun j hj ho => (Dev.openOf_congr hrs j).trans (hn.elsewhere j hj ho), hhold⟩

theorem SampleLevel.dieWarning : SampleLevel 0x1E 21 3 := ⟨by decide, by decide, by decide, by decide, rfl⟩
theorem SampleLevel.dieTrip : SampleLevel 0x1F 21 4 := ⟨by decide, by decide, by decide, by decide, rfl⟩
theorem SampleLevel.stack0 : SampleLevel 0x17 19 3 := ⟨by decide, by decide, by decide, by decide, rfl⟩
theorem SampleLevel.stack1 : SampleLevel 0x17 20 3 := ⟨by decide, by decide, by decide, by decide, rfl⟩
theorem SampleLevel.current : SampleLevel 0x20 21 3 := ⟨by decide, by decide, by decide, by decide, rfl⟩

/-- A device on which a die trip brings a HALT: it is not in one, and the frontage has no open record but a HOLD record out of its
shadow that does not hold the trip. -/
def Dev.tripReady (d : Dev) : Prop := d.fc.halt = false ∧ ∀ k, d.openOf 21 = some k →
  (d.frec k).shadow = none ∧ (d.frec k).cls = 3#3 ∧ (d.frec k).levels.contains 0x1F#8 = false

/-- The die warning leaves the device ready for the trip. -/
theorem Dev.tripReady_dieWarning {d : Dev} (x y : Nat) (hh : d.fc.halt = false) (ho : d.openOf 21 = none) :
    (d.raiseLevel 0x1E 21 x y).tripReady := by
  refine ⟨(SampleLevel.dieWarning.raise_hold d x y).2.1.trans hh, fun k hk => ?_⟩
  rw [SampleLevel.dieWarning.raiseLevel_of_none (by decide) x y hh ho] at hk ⊢
  obtain ⟨-, -, -, hrs⟩ := Dev.react_hold (d.newRec (levelDetection 0x1E 21 x y) 3 true) 0x1E 21
  rw [Dev.openOf_congr hrs] at hk
  have hf : ((d.newRec (levelDetection 0x1E 21 x y) 3 true).react 3 0x1E 21).frec k = d.freshRec (levelDetection 0x1E 21 x y) 3 :=
    (congrArg (fun rs : Vector FRec 64 => rs[k]) hrs).trans (Dev.frec_newRec ho hk)
  rw [hf]
  exact ⟨rfl, rfl, rfl⟩

/-- The die trip: the device is in HALT where it was ready for it. -/
theorem Dev.dieTrip_spec (d : Dev) (x y : Nat) : d.Watches (d.raiseLevel 0x1F 21 x y) ∧
    (d.tripReady → (d.raiseLevel 0x1F 21 x y).fc.halt = true) := by
  have hreact : ∀ e : Dev, e.react 4 0x1F 21 = e.haltNow 0x1F := fun _ => rfl
  constructor
  · obtain ⟨e, hn, he | ⟨-, he⟩⟩ := SampleLevel.dieTrip.raiseLevel_cases (by decide) d x y <;> rw [he]
    · exact hn.watches
    · rw [hreact]
      exact hn.watches.trans (e.haltNow_watches 0x1F).1
  · rintro ⟨hh, hready⟩
    cases ho : d.openOf 21 with
    | none =>
      rw [SampleLevel.dieTrip.raiseLevel_of_none (by decide) x y hh ho, hreact]
      exact (Dev.haltNow_watches _ 0x1F).2
    | some k =>
      obtain ⟨hsh, hcls, hlv⟩ := hready k ho
      have hm : ((d.frec k).merge (levelDetection 0x1F 21 x y) d.now).cls = 3#3 := (FRec.merge_spec _ _ _).2.2.trans hcls
      have e : d.raiseLevel 0x1F 21 x y = d.record (levelDetection 0x1F 21 x y) 4 := by
        rw [← SampleLevel.dieTrip.detected]
        unfold Dev.raiseLevel
        rw [ho]
        exact if_neg (by rw [hlv]; decide)
      have hns : (d.frec k).inShadow = false := by rw [FRec.inShadow, hsh]; rfl
      rw [e, Dev.record_of_some (x := levelDetection 0x1F 21 x y) (cls := 4) (by decide) hh ho, hns, hm]
      exact (Dev.haltNow_watches _ 0x1F).2

/-! ### A level fallen (R449) -/

theorem FRec.fall_spec (r : FRec) (c : Byte) (now : Nat) : (r.fall c now).opened = r.opened ∧ (r.fall c now).region = r.region := by
  unfold FRec.fall
  split <;> exact ⟨rfl, rfl⟩

/-- What the fall of a level makes of a record: an open one of the region may lose the level. -/
def FRec.fallIn (g : Nat) (c : Byte) (now : Nat) (r : FRec) : FRec := if r.opened && r.region.toNat = g then r.fall c now else r

theorem FRec.fallIn_spec (g : Nat) (c : Byte) (now : Nat) (r : FRec) :
    (r.fallIn g c now).opened = r.opened ∧ (r.fallIn g c now).region = r.region := by
  unfold FRec.fallIn
  split
  · exact r.fall_spec c now
  · exact ⟨rfl, rfl⟩

theorem Dev.fc_fallOf (d : Dev) (g c : Nat) :
    (d.fallOf g c).fc = { d.fc with recs := d.fc.recs.map (FRec.fallIn g (BitVec.ofNat 8 c) d.now) } := by
  unfold Dev.fallOf
  dsimp only
  split <;> rfl

theorem Dev.frec_fallOf (d : Dev) (g c : Nat) (k : Fin 64) :
    (d.fallOf g c).frec k = (d.frec k).fallIn g (BitVec.ofNat 8 c) d.now := by
  unfold Dev.frec
  rw [Dev.fc_fallOf]
  exact Vector.getElem_map _ k.isLt

/-- A level fallen: no region opens or closes, and the ceiling ends with the die warning alone. -/
theorem Dev.fallOf_spec (d : Dev) (g c : Nat) :
    (∃ rs, (d.fallOf g c).fc = { d.fc with recs := rs }) ∧ (∀ j, d.openOf j = none → (d.fallOf g c).openOf j = none) ∧
    (d.fallOf g c).pw.ceiling = (if c = 0x1E then false else d.pw.ceiling) := by
  refine ⟨⟨_, d.fc_fallOf g c⟩, fun j hj => ?_, ?_⟩
  · rw [Dev.openOf_eq_none_iff] at hj ⊢
    intro k
    obtain ⟨ho, hr⟩ := FRec.fallIn_spec g (BitVec.ofNat 8 c) d.now (d.frec k)
    rw [Dev.frec_fallOf, ho, hr]
    exact hj k
  · unfold Dev.fallOf
    dsimp only
    split <;> rfl

/-- A level other than the die warning fallen. -/
theorem Dev.fallOf_watches (d : Dev) (g : Nat) {c : Nat} (hc : c ≠ 0x1E) :
    d.Watches (d.fallOf g c) ∧ (d.fallOf g c).fc.halt = d.fc.halt := by
  obtain ⟨⟨rs, hfc⟩, -, hcl⟩ := d.fallOf_spec g c
  rw [if_neg hc] at hcl
  exact ⟨⟨by rw [hfc], by rw [hfc], by rw [hfc], hcl, by rw [hfc]; exact id, by rw [hfc]; exact id⟩, by rw [hfc]⟩

/-! ### A sample (R474) -/

/-- The consecutive samples above the die warning. -/
def Dev.hotRuns (d : Dev) (t : Int) : Nat := if 840 < t then d.fc.hotRun + 1 else 0

/-- The consecutive samples above the current limit. -/
def Dev.overRuns (d : Dev) (sm : Sample) : Nat := if 525 * d.cap < 100 * sm.current then d.fc.overRun + 1 else 0

/-- A sample noted. -/
def Dev.noteSample (d : Dev) (sm : Sample) : Dev :=
  { d with fc := { d.fc with
    sample := some sm, hotRun := d.hotRuns (hottest sm).2, overRun := d.overRuns sm
    dieMax := some (match d.fc.dieMax with
      | some m => max m (hottest sm).2
      | none => (hottest sm).2) } }

/-- The die warning of a sample: two hot samples bring the ceiling, a cold one takes it away. -/
def Dev.warnDie (d : Dev) (hot : Nat × Int) (run : Nat) : Dev :=
  if 2 ≤ run then
    let d := d.raiseLevel 0x1E 21 hot.1 (reading hot.2)
    if d.pw.ceiling then d else ({ d with pw := { d.pw with ceiling := true } } : Dev).applyCeiling
  else if hot.2 ≤ 800 then d.fallOf 21 0x1E else d

/-- The die trip of a sample. -/
def Dev.tripDie (d : Dev) (hot : Nat × Int) : Dev :=
  if 920 < hot.2 then d.raiseLevel 0x1F 21 hot.1 (reading hot.2) else d

/-- A stack's temperature in a sample. -/
def Dev.warnStack (d : Dev) (region : Nat) (t : Int) : Dev :=
  if 840 < t then d.raiseLevel 0x17 region 0 0 else if t ≤ 760 then d.fallOf region 0x17 else d

/-- The supply current in a sample. -/
def Dev.warnCurrent (d : Dev) (sm : Sample) (run cap : Nat) : Dev :=
  if 3 ≤ run then d.raiseLevel 0x20 21 sm.current (5 * cap) else if sm.current ≤ 5 * cap then d.fallOf 21 0x20 else d

theorem answers_temperatureSample (sm : Sample) (s : State) : Answers (.temperatureSample sm) s
    ((((((s.dev.noteSample sm).warnDie (hottest sm) (s.dev.hotRuns (hottest sm).2)).tripDie (hottest sm)).warnStack 19 sm.stack0
      ).warnStack 20 sm.stack1).warnCurrent sm (s.dev.overRuns sm) s.dev.cap) := rfl

/-- The stages of a sample that a stack or the current makes: what is watched stands, the HALT state too, and a region other than
the stage's without an open record stays without. -/
structure Dev.Warns (g : Nat) (d e : Dev) : Prop where
  watches : d.Watches e
  halt : e.fc.halt = d.fc.halt
  elsewhere : ∀ j, j ≠ g → d.openOf j = none → e.openOf j = none

theorem Dev.Warns.refl (g : Nat) (d : Dev) : Dev.Warns g d d := ⟨.refl d, rfl, fun _ _ h => h⟩

theorem SampleLevel.raise_warns {c g : Nat} (h : SampleLevel c g 3) (d : Dev) (x y : Nat) :
    Dev.Warns g d (d.raiseLevel c g x y) :=
  ⟨(h.raise_hold d x y).1, (h.raise_hold d x y).2.1, (h.raise_hold d x y).2.2.1⟩

theorem Dev.fallOf_warns (d : Dev) (g : Nat) {c : Nat} (hc : c ≠ 0x1E) : Dev.Warns g d (d.fallOf g c) :=
  ⟨(d.fallOf_watches g hc).1, (d.fallOf_watches g hc).2, fun j _ => (d.fallOf_spec g c).2.1 j⟩

theorem Dev.warnStack_warns {g : Nat} (h : SampleLevel 0x17 g 3) (d : Dev) (t : Int) : Dev.Warns g d (d.warnStack g t) := by
  unfold Dev.warnStack
  split
  · exact h.raise_warns d 0 0
  · split
    · exact d.fallOf_warns g (by decide)
    · exact .refl g d

theorem Dev.warnCurrent_warns (d : Dev) (sm : Sample) (run cap : Nat) : Dev.Warns 21 d (d.warnCurrent sm run cap) := by
  unfold Dev.warnCurrent
  split
  · exact SampleLevel.current.raise_warns d _ _
  · split
    · exact d.fallOf_warns 21 (by decide)
    · exact .refl 21 d

/-- A hot stack holds the device. -/
theorem Dev.warnStack_hold {g : Nat} (h : SampleLevel 0x17 g 3) {d : Dev} {t : Int} (ht : 840 < t) (hh : d.fc.halt = false)
    (ho : d.openOf g = none) : (d.warnStack g t).fc.hold = true := by
  rw [Dev.warnStack, if_pos ht]
  exact (h.raise_hold d 0 0).2.2.2 hh ho

theorem Dev.warnCurrent_hold {d : Dev} {sm : Sample} {run : Nat} (cap : Nat) (hr : 3 ≤ run) (hh : d.fc.halt = false)
    (ho : d.openOf 21 = none) : (d.warnCurrent sm run cap).fc.hold = true := by
  rw [Dev.warnCurrent, if_pos hr]
  exact (SampleLevel.current.raise_hold d _ _).2.2.2 hh ho

theorem Dev.tripDie_watches (d : Dev) (hot : Nat × Int) : d.Watches (d.tripDie hot) := by
  unfold Dev.tripDie
  split
  · exact (d.dieTrip_spec _ _).1
  · exact .refl d

/-- The ceiling that a die warning brings: the fault collector stands. -/
theorem Dev.ceiling_spec (d : Dev) :
    let e := if d.pw.ceiling then d else ({ d with pw := { d.pw with ceiling := true } } : Dev).applyCeiling
    e.fc = d.fc ∧ e.pw.ceiling = true := by
  by_cases h : d.pw.ceiling = true
  · simp only [h, if_true, and_self]
  · rw [Bool.not_eq_true] at h
    simp only [h]
    exact ⟨rfl, rfl⟩

theorem Dev.tripReady_congr {d e : Dev} (h : e.fc = d.fc) : e.tripReady ↔ d.tripReady := by
  have hr : e.fc.recs = d.fc.recs := by rw [h]
  have hf : ∀ k, e.frec k = d.frec k := fun k => congrArg (fun rs : Vector FRec 64 => rs[k]) hr
  simp only [Dev.tripReady, h, Dev.openOf_congr hr, hf]

/-- The die warning of a sample. -/
structure Dev.WarnsDie (d e : Dev) (hot : Nat × Int) (run : Nat) : Prop where
  watches : d.Watches { e with pw := d.pw }
  halt : e.fc.halt = d.fc.halt
  elsewhere : ∀ j, j ≠ 21 → d.openOf j = none → e.openOf j = none
  ceilingOn : 2 ≤ run → e.pw.ceiling = true
  ceilingOff : run < 2 → hot.2 ≤ 800 → e.pw.ceiling = false
  ready : 800 < hot.2 → d.fc.halt = false → d.openOf 21 = none → e.tripReady
  open_or_hold : d.fc.halt = false → d.openOf 21 = none → e.openOf 21 = none ∨ e.fc.hold = true

theorem Dev.warnDie_spec (d : Dev) (hot : Nat × Int) (run : Nat) : Dev.WarnsDie d (d.warnDie hot run) hot run := by
  by_cases hr : 2 ≤ run
  · obtain ⟨hw, hh, hel, hhold⟩ := SampleLevel.dieWarning.raise_hold d hot.1 (reading hot.2)
    obtain ⟨hfc, hcl⟩ := (d.raiseLevel 0x1E 21 hot.1 (reading hot.2)).ceiling_spec
    have e : d.warnDie hot run = _ := if_pos hr
    rw [e]
    refine ⟨?_, by rw [hfc, hh], fun j hj ho => ?_, fun _ => hcl, fun h => absurd hr (Nat.not_le.2 h), fun _ ha ho => ?_, fun ha ho => .inr ?_⟩
    · exact ⟨by rw [hfc]; exact hw.sample, by rw [hfc]; exact hw.hotRun, by rw [hfc]; exact hw.overRun, rfl,
        by rw [hfc]; exact hw.hold, by rw [hfc]; exact hw.halt⟩
    · exact (Dev.openOf_congr (by rw [hfc]) j).trans (hel j hj ho)
    · exact (Dev.tripReady_congr hfc).2 (Dev.tripReady_dieWarning _ _ ha ho)
    · rw [hfc]
      exact hhold ha ho
  · by_cases ht : hot.2 ≤ 800
    · obtain ⟨⟨rs, hfc⟩, hop, hcl⟩ := d.fallOf_spec 21 0x1E
      have e : d.warnDie hot run = d.fallOf 21 0x1E := (if_neg hr).trans (if_pos ht)
      rw [e]
      refine ⟨?_, by rw [hfc], fun j _ => hop j, fun h => absurd h hr, fun _ _ => hcl, fun h => absurd ht (Int.not_le.2 h),
        fun _ ho => .inl (hop 21 ho)⟩
      exact ⟨by rw [hfc], by rw [hfc], by rw [hfc], rfl, by rw [hfc]; exact id, by rw [hfc]; exact id⟩
    · have e : d.warnDie hot run = d := (if_neg hr).trans (if_neg ht)
      rw [e]
      exact ⟨.refl d, rfl, fun _ _ h => h, fun h => absurd h hr, fun _ h => absurd h ht,
        fun _ ha ho => ⟨ha, fun k hk => absurd (ho.symm.trans hk) (by simp)⟩, fun _ ho => .inl ho⟩

/-- TEMPERATURE_SAMPLE (R474). -/
theorem temperatureSample_spec (sm : Sample) (s : State) : AnswersWith (.temperatureSample sm) s (fun d =>
    let t := (hottest sm).2
    d.fc.sample = some sm ∧ d.fc.hotRun = (if 840 < t then s.dev.fc.hotRun + 1 else 0) ∧
    d.fc.overRun = (if 525 * s.dev.cap < 100 * sm.current then s.dev.fc.overRun + 1 else 0) ∧
    (840 < t → 1 ≤ s.dev.fc.hotRun → d.pw.ceiling = true) ∧
    (t ≤ 800 → d.pw.ceiling = false) ∧
    (920 < t → s.dev.openOf 21 = none → s.dev.fc.halt = false → d.fc.halt = true) ∧
    (t ≤ 920 → s.dev.fc.halt = false →
      (840 < sm.stack0 → s.dev.openOf 19 = none → d.fc.hold = true) ∧
      (840 < sm.stack1 → s.dev.openOf 20 = none → d.fc.hold = true) ∧
      (525 * s.dev.cap < 100 * sm.current → 2 ≤ s.dev.fc.overRun → s.dev.openOf 21 = none → d.fc.hold = true))) := by
  refine (answers_temperatureSample sm s).answersWith ?_
  have h1 := (s.dev.noteSample sm).warnDie_spec (hottest sm) (s.dev.hotRuns (hottest sm).2)
  generalize (s.dev.noteSample sm).warnDie (hottest sm) (s.dev.hotRuns (hottest sm).2) = d1 at h1 ⊢
  have h2 := d1.tripDie_watches (hottest sm)
  have h3 := Dev.warnStack_warns .stack0 (d1.tripDie (hottest sm)) sm.stack0
  have h4 := Dev.warnStack_warns .stack1 ((d1.tripDie (hottest sm)).warnStack 19 sm.stack0) sm.stack1
  have h5 := Dev.warnCurrent_warns (((d1.tripDie (hottest sm)).warnStack 19 sm.stack0).warnStack 20 sm.stack1) sm
    (s.dev.overRuns sm) s.dev.cap
  have hlate := h3.watches.trans (h4.watches.trans h5.watches)
  have hall := h2.trans hlate
  refine ⟨?_, ?_, ?_, fun ht hrun => ?_, fun ht => ?_, fun ht ho hh => ?_, fun ht hh => ?_⟩
  · exact hall.sample.trans h1.watches.sample
  · exact hall.hotRun.trans h1.watches.hotRun
  · exact hall.overRun.trans h1.watches.overRun
  · refine hall.ceiling.trans (h1.ceilingOn ?_)
    rw [Dev.hotRuns, if_pos ht]
    omega
  · refine hall.ceiling.trans (h1.ceilingOff ?_ ht)
    rw [Dev.hotRuns, if_neg (by omega)]
    decide
  · refine hlate.halt ?_
    rw [Dev.tripDie, if_pos ht]
    exact (d1.dieTrip_spec _ _).2 (h1.ready (by omega) hh ho)
  · have e : d1.tripDie (hottest sm) = d1 := if_neg (Int.not_lt.2 ht)
    rw [e] at h3 h4 h5 ⊢
    have hh1 : d1.fc.halt = false := h1.halt.trans hh
    have hh3 := h3.halt.trans hh1
    have hh4 := h4.halt.trans hh3
    refine ⟨fun hs ho => ?_, fun hs ho => ?_, fun hs hrun ho => ?_⟩
    · exact h5.watches.hold (h4.watches.hold (Dev.warnStack_hold .stack0 hs hh1 (h1.elsewhere 19 (by decide) ho)))
    · exact h5.watches.hold (Dev.warnStack_hold .stack1 hs hh3 (h3.elsewhere 20 (by decide) (h1.elsewhere 20 (by decide) ho)))
    · have hr : 3 ≤ s.dev.overRuns sm := by
        rw [Dev.overRuns, if_pos hs]
        omega
      rcases h1.open_or_hold hh ho with hop | hhold
      · exact Dev.warnCurrent_hold _ hr hh4 (h4.elsewhere 21 (by decide) (h3.elsewhere 21 (by decide) hop))
      · exact h5.watches.hold (h4.watches.hold (h3.watches.hold hhold))

end Sys2Proof.Machine
end

section
/-! Records close, piers and the device recover, telemetry and temperatures: the statement. -/

namespace Sys2Proof.Machine

open Sys2Proof

/-- RECORD_CLOSE_TIMER closes one record and no other (R449). -/
theorem recordCloseTimer_closes {k : Fin 64} {s : State} (h : s.dev.closes k) : AnswersWith (.recordCloseTimer k) s (fun d =>
    (d.frec k).opened = false ∧ (d.frec k).val = (s.dev.frec k).val ∧ (d.frec k).closedAt = s.dev.now ∧
    ∀ j, j ≠ k → d.frec j = s.dev.frec j) := by
  refine (answers_recordCloseTimer h).answersWith ?_
  rw [Dev.frec_closeRec_self]
  exact ⟨rfl, rfl, rfl, fun j hj => Dev.frec_closeRec_of_ne _ hj⟩

/-- Settles O55: each command's two cases, its time come and not, are lemmas above; the moment at which RETIREMENT_ACTION retires a
due bank is the model's choice of log 74, the 256 ticks of a pier's reset are its reading of log 75. -/
theorem recordsRecoverAndTelemetry : Obligations.RecordsRecoverAndTelemetry := by
  refine ⟨⟨?_, ?_, ?_, ?_, ?_, ?_, ?_, ?_, ?_, ?_⟩, ⟨?_, ?_, ?_, ?_, ?_, ?_, ?_, ?_, ?_, ?_⟩, ?_, ?_, ?_⟩
  · exact fun k c _ => (answers_fallOfNow k c).1
  · exact fun k c _ => (answers_fallOfNow k c).2
  · exact fun _ _ => answers_recordCloseTimer_of_not
  · exact fun _ _ => recordCloseTimer_closes
  · exact fun _ _ => answers_reactionShadowEnd_of_not
  · exact fun _ _ _ _ => answers_reactionShadowEnd
  · exact fun _ _ => answers_containQuietPeriodExpiry_of_not
  · exact fun _ _ _ => containQuietPeriodExpiry_releases
  · exact fun _ _ => answers_holdQuietPeriodExpiry_of_not
  · exact fun _ _ => holdQuietPeriodExpiry_releases
  · exact fun _ _ => answers_perPierReset_of_not
  · exact fun _ _ => perPierReset_asserts
  · exact fun _ _ => answers_perPierResetComplete_of_not
  · exact fun _ _ => perPierResetComplete_restores
  · exact fcRestoreWrite_restores
  · exact fun p e _ s h => Answers.answersWith (e := s.dev.clogWrite p e _) rfl (Dev.clogWrite_clog h s.dev p e)
  · exact fun p e _ s h => answers_clogEntryFree_of_not h p e s
  · exact fun _ _ _ => retirementAction_idle
  · exact fun _ _ _ => retirementAction_banks
  · exact fun _ _ _ => retirementAction_advised
  · exact fun _ => answers_telemetryPeriod_of_not
  · exact fun _ => telemetryPeriod_forms
  · exact temperatureSample_spec

end Sys2Proof.Machine
end

section
/-! Decimal words (R47): the digits of the word of a number, and O7 from them. -/

namespace Sys2Proof.Machine

open Sys2Proof

/-- The nibbles of a word in the making: those of its lowest digit joined with those of the rest (R47). -/
theorem extractLsb'_toDigits_succ (lo k n d : Nat) : (toDigits lo (k + 1) n).extractLsb' (4 * d) 4 =
    (BitVec.ofNat 36 (n % 10) <<< (4 * lo)).extractLsb' (4 * d) 4 ||| (toDigits (lo + 1) k (n / 10)).extractLsb' (4 * d) 4 := by
  rw [toDigits, BitVec.extractLsb'_or]

/-- A digit put at position `lo` is digit `lo` of the word, and every other digit is 0. -/
theorem extractLsb'_digitAt {m lo d : Nat} (hm : m < 10) (hlo : lo < 9) :
    (BitVec.ofNat 36 m <<< (4 * lo)).extractLsb' (4 * d) 4 = if d = lo then BitVec.ofNat 4 m else 0 := by
  have hbit : ∀ j, 4 ≤ j → m.testBit j = false := fun j hj =>
    Nat.testBit_lt_two_pow (lt_of_lt_of_le (by omega : m < 2 ^ 4) (Nat.pow_le_pow_right (by decide) hj))
  refine BitVec.eq_of_getLsbD_eq fun j hj => ?_
  rw [BitVec.getLsbD_extractLsb', BitVec.getLsbD_shiftLeft, BitVec.getLsbD_ofNat]
  split
  · subst d
    have : 4 * lo + j - 4 * lo = j := by omega
    simp [hj, this, show 4 * lo + j < 36 by omega, show j < 36 by omega, BitVec.getElem_eq_testBit_toNat,
      Nat.mod_eq_of_lt (show m < 16 by omega)]
  · by_cases h : d < lo
    · simp [show 4 * d + j < 4 * lo by omega]
    · simp [hbit (4 * d + j - 4 * lo) (by omega)]

/-- Digit `d` of the number written in digits `lo` to `lo + k - 1`, and 0 beside them (R47). -/
theorem digit_toDigits {lo k : Nat} (n d : Nat) (h : lo + k ≤ 9) :
    digit (toDigits lo k n) d = if lo ≤ d ∧ d < lo + k then n / 10 ^ (d - lo) % 10 else 0 := by
  induction k generalizing lo n with
  | zero => simp [digit, toDigits, show ¬ (lo ≤ d ∧ d < lo) by omega]
  | succ k ih =>
    have hlt : n % 10 < 10 := Nat.mod_lt _ (by decide)
    have ih : ((toDigits (lo + 1) k (n / 10)).extractLsb' (4 * d) 4).toNat = _ := ih (lo := lo + 1) (n / 10) (by omega)
    rw [digit, extractLsb'_toDigits_succ, BitVec.toNat_or, extractLsb'_digitAt hlt (by omega), ih]
    rcases Nat.lt_trichotomy d lo with hd | rfl | hd
    · simp [show d ≠ lo by omega, show ¬ lo ≤ d by omega, show ¬ lo + 1 ≤ d by omega]
    · simp [show n % 10 < 16 by omega]
    · have hpow : n / 10 / 10 ^ (d - (lo + 1)) = n / 10 ^ (d - lo) := by
        rw [Nat.div_div_eq_div_mul, ← Nat.pow_succ', Nat.succ_eq_add_one, show d - (lo + 1) + 1 = d - lo by omega]
      simp [show d ≠ lo by omega, hpow, Nat.succ_le_of_lt hd, hd.le, Nat.add_right_comm lo 1 k, Nat.add_assoc]

theorem digit_decWord (n : Nat) {d : Nat} (h : d < 9) : digit (decWord n) d = n % 1000000000 / 10 ^ d % 10 := by
  simp [decWord, digit_toDigits, h]

/-- A word is valid where each of its nine nibbles is at most 9 (R47). -/
theorem decOk_iff (w : Word) : decOk w = true ↔ ∀ d, d < 9 → digit w d ≤ 9 := by
  simp [decOk, digitsOk]

/-- The nine digits of a word by their weights (R47). -/
theorem decVal_eq (w : Word) : decVal w = digit w 0 + 10 * digit w 1 + 100 * digit w 2 + 1000 * digit w 3 + 10000 * digit w 4 +
    100000 * digit w 5 + 1000000 * digit w 6 + 10000000 * digit w 7 + 100000000 * digit w 8 := by
  simp only [decVal, digitsVal, List.range_succ, List.range_zero, List.nil_append, List.cons_append, List.foldr_cons, List.foldr_nil,
    Nat.not_lt_zero, if_false]
  ring

theorem decOk_decWord (n : Nat) : decOk (decWord n) = true :=
  (decOk_iff _).2 fun d hd => by
    rw [digit_decWord n hd]
    omega

theorem decVal_decWord (n : Nat) : decVal (decWord n) = n % 1000000000 := by
  simp only [decVal_eq, Nat.reduceLT, digit_decWord]
  omega

/-- Settles O7: a word's digits are its nibbles, and the word of a number has the number's decimal digits. -/
theorem decimalWordHoldsItsNumber : Obligations.DecimalWordHoldsItsNumber :=
  ⟨fun w => ⟨decOk_iff w, decVal_eq w⟩, fun n => ⟨decOk_decWord n, decVal_decWord n⟩⟩

end Sys2Proof.Machine
end

section
/-! Stones with state (R46, R127, R137 to R139, R146, R150, R151): what one firing of MC0, MC1, RD0 and CY0 leaves, and O23 from
it. -/

namespace Sys2Proof.Machine

open Sys2Proof

/-! ### The commands -/

section Commands

variable {s : State} {p : Fin 16} {Q : Pier}

theorem runAnswers_mcFire {u : Fin 2} (h : mcFire (s.dev.pier p) s.dev.now s.dev.fresh u.val = Q) : RunAnswers (.mcFire p u) s p Q := by
  subst h
  rfl

theorem runAnswers_rdFire (h : rdFire (s.dev.pier p) s.dev.now s.dev.fresh = Q) : RunAnswers (.rdFire p) s p Q := by
  subst h
  rfl

theorem runAnswers_cyFire (h : cyFire (s.dev.pier p) s.dev.now s.dev.fresh = Q) : RunAnswers (.cyFire p) s p Q := by
  subst h
  rfl

end Commands

/-! ### MC0 and MC1 (R127, R137 to R139) -/

/-- Which accumulators are rubble once the one at `k` is rubble or not, as `b` says (R127). -/
def rubbleMarks (marks : List Nat) (k : Nat) (b : Bool) : List Nat :=
  if b then (if k ∈ marks then marks else marks ++ [k]) else marks.filter (· ≠ k)

/-- Marking one accumulator leaves the marks of the others. -/
theorem mem_rubbleMarks_of_ne {marks : List Nat} {j k : Nat} (b : Bool) (h : j ≠ k) : j ∈ rubbleMarks marks k b ↔ j ∈ marks := by
  unfold rubbleMarks
  split
  · split <;> simp [h]
  · simp [h]

/-- A firing of MC0 or MC1 leaves its accumulator as the operation says and touches the mark of no other (R138, R139, R127). -/
theorem mcFire_of_firing {P : Pier} {u : Nat} {r : Run} {x : RUnit} {i : Nat} (now fr : Nat) (h : firing P (0xA + u) = some (r, x, i)) :
    let k := 32 * u + i % 32
    let m := mcOp (x.p 0).toNat i (P.runs.acc.get k) (r.operand x 0) (r.operand x 1)
    ∃ b, mcFire P now fr u = afterRun
      { P with runs := { P.runs with acc := P.runs.acc.set k m.acc, accRub := rubbleMarks P.runs.accRub k b } } now fr
      ((r.take (0xA + u)).emitAll (0xA + u) i m.out (r.rubbleIn x || (m.reads && P.runs.accRub.contains k))) := by
  simp only [mcFire, h, fireEmit, List.contains_eq_mem]
  exact ⟨_, rfl⟩

/-- MAC adds the exact signed product and reads the sum out, with V where 80 bits do not hold it (R137, R138). -/
theorem mcOp_mac (i : Nat) (acc : BitVec 80) (a b : Word) :
    let t := acc.toInt + a.toInt * b.toInt
    mcOp 3 i acc a b = ⟨mcRead (BitVec.ofInt 80 t) (t < -(2 ^ 79) ∨ 2 ^ 79 ≤ t), BitVec.ofInt 80 t, true⟩ := by
  simp only [mcOp, mcUpdate, Bool.decide_or]

/-! ### RD0 (R146) -/

section Reduction

variable {P : Pier} {r : Run} {x : RUnit} {i : Nat} (now fr : Nat)

/-- The run once RD0 has taken an element: a segment that ended without its last element is emitted before, X is undefined, and
the element joins its segment (R75, R146; log 72). -/
def rdGathered (r : Run) (x : RUnit) (i seg : Nat) : Run :=
  let r0 := if x.ga.any (fun e => e.idx / seg ≠ i / seg) = true then rdEmit r x ((x.ga.headD ⟨i, 0, false⟩).idx / seg) else r
  ((r0.take 0xE).emit 0xE 7 ⟨i, 0, r.rubbleIn x⟩).onUnit 0xE
    (fun y => { y with ga := y.ga ++ [⟨i, r.operand x 0, r.rubbleIn x⟩] })

@[simp] theorem Run.onUnit_n (r : Run) (u : Nat) (f : RUnit → RUnit) : (r.onUnit u f).n = r.n := rfl

@[simp] theorem Run.emit_n (r : Run) (u c : Nat) (e : Elem) : (r.emit u c e).n = r.n := by
  simp only [Run.emit]
  split <;> rfl

@[simp] theorem Run.align_n (r : Run) (u : Nat) : (r.align u).n = r.n := by
  simp only [Run.align]
  split <;> rfl

@[simp] theorem Run.take_n (r : Run) (u : Nat) : (r.take u).n = r.n := by simp [Run.take]

@[simp] theorem rdEmit_n (r : Run) (u : RUnit) (s : Nat) : (rdEmit r u s).n = r.n := by simp [rdEmit]

@[simp] theorem rdGathered_n (r : Run) (x : RUnit) (i seg : Nat) : (rdGathered r x i seg).n = r.n := by
  simp only [rdGathered, Run.onUnit_n, Run.emit_n, Run.take_n]
  split <;> simp

/-- PASS of RD0 is no reduction: every firing emits (R147). -/
theorem rdFire_pass (h : firing P 0xE = some (r, x, i)) (hop : x.p 0 = 0) :
    rdFire P now fr = fireEmit P now fr r 0xE i (laneInt (r.operand x 0) 0 false false) (r.rubbleIn x) := by
  simp [rdFire, h, hop]

/-- A reserved segment length or operation emits PX firing by firing (R131, R146). -/
theorem rdFire_reserved (h : firing P 0xE = some (r, x, i)) (hop : x.p 0 ≠ 0) (hr : rdSeg r x = none ∨ 0xC < (x.p 0).toNat) :
    rdFire P now fr = fireEmit P now fr r 0xE i laneReserved (r.rubbleIn x) := by
  have hne : (x.p 0).toNat ≠ 0 := fun e => hop (BitVec.eq_of_toNat_eq e)
  cases hseg : rdSeg r x with
  | none => simp [rdFire, h, hne, hseg]
  | some seg => simp [rdFire, h, hne, hseg, hr.resolve_left (by simp [hseg])]

/-- What RD0 emits of the segment of element `i`: the segment where the element is its last, else nothing (R146). -/
def rdClosed (r : Run) (i seg : Nat) : Run :=
  if (i + 1) % seg = 0 || i + 1 = r.n then
    match r.unit? 0xE with
    | some y => rdEmit r y (i / seg)
    | none => r
  else r

theorem rdClosed_inside {seg : Nat} (h : (i + 1) % seg ≠ 0) (hn : i + 1 ≠ r.n) : rdClosed r i seg = r := by
  simp [rdClosed, h, hn]

theorem rdClosed_last {seg : Nat} {y : RUnit} (h : (i + 1) % seg = 0 ∨ i + 1 = r.n) (hy : r.unit? 0xE = some y) :
    rdClosed r i seg = rdEmit r y (i / seg) := by
  simp [rdClosed, h, hy]

/-- A reduction gathers its element, and at the segment's last one emits the segment (R146). -/
theorem rdFire_reduces {seg : Nat} (h : firing P 0xE = some (r, x, i)) (h1 : 1 ≤ (x.p 0).toNat) (hC : (x.p 0).toNat ≤ 0xC)
    (hseg : rdSeg r x = some seg) : rdFire P now fr = afterRun P now fr (rdClosed (rdGathered r x i seg) i seg) := by
  simp only [rdFire, h, hseg, show (x.p 0).toNat ≠ 0 by omega, show ¬ 0xC < (x.p 0).toNat by omega, if_false]
  rfl

end Reduction

/-! ### CY0 (R46, R150, R151) -/

section Carry

variable {P : Pier} {r : Run} {x : RUnit} {i : Nat} (now fr : Nat)

/-- The number of positions of CY0: W, and 1 where it reads 0 (R150). -/
def RUnit.cyWidth (x : RUnit) : Nat := if (x.p 4).toNat % 8192 = 0 then 1 else (x.p 4).toNat % 8192

/-- CARRY with a reserved W emits PX (R131, R150). -/
theorem cyFire_reserved (h : firing P 0xF = some (r, x, i)) (hop : x.p 0 = 1) (hw : 4096 < x.cyWidth) :
    cyFire P now fr = fireEmit P now fr r 0xF i laneReserved (r.rubbleIn x) := by
  unfold RUnit.cyWidth at hw
  simp [cyFire, h, hop, hw]

/-- NORM and SPLIT look at no carry (R151). -/
theorem cyOp_of_ne_carry {op : Nat} (a c : Word) (z : Int) (h : op ≠ 1) : cyOp op a c z = cyOp op a c 0 := by
  unfold cyOp
  split
  · rfl
  · exact absurd rfl h
  · rfl
  · rfl

/-- NORM and SPLIT keep no carry (R151). -/
theorem cyFire_stateless (h : firing P 0xF = some (r, x, i)) (hop : x.p 0 ≠ 1) :
    cyFire P now fr = fireEmit P now fr r 0xF i (cyOp (x.p 0).toNat (r.operand x 0) (r.operand x 2) 0) (r.rubbleIn x) := by
  have hne : (x.p 0).toNat ≠ 1 := fun e => hop (BitVec.eq_of_toNat_eq e)
  simp only [cyFire, h, hne, cyOp_of_ne_carry _ _ _ hne, decide_false, Bool.false_and, Bool.false_eq_true, if_false]

/-- CARRY adds the carry that its position left and leaves its own there; a rubble operand or carry leaves rubble (R127, R150,
R151). -/
theorem cyFire_carries (h : firing P 0xF = some (r, x, i)) (hop : x.p 0 = 1) (hw : x.cyWidth ≤ 4096) :
    let c := assocGet x.carry (i % x.cyWidth) (some 0)
    let rub := r.rubbleIn x || c.isNone
    let o := cySplit ((r.operand x 0).toInt + (r.operand x 2).toInt + c.getD 0)
    cyFire P now fr = fireEmit P now fr
      (r.onUnit 0xF (fun y => { y with carry := assocSet y.carry (i % x.cyWidth) (if rub = true then none else some o.s.toInt) }))
      0xF i o rub := by
  unfold RUnit.cyWidth at *
  simp [cyFire, h, hop, hw, cyOp]

end Carry

/-- The limb of a split value is its residue mod 2^32 (R46). -/
theorem cySplit_limb (v : Int) : ((cySplit v).r.toNat : Int) = v % 2 ^ 32 := by
  have : (cySplit v).r = BitVec.ofInt 36 (v % 2 ^ 32) := rfl
  rw [this, BitVec.toNat_ofInt]
  omega

/-- The carry of a split value of at most 68 bits is its quotient by 2^32 (R46). -/
theorem cySplit_carry {v : Int} (hlo : -(2 ^ 67) ≤ v) (hhi : v < 2 ^ 67) : (cySplit v).s.toInt = v / 2 ^ 32 := by
  have : (cySplit v).s = BitVec.ofInt 36 (v / 2 ^ 32) := rfl
  rw [this, BitVec.toInt_ofInt]
  exact Int.bmod_eq_of_le (by omega) (by omega)

/-- Limb and carry give the value back (R46). -/
theorem cySplit_value {v : Int} (hlo : -(2 ^ 67) ≤ v) (hhi : v < 2 ^ 67) :
    (cySplit v).r.toNat < 2 ^ 32 ∧ (cySplit v).s.toInt * 2 ^ 32 + (cySplit v).r.toNat = v := by
  have hr := cySplit_limb v
  have hs := cySplit_carry hlo hhi
  constructor <;> omega

/-- Settles O23: the firings of MC0, MC1, RD0 and CY0 are the lemmas above; that RD0 emits an undefined X for each firing, and S or
F as 0 once a segment, is the model's choice of log 72. -/
theorem stonesWithStateFire : Obligations.StonesWithStateFire := by
  refine ⟨⟨?_, ?_, ?_, ?_, ?_, ?_, ?_, ?_⟩, fun v => cySplit_value⟩
  · intro p u s r x i h
    obtain ⟨b, hb⟩ := mcFire_of_firing s.dev.now s.dev.fresh h
    exact ⟨_, fun j hj => mem_rubbleMarks_of_ne b hj, runAnswers_mcFire hb⟩
  · intro acc i a b
    rw [mcOp_mac]
    exact ⟨rfl, rfl, rfl⟩
  · exact fun p s r x i h hop => runAnswers_rdFire (rdFire_pass _ _ h hop)
  · intro p s r x i seg h h1 hC hseg
    have hf := rdFire_reduces s.dev.now s.dev.fresh h h1 hC hseg
    refine ⟨fun hi hn => runAnswers_rdFire (hf.trans (congrArg _ ?_)), fun y hl hy => runAnswers_rdFire (hf.trans (congrArg _ ?_))⟩
    · exact rdClosed_inside hi (by simpa using hn)
    · exact rdClosed_last (by simpa using hl) hy
  · exact fun p s r x i h hop hr => runAnswers_rdFire (rdFire_reserved _ _ h hop hr)
  · refine fun p s r x i h hop hw => runAnswers_cyFire (cyFire_reserved _ _ h hop ?_)
    rw [RUnit.cyWidth, if_neg (by omega)]
    exact hw
  · exact fun p s r x i h hop => runAnswers_cyFire (cyFire_stateless _ _ h hop)
  · exact fun p s r x i h hop hw => runAnswers_cyFire (cyFire_carries _ _ h hop hw)

end Sys2Proof.Machine
end

section
/-! The hod's registers and tickets (R41, R347, R348, R350 to R352): what a post, a suspension and the start of a ticket leave, and
how a ticket ends. -/

namespace Sys2Proof.Machine

open Sys2Proof

/-! ### The commands -/

section Commands

variable {s : State} {p : Fin 16} {v : DW}

/-- A register command of a pier in reset or OFF changes nothing (log 69). -/
theorem Dev.onReg_of_unreachable {d : Dev} {p : Fin 16} (f : Pier → Pier) (h : d.reachable p = false) : d.onReg p f = d := by
  simp [Dev.onReg, h]

theorem Dev.onReg_of_reachable {d : Dev} {p : Fin 16} (f : Pier → Pier) (h : d.reachable p = true) :
    d.onReg p f = d.setPier p (f (d.pier p)) := by
  simp [Dev.onReg, h, Dev.onPier]

theorem answers_prHodPost {e : Dev} (h : s.dev.onReg p (fun P => hodPost P false v) = e) : Answers (.prHodPost p v) s e :=
  congrArg s.answer h

theorem answers_prHodCtlSusp {e : Dev} (h : s.dev.onReg p (fun P => hodCtl P v) = e) : Answers (.prHodCtlSusp p v) s e :=
  congrArg s.answer h

theorem answers_prHodCtlResume {e : Dev} (h : s.dev.onReg p (fun P => hodCtl P v) = e) : Answers (.prHodCtlResume p v) s e :=
  congrArg s.answer h

theorem answers_hodTicketStart {Q : Pier} (h : hodStart (s.dev.pier p) s.dev.now = Q) :
    Answers (.hodTicketStart p) s (s.dev.setPier p Q) :=
  congrArg (fun P => s.answer (s.dev.setPier p P)) h

theorem answers_hodSegmentDone {rd : HostRead} {e : Dev} (h : s.dev.hodSegment p rd = e) : Answers (.hodSegmentDone p rd) s e :=
  congrArg s.answer h

end Commands

/-! ### Posting, suspension and resumption (R351) -/

section Registers

variable {P : Pier} (v : DW)

theorem hodPost_of_room (frontage : Bool) (h : P.hod.queue.length + P.hod.cur.toList.length < 16) : hodPost P frontage v =
    { P with hod := { P.hod with queue := P.hod.queue ++ [⟨v.extractLsb' 6 15, frontage⟩] } } :=
  if_neg (Nat.not_le_of_lt h)

theorem hodPost_of_full (frontage : Bool) (h : 16 ≤ P.hod.queue.length + P.hod.cur.toList.length) : hodPost P frontage v =
    { P with hod := { P.hod with ovf := true } } :=
  if_pos h

/-- SUSP takes effect at once where no ticket runs and is kept as asked for otherwise; RESUME then ends the suspension (R351; log
11). -/
theorem hodCtl_eq (P : Pier) : hodCtl P v =
    let asked : Bool := v.getLsbD 0 && !P.hod.suspd
    let now : Bool := asked && P.hod.cur.isNone
    { P with
      hod := { P.hod with suspd := (P.hod.suspd || now) && !v.getLsbD 1, suspReq := (P.hod.suspReq || asked) && !now }
      core := { P.core with ipend := if now then P.core.ipend ||| 2#9 else P.core.ipend } } := by
  simp only [hodCtl]
  cases h0 : v.getLsbD 0 && !P.hod.suspd with
  | false =>
    simp only [Bool.false_and, Bool.or_false, Bool.not_false, Bool.and_true, Bool.false_eq_true, if_false]
    cases v.getLsbD 1 <;> simp
  | true =>
    have hs : P.hod.suspd = false := by simpa using (Bool.and_eq_true_iff.1 h0).2
    cases hc : P.hod.cur.isNone <;> cases v.getLsbD 1 <;> simp [hodAfter, hodSuspend, Pier.pend, hc, hs]

end Registers

/-! ### How a ticket ends (R350, R352) -/

/-- An access that a bank grants is one of its owner, to a bank in use, and leaves the time of that use alone. -/
theorem bankGrant_ok {P P1 : Pier} {now : Nat} {i : Ident} {m : Master} {b : Fin 16} {v : Unit}
    (h : bankGrant P now i m b = .ok v P1) : P1 = P.onBank b (fun k => { k with lastUse := now }) := by
  simp only [bankGrant, bankWait] at h
  split_ifs at h
  cases h
  rfl

/-- A joined word as a number. -/
theorem toNat_append_eq_add {m n : Nat} (x : BitVec m) (y : BitVec n) : (x ++ y).toNat = x.toNat * 2 ^ n + y.toNat := by
  rw [BitVec.toNat_append, ← Nat.shiftLeft_add_eq_or_of_lt y.isLt, Nat.shiftLeft_eq]

/-- Word 3 of a ticket block, field by field (R352). -/
theorem hodWord3_eq {st cause ridx : Nat} (hc : cause < 2 ^ 8) (hr : ridx < 2 ^ 4) :
    BitVec.ofNat 36 (st * 2 ^ 28 + cause * 2 ^ 20 + ridx * 2 ^ 16) =
      BitVec.ofNat 8 st ++ BitVec.ofNat 8 cause ++ BitVec.ofNat 4 ridx ++ 0#16 := by
  refine BitVec.eq_of_toNat_eq ?_
  simp only [toNat_append_eq_add, BitVec.toNat_ofNat]
  omega

/-- What a ticket whose block's bank takes the words leaves: words 3 and 4, vector 17 where it asks for it or fails, ENDS one
higher, no running ticket, and the queue as it was (R350, R352). -/
theorem hodEnd_of_granted {P P1 : Pier} {now : Nat} {addr : BitVec 15} {fr iev : Bool} {st cause ridx : Nat} {fa : Word} {v : Unit}
    (h : bankGrant P now (hodPoster fr) .hod (bankOf (64 * addr.toNat)) = .ok v P1)
    (hc : cause < 2 ^ 8) (hr : ridx < 2 ^ 4) :
    let a := 64 * addr.toNat
    let Q := hodEnd P now addr fr iev st cause ridx fa
    Q.mem.banks = (bankStore (bankStore P1 (a + 3)
      (eccEncode (BitVec.ofNat 8 st ++ BitVec.ofNat 8 cause ++ BitVec.ofNat 4 ridx ++ 0#16))) (a + 4) (eccEncode fa)).mem.banks ∧
    Q.hod.cur = none ∧ Q.hod.ends = P.hod.ends + 1 ∧ Q.hod.queue = P.hod.queue ∧
    Q.core.ipend = (if iev = true ∨ st ≠ 0 then P.core.ipend ||| 2#9 else P.core.ipend) := by
  simp only [hodEnd, h, ← hodWord3_eq hc hr]
  cases bankGrant_ok h
  by_cases hv : iev = true ∨ st ≠ 0
  · simp [hv, bankStore, Pier.pend, Pier.onBank]
  · simp [hv, bankStore, Pier.onBank]

section Next

variable {P : Pier} {c : HodCur} (now : Nat)

/-- A segment that is not the last one is followed by the next (R350). -/
theorem hodNext_of_more (h : c.seg + 1 < c.segs.length) (hq : P.hod.suspReq = false) :
    hodNext P now c = { P with hod := { P.hod with cur := some { c with seg := c.seg + 1 } } } := by
  simp [hodNext, h.ne, hq]

/-- A suspension that was asked for ends the ticket before its next segment (R351). -/
theorem hodNext_of_suspReq (h : c.seg + 1 < c.segs.length) (hq : P.hod.suspReq = true) :
    hodNext P now c = hodAfter (hodEnd P now c.addr c.frontage c.iev 0x02 0 (c.seg + 1) 0) := by
  simp [hodNext, h.ne, hq]

/-- After its last segment a ticket ends with status 0 (R350, R352). -/
theorem hodNext_of_last (h : c.seg + 1 = c.segs.length) :
    hodNext P now c = hodAfter (hodEnd P now c.addr c.frontage c.iev 0x00 0 0 0) :=
  if_pos h

end Next

/-! ### The start of a ticket (R347, R348, R350) -/

/-- A hod that is busy, suspended, asleep or without tickets starts none (R351). -/
theorem hodStart_idle {P : Pier} (now : Nat) (h : P.hod.queue = [] ∨ P.hod.cur.isSome = true ∨ P.hod.suspd = true ∨ P.awake = false) :
    hodStart P now = P := by
  unfold hodStart
  split
  · rfl
  · next hq => exact if_pos (by simpa [hq, or_assoc] using h)

/-- A ticket that its start ends, without a segment. -/
def startEnds (now : Nat) (t : HodTicket) (iev : Bool) (st cause : Nat) (fa : Word) (Q : Pier) : Pier :=
  hodAfter (hodEnd Q now t.addr t.frontage iev st cause 0 fa)

/-- What the start of ticket `t` makes of the reading of its words: it waits with the pier as it was, ends with the fault, or goes on
with the words. -/
def afterTicketRead (P : Pier) (now : Nat) (t : HodTicket) (go : List Word → Pier → Pier) : MemRes (List Word) → Pier
  | .ok ws Q => go ws Q
  | .held _ => P
  | .bus _ Q => startEnds now t false 0x02 0x21 (BitVec.ofNat 36 (64 * t.addr.toNat)) Q
  | .rubble Q => startEnds now t false 0x02 0x22 (BitVec.ofNat 36 (64 * t.addr.toNat)) Q

/-- What becomes of ticket `t` once its `5 + 3 n` words are read: a reserved encoding is refused before a length. -/
def takeTicket (now : Nat) (t : HodTicket) (n : Nat) (ws : List Word) (Q : Pier) : Pier :=
  let w := ws.getD 0 0
  let iev := (ws.getD 2 0).getLsbD 35
  if ticketReserved ws n then startEnds now t iev 0x11 0 0 Q
  else if !ticketLengths (w.extractLsb' 32 2).toNat (ticketSegs ws n) then startEnds now t iev 0x17 0 0 Q
  else
    { Q with hod := { Q.hod with cur := some {
        addr := t.addr, frontage := t.frontage, outbound := w.getLsbD 34, pack := w.extractLsb' 32 2,
        tag := w.extractLsb' 0 22, pva := ws.getD 1 0, iev := iev, seg := (w.extractLsb' 24 4).toNat, segs := ticketSegs ws n } } }

/-- What becomes of ticket `t` once its first five words are read: all its words are read again from the first (R347). -/
def readTicket (P : Pier) (now : Nat) (t : HodTicket) (head : List Word) (Q : Pier) : Pier :=
  let n := ((head.getD 0 0).extractLsb' 28 4).toNat + 1
  afterTicketRead P now t (takeTicket now t n) (ticketWords Q now (hodPoster t.frontage) (64 * t.addr.toNat) (5 + 3 * n))

theorem takeTicket_reserved (now : Nat) (t : HodTicket) {n : Nat} {ws : List Word} (Q : Pier) (h : ticketReserved ws n = true) :
    takeTicket now t n ws Q = startEnds now t ((ws.getD 2 0).getLsbD 35) 0x11 0 0 Q :=
  if_pos h

theorem takeTicket_wrongLength (now : Nat) (t : HodTicket) {n : Nat} {ws : List Word} (Q : Pier) (h : ticketReserved ws n = false)
    (hl : ticketLengths ((ws.getD 0 0).extractLsb' 32 2).toNat (ticketSegs ws n) = false) :
    takeTicket now t n ws Q = startEnds now t ((ws.getD 2 0).getLsbD 35) 0x17 0 0 Q := by
  simp only [takeTicket, h, hl, Bool.not_false, Bool.false_eq_true, if_false, if_true]

theorem takeTicket_runs (now : Nat) (t : HodTicket) {n : Nat} {ws : List Word} (Q : Pier) (h : ticketReserved ws n = false)
    (hl : ticketLengths ((ws.getD 0 0).extractLsb' 32 2).toNat (ticketSegs ws n) = true) :
    takeTicket now t n ws Q = { Q with hod := { Q.hod with cur := some {
      addr := t.addr, frontage := t.frontage, outbound := (ws.getD 0 0).getLsbD 34, pack := (ws.getD 0 0).extractLsb' 32 2
      tag := (ws.getD 0 0).extractLsb' 0 22, pva := ws.getD 1 0, iev := (ws.getD 2 0).getLsbD 35
      seg := ((ws.getD 0 0).extractLsb' 24 4).toNat, segs := ticketSegs ws n } } } := by
  simp only [takeTicket, h, hl, Bool.not_true, Bool.false_eq_true, if_false]

section Start

variable {P : Pier} {now : Nat} {t : HodTicket} {rest : List HodTicket}

/-- The hod takes up the first queued ticket, whose words it reads as the poster (R347, R348; log 11). -/
theorem hodStart_eq (hq : P.hod.queue = t :: rest) (hc : P.hod.cur = none) (hs : P.hod.suspd = false) (ha : P.awake = true) :
    hodStart P now = afterTicketRead P now t (readTicket P now t)
      (ticketWords { P with hod := { P.hod with queue := rest } } now (hodPoster t.frontage) (64 * t.addr.toNat) 5) := by
  simp only [hodStart, hq]
  rw [if_neg (by simp [hc, hs, ha])]
  cases ticketWords { P with hod := { P.hod with queue := rest } } now (hodPoster t.frontage) (64 * t.addr.toNat) 5 with
  | held H => rfl
  | bus k H => rfl
  | rubble H => rfl
  | ok head Q =>
    simp only [afterTicketRead, readTicket]
    cases ticketWords Q now (hodPoster t.frontage) (64 * t.addr.toNat) (5 + 3 * (((head.getD 0 0).extractLsb' 28 4).toNat + 1)) <;> rfl

/-- What the reading of the first five words decides (R348, R350). -/
theorem hodStart_of_head (hq : P.hod.queue = t :: rest) (hc : P.hod.cur = none) (hs : P.hod.suspd = false) (ha : P.awake = true)
    {res : MemRes (List Word)}
    (h : ticketWords { P with hod := { P.hod with queue := rest } } now (hodPoster t.frontage) (64 * t.addr.toNat) 5 = res) :
    hodStart P now = afterTicketRead P now t (readTicket P now t) res :=
  (hodStart_eq hq hc hs ha).trans (congrArg _ h)

/-- What the reading of all its words decides, once the first five are read (R347, R348, R350). -/
theorem hodStart_of_words (hq : P.hod.queue = t :: rest) (hc : P.hod.cur = none) (hs : P.hod.suspd = false) (ha : P.awake = true)
    {head : List Word} {Q : Pier} {res : MemRes (List Word)}
    (h : ticketWords { P with hod := { P.hod with queue := rest } } now (hodPoster t.frontage) (64 * t.addr.toNat) 5 = .ok head Q) :
    let n := ((head.getD 0 0).extractLsb' 28 4).toNat + 1
    ticketWords Q now (hodPoster t.frontage) (64 * t.addr.toNat) (5 + 3 * n) = res →
    hodStart P now = afterTicketRead P now t (takeTicket now t n) res :=
  fun hw => (hodStart_of_head hq hc hs ha h).trans (congrArg (afterTicketRead _ _ _ _) hw)

end Start

/-! ### A segment (R325, R349, R350, R354) -/

/-- What becomes of an access of the hod: one result for each way that it answers. -/
def HodRes.fold {α β : Type} (held : Pier → β) (fault : Nat → Word → Pier → β) (ok : α → Pier → β) : HodRes α → β
  | .ok v P => ok v P
  | .held P => held P
  | .fault k a P => fault k a P

section Segment

variable {d : Dev} {p : Fin 16} {c : HodCur} (rd : HostRead)

/-- How a ticket's segments reach pier memory: a session's are translated, the frontage's are not (R277, R303). -/
def Dev.hodVia (d : Dev) (p : Fin 16) (c : HodCur) : HodVia :=
  ⟨hodIdent c.frontage c.tag, if c.frontage then none else some (d.hodCtx (d.pier p) c.tag)⟩

theorem Dev.hodSegment_of_idle (hc : (d.pier p).hod.cur = none) : d.hodSegment p rd = d := by
  simp [Dev.hodSegment, hc]

/-- A function that may send nothing ends the ticket with a host error (R350, R354; log 43). -/
theorem Dev.hodSegment_of_mute (hc : (d.pier p).hod.cur = some c) (hs : d.canSend (d.hodFn c.frontage c.tag) = false) :
    d.hodSegment p rd = d.setPier p (hodFault (d.pier p) d.now c 0x20 0) := by
  simp [Dev.hodSegment, hc, hs]

/-- An outbound segment is read from the pier, then written to the host in one write (R349). -/
theorem Dev.hodSegment_outbound (hc : (d.pier p).hod.cur = some c) (hs : d.canSend (d.hodFn c.frontage c.tag) = true)
    (ho : c.outbound = true) {res : HodRes (List Word)} :
    let f := d.hodFn c.frontage c.tag
    let seg := c.segs.getD c.seg (0, 0)
    hodRead (d.hodVia p c) d.now (packWords c.pack.toNat seg.2) c.segBase (d.pier p) = res →
    d.hodSegment p rd = res.fold (d.setPier p)
      (fun k a H => d.setPier p (hodFault H d.now c k a))
      (fun ws P1 => (d.setPier p (hodNext P1 d.now c)).send
        (.write f (.hod p) seg.1 ((packOut c.pack.toNat ws).take seg.2) (d.fn f).relaxed)) := by
  intro f seg hres
  simp only [Dev.hodVia] at hres
  simp only [Dev.hodSegment, hc, hs, ho, Bool.not_true, Bool.false_eq_true, if_false, if_true, hres, f, seg]
  cases res with
  | held H => rfl
  | fault k a H => rfl
  | ok ws P1 => exact Dev.write_of_canSend _ _ _ _ hs

/-- An inbound segment that the host did not give ends the ticket with a host error (R350). -/
theorem Dev.hodSegment_inbound_err {e} (hc : (d.pier p).hod.cur = some c) (hs : d.canSend (d.hodFn c.frontage c.tag) = true)
    (ho : c.outbound = false) :
    let seg := c.segs.getD c.seg (0, 0)
    d.hodSegment p (.err e) =
      (d.readHost (d.hodFn c.frontage c.tag) seg.1 seg.2).setPier p (hodFault (d.pier p) d.now c 0x20 0) := by
  simp [Dev.hodSegment, hc, hs, ho]

/-- What the checked destinations `ws` of an inbound segment make of the search for rubble: a line that is covered in part and holds
rubble ends the ticket, else every word is written (R349, R350). -/
def afterPoisonSearch (now : Nat) (c : HodCur) (ws : List (Nat × Word × Elem)) : Option Nat × Pier → Pier
  | (some l, H) => hodFault H now c 0x22 (c.segBase + BitVec.ofNat 36 (lineIndex ws l))
  | (none, H) => hodNext (hodStore ws H) now c

/-- An inbound segment that the host gave has its destinations checked, then is written (R349). -/
theorem Dev.hodSegment_inbound {bs} (hc : (d.pier p).hod.cur = some c) (hs : d.canSend (d.hodFn c.frontage c.tag) = true)
    (ho : c.outbound = false) {res : HodRes (List (Nat × Word × Elem))} :
    let seg := c.segs.getD c.seg (0, 0)
    let d1 := d.readHost (d.hodFn c.frontage c.tag) seg.1 seg.2
    hodDests (d.hodVia p c) d.now (packIn c.pack.toNat (fitBytes seg.2 bs)) 0 c.segBase (d.pier p) = res →
      d.hodSegment p (.data bs) = res.fold (d.setPier p) (fun k a H => d1.setPier p (hodFault H d.now c k a))
        (fun ws P1 => d1.setPier p (afterPoisonSearch d.now c ws (hodPoison ws (groupLines ws) P1))) := by
  intro seg d1 hres
  simp only [Dev.hodVia, seg] at hres
  simp only [Dev.hodSegment, hc, hs, ho, Bool.not_true, Bool.false_eq_true, if_false, hres]
  cases res with
  | held H => rfl
  | fault k a H => rfl
  | ok ws P1 =>
    simp only [HodRes.fold]
    generalize hodPoison ws (groupLines ws) P1 = res
    obtain ⟨_ | l, H⟩ := res <;> rfl

/-- Where the destinations answer, the search for rubble in them decides (R349, R350). -/
theorem Dev.hodSegment_inbound_ok {bs} (hc : (d.pier p).hod.cur = some c) (hs : d.canSend (d.hodFn c.frontage c.tag) = true)
    (ho : c.outbound = false) {ws : List (Nat × Word × Elem)} {P1 : Pier} {found : Option Nat × Pier} :
    let seg := c.segs.getD c.seg (0, 0)
    hodDests (d.hodVia p c) d.now (packIn c.pack.toNat (fitBytes seg.2 bs)) 0 c.segBase (d.pier p) = .ok ws P1 →
    hodPoison ws (groupLines ws) P1 = found →
    d.hodSegment p (.data bs) =
      (d.readHost (d.hodFn c.frontage c.tag) seg.1 seg.2).setPier p (afterPoisonSearch d.now c ws found) := by
  rintro seg h rfl
  exact Dev.hodSegment_inbound hc hs ho h

end Segment

/-! ### The statement -/

/-- Settles O32: the posts, starts, segments and ends are the lemmas above. That a pier which is not reached takes no write of
PR_HOD_POST and PR_HOD_CTL is the model's choice of log 69, the poster's identity and SUSP with RESUME in one write are its log 11, and
cause 0x20 for a function that may not send is its log 43. -/
theorem hodTicketsRun : Obligations.HodTicketsRun := by
  refine ⟨?_, ?_, ?_, ?_, ?_, ?_, ?_, ?_, ?_⟩
  · intro p v s
    refine ⟨fun h => ⟨?_, ?_, ?_⟩, fun h => ⟨fun hq => ?_, fun hq => ?_, ?_, ?_⟩⟩
    · exact answers_prHodPost (Dev.onReg_of_unreachable _ h)
    · exact answers_prHodCtlSusp (Dev.onReg_of_unreachable _ h)
    · exact answers_prHodCtlResume (Dev.onReg_of_unreachable _ h)
    · exact answers_prHodPost ((Dev.onReg_of_reachable _ h).trans (congrArg _ (hodPost_of_room v false hq)))
    · exact answers_prHodPost ((Dev.onReg_of_reachable _ h).trans (congrArg _ (hodPost_of_full v false hq)))
    · exact answers_prHodCtlSusp ((Dev.onReg_of_reachable _ h).trans (congrArg _ (hodCtl_eq v _)))
    · exact answers_prHodCtlResume ((Dev.onReg_of_reachable _ h).trans (congrArg _ (hodCtl_eq v _)))
  · exact fun p s h => answers_hodTicketStart (hodStart_idle _ h)
  · intro p s t rest P Q a i ends hq hc hs ha
    refine ⟨?_, ?_, ?_, fun head Q1 h1 => ⟨?_, ?_, ?_, fun ws Q2 h2 => ⟨fun hr => ?_, fun hr hl => ?_, fun hr hl => ?_⟩⟩⟩
    · exact fun _ h => answers_hodTicketStart (hodStart_of_head hq hc hs ha h)
    · exact fun _ _ h => answers_hodTicketStart (hodStart_of_head hq hc hs ha h)
    · exact fun _ h => answers_hodTicketStart (hodStart_of_head hq hc hs ha h)
    · exact fun _ h => answers_hodTicketStart (hodStart_of_words hq hc hs ha h1 h)
    · exact fun _ _ h => answers_hodTicketStart (hodStart_of_words hq hc hs ha h1 h)
    · exact fun _ h => answers_hodTicketStart (hodStart_of_words hq hc hs ha h1 h)
    · exact answers_hodTicketStart ((hodStart_of_words hq hc hs ha h1 h2).trans (takeTicket_reserved _ _ _ hr))
    · exact answers_hodTicketStart ((hodStart_of_words hq hc hs ha h1 h2).trans (takeTicket_wrongLength _ _ _ hr hl))
    · exact answers_hodTicketStart ((hodStart_of_words hq hc hs ha h1 h2).trans (takeTicket_runs _ _ _ hr hl))
  · exact fun p rd s h => answers_hodSegmentDone (Dev.hodSegment_of_idle rd h)
  · intro p rd s c P f seg via d1 hc
    refine ⟨fun hs => ?_, fun hs ho => ⟨?_, ?_, ?_⟩, fun hs ho => ⟨?_, ?_⟩⟩
    · exact answers_hodSegmentDone (Dev.hodSegment_of_mute rd hc hs)
    · exact fun _ h => answers_hodSegmentDone (Dev.hodSegment_outbound rd hc hs ho h)
    · exact fun _ _ _ h => answers_hodSegmentDone (Dev.hodSegment_outbound rd hc hs ho h)
    · exact fun _ _ h => answers_hodSegmentDone (Dev.hodSegment_outbound rd hc hs ho h)
    · rintro e rfl
      exact answers_hodSegmentDone (Dev.hodSegment_inbound_err hc hs ho)
    · rintro bs rfl dests
      refine ⟨fun _ h => ?_, fun _ _ _ h => ?_, fun _ _ _ _ h hp => ?_, fun _ _ _ h hp => ?_⟩
      · exact answers_hodSegmentDone (Dev.hodSegment_inbound hc hs ho h)
      · exact answers_hodSegmentDone (Dev.hodSegment_inbound hc hs ho h)
      · exact answers_hodSegmentDone (Dev.hodSegment_inbound_ok hc hs ho h hp)
      · exact answers_hodSegmentDone (Dev.hodSegment_inbound_ok hc hs ho h hp)
  · exact fun P now c h hq => hodNext_of_more now h hq
  · exact fun P now c h hq => hodNext_of_suspReq now h hq
  · exact fun P now c h => hodNext_of_last now h
  · exact fun P now addr fr iev st cause ridx fa v P1 h _ hc hr => hodEnd_of_granted h hc hr

end Sys2Proof.Machine
end

section
/-! Runs: the start of a run, the reading of a streamer's row, the advance of a joint and the commit of a store streamer (R77 to R79,
R98, R101, R104, R116, R283, R467), and O19 from them. -/

namespace Sys2Proof.Machine

open Sys2Proof

/-! ### The commands -/

section Commands

variable {s : State} {p : Fin 16} {Q : Pier}

theorem runAnswers_runStart (h : runStart (s.dev.pier p) s.dev.now s.dev.fresh = Q) :
    RunAnswers (.runStart p) s p Q :=
  h ▸ rfl

theorem runAnswers_loadStreamerFire {u : Fin 4} (h : loadFire (s.dev.pier p) s.dev.now s.dev.fresh u.val = Q) :
    RunAnswers (.loadStreamerFire p u) s p Q :=
  h ▸ rfl

theorem runAnswers_jointGroupAdvance {port : Port} (h : jointAdvance (s.dev.pier p) s.dev.now s.dev.fresh port = Q) :
    RunAnswers (.jointGroupAdvance p port) s p Q :=
  h ▸ rfl

theorem runAnswers_storeCommit {u : Fin 2} (h : storeCommit (s.dev.pier p) s.dev.now s.dev.fresh (4 + u.val) = Q) :
    RunAnswers (.storeCommit p u) s p Q :=
  h ▸ rfl

end Commands

/-! ### The start of a run (R104, R283, R467) -/

/-- A bank in retention begins to wake (R283). -/
def wakeBank (now : Nat) (P : Pier) (b : Fin 16) : Pier :=
  if P.mem.bank[b].retn = .retained then P.onBank b (fun k => { k with retn := .waking, lastUse := now }) else P

/-- Those of the banks `bs` that are in retention begin to wake (R283). -/
def wakeBanks (now : Nat) (bs : List (Fin 16)) (P : Pier) : Pier := bs.foldl (wakeBank now) P

section Start

variable {P : Pier} {r : Run} (now fr : Nat)

@[simp] theorem wakeBank_runs (P : Pier) (b : Fin 16) : (wakeBank now P b).runs = P.runs := by
  unfold wakeBank
  split <;> rfl

@[simp] theorem wakeBanks_runs (bs : List (Fin 16)) (P : Pier) : (wakeBanks now bs P).runs = P.runs := by
  induction bs generalizing P with
  | nil => rfl
  | cons c bs ih => exact (ih _).trans (wakeBank_runs now P c)

theorem wakeBank_retn (P : Pier) (c b : Fin 16) : (wakeBank now P c).mem.bank[b].retn =
    if b = c ∧ P.mem.bank[b].retn = .retained then .waking else P.mem.bank[b].retn := by
  unfold wakeBank
  by_cases hb : b = c
  · subst hb
    by_cases hr : P.mem.bank[b].retn = .retained
    · rw [if_pos hr, if_pos ⟨rfl, hr⟩]
      simp [Pier.onBank]
    · rw [if_neg hr, if_neg (fun h => hr h.2)]
  · simp only [hb, false_and, if_false]
    split
    · rw [Pier.bank_onBank_of_ne _ _ hb]
    · rfl

/-- Of the banks that wake, those in retention are waking, and every other bank is as it was. -/
theorem wakeBanks_retn (bs : List (Fin 16)) (P : Pier) (b : Fin 16) : (wakeBanks now bs P).mem.bank[b].retn =
    if b ∈ bs ∧ P.mem.bank[b].retn = .retained then .waking else P.mem.bank[b].retn := by
  induction bs generalizing P with
  | nil => simp [wakeBanks]
  | cons c bs ih =>
    refine (ih (wakeBank now P c)).trans ?_
    simp only [wakeBank_retn, List.mem_cons]
    by_cases hb : b = c
    · subst hb
      by_cases hr : P.mem.bank[b].retn = .retained
      · simp only [hr, and_self, if_true, reduceCtorEq, and_false, if_false, true_or]
      · simp only [hr, and_false, if_false]
    · simp only [hb, false_and, if_false, false_or]

/-- Banks that are awake have nothing to wake from. -/
theorem wakeBanks_of_awake {bs : List (Fin 16)} (h : bs.all (fun b => P.mem.bank[b].retn = .awake) = true) : wakeBanks now bs P = P := by
  induction bs with
  | nil => rfl
  | cons c bs ih =>
    obtain ⟨hc, hbs⟩ := by simpa only [List.all_cons, Bool.and_eq_true, decide_eq_true_eq] using h
    simp only [wakeBanks, List.foldl_cons, wakeBank, hc, reduceCtorEq, if_false]
    exact ih hbs

/-- A start finds nothing to do where no run waits for it or its pier's lanes are not ramped (R104, R467). -/
theorem runStart_idle (h : P.runs.exec = none ∨ P.runs.started = true ∨ P.pw.st ≠ .run ∨ P.pw.change = .ramp) :
    runStart P now fr = P := by
  unfold runStart
  cases hr : P.runs.exec with
  | none => rfl
  | some r => exact if_pos (by simpa [hr, or_assoc] using h)

section Head

variable (hr : P.runs.exec = some r) (hs : P.runs.started = false) (hst : P.pw.st = .run) (hch : P.pw.change ≠ .ramp)
include hr hs hst hch

/-- The run at the head wakes its banks, and starts where all of them are awake (R104, R283). -/
theorem runStart_of_head : runStart P now fr =
    if (runBanks P now r).any (fun b => (wakeBanks now (runBanks P now r) P).mem.bank[b].retn ≠ .awake) = true then
      wakeBanks now (runBanks P now r) P
    else afterRun { wakeBanks now (runBanks P now r) P with
      runs := { (wakeBanks now (runBanks P now r) P).runs with started := true } } now fr r := by
  simp only [runStart, hr, hs, hst, hch]
  rfl

/-- The run at the head starts once its banks are awake (R104, R283). -/
theorem runStart_of_awake (h : (runBanks P now r).all (fun b => P.mem.bank[b].retn = .awake) = true) :
    runStart P now fr = afterRun { P with runs := { P.runs with started := true } } now fr r := by
  rw [runStart_of_head now fr hr hs hst hch, wakeBanks_of_awake now h, if_neg]
  simpa using h

/-- A run of which a bank is not awake wakes its banks and waits (R283). -/
theorem runStart_of_asleep (h : (runBanks P now r).any (fun b => P.mem.bank[b].retn ≠ .awake) = true) :
    runStart P now fr = wakeBanks now (runBanks P now r) P := by
  rw [runStart_of_head now fr hr hs hst hch, if_pos]
  obtain ⟨b, hb, hn⟩ := List.any_eq_true.1 h
  refine List.any_eq_true.2 ⟨b, hb, ?_⟩
  rw [wakeBanks_retn]
  split
  · rfl
  · exact hn

end Head

end Start

/-! ### A streamer's row (R98, R101, R121, R126) -/

section Load

variable {P Q : Pier} {r : Run} {x : RUnit} {now fr u : Nat}

/-- Where the row that a streamer reads next ends: at its group's end or the stream's (R101). -/
def RUnit.rowEnd (x : RUnit) (n : Nat) : Nat := min (32 * (x.fired / 32 + 1)) (x.len n)

/-- A streamer that its run does not use, or whose run has not started, reads nothing. -/
theorem loadFire_idle (h : ∀ r x, P.runs.exec = some r ∧ P.runs.started = true → r.unit? u ≠ some x) : loadFire P now fr u = P := by
  unfold loadFire
  cases hr : P.runs.exec with
  | none => rfl
  | some r =>
    cases hs : P.runs.started with
    | false => rfl
    | true =>
      cases hx : r.unit? u with
      | none => simp [hx]
      | some x => exact absurd hx (h r x ⟨hr, hs⟩)

section Unit

variable (hr : P.runs.exec = some r) (hs : P.runs.started = true) (hx : r.unit? u = some x)
include hr hs hx

/-- A streamer at its end, without room on its joint, or whose row reaches H + 512, reads nothing (R101, R116). -/
theorem loadFire_blocked (h : x.ended = true ∨ x.rowEnd r.n ≤ x.fired ∨ r.room x x.fired = false ∨ r.near (x.rowEnd r.n - 1) = false) :
    loadFire P now fr u = P := by
  simp only [loadFire, hr, hs, hx, Bool.not_true, Bool.false_eq_true, if_false]
  refine if_pos ?_
  simp only [Bool.or_eq_true, Bool.not_eq_true', decide_eq_true_eq, or_assoc]
  exact h

variable (he : x.ended = false) (hf : x.fired < x.rowEnd r.n) (hm : r.room x x.fired = true) (hn : r.near (x.rowEnd r.n - 1) = true)
include he hf hm hn

/-- A streamer that may read is held by its bank, faults its run, or emits its row (R101, R121). -/
theorem loadFire_of_near : loadFire P now fr u = match loadGroup now fr x (x.rowEnd r.n - x.fired) x.fired P r with
    | none => (loadElem P now r x x.fired).2
    | some (P, none) => P
    | some (P, some r) => afterRun P now fr r := by
  simp only [loadFire, hr, hs, hx, RUnit.rowEnd] at *
  simp only [he, hm, hn, Nat.not_le.2 hf]
  rfl

/-- A row that its bank holds stays unread (R101). -/
theorem loadFire_held (h : loadGroup now fr x (x.rowEnd r.n - x.fired) x.fired P r = none) :
    loadFire P now fr u = (loadElem P now r x x.fired).2 := by
  rw [loadFire_of_near hr hs hx he hf hm hn, h]

/-- A row that meets a fault ends the run (R121, R126). -/
theorem loadFire_faults (h : loadGroup now fr x (x.rowEnd r.n - x.fired) x.fired P r = some (Q, none)) : loadFire P now fr u = Q := by
  rw [loadFire_of_near hr hs hx he hf hm hn, h]

/-- A row that is read is emitted (R101). -/
theorem loadFire_emits {r' : Run} (h : loadGroup now fr x (x.rowEnd r.n - x.fired) x.fired P r = some (Q, some r')) :
    loadFire P now fr u = afterRun Q now fr r' := by
  rw [loadFire_of_near hr hs hx he hf hm hn, h]

end Unit

end Load

/-! ### The advance of a joint (R77 to R79, R126) -/

section Joint

variable {P : Pier} {r : Run} {port : Port} {e : Elem} {es : List Elem} (now fr : Nat)

/-- The group that waits first on a port: what lies in the same group as its first element (R77). -/
def headGroup (e : Elem) (es : List Elem) : List Elem := (e :: es).takeWhile (fun x => x.idx / 32 = e.idx / 32)

/-- The run once the first group of what waits on a port has left it (R79). -/
def Run.afterHead (r : Run) (port : Port) (e : Elem) (es : List Elem) : Run :=
  { r with outs := assocSet r.outs port ((e :: es).drop (headGroup e es).length) }

/-- The run once a group has gone to every destination of its port (R79). -/
def Run.deliverAll (r : Run) (port : Port) (g : List Elem) (r1 : Run) : Run :=
  (r.conns.filter (fun c => c.src = port)).foldl (fun r c => r.deliver g c.dst) r1

/-- A joint with no group, half a group, or a destination that can take none, advances nothing (R78, R79). -/
theorem jointAdvance_idle (h : ∀ r e es, P.runs.exec = some r → r.outAt port = e :: es →
    r.groupWhole port (headGroup e es) = false ∨ (r.conns.filter (fun c => c.src = port)).all r.accepts = false) :
    jointAdvance P now fr port = P := by
  unfold jointAdvance
  cases hr : P.runs.exec with
  | none => rfl
  | some r =>
    cases ho : r.outAt port with
    | nil => simp [ho]
    | cons e es =>
      simp only [ho]
      refine if_pos ?_
      simpa [headGroup] using h r e es hr ho

section Whole

variable (hr : P.runs.exec = some r) (ho : r.outAt port = e :: es) (hg : r.groupWhole port (headGroup e es) = true)
  (hd : (r.conns.filter (fun c => c.src = port)).all r.accepts = true)
include hr ho hg hd

/-- A joint whose group is whole advances it to every destination, unless it finds rubble that nothing has observed yet and SR makes
it a fault (R79, R121, R126). -/
theorem jointAdvance_of_whole : jointAdvance P now fr port =
    match (headGroup e es).find? (fun x => x.rub && !r.rubIdx.contains x.idx) with
    | some x =>
      if r.sr then faultRun P now fr r 6 9 x.idx none
      else afterRun P now fr (r.deliverAll port (headGroup e es) { r.afterHead port e es with rubble := (r.observe x.idx 9).rubble })
    | none => afterRun P now fr (r.deliverAll port (headGroup e es) (r.afterHead port e es)) := by
  unfold headGroup at hg
  simp only [jointAdvance, hr, ho, hg, hd]
  rfl

/-- A group without rubble that nothing has observed yet goes to every destination (R79). -/
theorem jointAdvance_clean (h : (headGroup e es).find? (fun x => x.rub && !r.rubIdx.contains x.idx) = none) :
    jointAdvance P now fr port = afterRun P now fr (r.deliverAll port (headGroup e es) (r.afterHead port e es)) := by
  rw [jointAdvance_of_whole now fr hr ho hg hd, h]

/-- Rubble that nothing has observed yet is observed on the joint (R126; log 55). -/
theorem jointAdvance_observes {x : Elem} (h : (headGroup e es).find? (fun x => x.rub && !r.rubIdx.contains x.idx) = some x)
    (hs : r.sr = false) : jointAdvance P now fr port = afterRun P now fr
      (r.deliverAll port (headGroup e es) { r.afterHead port e es with rubble := (r.observe x.idx 9).rubble }) := by
  rw [jointAdvance_of_whole now fr hr ho hg hd, h]
  simp only [hs, Bool.false_eq_true, if_false]

/-- Rubble that nothing has observed yet is a fault under SR (R121). -/
theorem jointAdvance_faults {x : Elem} (h : (headGroup e es).find? (fun x => x.rub && !r.rubIdx.contains x.idx) = some x)
    (hs : r.sr = true) : jointAdvance P now fr port = faultRun P now fr r 6 9 x.idx none := by
  rw [jointAdvance_of_whole now fr hr ho hg hd, h]
  simp only [hs, if_true]

end Whole

end Joint

/-! ### The commit of a store streamer (R101, R116, R121, R122, R126) -/

/-- The elements of a stream's rubble marks that lie in a group. -/
def Run.marksOf (r : Run) (n g : Nat) : List Elem := (r.inAt (mkPort n 3)).takeWhile (fun y => y.idx / 32 = g)

/-- What a store streamer commits of the group that heads its input: its elements, each with the mark that pairs with it where marks
are fed (R101, R126). -/
def Run.stored (r : Run) (n : Nat) (e : Elem) (es : List Elem) : List Elem :=
  if r.fed (mkPort n 3) = true then
    List.zipWith (fun (y t : Elem) => { y with rub := y.rub || t.rub }) (headGroup e es) (r.marksOf n (e.idx / 32))
  else headGroup e es

/-- The elements `put` of group `g`, of which `k` leave the input and `last` is the last one, are committed, unless a poison line
under SR faults the run, or rubble may still be found below their group (R121, R122, R126; log 73). -/
def storePut (now fr n g k last : Nat) (put : List (Nat × Word × Elem)) (r : Run) (P : Pier) : Pier :=
  match (if r.sr then (groupLines put).find? (meetsPoison P put) else none) with
  | some l => faultRun P now fr r 6 n (lineIndex put l) none
  | none =>
    if r.sr && r.rubbleAhead now n (32 * (g + 1)) P then P
    else
      afterRun (storeLines put n (groupLines put) (storeBanks P put) r).1 now fr
        (((storeLines put n (groupLines put) (storeBanks P put) r).2.takeN n k).onUnit n (fun y => { y with committed := last + 1 }))

/-- The addresses of the elements `ws` of a group, with the elements. -/
def placed (as : List (Nat × Word)) (ws : List Elem) : List (Nat × Word × Elem) :=
  List.zipWith (fun (a : Nat × Word) y => (a.1, a.2, y)) as ws

/-- A group whose translation ahead of the data met no fault is placed and committed (R116). -/
def storeGroup (now fr n : Nat) (e : Elem) (es : List Elem) (r : Run) (x : RUnit) (P : Pier) : Pier :=
  let ys := r.stored n e es
  let ws := ys.filter (fun y => y.idx < x.len r.n)
  match storeAddrs now r x (ws.map (·.idx)) P with
  | (.error _, P) => P
  | (.ok as, P) => storePut now fr n (e.idx / 32) ys.length ((headGroup e es).getD (ys.length - 1) e).idx (placed as ws) r P

section Commit

variable {P P1 P2 : Pier} {r : Run} {x : RUnit} {e : Elem} {es : List Elem} {n : Nat} (now fr : Nat)

theorem Run.stored_length (r : Run) (n : Nat) (e : Elem) (es : List Elem) : (r.stored n e es).length =
    if r.fed (mkPort n 3) = true then min (headGroup e es).length (r.marksOf n (e.idx / 32)).length else (headGroup e es).length := by
  unfold Run.stored
  split
  · exact List.length_zipWith
  · rfl

/-- Element by element, what is committed is the group with its marks. -/
theorem Run.stored_eq_map (r : Run) (n : Nat) (e : Elem) (es : List Elem) :
    (List.range (r.stored n e es).length).map (fun k =>
      let y := (headGroup e es).getD k ⟨0, 0, false⟩
      { y with rub := y.rub || (r.fed (mkPort n 3) && ((r.marksOf n (e.idx / 32)).getD k ⟨0, 0, false⟩).rub) }) = r.stored n e es := by
  refine List.ext_getElem (by simp) (fun k h1 h2 => ?_)
  have hk := h2
  rw [Run.stored_length] at hk
  unfold Run.stored
  split at hk
  · rename_i hf
    simp [hf, (lt_min_iff.1 hk).1, (lt_min_iff.1 hk).2]
  · rename_i hf
    simp [hf, hk]

/-- A streamer with no group, at its end, to a staging buffer, above the horizon, or whose marks have not come, commits nothing
(R101, R116). -/
theorem storeCommit_idle (h : ∀ r x e es, P.runs.exec = some r → r.unit? n = some x → r.inAt (mkPort n 0) = e :: es →
    x.ended = true ∨ x.p 0 = 1 ∨ r.horizonPast (e.idx / 32) = false ∨ (r.fed (mkPort n 3) = true ∧ r.marksOf n (e.idx / 32) = [])) :
    storeCommit P now fr n = P := by
  unfold storeCommit
  cases hr : P.runs.exec with
  | none => rfl
  | some r =>
    cases hx : r.unit? n with
    | none => simp [hx]
    | some x =>
      cases ha : r.inAt (mkPort n 0) with
      | nil => simp [hx, ha]
      | cons e es =>
        simp only [hx, ha]
        refine if_pos ?_
        obtain h | h | h | ⟨hf, hm⟩ := h r x e es hr hx ha
        · simp [h]
        · simp [h]
        · simp [h]
        · unfold Run.marksOf at hm
          simp [hf, hm]

section Horizon

variable (hr : P.runs.exec = some r) (hx : r.unit? n = some x) (he : x.ended = false) (hp : x.p 0 ≠ 1)
  (ha : r.inAt (mkPort n 0) = e :: es) (hy : r.stored n e es ≠ []) (hh : r.horizonPast (e.idx / 32) = true)
include hr hx he hp ha hy hh

/-- Behind the horizon a group is translated, of every streamer that writes memory, before it is placed (R116, R121). -/
theorem storeCommit_of_horizon : storeCommit P now fr n =
    match translateAhead now r (e.idx / 32) r.memStores P with
    | (.error none, P) => P
    | (.error (some (i, un, rout, va, fcs)), P) => faultRun P now fr r rout un i (some (va, fcs))
    | (.ok _, P) => storeGroup now fr n e es r x P := by
  have hn : (r.stored n e es).length ≠ 0 := fun h => hy (List.eq_nil_of_length_eq_zero h)
  have hmap := r.stored_eq_map n e es
  have hlen := r.stored_length n e es
  simp only [headGroup, Run.marksOf] at hmap hlen
  simp only [storeCommit, hr, hx, ha, he, hp, hh, ← hlen, hn, hmap, storeGroup, storePut, placed]
  rfl

/-- A translation that fails ends the run (R116, R121). -/
theorem storeCommit_faults {i un rout : Nat} {va fcs : Word}
    (ht : translateAhead now r (e.idx / 32) r.memStores P = (.error (some (i, un, rout, va, fcs)), P1)) :
    storeCommit P now fr n = faultRun P1 now fr r rout un i (some (va, fcs)) := by
  rw [storeCommit_of_horizon now fr hr hx he hp ha hy hh, ht]

/-- A translation that is held leaves the group where it is (R101). -/
theorem storeCommit_held (ht : translateAhead now r (e.idx / 32) r.memStores P = (.error none, P1)) : storeCommit P now fr n = P1 := by
  rw [storeCommit_of_horizon now fr hr hx he hp ha hy hh, ht]

/-- A group that has been translated is placed. -/
theorem storeCommit_translated (ht : translateAhead now r (e.idx / 32) r.memStores P = (.ok (), P1)) :
    storeCommit P now fr n = storeGroup now fr n e es r x P1 := by
  rw [storeCommit_of_horizon now fr hr hx he hp ha hy hh, ht]

end Horizon

/-- A group of which a bank holds an element waits (R101). -/
theorem storeGroup_unplaced {err : Option (Nat × Nat × Word × Word)}
    (h : storeAddrs now r x (((r.stored n e es).filter (fun y => y.idx < x.len r.n)).map (·.idx)) P1 = (.error err, P2)) :
    storeGroup now fr n e es r x P1 = P2 := by
  unfold storeGroup
  simp only [h]

/-- A group whose addresses are known is put there. -/
theorem storeGroup_placed {as : List (Nat × Word)}
    (h : storeAddrs now r x (((r.stored n e es).filter (fun y => y.idx < x.len r.n)).map (·.idx)) P1 = (.ok as, P2)) :
    storeGroup now fr n e es r x P1 = storePut now fr n (e.idx / 32) (r.stored n e es).length
      ((headGroup e es).getD ((r.stored n e es).length - 1) e).idx
      (placed as ((r.stored n e es).filter (fun y => y.idx < x.len r.n))) r P2 := by
  unfold storeGroup
  simp only [h]

section Put

variable {g k last l : Nat} {put : List (Nat × Word × Elem)}

/-- A poison line that the group does not replace is a fault under SR (R64, R121, R122). -/
theorem storePut_faults (hs : r.sr = true) (hl : (groupLines put).find? (meetsPoison P put) = some l) :
    storePut now fr n g k last put r P = faultRun P now fr r 6 n (lineIndex put l) none := by
  simp only [storePut, hs, hl, if_true]

/-- Under SR a group waits while rubble may still be found below its end (R121; log 73). -/
theorem storePut_waits (hs : r.sr = true) (hl : (groupLines put).all (fun l => !meetsPoison P put l) = true)
    (ha : r.rubbleAhead now n (32 * (g + 1)) P = true) : storePut now fr n g k last put r P = P := by
  have hf : (groupLines put).find? (meetsPoison P put) = none := by simpa using hl
  simp only [storePut, hs, hf, ha, if_true, Bool.and_self]

/-- A group that meets no fault is written, consumed and counted as committed (R116, R122). -/
theorem storePut_commits
    (h : r.sr = false ∨ ((groupLines put).all (fun l => !meetsPoison P put l) = true ∧ r.rubbleAhead now n (32 * (g + 1)) P = false)) :
    storePut now fr n g k last put r P =
      afterRun (storeLines put n (groupLines put) (storeBanks P put) r).1 now fr
        (((storeLines put n (groupLines put) (storeBanks P put) r).2.takeN n k).onUnit n (fun y => { y with committed := last + 1 })) := by
  obtain hs | ⟨hl, ha⟩ := h
  · simp only [storePut, hs, Bool.false_eq_true, if_false, Bool.false_and]
  · have hf : (groupLines put).find? (meetsPoison P put) = none := by simpa using hl
    simp only [storePut, hf, ha, ite_self, Bool.and_false, Bool.false_eq_true, if_false]

end Put

end Commit

/-- An element of a bank belongs to no quarry line, and a bank word takes it, rubble as the poison codeword (R61). -/
theorem groupLines_storeBanks_of_bank (P : Pier) {i a : Nat} {pa : Word} {b : Fin 16} (e : Elem) (h : physTarget pa = .bank b a) :
    groupLines [(i, pa, e)] = [] ∧
    storeBanks P [(i, pa, e)] = bankStore P a (if e.rub = true then eccPoison else eccEncode e.val) := by
  simp [groupLines, storeBanks, h]

/-! ### The statement -/

/-- Settles O19: the start, the reading, the advance and the commit are the lemmas above. Rubble that SR may still find below a
group is the model's choice of log 73, the writes of a group line by line are its log 56, and UNIT 9 of a joint its log 55. -/
theorem runsStartStreamAndCommit : Obligations.RunsStartStreamAndCommit := by
  refine ⟨?_, ?_, ?_, ?_, ?_⟩
  · exact fun p s r hr hs hst hch hb => runAnswers_runStart (runStart_of_awake _ _ hr hs hst hch hb)
  · intro p u s r x Q r' P hr hs hx he stop hf hm hn h
    cases r' with
    | none => exact runAnswers_loadStreamerFire (loadFire_faults hr hs hx he hf hm hn h)
    | some r' => exact runAnswers_loadStreamerFire (loadFire_emits hr hs hx he hf hm hn h)
  · intro p port s r e es P hr ho g ds gone seen hg hd
    refine ⟨fun h => ?_, fun x h hs => ?_, fun x h hs => ?_⟩
    · exact runAnswers_jointGroupAdvance (jointAdvance_clean _ _ hr ho hg hd h)
    · exact runAnswers_jointGroupAdvance (jointAdvance_observes _ _ hr ho hg hd h hs)
    · exact runAnswers_jointGroupAdvance (jointAdvance_faults _ _ hr ho hg hd h hs)
  · intro p u s r x e es P now fr n g grp ts ys ws hr hx he hp ha hy hh
    refine ⟨fun i un rout va fcs P1 ht => ?_, fun P1 ht => ?_, fun P1 P2 err ht h => ?_, fun P1 P2 as ht h => ?_⟩
    · exact runAnswers_storeCommit (storeCommit_faults _ _ hr hx he hp ha hy hh ht)
    · exact runAnswers_storeCommit (storeCommit_held _ _ hr hx he hp ha hy hh ht)
    · exact runAnswers_storeCommit ((storeCommit_translated _ _ hr hx he hp ha hy hh ht).trans (storeGroup_unplaced _ _ h))
    · have hc := (storeCommit_translated now fr hr hx he hp ha hy hh ht).trans (storeGroup_placed now fr h)
      refine ⟨fun _ hs hl => ?_, fun hs hl hw => ?_, fun hs => ?_⟩
      · exact runAnswers_storeCommit (hc.trans (storePut_faults _ _ hs hl))
      · exact runAnswers_storeCommit (hc.trans (storePut_waits _ _ hs hl hw))
      · exact runAnswers_storeCommit (hc.trans (storePut_commits _ _ hs))
  · exact fun P i pa b a e h => groupLines_storeBanks_of_bank P e h

end Sys2Proof.Machine
end

section
/-! Stones without state (R73 to R76, R121, R129): what one firing of IA0, IA1, DC0, FP0, IX0 and SL0 leaves, and O21 from it. -/

namespace Sys2Proof.Machine

open Sys2Proof

/-! ### The commands -/

section Commands

variable {s : State} {p : Fin 16} {Q : Pier}

theorem runAnswers_iaFire {u : Fin 2} (h : iaFire (s.dev.pier p) s.dev.now s.dev.fresh u.val = Q) : RunAnswers (.iaFire p u) s p Q :=
  h ▸ rfl

theorem runAnswers_dcFire (h : dcFire (s.dev.pier p) s.dev.now s.dev.fresh = Q) : RunAnswers (.dcFire p) s p Q := h ▸ rfl

theorem runAnswers_fpFire (h : fpFire (s.dev.pier p) s.dev.now s.dev.fresh = Q) : RunAnswers (.fpFire p) s p Q := h ▸ rfl

theorem runAnswers_ixFire (h : ixFire (s.dev.pier p) s.dev.now s.dev.fresh = Q) : RunAnswers (.ixFire p) s p Q := h ▸ rfl

theorem runAnswers_slFire (h : slFire (s.dev.pier p) s.dev.now s.dev.fresh = Q) : RunAnswers (.slFire p) s p Q := h ▸ rfl

end Commands

/-! ### A firing of a stone without state (R73, R74, R76, R121, R129) -/

section Lane

variable {P : Pier} {r : Run} {x : RUnit} {i : Nat} {now fr u rout unit : Nat}
  {op : Run → RUnit → Nat → Word → Word → Word → LaneOut × Bool}

/-- A stone that may not fire leaves its pier. -/
theorem fireLane_idle (h : firing P u = none) : fireLane P now fr u rout unit op = P := by
  simp only [fireLane, h]

/-- A firing that takes no trap, or an operation on rubble, emits its result (R74, R76). -/
theorem fireLane_emits (h : firing P u = some (r, x, i))
    (ht : (op r x i (r.operand x 0) (r.operand x 1) (r.operand x 2)).2 = false ∨ r.rubbleIn x = true) :
    fireLane P now fr u rout unit op =
      fireEmit P now fr r u i (op r x i (r.operand x 0) (r.operand x 1) (r.operand x 2)).1 (r.rubbleIn x) := by
  simp only [fireLane, h]
  refine if_neg ?_
  obtain ht | ht := ht <;> simp [ht]

/-- A trap of an operation on no rubble faults the run (R121). -/
theorem fireLane_traps (h : firing P u = some (r, x, i))
    (ht : (op r x i (r.operand x 0) (r.operand x 1) (r.operand x 2)).2 = true) (hr : r.rubbleIn x = false) :
    fireLane P now fr u rout unit op = faultRun P now fr r rout unit i none := by
  simp only [fireLane, h, ht, hr, Bool.not_false, Bool.and_self, if_true]

end Lane

/-- Settles O21: each of these stones is a lane stone, of which a firing emits or traps as the lemmas above say. -/
theorem stonesWithoutStateFire : Obligations.StonesWithoutStateFire := by
  refine ⟨?_, ?_, ?_, ?_, ?_⟩
  · exact fun p u s r x i h => runAnswers_iaFire (fireLane_emits h (.inl rfl))
  · refine fun p s r x i h => ⟨fun ht => ?_, fun ht he hr => ?_⟩
    · refine runAnswers_dcFire (fireLane_emits h ?_)
      simpa only [Bool.and_eq_false_iff, or_assoc] using ht
    · exact runAnswers_dcFire (fireLane_traps h (Bool.and_eq_true_iff.2 ⟨ht, he⟩) hr)
  · refine fun p s r x i h => ⟨fun ht => ?_, fun ht hr => ?_⟩
    · exact runAnswers_fpFire (fireLane_emits h ht)
    · exact runAnswers_fpFire (fireLane_traps h ht hr)
  · exact fun p s r x i h => runAnswers_ixFire (fireLane_emits h (.inl rfl))
  · exact fun p s r x i h => runAnswers_slFire (fireLane_emits h (.inl rfl))

end Sys2Proof.Machine
end

section
/-! Commands of a run that find nothing to do (R73, R101, R104, R116, R131, R283), and O20 from them. -/

namespace Sys2Proof.Machine

open Sys2Proof

/-! ### The commands -/

section Commands

variable {s : State} {p : Fin 16} {Q : Pier}

theorem runAnswers_kf0Lookup (h : kf0Fire (s.dev.pier p) s.dev.now s.dev.fresh s.dev.keyCtx = Q) : RunAnswers (.kf0Lookup p) s p Q :=
  h ▸ rfl

theorem runAnswers_aesFire (h : segFire (s.dev.pier p) s.dev.now s.dev.fresh 0x21 = Q) : RunAnswers (.aesFire p) s p Q := h ▸ rfl

theorem runAnswers_tdesFire (h : segFire (s.dev.pier p) s.dev.now s.dev.fresh 0x22 = Q) : RunAnswers (.tdesFire p) s p Q := h ▸ rfl

theorem runAnswers_hashSegment (h : hashFire 65536 (s.dev.pier p) s.dev.now s.dev.fresh = Q) : RunAnswers (.hashSegment p) s p Q :=
  h ▸ rfl

theorem runAnswers_xlatFire (h : xlatFire (s.dev.pier p) s.dev.now s.dev.fresh = Q) : RunAnswers (.xlatFire p) s p Q := h ▸ rfl

theorem runAnswers_montTile (h : tileFire (s.dev.pier p) s.dev.now s.dev.fresh 0x20 = Q) : RunAnswers (.montTile p) s p Q := h ▸ rfl

theorem runAnswers_ecpTile (h : tileFire (s.dev.pier p) s.dev.now s.dev.fresh 0x25 = Q) : RunAnswers (.ecpTile p) s p Q := h ▸ rfl

/-- While no record of a run is due, its AU0 appends none, so that its chain is not asked for one (R180, R416). -/
theorem runAnswers_au0Record (hd : au0Due (s.dev.pier p) = false) (h : au0Fire (s.dev.pier p) s.dev.now s.dev.fresh = Q) :
    RunAnswers (.au0Record p .run) s p Q := by
  have hx : exec (.au0Record p .run) s = s.runStep p (fun now fr => au0Fire (s.dev.pier p) now fr) := by
    show execAu0Record p .run s = _
    simp only [execAu0Record, hd, Bool.and_false, Bool.false_eq_true, if_false]
  exact h ▸ hx

end Commands

section Idle

variable {P P1 : Pier} {r : Run} {x : RUnit} {i : Nat} {now fr u : Nat}

/-! ### A unit that may not fire (R73, R116) -/

theorem mcFire_idle (h : firing P (0xA + u) = none) : mcFire P now fr u = P := by simp only [mcFire, h]

theorem rdFire_idle (h : firing P 0xE = none) : rdFire P now fr = P := by simp only [rdFire, h]

theorem cyFire_idle (h : firing P 0xF = none) : cyFire P now fr = P := by simp only [cyFire, h]

theorem kf0Fire_idle {c : KeyCtx} (h : firing P 0x10 = none) : kf0Fire P now fr c = P := by simp only [kf0Fire, h]

theorem au0Fire_idle (h : firing P 0x11 = none) : au0Fire P now fr = P := by simp only [au0Fire, h]

theorem segFire_idle (h : firing P u = none) : segFire P now fr u = P := by simp only [segFire, h]

theorem hashFire_idle (k : Nat) (h : firing P 0x23 = none) : hashFire k P now fr = P := by
  cases k with
  | zero => rfl
  | succ k => simp only [hashFire, h]

theorem xlatFire_idle (h : firing P 0x24 = none) : xlatFire P now fr = P := by simp only [xlatFire, h]

/-! ### A lookup that waits (R116, R158, R160) -/

/-- A word below 2^22 has no bit above its handle. -/
theorem extractLsb'_high_eq_zero {a : Word} (h : a.toNat < 2 ^ 22) : a.extractLsb' 22 14 = 0#14 := by
  refine BitVec.eq_of_toNat_eq ?_
  simp only [BitVec.extractLsb'_toNat, Nat.shiftRight_eq_div_pow, Nat.div_eq_of_lt h, Nat.zero_mod, BitVec.toNat_ofNat]

/-- A word below 2^22 that is not 0 has a handle. -/
theorem extractLsb'_low_ne_zero {a : Word} (h1 : 1 ≤ a.toNat) (h : a.toNat < 2 ^ 22) : a.extractLsb' 0 22 ≠ 0#22 := by
  intro e
  have hz := congrArg BitVec.toNat e
  simp only [BitVec.extractLsb'_toNat, Nat.shiftRight_zero, Nat.mod_eq_of_lt h, BitVec.toNat_ofNat, Nat.zero_mod] at hz
  omega

/-- A lookup whose key slot is in use waits (R116). -/
theorem kf0Fire_of_slot_in_use {c : KeyCtx} (h : firing P 0x10 = some (r, x, i)) (hs : slotFree r i = false) :
    kf0Fire P now fr c = P := by
  simp only [kf0Fire, h, hs, Bool.not_false, if_true]

/-- A lookup whose bank is not ready waits (R160). -/
theorem kf0Fire_held {c : KeyCtx} (h : firing P 0x10 = some (r, x, i)) (hs : slotFree r i = true) (h1 : 1 ≤ (x.p 0).toNat)
    (h3 : (x.p 0).toNat ≤ 3) (hu : ¬ ((x.p 0).toNat = 3 ∧ r.fix.user = true))
    (hw : (x.p 0).toNat = 1 ∨ (kfWidth (x.p 5)).isSome = true) (hr : r.rubbleIn x = false) (ha1 : 1 ≤ (r.operand x 0).toNat)
    (ha : (r.operand x 0).toNat < 2 ^ 22) (hl : kfLook c (kfAsk r x i) now (r.operand x 0).toNat r.ct P = (none, P1)) :
    kf0Fire P now fr c = P1 := by
  have hk : ¬ ((x.p 0).toNat ≠ 1 ∧ (kfWidth (x.p 5)).isNone = true) := fun ⟨hn, hk⟩ =>
    hn (hw.resolve_right (by simpa using hk))
  have hop : ¬ (((decide ((x.p 0).toNat = 0) || decide (3 < (x.p 0).toNat)) || (decide ((x.p 0).toNat = 3) && r.fix.user)) ||
      (decide ((x.p 0).toNat ≠ 1) && (kfWidth (x.p 5)).isNone)) = true := by
    simp only [Bool.or_eq_true, Bool.and_eq_true, decide_eq_true_eq, not_or]
    exact ⟨⟨⟨by omega, by omega⟩, hu⟩, hk⟩
  have hh : ¬ (decide ((r.operand x 0).extractLsb' 22 14 ≠ 0#14) || decide ((r.operand x 0).extractLsb' 0 22 = 0#22)) = true := by
    simp [extractLsb'_high_eq_zero ha, extractLsb'_low_ne_zero ha1 ha]
  simp only [kf0Fire, h, hs, hr, Bool.not_true, Bool.false_eq_true, if_false]
  rw [if_neg hop, if_neg hh, Nat.mod_eq_of_lt ha, hl]

/-! ### AU0 without its record (R131, R180) -/

theorem au0Due_of_idle (h : firing P 0x11 = none) : au0Due P = false := by simp only [au0Due, h]

theorem au0Due_of_reserved (h : firing P 0x11 = some (r, x, i)) (hp : x.p 0 ≠ 1 ∨ r.n % 16 ≠ 0) : au0Due P = false := by
  simp only [au0Due, h]
  obtain hp | hp := hp
  · simp only [decide_eq_false hp, Bool.false_and]
  · simp only [decide_eq_false hp, Bool.and_false, Bool.false_and]

theorem au0Due_of_short (h : firing P 0x11 = some (r, x, i))
    (hl : (r.inputs 0x11).all (fun q => 16 ≤ (r.inAt q).length) = false) : au0Due P = false := by
  simp only [au0Due, h, hl, Bool.and_false]

/-- A reserved operation of AU0, or an N that is no multiple of 16, emits PX firing by firing (R131, R180). -/
theorem au0Fire_reserved (h : firing P 0x11 = some (r, x, i)) (hp : x.p 0 ≠ 1 ∨ r.n % 16 ≠ 0) :
    au0Fire P now fr = fireEmit P now fr r 0x11 i laneReserved (r.rubbleIn x) := by
  simp only [au0Fire, h]
  refine if_pos ?_
  simpa using hp

/-- AU0 waits for the 16 elements of its record (R180). -/
theorem au0Fire_waits (h : firing P 0x11 = some (r, x, i)) (hp : x.p 0 = 1) (hn : r.n % 16 = 0)
    (hl : (r.inputs 0x11).all (fun q => 16 ≤ (r.inAt q).length) = false) : au0Fire P now fr = P := by
  simp only [au0Fire, h, hp, hn, hl]
  rfl

/-! ### A tile that may not go (R131, R165, R168) -/

theorem tileFire_unused (h : ∀ r x, P.runs.exec = some r → r.unit? u ≠ some x) : tileFire P now fr u = P := by
  unfold tileFire
  cases hr : P.runs.exec with
  | none => rfl
  | some r =>
    cases hx : r.unit? u with
    | none => simp only [hx]
    | some x => exact absurd hx (h r x hr)

/-- A course with reserved parameters fires element by element, or waits for its next element (R131). -/
theorem tileFire_reserved_idle (hr : P.runs.exec = some r) (hx : r.unit? u = some x) (hs : tileShape r.n x = none)
    (h : firing P u = none) : tileFire P now fr u = P := by
  simp only [tileFire, hr, hx, hs, h]

/-- A course before its run's start, after its last tile, or without the elements of its next tile, waits (R165, R168). -/
theorem tileFire_waits {w l k : Nat} (hr : P.runs.exec = some r) (hx : r.unit? u = some x) (hs : tileShape r.n x = some (w, l, k))
    (h : P.runs.started = false ∨ x.ended = true ∨ w / 32 ≤ x.tiles ∨
      (r.inputs u).all (fun q => 32 * ((k * l - 1) * (w / 32) + x.tiles + 1) ≤ (r.inAt q).length) = false) :
    tileFire P now fr u = P := by
  simp only [tileFire, hr, hx, hs]
  refine if_pos ?_
  simpa only [Bool.or_eq_true, Bool.not_eq_true', decide_eq_true_eq, or_assoc] using h

end Idle

/-! ### The statement -/

/-- What holds of every device whose pier is the one that a command of a run leaves holds of its answer. -/
theorem answersWith_of_runAnswers {i : Instr} {s : State} {p : Fin 16} {Q : Pier} {R : Dev → Prop} (h : RunAnswers i s p Q)
    (hR : ∀ d : Dev, d.pier p = Q → R d) : AnswersWith i s R :=
  Answers.answersWith h (hR _ (s.dev.pier_setPier_self p Q))

/-- A firing command of a unit that may not fire leaves its pier (R73, R116). -/
theorem runAnswers_of_idle_firing {p : Fin 16} {s : State} {i : Instr} {u : Nat}
    (hi : (i, u) ∈ ([(.iaFire p 0, 8), (.iaFire p 1, 9), (.mcFire p 0, 0xA), (.mcFire p 1, 0xB), (.dcFire p, 0xC), (.fpFire p, 0xD),
      (.rdFire p, 0xE), (.cyFire p, 0xF), (.kf0Lookup p, 0x10), (.au0Record p .run, 0x11), (.ixFire p, 0x12), (.slFire p, 0x13),
      (.aesFire p, 0x21), (.tdesFire p, 0x22), (.hashSegment p, 0x23), (.xlatFire p, 0x24)] : List (Instr × Nat)))
    (h : firing (s.dev.pier p) u = none) : RunAnswers i s p (s.dev.pier p) := by
  simp only [List.mem_cons, List.not_mem_nil, or_false, Prod.mk.injEq] at hi
  obtain ⟨rfl, rfl⟩ | ⟨rfl, rfl⟩ | ⟨rfl, rfl⟩ | ⟨rfl, rfl⟩ | ⟨rfl, rfl⟩ | ⟨rfl, rfl⟩ | ⟨rfl, rfl⟩ | ⟨rfl, rfl⟩ |
    ⟨rfl, rfl⟩ | ⟨rfl, rfl⟩ | ⟨rfl, rfl⟩ | ⟨rfl, rfl⟩ | ⟨rfl, rfl⟩ | ⟨rfl, rfl⟩ | ⟨rfl, rfl⟩ | ⟨rfl, rfl⟩ := hi
  · exact runAnswers_iaFire (fireLane_idle h)
  · exact runAnswers_iaFire (fireLane_idle h)
  · exact runAnswers_mcFire (mcFire_idle h)
  · exact runAnswers_mcFire (mcFire_idle h)
  · exact runAnswers_dcFire (fireLane_idle h)
  · exact runAnswers_fpFire (fireLane_idle h)
  · exact runAnswers_rdFire (rdFire_idle h)
  · exact runAnswers_cyFire (cyFire_idle h)
  · exact runAnswers_kf0Lookup (kf0Fire_idle h)
  · exact runAnswers_au0Record (au0Due_of_idle h) (au0Fire_idle h)
  · exact runAnswers_ixFire (fireLane_idle h)
  · exact runAnswers_slFire (fireLane_idle h)
  · exact runAnswers_aesFire (segFire_idle h)
  · exact runAnswers_tdesFire (segFire_idle h)
  · exact runAnswers_hashSegment (hashFire_idle _ h)
  · exact runAnswers_xlatFire (xlatFire_idle h)

/-- A tile of MONT or ECP that leaves its pier is one that its command leaves. -/
theorem runAnswers_of_idle_tile {p : Fin 16} {s : State} {i : Instr} {u : Nat}
    (hi : (i, u) ∈ ([(.montTile p, 0x20), (.ecpTile p, 0x25)] : List (Instr × Nat)))
    (h : tileFire (s.dev.pier p) s.dev.now s.dev.fresh u = s.dev.pier p) : RunAnswers i s p (s.dev.pier p) := by
  simp only [List.mem_cons, List.not_mem_nil, or_false, Prod.mk.injEq] at hi
  obtain ⟨rfl, rfl⟩ | ⟨rfl, rfl⟩ := hi
  · exact runAnswers_montTile h
  · exact runAnswers_ecpTile h

/-- Settles O20: each command that finds nothing to do is one of the idle cases above, and a start wakes the banks in retention. -/
theorem runCommandsWithNothingToDo : Obligations.RunCommandsWithNothingToDo := by
  intro p s
  refine ⟨?_, ?_, ?_, ?_, ?_, ?_, ?_, ?_, ?_⟩
  · exact fun h => runAnswers_runStart (runStart_idle _ _ h)
  · intro r hr hs hst hch h
    refine answersWith_of_runAnswers (runAnswers_runStart (runStart_of_asleep _ _ hr hs hst hch h)) (fun d hd => ?_)
    rw [hd]
    exact ⟨wakeBanks_runs _ _ _, wakeBanks_retn _ _ _⟩
  · refine fun u => ⟨fun r x hr hx => ⟨fun h => ?_, fun he hf hm hn h => ?_⟩, fun h => ?_⟩
    · exact runAnswers_loadStreamerFire (loadFire_blocked hr.1 hr.2 hx h)
    · exact runAnswers_loadStreamerFire (loadFire_held hr.1 hr.2 hx he hf hm hn h)
    · exact runAnswers_loadStreamerFire (loadFire_idle h)
  · exact fun port h => runAnswers_jointGroupAdvance (jointAdvance_idle _ _ h)
  · exact fun u h => runAnswers_storeCommit (storeCommit_idle _ _ h)
  · exact fun i u hi h => runAnswers_of_idle_firing hi h
  · refine fun r x i h => ⟨fun hs => ?_, fun P1 hs h1 h3 hu hw hr ha1 ha hl => ?_⟩
    · exact runAnswers_kf0Lookup (kf0Fire_of_slot_in_use h hs)
    · exact runAnswers_kf0Lookup (kf0Fire_held h hs h1 h3 hu hw hr ha1 ha hl)
  · refine fun r x i h => ⟨fun hp => ?_, fun hp hn hl => ?_⟩
    · exact runAnswers_au0Record (au0Due_of_reserved h hp) (au0Fire_reserved h hp)
    · exact runAnswers_au0Record (au0Due_of_short h hl) (au0Fire_waits h hp hn hl)
  · refine fun i u hi => ⟨fun h => ?_, fun r x hr hx => ⟨fun hs h => ?_, fun w l k hs h => ?_⟩⟩
    · exact runAnswers_of_idle_tile hi (tileFire_unused h)
    · exact runAnswers_of_idle_tile hi (tileFire_reserved_idle hr hx hs h)
    · exact runAnswers_of_idle_tile hi (tileFire_waits hr hx hs h)

end Sys2Proof.Machine
end

section
/-! SYNC and bonds (R102 to R106, R110, R232, R236, R423): when SYNC completes, how a BOND ends once its script is read, and O16
from them. -/

namespace Sys2Proof.Machine

open Sys2Proof

/-! ### The commands -/

section Commands

variable {s : State} {c : CoreId} {f : Fld}

theorem answers_sync {e : Dev} (he : Executes s.dev c 0x3F f)
    (h : Dev.conclude (s.dev.core c) c 0x3F f (portSync c f s.dev) = e) : Answers (.sync c f) s e :=
  h ▸ State.instr_of_executes _ he

theorem answers_bond {e : Dev} (he : Executes s.dev c 0x3E f)
    (h : Dev.conclude (s.dev.core c) c 0x3E f (portBond c f s.dev) = e) : Answers (.bond c f) s e :=
  h ▸ State.instr_of_executes _ he

/-- An effect that completes and leaves the core as it is. -/
theorem Dev.conclude_next_eq_completed (k : Core) (c : CoreId) {n : Nat} (f : Fld) (d : Dev) (h : n ≠ 0x3B) :
    Dev.conclude k c n f (.next d) = completed d c id := by
  rw [Dev.conclude_next _ _ _ _ h, completed, id, Dev.setCore_core]

end Commands

/-! ### SYNC (R106, R232, R236) -/

theorem portSync_of_idle {p : Fin 16} {d : Dev} (f : Fld) (h : (d.pier p).runs.exec = none) (hq : (d.pier p).runs.queued = none) :
    portSync (.pier p) f d = .next d := by
  simp [portSync, h, hq]

theorem portSync_of_exec {p : Fin 16} {d : Dev} {r : Run} (f : Fld) (h : (d.pier p).runs.exec = some r) :
    portSync (.pier p) f d = .held d := by
  simp [portSync, h]

/-! ### The run queue (R102, R103) -/

section Queue

variable {P : Pier} {r r0 : Run}

theorem enqueueRun_of_idle (h : P.runs.exec = none) :
    enqueueRun P r = { P with runs := { P.runs with exec := some r, started := false } } := by
  simp [enqueueRun, h]

theorem enqueueRun_of_exec (h : P.runs.exec = some r0) : enqueueRun P r = { P with runs := { P.runs with queued := some r } } := by
  simp [enqueueRun, h]

theorem queueFull_of_idle (h : P.runs.exec = none) : queueFull P = false := by simp [queueFull, h]

theorem queueFull_of_none_queued (h : P.runs.queued = none) : queueFull P = false := by simp [queueFull, h]

/-- A refusal report leaves the executing and the queued run (R110). -/
theorem refuseReport_queue (P : Pier) (cause word : Nat) :
    (refuseReport P cause word).runs.exec = P.runs.exec ∧ (refuseReport P cause word).runs.queued = P.runs.queued := by
  unfold refuseReport
  split <;> exact ⟨rfl, rfl⟩

theorem refuseReport_core (P : Pier) (cause word : Nat) : (refuseReport P cause word).core = P.core := by
  unfold refuseReport
  split <;> rfl

/-- A launch does to the run machinery what entering the queue does: a ramp of the lanes is beside it (R467). -/
theorem Dev.launch_runs (d : Dev) (p : Fin 16) (r : Run) : ((d.launch p r).pier p).runs = (enqueueRun (d.pier p) r).runs := by
  simp only [Dev.launch, Dev.pier_onPier_self]
  split <;> rfl

end Queue

/-! ### What a core's own changes leave of its pier's runs -/

@[simp] theorem Dev.pier_onCore_runs (d : Dev) (p : Fin 16) (g : Core → Core) :
    ((d.onCore (.pier p) g).pier p).runs = (d.pier p).runs := by
  simp [Dev.onCore]

@[simp] theorem Dev.complete1_runs (d : Dev) (p : Fin 16) : ((d.complete1 (.pier p)).pier p).runs = (d.pier p).runs := by
  simp [Dev.complete1]

/-- An exception at an instruction outside a delay slot waits with the instruction's own address (R258). -/
theorem Core.raise_raised {k : Core} (vec : BitVec 7) (h : k.slot = none) :
    (k.raise vec none 0 false).raised = some ⟨vec, k.pc, false, false, none⟩ := by
  simp [Core.raise, h]

/-! ### How a BOND ends (R102, R103, R110, R423) -/

section Bond

variable {s : State} {p : Fin 16} {f : Fld}

theorem portBond_of_power_failing {d : Dev} (h : d.life.pf ≠ .none) : portBond (.pier p) f d = .held d := if_pos h

variable {d1 d2 d3 d4 : Dev} {h : Word} {ws : List Word} {cs : CourseSet}
  (hpf : s.dev.life.pf = .none)
  (h1 : s.dev.drainAll (.pier p) = .ok () d1)
  (h2 : d1.load (.pier p) false ((s.dev.core (.pier p)).ea f) = .ok h d2)
  (h3 : Dev.scriptWords (.pier p) ((s.dev.core (.pier p)).ea f) (bondWords h - 1) 1 d2 = .ok ws d3)
  (h4 : d3.runCourses p (parseScript (h :: ws)) = (cs, d4))

include hpf h1 h2 h3 h4

theorem portBond_of_refused {cause word : Nat} (hk : bondCheck cs (d4.core (.pier p)).user (parseScript (h :: ws)) = some (cause, word)) :
    portBond (.pier p) f s.dev = .exc 13 none 0 false (d4.onPier p (fun P => refuseReport P cause word)) := by
  simp [portBond, CRes.act, hpf, h1, h2, h3, h4, hk]

theorem portBond_of_full (hk : bondCheck cs (d4.core (.pier p)).user (parseScript (h :: ws)) = none)
    (hq : queueFull (d4.pier p) = true) : portBond (.pier p) f s.dev = .held d4 := by
  simp [portBond, CRes.act, hpf, h1, h2, h3, h4, hk, hq]

theorem portBond_of_room (hk : bondCheck cs (d4.core (.pier p)).user (parseScript (h :: ws)) = none)
    (hq : queueFull (d4.pier p) = false) : portBond (.pier p) f s.dev =
      (d4.launch p (mkRun (parseScript (h :: ws)) cs (d4.runFix p))).memDone (.pier p) f 1 id := by
  simp [portBond, CRes.act, hpf, h1, h2, h3, h4, hk, hq]

/-- A refused bond raises vector 13 and leaves both runs of its pier (R110). -/
theorem bond_refused (he : Executes s.dev (.pier p) 0x3E f) {cause word : Nat}
    (hk : bondCheck cs (d4.core (.pier p)).user (parseScript (h :: ws)) = some (cause, word)) (hs : (d4.core (.pier p)).slot = none) :
    AnswersWith (.bond (.pier p) f) s (fun d =>
      (d.core (.pier p)).raised = some ⟨13, (d4.core (.pier p)).pc, false, false, none⟩ ∧
      (d.pier p).runs.exec = (d4.pier p).runs.exec ∧ (d.pier p).runs.queued = (d4.pier p).runs.queued) := by
  refine (answers_bond he rfl).answersWith ?_
  rw [portBond_of_refused hpf h1 h2 h3 h4 hk]
  have hcore : (d4.onPier p (fun P => refuseReport P cause word)).core (.pier p) = d4.core (.pier p) := by
    simp [Dev.core, refuseReport_core]
  simp only [Dev.conclude, Dev.core_onCore_self, Dev.pier_onCore_runs, Dev.pier_onPier_self, hcore, Core.raise_raised _ hs, true_and]
  exact refuseReport_queue _ cause word

/-- A bond whose checks pass finds its pier's queue full and leaves it, or puts its run into the queue (R102, R103). -/
theorem bond_passes (he : Executes s.dev (.pier p) 0x3E f)
    (hk : bondCheck cs (d4.core (.pier p)).user (parseScript (h :: ws)) = none) :
    AnswersWith (.bond (.pier p) f) s (fun d =>
      (queueFull (d4.pier p) = true → (d.pier p).runs = (d4.pier p).runs) ∧
      (queueFull (d4.pier p) = false →
        (d.pier p).runs = (enqueueRun (d4.pier p) (mkRun (parseScript (h :: ws)) cs (d4.runFix p))).runs)) := by
  refine (answers_bond he rfl).answersWith ⟨fun hq => ?_, fun hq => ?_⟩
  · rw [portBond_of_full hpf h1 h2 h3 h4 hk hq]
    rfl
  · rw [portBond_of_room hpf h1 h2 h3 h4 hk hq, Dev.memDone, Dev.conclude_next _ _ _ _ (by decide)]
    simp only [Dev.complete1_runs, Dev.pier_onCore_runs, Dev.launch_runs]

end Bond

/-- Settles O16: SYNC looks at both places of its pier's queue, and a bond whose script is read is refused or enters the queue. -/
theorem syncAndBond : Obligations.SyncAndBond := by
  refine ⟨⟨?_, ?_, ?_⟩, ?_, ?_, ?_⟩
  · intro p f s he hr hq
    exact answers_sync he (by rw [portSync_of_idle f hr hq, Dev.conclude_next_eq_completed _ _ _ _ (by decide)])
  · intro f s he
    exact answers_sync he (Dev.conclude_next_eq_completed _ _ _ _ (by decide))
  · intro p f s r he hr
    exact answers_sync he (by rw [portSync_of_exec f hr, Dev.conclude])
  · intro p f s d1 d2 d3 d4 h ws cs he hpf ea h1 h2 h3 sc h4 hk r
    obtain ⟨t, ht, hp, -, hroom⟩ := bond_passes hpf h1 h2 h3 h4 he hk
    refine ⟨t, ht, hp, fun hr => ?_, fun r0 hr hq => ?_⟩
    · rw [hroom (queueFull_of_idle hr), enqueueRun_of_idle hr]
      exact ⟨rfl, rfl⟩
    · rw [hroom (queueFull_of_none_queued hq), enqueueRun_of_exec hr]
      exact ⟨hr, rfl⟩
  · intro p f s d1 d2 d3 d4 h ws cs cause word he hpf ea h1 h2 h3 sc h4 hk hs
    exact bond_refused hpf h1 h2 h3 h4 he hk hs
  · intro p f s he hpf
    exact answers_bond he (by rw [portBond_of_power_failing hpf, Dev.conclude])

end Sys2Proof.Machine
end

section
/-! Run control (R112 to R114, R128): what a write of PR_RUN_CTL clears, what an abort leaves and reports, and O26 from them. -/

namespace Sys2Proof.Machine

open Sys2Proof

/-! ### The fields that a write clears (R114) -/

/-- The pier once CLROVF, ACKF and ACKR of a write of PR_RUN_CTL have acted (R114). -/
def Pier.cleared (P : Pier) (v : DW) : Pier := { P with runs := { P.runs with
  ovf := P.runs.ovf && !v.getLsbD 3
  rcause := if v.getLsbD 2 then 0 else P.runs.rcause
  rword := if v.getLsbD 2 then 0 else P.runs.rword
  rout := if v.getLsbD 1 then 0 else P.runs.rout
  unit := if v.getLsbD 1 then 0 else P.runs.unit
  index := if v.getLsbD 1 then 0 else P.runs.index } }

section Write

variable {P : Pier} {now fr : Nat} {v : DW} {r : Run}

/-- ABORT acts on what the other fields of its write have left (R114). -/
theorem runCtlWrite_eq : runCtlWrite P now fr v = if v.getLsbD 0 then abortRun (P.cleared v) now fr else P.cleared v := by
  unfold runCtlWrite Pier.cleared
  cases v.getLsbD 3 <;> cases v.getLsbD 2 <;> cases v.getLsbD 1 <;>
    simp only [Bool.not_false, Bool.not_true, Bool.and_true, Bool.and_false] <;> rfl

theorem abortRun_of_none (h : P.runs.exec = none) : abortRun P now fr = P := by simp only [abortRun, h]

/-- Without an abort, or without a run to abort, a write clears its fields and does no more (R114). -/
theorem runCtlWrite_clears (h : v.getLsbD 0 = false ∨ P.runs.exec = none) :
    runCtlWrite P now fr v = P.cleared v := by
  rw [runCtlWrite_eq]
  split
  · next hv => exact abortRun_of_none (P := P.cleared v) (h.resolve_left (ne_false_of_eq_true hv))
  · rfl

/-- ACKR makes room for the report of an abort in the same write (R114). -/
theorem Pier.cleared_rout_eq_zero (h : P.runs.rout = 0 ∨ v.getLsbD 1 = true) : (P.cleared v).runs.rout = 0 := by
  unfold Pier.cleared
  split
  · rfl
  · exact h.resolve_right ‹_›

theorem Pier.cleared_rout_of_not_ackr (h : v.getLsbD 1 = false) : (P.cleared v).runs.rout = P.runs.rout :=
  if_neg (ne_true_of_eq_false h)

/-! ### Reports (R112, R113) -/

theorem runReport_of_free {rout unit index : Nat} (h : P.runs.rout = 0) : runReport P rout unit index =
    { P with runs := { P.runs with rout := BitVec.ofNat 4 rout, unit := BitVec.ofNat 4 unit, index := BitVec.ofNat 16 index } } :=
  if_pos h

theorem runReport_of_held {rout unit index : Nat} (h : P.runs.rout ≠ 0) :
    runReport P rout unit index = { P with runs := { P.runs with ovf := true } } :=
  if_neg h

/-- A report writes the run machinery of its pier and nothing else. -/
theorem runReport_frame (P : Pier) (rout unit index : Nat) : ∃ R, runReport P rout unit index = { P with runs := R } := by
  unfold runReport
  split <;> exact ⟨_, rfl⟩

/-! ### An abort (R128) -/

/-- The pier whose executing run `r` has lost its accumulators and left its report (R128, R139). -/
def abortReported (P : Pier) (fr : Nat) (r : Run) : Pier := runReport (freeAccs P fr (mcUsed r)) 2 0 (abortIndex r)

/-- The pier once the abort of its executing run `r` is done: no run is left and no key slot (R128). -/
def aborted (P : Pier) (now fr : Nat) (r : Run) : Pier := { abortReported P fr r with
  runs := { (abortReported P fr r).runs with exec := none, queued := none, started := false, keySlots := [] }
  pw := { (abortReported P fr r).pw with lastRun := now } }

theorem abortRun_of_exec (h : P.runs.exec = some r) : abortRun P now fr = aborted P now fr r := by
  simp only [abortRun, h, aborted, abortReported]

/-- A write with ABORT clears its other fields and then aborts the run (R114). -/
theorem runCtlWrite_aborts (hv : v.getLsbD 0 = true) (h : P.runs.exec = some r) :
    runCtlWrite P now fr v = aborted (P.cleared v) now fr r := by
  rw [runCtlWrite_eq, if_pos hv]
  exact abortRun_of_exec (P := P.cleared v) h

theorem abortReported_of_free (h : P.runs.rout = 0) : (abortReported P fr r).runs.rout = 2 ∧ (abortReported P fr r).runs.unit = 0 ∧
    (abortReported P fr r).runs.index = BitVec.ofNat 16 (abortIndex r) := by
  have hr : (freeAccs P fr (mcUsed r)).runs.rout = 0 := h
  rw [abortReported, runReport_of_free hr]
  exact ⟨rfl, rfl, rfl⟩

theorem abortReported_of_held (h : P.runs.rout ≠ 0) : (abortReported P fr r).runs.ovf = true := by
  have hr : (freeAccs P fr (mcUsed r)).runs.rout ≠ 0 := h
  rw [abortReported, runReport_of_held hr]

theorem abortReported_frame (P : Pier) (fr : Nat) (r : Run) :
    (abortReported P fr r).mem = P.mem ∧ (abortReported P fr r).core = P.core := by
  obtain ⟨R, h⟩ := runReport_frame (freeAccs P fr (mcUsed r)) 2 0 (abortIndex r)
  rw [abortReported, h]
  exact ⟨rfl, rfl⟩

end Write

/-! ### The commands -/

section Commands

variable {s : State} {p : Fin 16} {v : DW} {Q : Pier} {i : Instr}

/-- Each of the four commands is a write of PR_RUN_CTL. -/
theorem exec_runCtl (hi : i = .prRunCtlAckr p v ∨ i = .prRunCtlAckf p v ∨ i = .prRunCtlClrovf p v ∨ i = .prRunCtlAbort p v) :
    exec i s = s.runCtl p v := by
  obtain rfl | rfl | rfl | rfl := hi <;> rfl

/-- A pier in reset or OFF takes no write of PR_RUN_CTL (log 69). -/
theorem answers_runCtl_of_unreachable (hx : exec i s = s.runCtl p v) (h : s.dev.reachable p = false) : Answers i s s.dev := by
  rw [Answers, hx, State.runCtl, h]
  rfl

theorem runAnswers_runCtl (hx : exec i s = s.runCtl p v) (h : s.dev.reachable p = true)
    (hq : runCtlWrite (s.dev.pier p) s.dev.now s.dev.fresh v = Q) : RunAnswers i s p Q := by
  rw [RunAnswers, Answers, hx, State.runCtl, h, ← hq]
  rfl

end Commands

/-- Settles O26: ABORT acts on what the other fields of its write have cleared. That a pier which is not reached takes no write is
the model's choice, log 69. -/
theorem runControlWrites : Obligations.RunControlWrites := by
  refine ⟨fun p v s i hi h => ?_, fun p v s i hi h => ?_, fun p v s r h hv hr => ?_⟩
  · exact answers_runCtl_of_unreachable (exec_runCtl hi) h
  · exact fun hv => runAnswers_runCtl (exec_runCtl hi) h (runCtlWrite_clears hv)
  · refine answersWith_of_runAnswers (runAnswers_runCtl rfl h (runCtlWrite_aborts hv hr)) fun d hd => ?_
    obtain ⟨hmem, hcore⟩ := abortReported_frame ((s.dev.pier p).cleared v) s.dev.fresh r
    rw [hd]
    refine ⟨rfl, rfl, rfl, fun ha => ?_, fun h0 ha => ?_, hmem, hcore⟩
    · exact abortReported_of_free (Pier.cleared_rout_eq_zero ha)
    · exact abortReported_of_held ((Pier.cleared_rout_of_not_ackr ha).trans_ne h0)

end Sys2Proof.Machine
end

section
/-! The integer stones IA0 and IA1 (R132, R135, R136): their sums, differences, shifts and comparisons against the integers that the
words stand for, and O22 from them. -/

namespace Sys2Proof.Machine

open Sys2Proof

/-! ### The flag nonet and the words 0 and 1 (R132) -/

theorem laneInt_eq (r s : Word) (cy v : Bool) :
    laneInt r s cy v = ⟨r, s, BitVec.ofNat 36 ((if r = 0 then 1 else 0) + (if r.getLsbD 35 then 2 else 0) + (if cy then 4 else 0) +
      (if v then 8 else 0)), 0, false⟩ := by
  have hz : (flagZ r).toNat = if r = 0 then 1 else 0 := Bool.cond_decide _ 1 0
  have hn : 2 * (flagN r).toNat = if r.getLsbD 35 then 2 else 0 := by rw [flagN]; cases r.getLsbD 35 <;> rfl
  have hcy : 4 * cy.toNat = if cy then 4 else 0 := by cases cy <;> rfl
  have hv : 8 * v.toNat = if v then 8 else 0 := by cases v <;> rfl
  rw [laneInt, intFlags, hz, hn, hcy, hv]
  rfl

theorem ite_eq_boolWord (q : Prop) [Decidable q] : (if q then 1 else 0 : Word) = boolWord q := by
  simp only [boolWord, decide_eq_true_eq]
  rfl

/-! ### Sums and differences (R135, R184) -/

theorem intAdd_eq (a b : Word) (k : Bool) :
    intAdd a b k = ⟨a + b + BitVec.ofNat 36 k.toNat, 2 ^ 36 ≤ a.toNat + b.toNat + k.toNat,
      outOfRange (a.toInt + b.toInt + k.toNat)⟩ := by
  have hr : BitVec.ofNat 36 (a.toNat + b.toNat + k.toNat) = a + b + BitVec.ofNat 36 k.toNat := by
    rw [BitVec.ofNat_add, BitVec.ofNat_add, BitVec.ofNat_toNat, BitVec.ofNat_toNat, BitVec.setWidth_eq, BitVec.setWidth_eq]
  rw [intAdd, hr]
  rfl

theorem intAdd_false (a b : Word) :
    intAdd a b false = ⟨a + b, 2 ^ 36 ≤ a.toNat + b.toNat, outOfRange (a.toInt + b.toInt)⟩ := by
  simp [intAdd_eq]

theorem intSub_eq (a b : Word) (k : Bool) :
    intSub a b k = ⟨a - b - BitVec.ofNat 36 k.toNat, a.toNat < b.toNat + k.toNat, outOfRange (a.toInt - b.toInt - k.toNat)⟩ := rfl

theorem intSub_false (a b : Word) : intSub a b false = ⟨a - b, a.toNat < b.toNat, outOfRange (a.toInt - b.toInt)⟩ := by
  simp [intSub_eq]

/-! ### Shifts and rotates (R136) -/

/-- The result of a shift or rotate by `n`. -/
def ShiftOp.result (op : ShiftOp) (a : Word) (n : Nat) : Word :=
  match op with
  | .shl => a <<< n
  | .shr => a >>> n
  | .sar => a.sshiftRight n
  | .rol => a.rotateLeft n

/-- The last bit that a shift or rotate by `n` moves out, read from a word wide enough to hold it (R136). -/
def ShiftOp.lastOut (op : ShiftOp) (a : Word) (n : Nat) : Bool :=
  match op with
  | .shl => (a.setWidth 256 <<< n).getLsbD 36
  | .shr => a.getLsbD (n - 1)
  | .sar => (a.signExtend 256).getLsbD (n - 1)
  | .rol => (a.rotateLeft n).getLsbD 0

theorem ShiftOp.result_zero (op : ShiftOp) (a : Word) : op.result a 0 = a := by
  cases op with
  | shl => exact BitVec.shiftLeft_zero a
  | shr => exact BitVec.ushiftRight_zero a
  | sar => exact BitVec.sshiftRight_zero
  | rol => simp [ShiftOp.result, BitVec.rotateLeft_def, BitVec.ushiftRight_eq_zero]

/-- A left shift moves bit 36 - n out last, and nothing beyond a count of 36. -/
theorem ShiftOp.lastOut_shl (a : Word) (n : Nat) :
    ShiftOp.shl.lastOut a n = if n ≤ 36 then a.getLsbD (36 - n) else false := by
  simp only [ShiftOp.lastOut, BitVec.getLsbD_shiftLeft, BitVec.getLsbD_setWidth]
  by_cases h : n ≤ 36
  · simp [h, show 36 - n < 256 by omega]
  · simp [h, show 36 < n by omega]

theorem ShiftOp.lastOut_shr (a : Word) (n : Nat) : ShiftOp.shr.lastOut a n = if n ≤ 36 then a.getLsbD (n - 1) else false := by
  split
  case isTrue h => rfl
  case isFalse h => exact BitVec.getLsbD_of_ge a _ (by omega)

/-- An arithmetic shift moves the sign out once the word is gone. -/
theorem ShiftOp.lastOut_sar (a : Word) {n : Nat} (hn : n < 128) :
    ShiftOp.sar.lastOut a n = if n ≤ 36 then a.getLsbD (n - 1) else a.getLsbD 35 := by
  rw [ShiftOp.lastOut, BitVec.getLsbD_signExtend, decide_eq_true (by omega : n - 1 < 256), Bool.true_and]
  exact if_congr (by omega) rfl (BitVec.msb_eq_getLsbD_last a)

/-- A rotate left leaves in bit 0 the bit that it moved out last. -/
theorem ShiftOp.lastOut_rol (a : Word) (n : Nat) : ShiftOp.rol.lastOut a n = a.getLsbD ((36 - n % 36) % 36) := by
  rw [ShiftOp.lastOut, BitVec.getLsbD_rotateLeft, Bool.cond_decide]
  split
  case isTrue h => rw [Nat.mod_eq_of_lt (a := 36 - n % 36) (by omega), Nat.add_zero]
  case isFalse h => simp [show n % 36 = 0 by omega]

theorem intShift_of_zero {b : Word} (h : b.toNat % 128 = 0) (op : ShiftOp) (a : Word) (cy0 : Bool) :
    intShift op a b cy0 = (a, cy0) :=
  if_pos (BitVec.extractLsb'_toNat 0 7 b ▸ h)

theorem intShift_of_ne_zero {b : Word} (h : b.toNat % 128 ≠ 0) (op : ShiftOp) (a : Word) (cy0 : Bool) :
    intShift op a b cy0 = (op.result a (b.toNat % 128), op.lastOut a (b.toNat % 128)) := by
  have hc : (b.extractLsb' 0 7).toNat = b.toNat % 128 := BitVec.extractLsb'_toNat 0 7 b
  unfold intShift
  simp only [hc, if_neg h]
  cases op with
  | shl => rw [ShiftOp.lastOut_shl]; rfl
  | shr => rw [ShiftOp.lastOut_shr]; rfl
  | sar => rw [ShiftOp.lastOut_sar a (by omega)]; rfl
  | rol => rw [ShiftOp.lastOut_rol, ShiftOp.result]; simp only [BitVec.rotateLeft_mod_eq_rotateLeft]

theorem laneShift_eq (op : ShiftOp) (a b : Word) :
    laneShift op a b = laneInt (op.result a (b.toNat % 128)) 0
      (decide (b.toNat % 128 ≠ 0) && op.lastOut a (b.toNat % 128)) false := by
  rw [laneShift]
  by_cases h : b.toNat % 128 = 0
  · rw [intShift_of_zero h, h, op.result_zero]
    rfl
  · rw [intShift_of_ne_zero h, decide_eq_true h, Bool.true_and]

/-! ### Comparisons (R135) -/

section Compare

variable (a b : Word)

theorem ite_sltWord (x y : Word) : (if sltWord a b then x else y) = if b.toInt ≤ a.toInt then y else x := by
  simp only [sltWord, decide_eq_true_eq, ← not_le, ite_not]

theorem ite_ult (x y : Word) : (if a.ult b then x else y) = if b.toNat ≤ a.toNat then y else x := by
  simp only [BitVec.ult, decide_eq_true_eq, ← not_le, ite_not]

theorem iaOp_csub (c : Word) :
    iaOp 0x15 a b c = laneInt (if b.toNat ≤ a.toNat then a - b else a) (boolWord (b.toNat ≤ a.toNat)) false false := by
  simp only [iaOp, BitVec.ule, boolWord, decide_eq_true_eq]
  split <;> rfl

end Compare

theorem iaOp_reserved {op : Nat} (h : 0x15 < op) (a b c : Word) : iaOp op a b c = laneReserved := by
  obtain ⟨k, rfl⟩ := Nat.exists_eq_add_of_le' (Nat.succ_le_of_lt h)
  rfl

/-- Settles O22: the operations with a carry, the shifts and the comparisons by the lemmas above, the others by the table itself. -/
theorem integerStoneOperations : Obligations.IntegerStoneOperations := by
  intro a b c cin n out flag
  have hout : ∀ r s cy v, out r s cy v = laneInt r s cy v := fun r s cy v => (laneInt_eq r s cy v).symm
  have hflag : ∀ (q : Prop) [Decidable q], flag q = boolWord q := ite_eq_boolWord
  have hcin : cin = (decide (c ≠ 0)).toNat := by
    rw [Bool.toNat, Bool.cond_decide, ite_not]
  simp only [hout, hflag, hcin]
  refine ⟨rfl, congrArg laneCarry (intAdd_false a b), congrArg laneCarry (intAdd_eq a b _), congrArg laneCarry (intSub_false a b),
    congrArg laneCarry (intSub_eq a b _), rfl, rfl, rfl, rfl, rfl, laneShift_eq .shl a b, laneShift_eq .shr a b,
    laneShift_eq .sar a b, laneShift_eq .rol a b, rfl, rfl, rfl, ?min, ?max, ?minu, ?maxu, iaOp_csub a b c,
    fun _ h => iaOp_reserved h a b c⟩
  case min => rw [← ite_sltWord]; rfl
  case max => rw [← ite_sltWord]; rfl
  case minu => rw [← ite_ult]; rfl
  case maxu => rw [← ite_ult]; rfl

end Sys2Proof.Machine
end

section
/-! What the end of any command of a run leaves of its pier (R101, R104, R113, R126, R160). -/

namespace Sys2Proof.Machine

open Sys2Proof

/-- The staging streams of a run write staging registers and nothing else (R60, R101). -/
theorem stagDrain_frame (k : Nat) (P : Pier) (r : Run) : ∃ a b c,
    (stagDrain k P r).1 = { P with runs := { P.runs with stag := a, stagRub := b, stagBad := c } } := by
  induction k generalizing P r with
  | zero => exact ⟨_, _, _, rfl⟩
  | succ k ih =>
    unfold stagDrain
    split
    · exact ⟨_, _, _, rfl⟩
    · dsimp only
      split
      · obtain ⟨a, b, c, h⟩ := ih (stagWrite P _ _) _
        exact ⟨a, b, c, h⟩
      · exact ih P _

/-- What a run never changes by going on or by ending: the AU0 state, the XLAT tables and the reporting path of its pier. -/
structure Pier.SameCourses (P Q : Pier) : Prop where
  au0 : Q.runs.au0 = P.runs.au0
  xlat : Q.runs.xlat = P.runs.xlat
  detq : Q.detq = P.detq

theorem runReport_sameCourses (P : Pier) (rout unit index : Nat) : P.SameCourses (runReport P rout unit index) := by
  unfold runReport
  split <;> exact ⟨rfl, rfl, rfl⟩

/-- The end of a run reports it, frees accumulators, pends its vector and moves the queue up (R104, R126, R139, R160). -/
theorem finishRun_sameCourses (P : Pier) (now fr : Nat) (r : Run) : P.SameCourses (finishRun P now fr r) := by
  unfold finishRun
  cases r.rubble with
  | none => cases r.ic <;> exact ⟨rfl, rfl, rfl⟩
  | some o =>
    have h := runReport_sameCourses P 1 o.2 o.1
    cases r.ic <;> exact ⟨h.au0, h.xlat, h.detq⟩

theorem afterRun_sameCourses (P : Pier) (now fr : Nat) (r : Run) : P.SameCourses (afterRun P now fr r) := by
  obtain ⟨a, b, c, h⟩ := stagDrain_frame 256 P r
  unfold afterRun
  dsimp only
  rw [h]
  split
  · have hf := finishRun_sameCourses { P with runs := { P.runs with stag := a, stagRub := b, stagBad := c } } now fr
    exact ⟨(hf _).au0, (hf _).xlat, (hf _).detq⟩
  · exact ⟨rfl, rfl, rfl⟩

end Sys2Proof.Machine
end

section
/-! KF0 and AU0 (R158 to R164, R180 to R182, R416): what a lookup and a record leave, and O24 from them. -/

namespace Sys2Proof.Machine

open Sys2Proof

/-! ### A lookup (R158, R159, R164) -/

/-- The operations that KF0 serves: KREF, KPUB and, outside user mode, KPRIV; the latter two with a legal width (R131, R158). -/
def kfServed (r : Run) (x : RUnit) (i : Nat) : Prop :=
  let q := kfAsk r x i
  1 ≤ q.op ∧ q.op ≤ 3 ∧ ¬ (q.op = 3 ∧ r.fix.user = true) ∧ (q.op = 1 ∨ (kfWidth (x.p 5)).isSome = true)

/-- What an answered lookup leaves; one that its bank holds leaves the access alone (R160, R164). -/
def kfAnswered (now fr : Nat) (r : Run) (i : Nat) : Option (LookRes × Pier) × Pier → Pier
  | (none, P) => P
  | (some (l, P), _) => kfEnd P now fr r i l

/-- What a served lookup of handle word `a` leaves: a bad handle fails with reason 1, any other one is looked up (R159). -/
def kfServe (P : Pier) (now fr : Nat) (c : KeyCtx) (r : Run) (x : RUnit) (i : Nat) (a : Word) : Pier :=
  if 2 ^ 22 ≤ a.toNat ∨ a = 0 then kfEnd P now fr r i (kfFail 1)
  else kfAnswered now fr r i (kfLook c (kfAsk r x i) now a.toNat r.ct P)

section Lookup

variable {P P1 P2 : Pier} {r : Run} {x : RUnit} {i now fr : Nat} {c : KeyCtx}

/-- KF0's test of its parameters is the one of R158. -/
theorem kfServed_iff (r : Run) (x : RUnit) (i : Nat) : kfServed r x i ↔
    ((x.p 0).toNat = 0 || 3 < (x.p 0).toNat || ((x.p 0).toNat = 3 && r.fix.user) ||
      ((x.p 0).toNat ≠ 1 && (kfWidth (x.p 5)).isNone)) = false := by
  have hop : (kfAsk r x i).op = (x.p 0).toNat := rfl
  simp only [kfServed, hop, Bool.or_eq_false_iff, Bool.and_eq_false_iff, decide_eq_false_iff_not, and_assoc, Option.isNone_eq_false_iff,
    not_and_or, Bool.not_eq_true, not_not, Nat.not_lt]
  exact and_congr_left fun _ => Nat.one_le_iff_ne_zero

/-- A word is a handle in no use where it reaches 2^22 or is 0 (R158, R159). -/
theorem badHandle_iff (a : Word) :
    (a.extractLsb' 22 14 ≠ 0#14 || a.extractLsb' 0 22 = 0#22) = true ↔ 2 ^ 22 ≤ a.toNat ∨ a = 0 := by
  rw [Bool.or_eq_true, decide_eq_true_eq, decide_eq_true_eq]
  rcases Nat.lt_or_ge a.toNat (2 ^ 22) with h | h
  · rcases Nat.eq_zero_or_pos a.toNat with hz | hp
    · have ha : a = 0 := BitVec.eq_of_toNat_eq hz
      subst ha
      simp
    · have hne : a ≠ 0 := fun e => by simp [e] at hp
      exact iff_of_false (not_or.2 ⟨not_not.2 (extractLsb'_high_eq_zero h), extractLsb'_low_ne_zero hp h⟩)
        (not_or.2 ⟨Nat.not_le.2 h, hne⟩)
  · have hh : a.extractLsb' 22 14 ≠ 0#14 := by
      intro e
      have ht := congrArg BitVec.toNat e
      simp only [BitVec.extractLsb'_toNat, Nat.shiftRight_eq_div_pow, BitVec.toNat_ofNat] at ht
      have := a.isLt
      omega
    exact ⟨fun _ => .inl h, fun _ => .inl hh⟩

/-- A reserved operation emits PX (R131, R158). -/
theorem kf0Fire_reserved (h : firing P 0x10 = some (r, x, i)) (hs : slotFree r i = true) (hk : ¬ kfServed r x i) :
    kf0Fire P now fr c = fireEmit P now fr r 0x10 i laneReserved (r.rubbleIn x) := by
  rw [kfServed_iff, Bool.not_eq_false] at hk
  simp only [kf0Fire, h, hs, Bool.not_true, Bool.false_eq_true, if_false]
  exact if_pos hk

/-- A rubble handle gives rubble (R76, R164). -/
theorem kf0Fire_rubble (h : firing P 0x10 = some (r, x, i)) (hs : slotFree r i = true) (hk : kfServed r x i)
    (hr : r.rubbleIn x = true) : kf0Fire P now fr c = fireEmit P now fr r 0x10 i {} (r.rubbleIn x) := by
  rw [kfServed_iff] at hk
  simp only [kf0Fire, h, hs, hr, Bool.not_true, Bool.false_eq_true, if_false, if_true]
  exact if_neg (Bool.eq_false_iff.1 hk)

/-- A served lookup judges its handle and then looks it up (R158, R159). -/
theorem kf0Fire_serves (h : firing P 0x10 = some (r, x, i)) (hs : slotFree r i = true) (hk : kfServed r x i)
    (hr : r.rubbleIn x = false) : kf0Fire P now fr c = kfServe P now fr c r x i (r.operand x 0) := by
  rw [kfServed_iff] at hk
  simp only [kf0Fire, h, hs, hr, Bool.not_true, Bool.false_eq_true, if_false]
  rw [if_neg (Bool.eq_false_iff.1 hk), kfServe]
  by_cases ha : 2 ^ 22 ≤ (r.operand x 0).toNat ∨ r.operand x 0 = 0
  · rw [if_pos ha, if_pos ((badHandle_iff _).2 ha)]
  · have hm : (r.operand x 0).toNat % 2 ^ 22 = (r.operand x 0).toNat := Nat.mod_eq_of_lt (by omega)
    rw [if_neg ha, if_neg (mt (badHandle_iff _).1 ha)]
    exact congrArg (fun n => kfAnswered now fr r i (kfLook c (kfAsk r x i) now n r.ct P)) hm

theorem kfServe_badHandle {a : Word} (ha : 2 ^ 22 ≤ a.toNat ∨ a = 0) : kfServe P now fr c r x i a = kfEnd P now fr r i (kfFail 1) :=
  if_pos ha

theorem kfServe_looked {a : Word} {l : LookRes} (h : a.toNat < 2 ^ 22) (ha : a ≠ 0)
    (hl : kfLook c (kfAsk r x i) now a.toNat r.ct P = (some (l, P1), P2)) :
    kfServe P now fr c r x i a = kfEnd P1 now fr r i l := by
  rw [kfServe, if_neg (not_or.2 ⟨Nat.not_le.2 h, ha⟩), hl, kfAnswered]

end Lookup

/-- A lookup fails with the first reason that holds, before its blob is read (R159). -/
theorem kfEntry_fails {c : KeyCtx} {q : KfAsk} {x : DirHead} {P : Pier} (h : kfReason c q x.entry ≠ 0) :
    kfEntry c q x P = (kfFail (kfReason c q x.entry), P) := by
  unfold kfEntry
  split
  · exact absurd ‹_› h
  · rfl

/-- A lookup without a failing reason reads the blob (R160). -/
theorem kfEntry_passes {c : KeyCtx} {q : KfAsk} {x : DirHead} {P P1 : Pier} {e : KeyEntry} (h : kfReason c q x.entry = 0)
    (hb : readBody x P = (.entry e, P1)) : kfEntry c q x P = (kfResult (c.kek.getD []) q e, P1) := by
  simp only [kfEntry, h, hb]

/-! ### A record of a run (R180 to R182, R416) -/

/-- The 16 elements of AU0's next record (R180). -/
def auElems (r : Run) (x : RUnit) (i : Nat) : List Elem :=
  (List.range 16).map (fun k =>
    if r.fed (mkPort 0x11 0) then (r.inAt (mkPort 0x11 0)).getD k ⟨i + k, 0, false⟩ else ⟨i + k, x.p 1, false⟩)

/-- Whether rubble stands in AU0's next record (R182). -/
def auRubble (r : Run) : Bool := (r.inputs 0x11).any (fun q => ((r.inAt q).take 16).any (·.rub))

/-- AU0 once it has sealed a record: the next sequence number, and the record's mark as head (R180, R416). -/
def Au0.sealed (u : Au0) (ws : List Word) : Au0 :=
  { u with cseq := u.cseq + 1, mark := (auSeal (u.key.getD (List.replicate 32 0)) (u.cseq + 1) u.mark (plainOut ws)).2 }

theorem Au0.sealed_mark (u : Au0) (ws : List Word) : (u.sealed ws).mark =
    (auSeal (u.key.getD (List.replicate 32 0)) (u.cseq + 1) u.mark (plainOut ws)).2 := rfl

/-- A pier with another state of AU0. -/
def Pier.putAu0 (P : Pier) (u : Au0) : Pier := { P with runs := { P.runs with au0 := u } }

/-- A pier whose AU0 has taken a record: rubble is reported, an exhausted chain seals nothing (R182, R416). -/
def auRecorded (P : Pier) (r : Run) (x : RUnit) (i : Nat) : Pier :=
  if auRubble r then P.detect 0x10 (P.runs.au0.cseq % 2 ^ 32) 0
  else if cseqMax ≤ P.runs.au0.cseq then P
  else P.putAu0 (P.runs.au0.sealed ((auElems r x i).map (·.val)))

section Record

variable {P : Pier} {r : Run} {x : RUnit} {i : Nat}

/-- A record of 16 elements is taken, and the run goes on (R180). -/
theorem au0Fire_records (now fr : Nat) (h : firing P 0x11 = some (r, x, i)) (hp : x.p 0 = 1) (hn : r.n % 16 = 0)
    (hl : (r.inputs 0x11).all (fun q => 16 ≤ (r.inAt q).length) = true) :
    ∃ r', au0Fire P now fr = afterRun (auRecorded P r x i) now fr r' := by
  have hres : ¬ (decide (x.p 0 ≠ 1) || decide (r.n % 16 ≠ 0)) = true := by simp [hp, hn]
  simp only [au0Fire, h, hl, Bool.not_true, Bool.false_eq_true, if_false, if_neg hres]
  refine ⟨_, congrArg (fun Q => afterRun Q now fr _) ?_⟩
  unfold auRecorded
  change (if auRubble r = true then _ else if (auRubble r || decide (cseqMax ≤ P.runs.au0.cseq)) = true then _ else _) = _
  cases auRubble r with
  | true => rfl
  | false => simp only [Bool.false_or, decide_eq_true_eq, Bool.false_eq_true, if_false]; rfl

theorem auRecorded_rubble (h : auRubble r = true) :
    auRecorded P r x i = P.detect 0x10 (P.runs.au0.cseq % 2 ^ 32) 0 := if_pos h

theorem auRecorded_sealed (h : auRubble r = false) (hc : P.runs.au0.cseq < cseqMax) : 
    auRecorded P r x i = P.putAu0 (P.runs.au0.sealed ((auElems r x i).map (·.val))) := by
  rw [auRecorded, if_neg (Bool.eq_false_iff.1 h), if_neg (Nat.not_le.2 hc)]

theorem auRecorded_exhausted (h : auRubble r = false) (hc : cseqMax ≤ P.runs.au0.cseq) : auRecorded P r x i = P := by
  rw [auRecorded, if_neg (Bool.eq_false_iff.1 h), if_pos hc]

end Record

/-- The end of a pier's chain touches no pier (R416). -/
theorem Dev.exhaust_piers (d : Dev) (p : Fin 16) : (d.exhaust p).piers = d.piers := by
  unfold Dev.exhaust
  split
  · rfl
  · obtain ⟨q, fl, ks, h⟩ := Dev.enterRecovery_frame { d with audit := { d.audit with full := d.audit.full ++ [p.val] } }
    obtain ⟨_, _, _, _, _, _, h2, -⟩ := Dev.append16_frame
      (Dev.enterRecovery { d with audit := { d.audit with full := d.audit.full ++ [p.val] } }) _ none
    rw [Dev.recoveryEvent, h2, h]

/-- A record of a run is AU0's firing on its pier, also where the chain of the pier ends first (R180, R416). -/
theorem answersWith_au0Record {p : Fin 16} {s : State} {R : Dev → Prop}
    (h : ∀ (d : Dev) now fr, d.pier p = au0Fire (s.dev.pier p) now fr → R d) : AnswersWith (.au0Record p .run) s R := by
  have hx : exec (.au0Record p .run) s = execAu0Record p .run s := rfl
  unfold AnswersWith
  rw [hx]
  simp only [execAu0Record]
  split
  · refine ⟨_, rfl, rfl, h _ (s.dev.exhaust p).now (s.dev.exhaust p).fresh ?_⟩
    have hp : (s.dev.exhaust p).pier p = s.dev.pier p := congrArg (·[p]) (s.dev.exhaust_piers p)
    rw [← hp]
    exact Dev.pier_setPier_self _ p _
  · exact ⟨_, rfl, rfl, h _ s.dev.now s.dev.fresh (Dev.pier_setPier_self _ p _)⟩

/-! ### The record of an item (R19, R180, R416) -/

theorem answers_au0Record_item {p : Fin 16} {s : State} {id : Nat} {it : Item} (hi : s.dev.item? id = some it)
    (hs : it.stage = .record ⟨p.val, by omega⟩) (hf : it.flr = false) :
    Answers (.au0Record p (.item id)) s (s.dev.recordPier p it) := by
  have hx : exec (.au0Record p (.item id)) s = execAu0Record p (.item id) s := rfl
  unfold Answers
  rw [hx]
  simp only [execAu0Record, hi, hs, hf, Bool.false_eq_true, if_false, if_true]
  rfl

theorem Dev.pier_accept (d : Dev) (a : AuditRec) (p : Fin 16) : (d.accept a).pier p = d.pier p := rfl

theorem Dev.pier_onItem (d : Dev) (id : Nat) (f : Item → Item) (p : Fin 16) : (d.onItem id f).pier p = d.pier p := rfl

/-- A pier's item recorded while its chain lasts: the chain moves by one record, which waits for delivery, and the item with it
(R19, R414, R416, R417). -/
theorem Dev.recordPier_of_lt {d : Dev} (p : Fin 16) {i : Item} (hf : i.flr = false) (ha : d.recordsAllowed = true)
    (hc : (d.pier p).runs.au0.cseq < cseqMax) : ∃ mark bytes,
    d.recordPier p i =
      ((d.onPier p (·.putAu0 { (d.pier p).runs.au0 with cseq := (d.pier p).runs.au0.cseq + 1, mark := mark })).accept
        ⟨⟨p.val, by omega⟩, (d.pier p).runs.au0.cseq + 1, mark, bytes, some i.id⟩).onItem i.id
          (fun _ => { i with stage := .recorded ⟨p.val, by omega⟩ ((d.pier p).runs.au0.cseq + 1) }) := by
  simp only [Dev.recordPier, Item.settled_of_not_flr hf, ha, Bool.not_true, Bool.false_eq_true, if_false, if_neg (Nat.not_le.2 hc)]
  exact ⟨_, _, rfl⟩

/-- Settles O24: a lookup's outcomes are those of `kf0Fire`, an entry's those of `kfEntry`, and a record is what `auRecorded` and
`Dev.recordPier` leave of the chain. -/
theorem keyAndAuditStones : Obligations.KeyAndAuditStones := by
  refine ⟨⟨?_, ?_, fun _ _ _ _ _ _ _ => rfl⟩, ?_, ?_⟩
  · refine fun p s r x i h hs => ⟨fun hk => ?_, fun hk hr => ?_, fun hk hr => ⟨fun ha => ?_, fun l P1 P2 ha h0 hl => ?_⟩⟩
    · exact runAnswers_kf0Lookup (kf0Fire_reserved h hs hk)
    · exact runAnswers_kf0Lookup (kf0Fire_rubble h hs hk hr)
    · exact runAnswers_kf0Lookup ((kf0Fire_serves h hs hk hr).trans (kfServe_badHandle ha))
    · exact runAnswers_kf0Lookup ((kf0Fire_serves h hs hk hr).trans (kfServe_looked ha h0 hl))
  · refine fun c q h P P1 e hb => ⟨?_, fun hw hop => ?_⟩
    · rintro why hne rfl
      exact kfEntry_fails hne
    · rw [kfEntry_passes hw hb, kfResult, if_pos hop]
      exact ⟨_, _, rfl, rfl, rfl, rfl, rfl, rfl⟩
  · intro p s r x i h P hp hn hl es rub
    refine answersWith_au0Record fun d now fr hd => ?_
    obtain ⟨r', hr'⟩ := au0Fire_records now fr h hp hn hl
    have hk := afterRun_sameCourses (auRecorded P r x i) now fr r'
    rw [hd, hr', hk.au0, hk.detq]
    refine ⟨fun hb hc => ?_, fun hb hc => ?_, fun hb hc => ?_⟩
    · rw [auRecorded_sealed hb hc]
      exact ⟨rfl, Au0.sealed_mark _ _, rfl⟩
    · rw [auRecorded_rubble hb]
      exact ⟨rfl, rfl⟩
    · rw [auRecorded_exhausted hb hc]
  · intro p s id it hi hs ha hc hf
    obtain ⟨rfl, -⟩ := Dev.item?_eq_some hi
    obtain ⟨mark, bytes, hrec⟩ := s.dev.recordPier_of_lt p hf ha hc
    refine (answers_au0Record_item hi hs hf).answersWith ?_
    rw [hrec]
    simp only [Dev.pier_onItem, Dev.pier_accept, Dev.pier_onPier_self]
    refine ⟨rfl, rfl, ⟨_, rfl, rfl, rfl, rfl⟩, fun y hy hid => ?_, fun q hq => Dev.pier_onPier_of_ne s.dev _ hq⟩
    rcases (Dev.mem_onItem_const (by rfl)).1 hy with ⟨hne, -⟩ | ⟨rfl, -⟩
    · exact absurd hid hne
    · rfl

end Sys2Proof.Machine
end

section
/-! The fixed courses (R131, R165 to R179): what a tile of MONT and ECP, a firing of AES, TDES and HASH and one of XLAT leave, and
O25 from them. -/

namespace Sys2Proof.Machine

open Sys2Proof

/-! ### Tiles of MONT and ECP (R131, R165 to R171) -/

/-- Emits elements one after the other on an output port. -/
def Run.emitEach (r : Run) (u code : Nat) (es : List Elem) : Run := es.foldl (fun r e => r.emit u code e) r

@[simp] theorem Run.emitEach_n (r : Run) (u code : Nat) (es : List Elem) : (r.emitEach u code es).n = r.n := by
  induction es generalizing r with
  | nil => rfl
  | cons e es ih => exact (ih (r.emit u code e)).trans (r.emit_n u code e)

/-- What the transactions of unit `x`'s next tile give on R and F (R166, R167, R170, R171). -/
def tileOuts (r : Run) (x : RUnit) (w l k : Nat) : List (Elem × Elem) :=
  (List.range 32).flatMap (fun q => tileTrans r x w l k (32 * x.tiles + q))

/-- The run that keeps the results `outs` of a tile (R165, R168). -/
def Run.keepTile (r : Run) (u : Nat) (outs : List (Elem × Elem)) : Run :=
  r.onUnit u (fun y => { y with tiles := y.tiles + 1, res := y.res ++ outs.map (·.1), resF := y.resF ++ outs.map (·.2) })

/-- The run that has emitted every result of unit `y` in index order (R168). -/
def Run.emitTiles (r : Run) (u : Nat) (y : RUnit) : Run := (r.emitEach u 4 (byIndex y.res)).emitEach u 6 (byIndex y.resF)

/-- The run whose unit `u` has consumed its `n` elements and let go of its results (R168). -/
def Run.endTiles (r : Run) (u n : Nat) : Run :=
  { r with ins := r.ins.map (fun (e : BitVec 12 × List Elem) =>
      if (r.inputs u).contains e.1 then (e.1, e.2.drop n) else e) }.onUnit u
    (fun z => { z with res := [], resF := [], fired := n })

section Tile

variable {P : Pier} {r : Run} {x : RUnit} {u : Nat} (now fr : Nat)

/-- Reserved parameters emit PX element by element (R131). -/
theorem tileFire_reserved {i : Nat} (hr : P.runs.exec = some r) (hx : r.unit? u = some x) (hs : tileShape r.n x = none)
    (h : firing P u = some (r, x, i)) : tileFire P now fr u = fireEmit P now fr r u i laneReserved (r.rubbleIn x) := by
  simp only [tileFire, hr, hx, hs, h]

variable {w l k : Nat} (hr : P.runs.exec = some r) (hx : r.unit? u = some x) (hs : tileShape r.n x = some (w, l, k))
  (hst : P.runs.started = true) (he : x.ended = false) (ht : x.tiles < w / 32)
  (hl : (r.inputs u).all (fun q => 32 * ((k * l - 1) * (w / 32) + x.tiles + 1) ≤ (r.inAt q).length) = true)

include hr hx hs hst he ht hl

/-- A tile before the last is computed and kept (R165, R168). -/
theorem tileFire_keeps (hn : x.tiles + 1 < w / 32) :
    tileFire P now fr u = { P with runs := { P.runs with exec := some (r.keepTile u (tileOuts r x w l k)) } } := by
  simp only [tileFire, hr, hx, hs, hst, he, hl, decide_eq_false (Nat.not_le.2 ht), Bool.not_true, Bool.or_self, Bool.false_eq_true,
    if_false, if_pos hn]
  rfl

/-- After the last tile every result leaves, and the inputs are consumed (R168). -/
theorem tileFire_emits {y : RUnit} (hn : x.tiles + 1 = w / 32) (hy : (r.keepTile u (tileOuts r x w l k)).unit? u = some y) :
    tileFire P now fr u =
      afterRun P now fr (((r.keepTile u (tileOuts r x w l k)).emitTiles u y).endTiles u r.n) := by
  have hlast : ¬ x.tiles + 1 < w / 32 := by omega
  have hn2 : ((r.keepTile u (tileOuts r x w l k)).emitTiles u y).n = r.n := by
    simp [Run.emitTiles, Run.keepTile]
  rw [Run.keepTile, tileOuts] at hy
  simp only [tileFire, hr, hx, hs, hst, he, hl, decide_eq_false (Nat.not_le.2 ht), Bool.not_true, Bool.or_self, Bool.false_eq_true,
    if_false, if_neg hlast, hy]
  exact congrArg (fun n => afterRun P now fr (((r.keepTile u (tileOuts r x w l k)).emitTiles u y).endTiles u n)) hn2

end Tile

/-- A command that is a tile of unit `u` behaves as one. -/
theorem tileStep_of_tileFire {i : Fin 16 → Instr} {u : Nat}
    (hi : ∀ s p Q, tileFire (s.dev.pier p) s.dev.now s.dev.fresh u = Q → RunAnswers (i p) s p Q) : TileStep i u := by
  refine fun p s r x hr hx => ⟨fun k hs h => ?_, fun w l k hs hst he ht hl => ⟨fun hn => ?_, fun y hn hy => ?_⟩⟩
  · exact hi s p _ (tileFire_reserved _ _ hr hx hs h)
  · exact hi s p _ (tileFire_keeps _ _ hr hx hs hst he ht hl hn)
  · exact hi s p _ (tileFire_emits _ _ hr hx hs hst he ht hl hn hy)

/-! ### Segments of AES, TDES and HASH (R131, R172 to R177) -/

@[simp] theorem gathered_n (P : Pier) (r : Run) (x : RUnit) (i u : Nat) : (gathered P r x i u).n = r.n := by
  simp [gathered]

/-- What a course emits of the segment of element `i`: the segment where the element is its last, else nothing (R172, R176; a run
may end inside a segment, log 7). -/
def segClosed (r : Run) (x : RUnit) (i u : Nat) : Run :=
  if (i + 1) % segLen r.n x = 0 || i + 1 = r.n then
    match r.unit? u with
    | some z => segEmit r z r.n
    | none => r
  else r

theorem segClosed_inside {r : Run} {x : RUnit} {i u : Nat} (h : (i + 1) % segLen r.n x ≠ 0) (hn : i + 1 ≠ r.n) :
    segClosed r x i u = r := by
  simp [segClosed, h, hn]

theorem segClosed_last {r : Run} {x z : RUnit} {i u : Nat} (h : (i + 1) % segLen r.n x = 0 ∨ i + 1 = r.n) (hz : r.unit? u = some z) :
    segClosed r x i u = segEmit r z r.n := by
  simp [segClosed, h, hz]

section Segment

variable {P : Pier} {r : Run} {x : RUnit} {i u : Nat} (now fr : Nat)

/-- Reserved parameters emit PX firing by firing (R131). -/
theorem segFire_reserved (h : firing P u = some (r, x, i)) (hs : segReserved r.n x = true) :
    segFire P now fr u = fireEmit P now fr r u i laneReserved (r.rubbleIn x) := by
  simp only [segFire, h, hs, if_true]

/-- An element joins its segment, which its last one emits (R172, R176). -/
theorem segFire_gathers (h : firing P u = some (r, x, i)) (hs : segReserved r.n x = false) :
    segFire P now fr u = afterRun P now fr (segClosed (gathered P r x i u) x i u) := by
  simp only [segFire, h, hs, Bool.false_eq_true, if_false]
  rfl

/-- Inside a segment an element is gathered and nothing is emitted (R172, R176). -/
theorem segFire_inside (h : firing P u = some (r, x, i)) (hs : segReserved r.n x = false) (hi : (i + 1) % segLen r.n x ≠ 0)
    (hn : i + 1 ≠ r.n) : segFire P now fr u = afterRun P now fr (gathered P r x i u) := by
  rw [segFire_gathers now fr h hs, segClosed_inside (by simpa using hi) (by simpa using hn)]

/-- The last element of a segment emits it (R172, R176). -/
theorem segFire_last {z : RUnit} (h : firing P u = some (r, x, i)) (hs : segReserved r.n x = false)
    (hl : (i + 1) % segLen r.n x = 0 ∨ i + 1 = r.n) (hz : (gathered P r x i u).unit? u = some z) :
    segFire P now fr u = afterRun P now fr (segEmit (gathered P r x i u) z r.n) := by
  rw [segFire_gathers now fr h hs, segClosed_last (by simpa using hl) hz, gathered_n]

/-- HASH_SEGMENT stops at an element of reserved parameters and at the last one of a segment (R131, R176). -/
theorem hashFire_stops (k : Nat) (h : firing P 0x23 = some (r, x, i))
    (hl : segReserved r.n x = true ∨ (i + 1) % segLen r.n x = 0 ∨ i + 1 = r.n) :
    hashFire (k + 1) P now fr = segFire P now fr 0x23 := by
  simp only [hashFire, h]
  refine if_pos ?_
  simpa [or_assoc] using hl

/-- Inside a segment HASH_SEGMENT goes on with the next element (R176). -/
theorem hashFire_continues (k : Nat) (h : firing P 0x23 = some (r, x, i)) (hs : segReserved r.n x = false)
    (hi : (i + 1) % segLen r.n x ≠ 0) (hn : i + 1 ≠ r.n) :
    hashFire (k + 1) P now fr = hashFire k (segFire P now fr 0x23) now fr := by
  simp only [hashFire, h]
  refine if_neg ?_
  simp [hs, hi, hn]

end Segment

/-- A command that is a firing of course `u` works on its segments. -/
theorem segmentStep_of_segFire {i : Fin 16 → Instr} {u : Nat}
    (hi : ∀ s p Q, segFire (s.dev.pier p) s.dev.now s.dev.fresh u = Q → RunAnswers (i p) s p Q) : SegmentStep i u := by
  refine fun p s r x k h => ⟨fun hs => ?_, fun hs => ⟨fun hk hn => ?_, fun z hl hz => ?_⟩⟩
  · exact hi s p _ (segFire_reserved _ _ h hs)
  · exact hi s p _ (segFire_inside _ _ h hs hk hn)
  · exact hi s p _ (segFire_last _ _ h hs hl hz)

/-! ### XLAT (R178, R179) -/

/-- A table that an LTAB firing for index `i` has taken for `owner`, with the nonets of `v` at their place (R179). -/
def XlatTab.load (owner : BitVec 7) (i : Nat) (v : Word) (q : XlatTab) : XlatTab :=
  { owner := owner, tab := if i < 128 then q.tab.setList (4 * i) ((List.range 4).map (nonetOf v)) else q.tab }

/-- Changes table `t` of a list of tables. -/
def onTab (tabs : List XlatTab) (t : Nat) (f : XlatTab → XlatTab) : List XlatTab :=
  tabs.zipIdx.map (fun q => if q.2 = t then f q.1 else q.1)

theorem getElem?_onTab (tabs : List XlatTab) (t : Nat) (f : XlatTab → XlatTab) (j : Nat) :
    (onTab tabs t f)[j]? = if j = t then tabs[j]?.map f else tabs[j]? := by
  rw [onTab, List.getElem?_map, List.getElem?_zipIdx, Option.map_map, Nat.zero_add]
  split
  · next h => simp [Function.comp_def, h]
  · next h => simp [Function.comp_def, h]

section Xlat

variable {P : Pier} {r : Run} {x : RUnit} {i : Nat} (now fr : Nat)

/-- An operation beside LTAB answers from the tables and its operands (R178). -/
theorem xlatFire_looks (h : firing P 0x24 = some (r, x, i)) (hp : x.p 0 ≠ 6) :
    xlatFire P now fr = fireEmit P now fr r 0x24 i
      (xlatOp P.runs.xlat (runOwner r.fix) (x.p 0).toNat (x.p 4) (x.p 5) (r.operand x 0) (r.operand x 1)) (r.rubbleIn x) := by
  simp only [xlatFire, h, if_neg hp]

/-- LTAB loads the nonets of its operand, and of a rubble one some nonets, into the table that P4 names (R179). -/
theorem xlatFire_loads (h : firing P 0x24 = some (r, x, i)) (hp : x.p 0 = 6) : ∃ v : Word,
    (r.rubbleIn x = false → v = r.operand x 0) ∧ xlatFire P now fr = afterRun
      { P with runs := { P.runs with xlat := onTab P.runs.xlat ((x.p 4).toNat % 8) (XlatTab.load (runOwner r.fix) i v) } }
      now fr (r.take 0x24) := by
  simp only [xlatFire, h, if_pos hp]
  exact ⟨_, fun hr => if_neg (Bool.eq_false_iff.1 hr), rfl⟩

end Xlat

/-- Settles O25: each command is a tile, a firing of a segment's course or one of XLAT, of which the lemmas above say what it leaves.
That the last segment of a run may be short, and the places at which a segment takes its key and vector, are the model's reading of
log 7. -/
theorem courseUnits : Obligations.CourseUnits := by
  refine ⟨⟨?_, ?_⟩, ⟨?_, ?_, ?_⟩, ?_, ?_⟩
  · exact tileStep_of_tileFire fun _ _ _ => runAnswers_montTile
  · exact tileStep_of_tileFire fun _ _ _ => runAnswers_ecpTile
  · exact segmentStep_of_segFire fun _ _ _ => runAnswers_aesFire
  · exact segmentStep_of_segFire fun _ _ _ => runAnswers_tdesFire
  · refine fun p s r x i h => ⟨fun hs => ?_, fun hs => ⟨fun z hl hz => ?_, fun hi hn => ?_⟩⟩
    · exact runAnswers_hashSegment ((hashFire_stops _ _ 65535 h (.inl hs)).trans (segFire_reserved _ _ h hs))
    · exact runAnswers_hashSegment ((hashFire_stops _ _ 65535 h (.inr hl)).trans (segFire_last _ _ h hs hl hz))
    · refine runAnswers_hashSegment ((hashFire_continues _ _ 65535 h hs hi hn).trans ?_)
      rw [segFire_inside _ _ h hs hi hn]
  · exact fun p s r x i h hp => runAnswers_xlatFire (xlatFire_looks _ _ h hp)
  · intro p s r x i h hp P t
    obtain ⟨v, hv, hx⟩ := xlatFire_loads s.dev.now s.dev.fresh h hp
    refine answersWith_of_runAnswers (runAnswers_xlatFire hx) fun d hd => ?_
    rw [hd, (afterRun_sameCourses _ _ _ _).xlat]
    refine ⟨fun j hj => ?_, fun q hq => ⟨XlatTab.load (runOwner r.fix) i v q, ?_, rfl, fun hi => ?_, fun hi hr => ?_⟩⟩
    · exact (getElem?_onTab _ _ _ j).trans (if_neg hj)
    · exact (getElem?_onTab _ _ _ t).trans ((if_pos rfl).trans (congrArg _ hq))
    · exact if_neg (Nat.not_lt.2 hi)
    · rw [← hv hr]
      exact if_pos hi

end Sys2Proof.Machine
end

section
/-! Multiplication, division and the F36 ports (R185, R186, R194 to R197, R218, R219, R247): what each starts, what a delivery
leaves, and O4 and O5 from them. -/

namespace Sys2Proof.Machine

open Sys2Proof

/-! ### Bits of the status word (R200) -/

theorem getLsbD_putBit (w : Word) {i : Nat} (b : Bool) (j : Nat) (hi : i < 36) :
    (putBit w i b).getLsbD j = if j = i then b else w.getLsbD j := by
  have hbit : (BitVec.ofNat 36 (2 ^ i)).getLsbD j = decide (j = i) := by
    rw [BitVec.getLsbD_ofNat, Nat.testBit_two_pow]
    by_cases h : j = i
    · simp [h, hi]
    · simp [h, Ne.symm h]
  have hset : (putBit w i b).getLsbD j = if b then w.getLsbD j || decide (j = i) else w.getLsbD j && !decide (j = i) := by
    cases b
    · by_cases hj : j < 36
      · simp only [putBit, Bool.false_eq_true, if_false, BitVec.getLsbD_and, BitVec.getLsbD_not, hbit, hj, decide_true, Bool.true_and]
      · simp [putBit, BitVec.getLsbD_of_ge _ _ (Nat.not_lt.1 hj)]
    · simp only [putBit, if_true, BitVec.getLsbD_or, hbit]
  rw [hset]
  by_cases h : j = i <;> cases b <;> simp [h]

/-! ### Quotients (R185) -/

theorem outOfRange_eq_true (z : Int) : outOfRange z = true ↔ z < -(2 ^ 35) ∨ 2 ^ 35 ≤ z := by
  simp [outOfRange]

/-- The only signed quotient that a word cannot hold is that of −2^35 by −1 (R185). -/
theorem outOfRange_tdiv (a b : Word) :
    outOfRange (a.toInt.tdiv b.toInt) = decide (a = 0x800000000#36 ∧ b = 0xFFFFFFFFF#36) := by
  have hlo : -(2 ^ 35) ≤ a.toInt := BitVec.le_toInt a
  have hhi : a.toInt < 2 ^ 35 := BitVec.toInt_lt
  have ha : a = 0x800000000#36 ↔ a.toInt = -(2 ^ 35) := BitVec.toInt_inj.symm
  have hb : b = 0xFFFFFFFFF#36 ↔ b.toInt = -1 := BitVec.toInt_inj.symm
  rw [Bool.eq_iff_iff, outOfRange_eq_true, decide_eq_true_iff, ha, hb]
  generalize a.toInt = x at *
  generalize b.toInt = y
  have hq : (x.tdiv y).natAbs = x.natAbs / y.natAbs := Int.natAbs_tdiv x y
  by_cases hy : y = -1
  · subst hy
    rw [Int.tdiv_neg, Int.tdiv_one]
    omega
  by_cases h2 : 2 ≤ y.natAbs
  · have hle : x.natAbs / y.natAbs ≤ x.natAbs / 2 := Nat.div_le_div_left h2 (by decide)
    omega
  · obtain rfl | rfl : y = 0 ∨ y = 1 := by omega
    · simp
    · rw [Int.tdiv_one]
      omega

theorem intDiv_signed (a b : Word) : intDiv true a b =
    ⟨if b = 0 then 0 else BitVec.ofInt 36 (a.toInt.tdiv b.toInt), if b = 0 then a else BitVec.ofInt 36 (a.toInt.tmod b.toInt),
      outOfRange (a.toInt.tdiv b.toInt), b = 0⟩ := by
  by_cases h : b = 0
  · subst h
    rw [outOfRange_tdiv]
    simp [intDiv]
  · rw [intDiv, if_neg h, if_neg h, if_neg h, outOfRange_tdiv, decide_eq_false h]
    rfl

theorem intDiv_unsigned (a b : Word) : intDiv false a b =
    ⟨if b = 0 then 0 else a / b, if b = 0 then a else a % b, false, b = 0⟩ := by
  by_cases h : b = 0
  · subst h
    rfl
  · rw [intDiv, if_neg h, if_neg h, if_neg h, decide_eq_false h]
    rfl

/-! ### What MUL, MULU, DIV and DIVU start (R185, R218) -/

/-- A multiplication starts behind the delivery of the operation in progress: the low word goes to MQ, the high word to MH, and Z
is that of the whole product (R185). -/
theorem Core.multiply_eq (signed : Bool) (k : Core) (w : Word) :
    k.multiply signed w =
      let p := intMul signed k.a w
      { k.deliver with longop := some ⟨false, p.setWidth 36, some (p.extractLsb' 36 36),
          some (flagNibble (p = 0) (signed && p.getLsbD 71) false false), false, 0⟩ } := by
  simp [Core.multiply, Core.issue, ← BitVec.setWidth_eq_extractLsb']

/-- A division starts behind the delivery of the operation in progress, and its trap is taken at once (R185, R186). -/
theorem Core.divide_eq (signed : Bool) (k : Core) (w : Word) :
    k.divide signed w =
      let r := intDiv signed k.a w
      ({ k.deliver with longop := some ⟨false, r.q, some r.r, some (flagNibble (flagZ r.q) (flagN r.q) false r.v), r.dc, 0⟩ },
        if r.dc && k.tre.getLsbD 1 then some 10 else k.ovTrap r.v) := by
  simp [Core.divide, Core.issue, Core.ovTrap]

theorem Core.ovTrap_eq (k : Core) (v : Bool) : k.ovTrap v = overflowTrap k v := by
  simp [Core.ovTrap, overflowTrap]

/-! ### The delivery (R247) -/

section Delivery

variable {k : Core} {o : LongOp}

theorem Core.deliver_of_some (h : k.longop = some o) : k.deliver.mq = o.mq ∧ k.deliver.mh = o.mh.getD k.mh ∧
    k.deliver.fpcr = k.fpcr ||| o.fp.setWidth 36 := by
  unfold Core.deliver
  rw [h]
  dsimp only
  split <;> exact ⟨rfl, rfl, rfl⟩

theorem Core.getLsbD_deliver_sw (h : k.longop = some o) (i : Nat) : k.deliver.sw.getLsbD i =
    if i < 4 then (o.flags.getD (k.sw.setWidth 4)).getLsbD i else if i = 5 then k.sw.getLsbD 5 || o.dc else k.sw.getLsbD i := by
  have hdc : ∀ i, (if o.dc then putBit k.sw 5 true else k.sw).getLsbD i =
      if i = 5 then k.sw.getLsbD 5 || o.dc else k.sw.getLsbD i := by
    intro i
    cases o.dc
    · by_cases hi : i = 5 <;> simp [hi]
    · simp only [if_true, getLsbD_putBit _ _ _ (show 5 < 36 by decide), Bool.or_true]
  unfold Core.deliver
  rw [h]
  dsimp only
  cases hf : o.flags with
  | none =>
    by_cases hi : i < 4
    · simp [hdc, hi, show i ≠ 5 by omega]
    · simp [hdc, hi]
  | some f =>
    simp only [Core.zncv, getLsbD_putBit, hdc, Option.getD_some, Nat.reduceLT]
    by_cases hi : i < 4
    · interval_cases i <;> rfl
    · simp [hi, show i ≠ 0 ∧ i ≠ 1 ∧ i ≠ 2 ∧ i ≠ 3 by omega]

/-- A delivery is told by the registers that it writes. -/
theorem Core.deliver_eq (k : Core) : k.deliver = { k with
    longop := none, mq := k.deliver.mq, mh := k.deliver.mh, fpcr := k.deliver.fpcr, sw := k.deliver.sw } := by
  obtain ⟨mq, mh, fpcr, sw, h⟩ := k.deliver_frame
  rw [h]

end Delivery

/-- Settles O4. A multiplication or division is what its port starts, a delivery what `Core.deliver` writes. -/
theorem multiplyDivideAndDelivery : Obligations.MultiplyDivideAndDelivery := by
  refine ⟨⟨?mul, ?mulu, ?div, ?divu⟩, ?none, ?some⟩
  case mul =>
    exact ComputesTrap.congr (valueAct_computes (g := Core.multiply true) (by decide) fun _ _ _ => rfl)
      (Core.multiply_eq true) fun _ _ => rfl
  case mulu =>
    exact ComputesTrap.congr (valueAct_computes (g := Core.multiply false) (by decide) fun _ _ _ => rfl)
      (Core.multiply_eq false) fun _ _ => rfl
  case div =>
    refine ComputesTrap.congr (trapAct_computes (g := Core.divide true) (by decide) fun _ _ _ => rfl) (fun k w => ?_) fun k w => ?_
    · rw [Core.divide_eq, intDiv_signed]
      rfl
    · simp only [Core.divide_eq, intDiv_signed, Bool.and_eq_true, decide_eq_true_eq, Core.ovTrap_eq, overflowTrap]
  case divu =>
    refine ComputesTrap.congr (trapAct_computes (g := Core.divide false) (by decide) fun _ _ _ => rfl) (fun k w => ?_) fun k w => ?_
    · rw [Core.divide_eq, intDiv_unsigned]
      rfl
    · simp only [Core.divide_eq, intDiv_unsigned, Bool.and_eq_true, decide_eq_true_eq, Core.ovTrap_eq, overflowTrap,
        Bool.false_eq_true, false_and, if_false]
  case none =>
    intro c s h
    refine congrArg s.answer ?_
    rw [Dev.onCore, Core.deliver_of_none _ h, Dev.setCore_core]
  case some =>
    intro c s o h
    refine Answers.answersWith (e := s.dev.onCore c Core.deliver) rfl ?_
    obtain ⟨hmq, hmh, hfp⟩ := Core.deliver_of_some h
    have hsw := Core.getLsbD_deliver_sw h
    simp only [Dev.core_onCore_self]
    refine ⟨Core.deliver_longop _, hmq, hmh, hfp, fun i hi h5 => ?_, (hsw 5).trans rfl, fun i hi => ?_, ?_⟩
    · rw [hsw, if_neg (Nat.not_lt.2 hi), if_neg h5]
    · rw [hsw, if_pos hi]
    · rw [Dev.onCore, ← Core.deliver_eq]

/-! ### The F36 ports (R194, R196, R218, R219) -/

/-- A delivery raises flags in FPCR bits 0 to 4 alone (R198). -/
theorem Core.getLsbD_deliver_fpcr (k : Core) {i : Nat} (hi : 5 ≤ i) : k.deliver.fpcr.getLsbD i = k.fpcr.getLsbD i := by
  cases h : k.longop with
  | none => rw [Core.deliver_of_none _ h]
  | some o =>
    rw [(Core.deliver_of_some h).2.2]
    simp [BitVec.getLsbD_of_ge o.fp i hi]

/-- The enables and the rounding mode of FPCR are those before the delivery. -/
theorem Core.extractLsb'_deliver_fpcr (k : Core) (n : Nat) {i : Nat} (hi : 5 ≤ i) :
    k.deliver.fpcr.extractLsb' i n = k.fpcr.extractLsb' i n :=
  BitVec.eq_of_getLsbD_eq fun j _ => by
    simp only [BitVec.getLsbD_extractLsb', k.getLsbD_deliver_fpcr (Nat.le_add_right_of_le hi)]

@[simp] theorem Core.deliver_rm (k : Core) : k.deliver.rm = k.rm :=
  congrArg BitVec.toNat (k.extractLsb'_deliver_fpcr 3 (by decide))

/-- Trap 12 for raised flags that FPCR enables (R195). -/
theorem Core.fpTrap_eq (k : Core) (n : Nat) :
    k.fpTrap n = if k.fpcr.extractLsb' 8 5 &&& BitVec.ofNat 5 n = 0#5 then none else some 12 :=
  ite_not _ _ _

section F36

variable (op : Nat → Word → Word → Word × Nat) (k : Core) (w : Word)

/-- The long operation that an F36 port starts: its result, no flags of SW, and the F36 flags that it raises (R197, R218). -/
def f36Op (r : Word × Nat) : LongOp := ⟨true, r.1, none, none, false, BitVec.ofNat 5 r.2⟩

/-- An F36 operation starts behind the delivery of the one in progress; with a trap enabled it delivers at once (R196, R218). -/
theorem Core.f36_eq : k.f36 op w =
    let j := k.deliver
    let r := op j.rm j.a w
    let j' := { j with longop := some (f36Op r) }
    (if j.fpcr.extractLsb' 8 5 = 0#5 then j' else j'.deliver,
      if j.fpcr.extractLsb' 8 5 &&& BitVec.ofNat 5 r.2 = 0#5 then none else some 12) := by
  simp only [Core.f36, Core.issue, Core.deliver_deliver, Core.fpTrap_eq, f36Op]
  by_cases h : k.deliver.fpcr.extractLsb' 8 5 = 0#5 <;> simp [h]

end F36

theorem issuesF36 {i : CoreId → Fld → Instr} {n : Nat} {op : Nat → Word → Word → Word × Nat} (hn : n ≠ 0x3B)
    (hx : ∀ c f s, exec (i c f) s = s.instr c n f (trapAct (Core.f36 op))) : IssuesF36 i n op :=
  ComputesTrap.congr (trapAct_computes hn hx)
    (fun k w => by rw [Core.f36_eq, ← k.deliver_rm]; rfl)
    (fun k w => by simp only [Core.f36_eq, Core.deliver_rm, Core.deliver_a, k.extractLsb'_deliver_fpcr 5 (show 5 ≤ 8 by decide)])

/-- An immediate operand is the immediate, read without effect, and steps no index (R211, R213). -/
theorem Dev.operand_immFld (d : Dev) (c : CoreId) (g : Gd) (src : BitVec 24) :
    d.operand c (immFld g src) = .ok (src.signExtend 36) d := rfl

theorem Core.stepIdx_immFld (k : Core) (g : Gd) (src : BitVec 24) : k.stepIdx (stepOf (immFld g src)) 1 = k := rfl

/-- An instruction of a row that fixes its immediate changes its core by its effect and takes its trap. -/
theorem answers_trapAct_immFld {x : Instr} {s : State} {c : CoreId} {n : Nat} {g : Gd} {src : BitVec 24}
    {h : Core → Word → Core × Option (BitVec 7)} (hn : n ≠ 0x3B)
    (hx : exec x s = s.instr c n (immFld g src) (trapAct h)) (he : Executes s.dev c n (immFld g src)) :
    Answers x s (withTrap (completed s.dev c fun _ => (h (s.dev.core c) (src.signExtend 36)).1) c
      (h (s.dev.core c) (src.signExtend 36)).2) := by
  simp only [Answers, hx, State.instr_of_executes _ he, trapAct, Dev.operand_immFld, CRes.act, Core.stepIdx_immFld]
  split
  case h_1 v hv => simp only [Dev.conclude_trap, completed, hv]
  case h_2 hv => simp only [Dev.conclude_next _ _ _ _ hn, completed, hv, withTrap]

theorem issuesF36Fixed {i : CoreId → Gd → Instr} {imm : BitVec 24} {op : Nat → Word → Word × Nat}
    (hx : ∀ c g s, exec (i c g) s = s.instr c 0x28 (immFld g imm) (trapAct (Core.f36 fun rm a _ => op rm a))) :
    IssuesF36Fixed i imm op := by
  intro c g s he
  have h := answers_trapAct_immFld (by decide) (hx c g s) he
  rw [Core.f36_eq] at h
  dsimp only at h ⊢
  split
  case isTrue h0 => rwa [if_pos h0, h0, BitVec.zero_and, if_pos rfl] at h
  case isFalse h0 => rwa [if_neg h0] at h

/-- Settles O5: the ports issue what `Core.f36` starts, and FCMP writes what `Core.fcmp` gives. -/
theorem floatingPortsIssue : Obligations.FloatingPortsIssue := by
  refine ⟨?_, ?_, ?_, ?_, ?_, ?_, ?_, ?_, ?_⟩
  · exact issuesF36 (by decide) fun _ _ _ => rfl
  · exact issuesF36 (by decide) fun _ _ _ => rfl
  · exact issuesF36 (by decide) fun _ _ _ => rfl
  · exact issuesF36 (by decide) fun _ _ _ => rfl
  · exact issuesF36 (by decide) fun _ _ _ => rfl
  · exact issuesF36Fixed fun _ _ _ => rfl
  · exact issuesF36Fixed fun _ _ _ => rfl
  · exact issuesF36Fixed fun _ _ _ => rfl
  · exact ComputesTrap.congr (trapAct_computes (g := Core.fcmp) (by decide) fun _ _ _ => rfl) (fun _ _ => rfl)
      fun k w => k.deliverFlags.fpTrap_eq _

end Sys2Proof.Machine
end

section
/-! The string operations (R227, R228, R253): how one that has worked on its words ends, whole or stopped by an interrupt. The
operand that stops a string, and what a stop keeps, are the model's reading of log 26. -/

namespace Sys2Proof.Machine

open Sys2Proof

/-! ### The commands -/

section Commands

variable {s : State} {c : CoreId} {g : Gd} {stop : Option Nat} {e : Dev}

theorem answers_movs (he : Executes s.dev c 0x3D (immFld g 1))
    (h : Dev.conclude (s.dev.core c) c 0x3D (immFld g 1) (portMovs stop c (immFld g 1) s.dev) = e) :
    Answers (.movs c ⟨g, stop⟩) s e :=
  h ▸ State.instr_of_executes _ he

theorem answers_fills (he : Executes s.dev c 0x3D (immFld g 2))
    (h : Dev.conclude (s.dev.core c) c 0x3D (immFld g 2) (portFills stop c (immFld g 2) s.dev) = e) :
    Answers (.fills c ⟨g, stop⟩) s e :=
  h ▸ State.instr_of_executes _ he

theorem answers_xlts (he : Executes s.dev c 0x3D (immFld g 6))
    (h : Dev.conclude (s.dev.core c) c 0x3D (immFld g 6) (portXlts stop c (immFld g 6) s.dev) = e) :
    Answers (.xlts c ⟨g, stop⟩) s e :=
  h ▸ State.instr_of_executes _ he

theorem answers_cmps (he : Executes s.dev c 0x3D (immFld g 5))
    (h : Dev.conclude (s.dev.core c) c 0x3D (immFld g 5) (portCmps stop c (immFld g 5) s.dev) = e) :
    Answers (.cmps c ⟨g, stop⟩) s e :=
  h ▸ State.instr_of_executes _ he

theorem answers_dadds (he : Executes s.dev c 0x3D (immFld g 3))
    (h : Dev.conclude (s.dev.core c) c 0x3D (immFld g 3) (portDecStr 3 stop c (immFld g 3) s.dev) = e) :
    Answers (.dadds c ⟨g, stop⟩) s e :=
  h ▸ State.instr_of_executes _ he

theorem answers_dsubs (he : Executes s.dev c 0x3D (immFld g 4))
    (h : Dev.conclude (s.dev.core c) c 0x3D (immFld g 4) (portDecStr 4 stop c (immFld g 4) s.dev) = e) :
    Answers (.dsubs c ⟨g, stop⟩) s e :=
  h ▸ State.instr_of_executes _ he

end Commands

/-! ### A string begins and ends (R228) -/

theorem Core.strBegin_frame (k : Core) : ∃ m l, k.strBegin = { k with strNow := m, strKept := l } := by
  unfold Core.strBegin
  split <;> exact ⟨_, _, rfl⟩

@[simp] theorem Core.strBegin_a (k : Core) : k.strBegin.a = k.a := by
  obtain ⟨_, _, h⟩ := k.strBegin_frame
  rw [h]

@[simp] theorem Core.strBegin_strWords (k : Core) : k.strBegin.strWords = k.strWords := by
  obtain ⟨_, _, h⟩ := k.strBegin_frame
  rw [h]
  rfl

/-- The end of a string that completes is `stringEnded`, then the boundary behind it. -/
theorem Dev.conclude_strEnd (k : Core) (c : CoreId) (f : Fld) (d : Dev) :
    Dev.conclude k c 0x3D f (.next (d.strEnd c)) = completed d c stringEnded := by
  rw [Dev.conclude_next _ _ _ _ (by decide)]
  rfl

/-- A string operation that works word by word, once it has worked on its words: it ends, or stands before those that remain. -/
theorem Dev.conclude_strRun (k : Core) {c : CoreId} (f : Fld) {stop : Option Nat} {word : Dev → CRes Unit} {d0 d : Dev}
    (h : Dev.strLoop c word (wordsNow d0 c stop) (d0.onCore c Core.strBegin) = .ok () d) :
    Dev.conclude k c 0x3D f (d0.strRun stop c word) = stringStops d0 d c stop := by
  have hm : ((d0.onCore c Core.strBegin).core c).strWords stop (d0.core c).a.toNat = wordsNow d0 c stop := by
    rw [Dev.core_onCore_self, Core.strBegin_strWords]
    rfl
  have hn : ((d0.onCore c Core.strBegin).core c).a = (d0.core c).a := by rw [Dev.core_onCore_self, Core.strBegin_a]
  unfold Dev.strRun
  simp only [hm, hn, h, CRes.bind]
  by_cases hw : wordsNow d0 c stop < (d0.core c).a.toNat
  · rw [if_pos hw, stringStops, if_pos hw]
    rfl
  · rw [if_neg hw, stringStops, if_neg hw]
    exact Dev.conclude_strEnd k c f d

theorem portFills_of_settled {c : CoreId} {d : Dev} (stop : Option Nat) (f : Fld) (h : (d.core c).longop = none) :
    portFills stop c f d = d.strRun stop c (fillsWord c) := by
  have hd : d.onCore c Core.deliver = d := by rw [Dev.onCore, Core.deliver_of_none _ h, Dev.setCore_core]
  rw [portFills, hd, ite_self]

theorem portXlts_of_settled {c : CoreId} {d : Dev} (stop : Option Nat) (f : Fld) (h : (d.core c).longop = none) :
    portXlts stop c f d = d.strRun stop c (xltsWord c) := by
  have hd : d.onCore c Core.deliver = d := by rw [Dev.onCore, Core.deliver_of_none _ h, Dev.setCore_core]
  rw [portXlts, hd, ite_self]

/-- A decimal string operation of no words ends at once (R229). -/
theorem portDecStr_of_zero {c : CoreId} {d : Dev} (code : BitVec 3) (stop : Option Nat) (f : Fld) (h : (d.core c).a = 0) :
    portDecStr code stop c f d = .next (d.strEnd c) := by
  simp only [portDecStr, h, if_true]

theorem portCmps_of_zero {c : CoreId} {d : Dev} (stop : Option Nat) (f : Fld) (h : (d.core c).a = 0) :
    portCmps stop c f d = .next (d.strEnd c) :=
  if_pos h

/-- CMPS whose loop has run over all words leaves X1, X2, A and the flags at its first unequal pair (R227, R253). -/
theorem portCmps_of_loop {c : CoreId} {d0 d : Dev} {stop : Option Nat} (f : Fld) (ha : (d0.core c).a ≠ 0)
    (hl : (d0.core c).longop = none) (hw : wordsNow d0 c stop = (d0.core c).a.toNat)
    (h : cmpsLoop c (d0.core c).a.toNat (d0.onCore c Core.strBegin) = .ok () d) :
    portCmps stop c f d0 = .next ((d.onCore c Core.cmpsEnd).strEnd c) := by
  have hb : d0.onCore c (fun k => k.deliverFlags.strBegin) = d0.onCore c Core.strBegin := by
    rw [Dev.onCore, Core.deliverFlags_of_none _ hl]
    rfl
  have hw' : (d0.core c).strWords stop (d0.core c).a.toNat = (d0.core c).a.toNat := hw
  rw [portCmps, if_neg ha, hb]
  simp only [Dev.core_onCore_self, Core.strBegin_strWords, Core.strBegin_a, hw', h, Nat.lt_irrefl, decide_false, Bool.false_and,
    Bool.false_eq_true, if_false]

theorem completed_cmpsEnd (d : Dev) (c : CoreId) : completed (d.onCore c Core.cmpsEnd) c stringEnded = completed d c cmpsLeft := by
  have h : stringEnded (Core.cmpsEnd (d.core c)) = cmpsLeft (d.core c) := by
    simp only [stringEnded, Core.cmpsEnd, cmpsLeft]
    cases (d.core c).strNow.hit <;> rfl
  rw [completed, completed, Dev.core_onCore_self, h, Dev.onCore, Dev.setCore_setCore]

end Sys2Proof.Machine
end

section
/-! Decimal strings of one word (R48 to R50, R189, R229): the word that a step of the write phase stores is that of the sum or
difference, with its flags. -/

namespace Sys2Proof.Machine

open Sys2Proof

/-! ### Signed words (R47 to R50) -/

/-- The eight digits of a signed word by their weights (R48). -/
theorem digitsVal_one_eq (w : Word) : digitsVal w 1 = digit w 1 + 10 * digit w 2 + 100 * digit w 3 + 1000 * digit w 4 +
    10000 * digit w 5 + 100000 * digit w 6 + 1000000 * digit w 7 + 10000000 * digit w 8 := by
  simp only [digitsVal, List.range_succ, List.range_zero, List.nil_append, List.cons_append, List.foldr_cons, List.foldr_nil,
    Nat.zero_lt_one, Nat.lt_irrefl, Nat.reduceLT, if_true, if_false]
  ring

theorem digit_le_of_sdecOk {w : Word} (h : sdecOk w = true) {d : Nat} (h1 : 1 ≤ d) (h9 : d < 9) : digit w d ≤ 9 := by
  have hd : ∀ d, d < 9 → d < 1 ∨ digit w d ≤ 9 := by simpa [digitsOk] using (Bool.and_eq_true_iff.1 h).1
  exact (hd d h9).resolve_left (Nat.not_lt.2 h1)

/-- The magnitude of a valid signed word has eight digits. -/
theorem digitsVal_one_lt {w : Word} (h : sdecOk w = true) : digitsVal w 1 < 100000000 := by
  have hd : ∀ d, 1 ≤ d → d < 9 → digit w d ≤ 9 := fun _ h1 h9 => digit_le_of_sdecOk h h1 h9
  have := hd 1 (by decide) (by decide)
  have := hd 2 (by decide) (by decide)
  have := hd 3 (by decide) (by decide)
  have := hd 4 (by decide) (by decide)
  have := hd 5 (by decide) (by decide)
  have := hd 6 (by decide) (by decide)
  have := hd 7 (by decide) (by decide)
  have := hd 8 (by decide) (by decide)
  rw [digitsVal_one_eq]
  omega

/-- The sign stands in digit 0 and leaves the digits above it (R48). -/
theorem digit_sdecWord (t : Int) {d : Nat} (h1 : 1 ≤ d) (h9 : d < 9) :
    digit (sdecWord t) d = t.natAbs % 100000000 / 10 ^ (d - 1) % 10 := by
  have hsign : ∀ d : Fin 9, 1 ≤ d.val → (0xD#36).extractLsb' (4 * d.val) 4 = 0#4 ∧ (0xC#36).extractLsb' (4 * d.val) 4 = 0#4 := by
    decide
  have hs : (if t < 0 then 0xD#36 else 0xC#36).extractLsb' (4 * d) 4 = 0#4 := by
    split
    · exact (hsign ⟨d, h9⟩ h1).1
    · exact (hsign ⟨d, h9⟩ h1).2
  have hd := digit_toDigits (lo := 1) (k := 8) (t.natAbs % 100000000) d (by decide)
  rw [if_pos ⟨h1, h9⟩] at hd
  rw [digit, sdecWord, BitVec.extractLsb'_or, hs, BitVec.or_zero]
  exact hd

theorem digitsVal_sdecWord (t : Int) : digitsVal (sdecWord t) 1 = t.natAbs % 100000000 := by
  simp only [digitsVal_one_eq, digit_sdecWord, Nat.reduceLT, Nat.reduceLeDiff, Nat.reduceSub, Nat.le_refl]
  omega

/-! ### One step of the write phase (R50, R229) -/

/-- A number by its sign and magnitude. -/
def signedVal (minus : Bool) (m : Nat) : Int := if minus then -m else m

theorem sdecVal_eq (w : Word) : sdecVal w = signedVal (signMinus (digit w 0)) (digitsVal w 1) := rfl

/-- What DADDS or DSUBS of one word makes of two words: X2 + X1 or X2 − X1 (R227). -/
def decTotal (sub : Bool) (u v : Word) : Int := if sub then sdecVal v - sdecVal u else sdecVal v + sdecVal u

/-- A difference is the sum with the sign of X1 turned (R50). -/
theorem decTotal_eq (sub : Bool) (u v : Word) : decTotal sub u v =
    signedVal (signMinus (digit v 0)) (digitsVal v 1) + signedVal (signMinus (digit u 0) != sub) (digitsVal u 1) := by
  simp only [decTotal, sdecVal_eq, signedVal]
  cases sub <;> cases signMinus (digit u 0) <;> simp [sub_eq_add_neg]

section Step

variable (m1 m2 : Nat) (s1 s2 : Bool)

/-- The sign that the check phase fixes is that of the sum; equal magnitudes of unlike signs give a plus (R50). -/
theorem signedVal_add_neg : (if s1 != s2 then (if m1 < m2 then s2 else if m2 < m1 then s1 else false)
    else s2 && (decide (m1 ≠ 0) || decide (m2 ≠ 0))) = decide (signedVal s2 m2 + signedVal s1 m1 < 0) := by
  rw [Bool.eq_iff_iff, decide_eq_true_iff]
  rcases Bool.eq_or_eq_not s1 s2 with rfl | rfl
  · cases s1
    · simp [signedVal]
      omega
    · simp [signedVal]
      omega
  · cases s2
    · simp [signedVal]
      omega
    · simp [signedVal]

theorem natAbs_signedVal_add : (signedVal s2 m2 + signedVal s1 m1).natAbs =
    if s1 != s2 then (if m1 < m2 then m2 - m1 else m1 - m2) else m1 + m2 := by
  rcases Bool.eq_or_eq_not s1 s2 with rfl | rfl
  · cases s1 <;> simp [signedVal] <;> omega
  · cases s2 <;> simp [signedVal] <;> split <;> omega

end Step

theorem neg_decFix (sub : Bool) (u v : Word) : (decFix sub [u] [v]).neg = decide (decTotal sub u v < 0) := by
  rw [decTotal_eq]
  exact signedVal_add_neg _ _ _ _

/-- The magnitude of the result by what the check phase fixes (R50). -/
theorem natAbs_decTotal (sub : Bool) (u v : Word) : (decTotal sub u v).natAbs =
    if (decFix sub [u] [v]).subm then
      (if digitsVal u 1 < digitsVal v 1 then digitsVal v 1 - digitsVal u 1 else digitsVal u 1 - digitsVal v 1)
    else digitsVal u 1 + digitsVal v 1 := by
  rw [decTotal_eq]
  exact natAbs_signedVal_add _ _ _ _

/-- A step at the word that holds the sign, without a carry into it (R48, R50, R229). -/
theorem decStep_first (s : DecSt) (u v : Word) (hc : s.cb = false) :
    let m1 := digitsVal u 1
    let m2 := digitsVal v 1
    decStep true s u v =
      (toDigits 1 8 ((if s.subm then (if s.ord then 100000000 + m2 - m1 else 100000000 + m1 - m2) else m1 + m2) % 100000000) |||
          (if s.neg then 0xD#36 else 0xC#36),
        if s.subm then (if s.ord then decide (m2 < m1) else decide (m1 < m2)) else decide (100000000 ≤ m1 + m2)) := by
  simp only [decStep, hc]
  cases s.subm <;> cases s.ord <;> rfl

/-- The one word of the result is that of the sum or difference, and the carry out of it that of its ninth digit (R50, R229). -/
theorem decStep_decFix (sub : Bool) {u v : Word} (hu : sdecOk u = true) (hv : sdecOk v = true) :
    decStep true (decFix sub [u] [v]) u v = (sdecWord (decTotal sub u v), decide (100000000 ≤ (decTotal sub u v).natAbs)) := by
  have h1 := digitsVal_one_lt hu
  have h2 := digitsVal_one_lt hv
  rw [decStep_first _ u v rfl, neg_decFix, sdecWord, natAbs_decTotal, show (decFix sub [u] [v]).ord =
    decide (digitsVal u 1 < digitsVal v 1) from rfl]
  simp only [decide_eq_true_eq]
  cases (decFix sub [u] [v]).subm with
  | false => rfl
  | true =>
    generalize digitsVal u 1 = m1 at *
    generalize digitsVal v 1 = m2 at *
    simp only [if_true]
    split
    case isTrue h =>
      rw [show (100000000 + m2 - m1) % 100000000 = (m2 - m1) % 100000000 by omega, decide_eq_false (by omega),
        decide_eq_false (by omega)]
    case isFalse h =>
      rw [show (100000000 + m1 - m2) % 100000000 = (m1 - m2) % 100000000 by omega, decide_eq_false (by omega),
        decide_eq_false (by omega)]

/-- A carry out of the one word is an overflow only of a sum (R50, R229). -/
theorem carry_decFix (sub : Bool) {u v : Word} (hu : sdecOk u = true) (hv : sdecOk v = true) :
    (decide (100000000 ≤ (decTotal sub u v).natAbs) && !(decFix sub [u] [v]).subm) =
      decide (100000000 ≤ (decTotal sub u v).natAbs) := by
  have h1 := digitsVal_one_lt hu
  have h2 := digitsVal_one_lt hv
  have habs := natAbs_decTotal sub u v
  cases hs : (decFix sub [u] [v]).subm with
  | false => rw [Bool.not_false, Bool.and_true]
  | true =>
    rw [hs, if_pos rfl] at habs
    have hlt : ¬ 100000000 ≤ (decTotal sub u v).natAbs := by
      split at habs <;> omega
    rw [decide_eq_false hlt, Bool.false_and]

end Sys2Proof.Machine
end

section
/-! DADDS and DSUBS of one word (R189, R227, R229): the check phase reads both words, the write phase stores the result, and what
they leave of the core. -/

namespace Sys2Proof.Machine

open Sys2Proof

theorem Dev.onCore_onCore (d : Dev) (c : CoreId) (f g : Core → Core) : (d.onCore c f).onCore c g = d.onCore c (g ∘ f) := by
  simp [Dev.onCore]

/-! ### The phases (R229) -/

@[simp] theorem Core.strWords_none (k : Core) (n : Nat) : k.strWords none n = n := by
  simp [Core.strWords]

theorem decRead_one {c : CoreId} {d d1 d2 : Dev} {u v : Word} (h1 : d.load c false ((d.core c).x1 + 0) = .ok u d1)
    (h2 : d1.load c false ((d.core c).x2 + 0) = .ok v d2) : decRead c 0 1 [] d = .ok [(u, v)] d2 := by
  have h1' : d.load c false ((d.core c).x1 + BitVec.ofNat 36 (0 + 0)) = .ok u d1 := h1
  have h2' : d1.load c false ((d.core c).x2 + BitVec.ofNat 36 (0 + 0)) = .ok v d2 := h2
  simp only [decRead, h1', h2', CRes.bind]

/-- A decimal string operation that begins afresh and finds valid words goes on to its write phase (R229). -/
theorem portDecStr_of_valid {code : BitVec 3} {c : CoreId} {d d2 : Dev} (f : Fld) {ws : List (Word × Word)}
    (ha : (d.core c).a ≠ 0) (hl : (d.core c).longop = none) (hr : (d.core c).sw.getLsbD 11 = false)
    (h : decRead c 0 (d.core c).a.toNat [] (d.onCore c fun k => { k with mh := decMh code none, strNow := {} }) = .ok ws d2)
    (hu : stringOk (d2.core c).strNow.first (ws.map (·.1)) = true)
    (hv : stringOk (d2.core c).strNow.first (ws.map (·.2)) = true) :
    portDecStr code none c f d =
      d2.decStrWrite code c (d.core c).a.toNat true (decFix (code = 4#3) (ws.map (·.1)) (ws.map (·.2))) := by
  have hd : d.onCore c Core.deliverFlags = d := by rw [Dev.onCore, Core.deliverFlags_of_none _ hl, Dev.setCore_core]
  have hb : d.onCore c Core.strBegin = d.onCore c fun k => { k with strNow := {} } := by
    simp only [Dev.onCore, Core.strBegin, Core.resuming, hr, Bool.false_eq_true, if_false]
  have hbb : (d.onCore c Core.strBegin).onCore c (fun k => { k with mh := decMh code none, strNow := {} }) =
      d.onCore c fun k => { k with mh := decMh code none, strNow := {} } := by
    rw [hb, Dev.onCore, Dev.core_onCore_self, Dev.onCore, Dev.setCore_setCore]
    rfl
  have hn : 2 * (d.core c).a.toNat - (d.core c).a.toNat = (d.core c).a.toNat := by omega
  have hlt : ¬ 2 * (d.core c).a.toNat < (d.core c).a.toNat := by omega
  simp only [portDecStr, hd, ite_self, if_neg ha, Core.resuming, hr, Bool.false_and, Bool.false_eq_true, if_false, hbb,
    Core.strWords_none, hlt, decide_false, Bool.and_false, h, hu, hv, Bool.not_false, Bool.true_or, Bool.and_self, Bool.not_true, hn]

/-- The one step of the write phase of a single word. -/
theorem decWrite_one {c : CoreId} (code : BitVec 3) {st : DecSt} {d d3 d4 d5 : Dev} {u v : Word}
    (hm : (d.core c).strNow = {}) (h1 : d.load c false (d.core c).x1 = .ok u d3)
    (h2 : d3.load c false (d3.core c).x2 = .ok v d4)
    (h3 : d4.store c false (d4.core c).x2 (decStep true st u v).1 0xF#4 = .ok () d5) :
    decWrite c code 1 st d = .ok { st with cb := (decStep true st u v).2 } (d5.onCore c fun k =>
      { k.strStep true with
        mh := decMh code (some { st with cb := (decStep true st u v).2 })
        strNow := { first := false, zero := digitsVal (decStep true st u v).1 1 = 0 } }) := by
  simp only [decWrite, hm, h1, h2, CRes.bind, if_true, h3, Bool.true_and]

/-- What DADDS and DSUBS of one word leave of the core from which their word is stored: the words counted, MH 0, Z, N and V of the
result `t` (R189, R229). -/
def decOneLeft (t : Int) (k : Core) : Core :=
  { (stringEnded (k.strStep true)).znv (decide (t.natAbs % 100000000 = 0)) (decide (t < 0)) (decide (100000000 ≤ t.natAbs)) with
    mh := 0 }

/-- The write phase of a single word ends in `decOneLeft`; with TRE at 0 it takes no trap (R189, R195, R229). -/
theorem decStrWrite_one {c : CoreId} {code : BitVec 3} {sub : Bool} {d d3 d4 d5 : Dev} {u v : Word}
    (hu : sdecOk u = true) (hv : sdecOk v = true) (ha : (d.core c).a.toNat ≤ 1) (hm : (d.core c).strNow = {})
    (h1 : (d.onCore c fun k => { k with mh := decMh code (some (decFix sub [u] [v])) }).load c false (d.core c).x1 = .ok u d3)
    (h2 : d3.load c false (d3.core c).x2 = .ok v d4)
    (h3 : d4.store c false (d4.core c).x2 (sdecWord (decTotal sub u v)) 0xF#4 = .ok () d5) (ht : (d5.core c).tre = 0) :
    d.decStrWrite code c 1 true (decFix sub [u] [v]) = .next (d5.onCore c (decOneLeft (decTotal sub u v))).used := by
  have hw := decWrite_one code (c := c) (st := decFix sub [u] [v]) (u := u) (v := v)
    (d := d.onCore c fun k => { k with mh := decMh code (some (decFix sub [u] [v])) }) (by rw [Dev.core_onCore_self]; exact hm)
    (by rw [Dev.core_onCore_self]; exact h1) h2 (by rw [decStep_decFix sub hu hv]; exact h3)
  rw [decStep_decFix sub hu hv] at hw
  have hlt : ¬ 1 < (d.core c).a.toNat := Nat.not_lt.2 ha
  simp only [Dev.decStrWrite, hw, CRes.bind, hlt, if_false, CRes.strAct, Dev.strEnd, Dev.core_onCore_self, Bool.true_or,
    Bool.and_true, carry_decFix sub hu hv, neg_decFix, digitsVal_sdecWord, Dev.onCore_onCore, Dev.core_used, Function.comp_apply, Core.znv, Core.strStep,
    ht, BitVec.ofNat_eq_ofNat, BitVec.getLsbD_zero, Bool.and_false, Bool.false_eq_true]
  rfl

/-! ### The boundary behind an instruction (R223, R225) -/

/-- The step to the next instruction writes PC and, at a loop's end, LC, the fetch faults and SW.LP, which is bit 12 (R225). -/
theorem Core.advance_frame (k : Core) (fr : Nat) : ∃ lc pc ff sw,
    k.advance fr = { k with lc := lc, pc := pc, fetchFaults := ff, sw := sw } ∧ (sw = k.sw ∨ sw = putBit k.sw 12 false) := by
  unfold Core.advance
  generalize (if k.lc = 0#13 then Config.free 13 fr else k.lc - 1) = lc
  split
  · dsimp only
    split
    · exact ⟨_, _, _, _, rfl, .inl rfl⟩
    · exact ⟨_, _, k.fetchFaults, _, rfl, .inr rfl⟩
  · exact ⟨k.lc, _, k.fetchFaults, k.sw, rfl, .inl rfl⟩

/-- The boundary behind an instruction writes what the step writes, and the delay slot (R223). -/
theorem Core.complete_frame (k : Core) (fr : Nat) : ∃ lc pc ff sw sl,
    k.complete fr = { k with sriHold := false, lc := lc, pc := pc, fetchFaults := ff, sw := sw, slot := sl } ∧
      (sw = k.sw ∨ sw = putBit k.sw 12 false) := by
  unfold Core.complete
  dsimp only
  split
  · obtain ⟨lc, pc, ff, sw, h, hsw⟩ := Core.advance_frame { k with sriHold := false } fr
    exact ⟨lc, pc, ff, sw, k.slot, h, hsw⟩
  · split
    · obtain ⟨lc, pc, ff, sw, h, hsw⟩ := Core.advance_frame { k with sriHold := false, slot := none } fr
      exact ⟨lc, pc, ff, sw, none, h, hsw⟩
    · refine ⟨k.lc, _, [], _, none, rfl, ?_⟩
      split
      · exact .inr rfl
      · exact .inl rfl

theorem Core.complete_regs (k : Core) (fr : Nat) : (k.complete fr).x1 = k.x1 ∧ (k.complete fr).x2 = k.x2 ∧
    (k.complete fr).a = k.a ∧ (k.complete fr).mh = k.mh := by
  obtain ⟨_, _, _, _, _, h, -⟩ := k.complete_frame fr
  rw [h]
  exact ⟨rfl, rfl, rfl, rfl⟩

theorem Core.getLsbD_complete_sw (k : Core) (fr : Nat) {i : Nat} (hi : i ≠ 12) : (k.complete fr).sw.getLsbD i = k.sw.getLsbD i := by
  obtain ⟨_, _, _, sw, _, h, hsw⟩ := k.complete_frame fr
  rw [h]
  rcases hsw with rfl | rfl
  · rfl
  · exact (getLsbD_putBit _ _ _ (by decide)).trans (if_neg hi)

theorem Dev.core_complete1 (d : Dev) (c : CoreId) : (d.complete1 c).core c = (d.core c).complete d.fresh := by
  simp [Dev.complete1]

/-- The flags of the result, and CY as it was (R189). -/
theorem getLsbD_decOneLeft_sw (t : Int) (k : Core) :
    (decOneLeft t k).sw.getLsbD 0 = decide (t.natAbs % 100000000 = 0) ∧ (decOneLeft t k).sw.getLsbD 1 = decide (t < 0) ∧
    (decOneLeft t k).sw.getLsbD 2 = k.sw.getLsbD 2 ∧ (decOneLeft t k).sw.getLsbD 3 = decide (100000000 ≤ t.natAbs) := by
  have hres : (k.sw &&& ~~~ 0x800#36).getLsbD 2 = k.sw.getLsbD 2 := by
    rw [BitVec.getLsbD_and, show (~~~ 0x800#36).getLsbD 2 = true from rfl, Bool.and_true]
  simp only [decOneLeft, Core.znv, getLsbD_putBit, Nat.reduceLT, Nat.reduceEqDiff, if_true, if_false, reduceCtorEq]
  exact ⟨trivial, trivial, hres, trivial⟩

end Sys2Proof.Machine
end

section
/-! What a load that answers leaves of A. A load may walk the tables, fill the buffers and drain the stores in front of it; of its
own core all this keeps A, but for one case: the drained store may be the write of FR_RESET (R478), which clears the core. The
lemmas follow the calls upward: a pier's memory and registers, the device's registers, the drain, the load. -/

namespace Sys2Proof.Machine

open Sys2Proof

/-! ### A pier's memory, registers and translation (R277, R290, R303) -/

theorem bankWait_core (P : Pier) (now : Nat) (m : Master) (b : Fin 16) : (bankWait P now m b).pier.core = P.core := by
  unfold bankWait
  grind [MemRes.pier, Pier.onBank]

theorem bankGrant_core (P : Pier) (now : Nat) (i : Ident) (m : Master) (b : Fin 16) :
    (bankGrant P now i m b).pier.core = P.core := by
  unfold bankGrant
  grind [MemRes.pier, Pier.detect, bankWait_core]

theorem bankFetch_core (P : Pier) (m : Master) (a : Nat) : (bankFetch P m a).pier.core = P.core := by
  unfold bankFetch
  grind [MemRes.pier, Pier.detect]

theorem hbmWrite_core (P : Pier) (l : Nat) (c : BitVec 576) : (hbmWrite P l c).core = P.core := by
  unfold hbmWrite
  split <;> rfl

theorem mergeOut_core (P : Pier) (e : MergeLine) : (mergeOut P e).core = P.core := hbmWrite_core _ _ _

theorem mergePut_core (P : Pier) (e : MergeLine) : (mergePut P e).core = P.core := by
  unfold mergePut
  grind [mergeOut_core]

theorem lineFetch_core (P : Pier) (m : Master) (l : Nat) : (lineFetch P m l).2.core = P.core := by
  unfold lineFetch
  grind [Pier.detect]

theorem lineWrite_core (P : Pier) (m : Master) (stream : Bool) (l : Nat) (ws : List LineWrite) :
    (lineWrite P m stream l ws).2.core = P.core := by
  unfold lineWrite
  grind [hbmWrite_core, mergePut_core, lineFetch_core]

theorem physRead_core (P : Pier) (now : Nat) (i : Ident) (m : Master) (a : Word) : (physRead P now i m a).pier.core = P.core := by
  unfold physRead
  grind [MemRes.pier, Pier.detect, bankGrant_core, bankFetch_core, lineFetch_core]

theorem bankStore_core (P : Pier) (a : Nat) (c : BitVec 43) : (bankStore P a c).core = P.core := rfl

theorem physWrite_core (P : Pier) (now : Nat) (i : Ident) (m : Master) (stream : Bool) (a w : Word) (en : BitVec 4) (rub : Bool) :
    (physWrite P now i m stream a w en rub).pier.core = P.core := by
  unfold physWrite
  grind [MemRes.pier, Pier.detect, bankGrant_core, bankFetch_core, lineWrite_core, bankStore_core]

theorem unlockBank_core_a (P : Pier) (b : Fin 16) : (unlockBank P b).core.a = P.core.a := by
  unfold unlockBank
  grind

theorem settleBank_core_a (P : Pier) (now : Nat) (b : Fin 16) : (settleBank P now b).core.a = P.core.a := by
  unfold settleBank
  grind [unlockBank_core_a, Pier.onBank, Pier.detect, scourEnd]

theorem gatewayQuarry_core (l : List (Nat × Word × Bool)) (P : Pier) : (gatewayQuarry P l).core = P.core := by
  induction l generalizing P with
  | nil => rfl
  | cons x l ih =>
    obtain ⟨a, w, rub⟩ := x
    unfold gatewayQuarry
    generalize (a - quarryBase) / 15 = line
    generalize (a - quarryBase) % 15 = pos
    rw [ih, lineWrite_core]

theorem gatewayWrite_core_a (P : Pier) (now : Nat) (i : Ident) (a : Nat) (w : Word) (rub : Bool) :
    (gatewayWrite P now i a w rub).pier.core.a = P.core.a := by
  unfold gatewayWrite
  grind [MemRes.pier, gatewayBank, gatewayFail, settleBank_core_a, gatewayQuarry_core, Pier.detect, bankStore_core]

theorem gatewayRead_core_a (P : Pier) (now : Nat) (i : Ident) (a : Nat) : (gatewayRead P now i a).pier.core.a = P.core.a := by
  unfold gatewayRead
  grind [MemRes.pier, gatewayBank, gatewayFail, settleBank_core_a, bankFetch_core, lineFetch_core, Pier.detect]

theorem setterWords_core_a (now : Nat) (ws : List Word) (a : Nat) (P : Pier) : (setterWords now a ws P).core.a = P.core.a := by
  induction ws generalizing a P with
  | nil => rfl
  | cons w l ih =>
    unfold setterWords
    grind [gatewayWrite_core_a, MemRes.pier]

theorem cacheFill_core_a (now h : Nat) (P : Pier) : (cacheFill now h P).core.a = P.core.a := by
  unfold cacheFill
  grind [gatewayRead_core_a, setterWords_core_a, lineFetch_core, MemRes.pier]

theorem handOver_core_a (P : Pier) (now : Nat) (b : Fin 16) (o : BitVec 7) : (handOver P now b o).core.a = P.core.a := by
  unfold handOver
  grind [unlockBank_core_a, Pier.onBank, icDropBank]

theorem bankOwnWrite_core_a (P : Pier) (now : Nat) (b : Fin 16) (v : DW) : (bankOwnWrite P now b v).core.a = P.core.a := by
  unfold bankOwnWrite
  grind [handOver_core_a, prError]

theorem retireBank_core_a (P : Pier) (now : Nat) (b : Fin 16) : (retireBank P now b).core.a = P.core.a := by
  unfold retireBank
  grind [handOver_core_a, Pier.onBank]

theorem foldl_core_a {α : Type} {f : Pier → α → Pier} (h : ∀ P x, (f P x).core.a = P.core.a) (l : List α) (P : Pier) :
    (l.foldl f P).core.a = P.core.a :=
  List.foldlRecOn l f (motive := fun Q => Q.core.a = P.core.a) rfl fun _ hQ x _ => (h _ x).trans hQ

theorem bankRetireWrite_core_a (P : Pier) (now : Nat) (v : DW) : (bankRetireWrite P now v).core.a = P.core.a := by
  unfold bankRetireWrite
  rw [foldl_core_a]
  · grind [prError]
  · grind [retireBank_core_a]

theorem runCtlWrite_core (P : Pier) (now fr : Nat) (v : DW) : (runCtlWrite P now fr v).core = P.core := by
  unfold runCtlWrite
  grind [abortRun, runReport, freeAccs]

theorem hodPost_core (P : Pier) (fr : Bool) (v : DW) : (hodPost P fr v).core = P.core := by
  unfold hodPost
  split <;> rfl

theorem hodStatWrite_core (P : Pier) (v : DW) : (hodStatWrite P v).core = P.core := by
  unfold hodStatWrite
  split <;> rfl

theorem hodCtl_core_a (P : Pier) (v : DW) : (hodCtl P v).core.a = P.core.a := by
  rw [hodCtl_eq]

theorem prTlbiWrite_core (P : Pier) (v : DW) : (prTlbiWrite P v).core = P.core := by
  unfold prTlbiWrite
  grind [prError, tlbInvalidate]

theorem bankPwrWrite_core (P : Pier) (v : DW) : (bankPwrWrite P v).core = P.core := by
  rw [bankPwrWrite_eq]

theorem spaceWrite_core (P : Pier) (v : DW) : (spaceWrite P v).core = P.core := by
  rw [spaceWrite_eq]

theorem limitWrite_core (P : Pier) (q : Bool) (v : DW) : (limitWrite P q v).core = P.core := by
  unfold limitWrite
  grind

theorem ptCtlWrite_core (d : Dev) (P : Pier) (v : DW) : (d.ptCtlWrite P v).core = P.core := by
  unfold Dev.ptCtlWrite
  grind

theorem tableLine_core (P : Pier) (l : Nat) : (tableLine P l).2.core = P.core := by
  unfold tableLine
  grind [lineFetch_core, Pier.detect]

theorem tableWord_core (P : Pier) (now : Nat) (i : Ident) (lvl a : Nat) : (tableWord P now i lvl a).2.core = P.core := by
  unfold tableWord
  grind [bankWait_core, bankFetch_core, MemRes.pier, tableLine_core, Pier.detect]

theorem readS2Entry_core (P : Pier) (tab idx lvl s1lvl : Nat) : (readS2Entry P tab idx lvl s1lvl).2.core = P.core := by
  unfold readS2Entry
  grind [tableLine_core]

theorem walk2_core (n s1lvl a k l tab : Nat) (P : Pier) : (walk2 n s1lvl a k l tab P).2.core = P.core := by
  induction k generalizing l tab P with
  | zero => rfl
  | succ k ih =>
    unfold walk2
    grind [readS2Entry_core]

theorem stage2_core (c : TrCtx) (s1lvl a : Nat) (P : Pier) : (stage2 c s1lvl a P).2.core = P.core := by
  unfold stage2
  grind [walk2_core]

theorem readS1Entry_core (c : TrCtx) (now tab idx lvl : Nat) (P : Pier) : (readS1Entry c now tab idx lvl P).2.core = P.core := by
  unfold readS1Entry
  grind [stage2_core, tableWord_core]

theorem walk1_core (c : TrCtx) (now n a k l tab : Nat) (P : Pier) : (walk1 c now n a k l tab P).2.core = P.core := by
  induction k generalizing l tab P with
  | zero => rfl
  | succ k ih =>
    unfold walk1
    grind [readS1Entry_core]

theorem walk_core (c : TrCtx) (now : Nat) (acc : Access) (va : Word) (P : Pier) : (walk c now acc va P).2.core = P.core := by
  unfold walk
  grind [walk1_core, stage2_core]

theorem walkFill_core {c : TrCtx} {now : Nat} {hod : Bool} {acc : Access} {va pa : Word} {P Q : Pier}
    (h : walkFill c now hod acc va P = .ok pa Q) : Q.core = P.core := by
  unfold walkFill at h
  grind [walk_core, setTlb]

/-- A translation that answers changes the buffers and the memory of its pier alone. -/
theorem translate_core {c : TrCtx} {now : Nat} {hod : Bool} {acc : Access} {va pa : Word} {P Q : Pier}
    (h : translate c now hod acc va P = .ok pa Q) : Q.core = P.core := by
  have hset : ∀ t, (setTlb P hod t).core = P.core := fun t => by
    unfold setTlb
    split <;> rfl
  unfold translate at h
  split at h
  · split at h
    · cases h
      rfl
    · exact (walkFill_core h).trans (hset _)
  · exact walkFill_core h

/-! ### A register of a pier keeps A of every core (R28) -/

/-- Every core has the A that it had. -/
def Dev.KeepsA (d e : Dev) : Prop := e.warden.core.a = d.warden.core.a ∧ ∀ q, (e.pier q).core.a = (d.pier q).core.a

namespace Dev.KeepsA
variable {d e f : Dev} {p : Fin 16} {g : Pier → Pier}

theorem refl (d : Dev) : d.KeepsA d := ⟨rfl, fun _ => rfl⟩

theorem trans (h1 : d.KeepsA e) (h2 : e.KeepsA f) : d.KeepsA f :=
  ⟨h2.1.trans h1.1, fun q => (h2.2 q).trans (h1.2 q)⟩

theorem of_piers (hp : e.piers = d.piers) (hw : e.warden = d.warden) : d.KeepsA e :=
  ⟨by rw [hw], fun q => by rw [Dev.pier, hp]; rfl⟩

theorem core (h : d.KeepsA e) (c : CoreId) : (e.core c).a = (d.core c).a := by
  cases c with
  | pier p => exact h.2 p
  | warden => exact h.1

theorem setPier {P : Pier} (h : P.core.a = (d.pier p).core.a) : d.KeepsA (d.setPier p P) := by
  refine ⟨rfl, fun q => ?_⟩
  by_cases hq : q = p
  · subst hq
    rw [Dev.pier_setPier_self]
    exact h
  · rw [Dev.pier_setPier_of_ne _ _ hq]

theorem onPier (h : (g (d.pier p)).core.a = (d.pier p).core.a) : d.KeepsA (d.onPier p g) := setPier h

theorem onReg (h : (g (d.pier p)).core.a = (d.pier p).core.a) : d.KeepsA (d.onReg p g) := by
  unfold Dev.onReg
  split
  · exact onPier h
  · exact refl d

end Dev.KeepsA

theorem Dev.kcSync_keepsA (d : Dev) (p : Fin 16) : d.KeepsA (d.kcSync p) := by
  unfold Dev.kcSync
  split
  · exact .refl d
  · have h : d.KeepsA (d.onPier p fun P => { P with kcOn := d.setter.kc }) := .onPier rfl
    dsimp only
    split
    · exact h.trans (.onReg (bankOwnWrite_core_a _ _ _ _))
    · exact h

theorem Dev.emptied_keepsA (d : Dev) (p : Fin 16) : d.KeepsA (d.emptied p) := by
  have hs : d.KeepsA (d.s2Late p) := by
    unfold Dev.s2Late
    exact .onPier rfl
  unfold Dev.emptied
  dsimp only
  split
  · exact hs
  · exact hs.trans (Dev.kcSync_keepsA _ p)

theorem Dev.loseItems_keepsA (d : Dev) (p : Fin 16) : d.KeepsA (d.loseItems p) := by
  obtain ⟨its, q, au, fl, ks, bd, lf, e, -⟩ :=
    Dev.endItems_frame 0x23 0 (d.items.filter fun i => i.unfinished p) (d.unbatched p)
  have hu : d.KeepsA (d.unbatched p) := .onPier rfl
  rw [Dev.loseItems_eq, e]
  exact hu.trans (.trans (.of_piers rfl rfl) (Dev.emptied_keepsA _ p))

theorem Dev.announce_keepsA (d : Dev) (p : Fin 16) (b : Batch) : d.KeepsA (d.announce p b) := by
  unfold Dev.announce Dev.pendPier
  refine .trans (.onPier ?_) (.onPier rfl)
  exact foldl_core_a (fun P h => cacheFill_core_a d.now h P) _ _

theorem Dev.place_keepsA (d : Dev) (b : Batch) (p : Fin 16) : d.KeepsA (d.place b p) := by
  unfold Dev.place
  dsimp only
  split
  · exact .trans (.of_piers rfl rfl) (Dev.loseItems_keepsA _ p)
  · split
    · exact .trans (.of_piers rfl rfl) (Dev.announce_keepsA _ p b)
    · exact .of_piers rfl rfl

theorem Dev.placeFirst_keepsA (d : Dev) (b : Nat) (p : Fin 16) : d.KeepsA (d.placeFirst b p) := by
  unfold Dev.placeFirst
  split
  · split
    · exact Dev.place_keepsA d _ p
    · exact .refl d
  · exact .refl d

theorem Dev.endRequest_keepsA (d : Dev) (p : Fin 16) : d.KeepsA (d.endRequest p) :=
  .trans (e := { d with setter := { d.setter with preempts := d.setter.preempts.filter (fun e => e.1 ≠ p) } })
    (.of_piers rfl rfl) (.onPier rfl)

theorem Dev.ackSuspended_keepsA (d : Dev) (p : Fin 16) : d.KeepsA (d.ackSuspended p) := by
  unfold Dev.ackSuspended
  split
  · exact .refl d
  · refine (Dev.endRequest_keepsA d p).trans (.trans ?_ (.trans (Dev.emptied_keepsA _ p) (Dev.placeFirst_keepsA _ _ p)))
    split <;> exact .of_piers rfl rfl

theorem Dev.ackEnded_keepsA (d : Dev) (p : Fin 16) : d.KeepsA (d.ackEnded p) := by
  unfold Dev.ackEnded
  split
  · exact .refl d
  · exact (Dev.endRequest_keepsA d p).trans (Dev.placeFirst_keepsA _ _ p)

theorem Dev.eagerAll_keepsA (d : Dev) : d.KeepsA d.eagerAll := by
  obtain ⟨_, h⟩ := d.eagerAll_frame
  rw [h]
  exact .of_piers rfl rfl

theorem Dev.preemptWrite_keepsA (d : Dev) (p : Fin 16) (v : DW) : d.KeepsA (d.preemptWrite p v) := by
  unfold Dev.preemptWrite
  dsimp only
  split
  · exact .onReg rfl
  · split
    · exact .refl d
    · split
      · exact (Dev.ackSuspended_keepsA d p).trans (Dev.eagerAll_keepsA _)
      · split
        · exact (Dev.ackEnded_keepsA d p).trans (Dev.eagerAll_keepsA _)
        · exact .refl d

theorem Dev.getWrite_keepsA (d : Dev) (p : Fin 16) (v : BitVec 4) : d.KeepsA (d.getWrite p v) := by
  have hs : ∀ d : Dev, d.KeepsA (d.startPlaced p) := fun d => by
    unfold Dev.startPlaced
    split
    · exact .refl d
    · split
      · exact .of_piers rfl rfl
      · exact .refl d
  unfold Dev.getWrite
  dsimp only
  split
  · exact .trans (.onReg rfl) (hs _)
  · exact .onReg rfl

theorem Dev.s2cfgWrite_keepsA (d : Dev) (a : Agent) (p : Fin 16) (q : Fin 64) (v : DW) : d.KeepsA (d.s2cfgWrite a p q v) := by
  refine .onReg ?_
  dsimp only
  split
  · rfl
  · split <;> rfl

theorem Dev.prWriteHigh_keepsA (d : Dev) (a : Agent) (p : Fin 16) (k : Nat) (v : DW) : d.KeepsA (d.prWriteHigh a p k v) := by
  unfold Dev.prWriteHigh
  split
  · exact .onReg (bankOwnWrite_core_a _ _ _ _)
  · split
    · exact Dev.s2cfgWrite_keepsA d a p _ v
    · exact .refl d

/-- A core's write to a PR_ register of a pier; the checker window takes none (R459). -/
theorem Dev.prWrite_keepsA (d : Dev) {a : Agent} (ha : a ≠ .host) (p : Fin 16) (k : Nat) (v : DW) :
    d.KeepsA (d.prWrite a p k v) := by
  have hc : ∀ k, d.KeepsA (d.chkWrite a p k v) := fun k => by
    unfold Dev.chkWrite
    rw [if_pos ha]
    exact .refl d
  unfold Dev.prWrite
  split
  · exact .onReg rfl
  · exact .trans (.onReg (congrArg Core.a (runCtlWrite_core _ _ _ _))) (.of_piers rfl rfl)
  · refine .onReg ?_
    dsimp only
    split <;> rfl
  · exact .onReg rfl
  · exact .onReg (congrArg Core.a (bankPwrWrite_core _ _))
  · exact .onReg rfl
  · exact .onReg rfl
  · exact .onReg (bankRetireWrite_core_a _ _ _)
  · exact .onReg (congrArg Core.a (spaceWrite_core _ _))
  · exact .onReg rfl
  · exact .onReg (congrArg Core.a (prTlbiWrite_core _ _))
  · exact .onReg (congrArg Core.a (hodPost_core _ _ _))
  · exact .onReg (congrArg Core.a (hodStatWrite_core _ _))
  · exact .onReg (hodCtl_core_a _ _)
  · exact Dev.getWrite_keepsA d p _
  · exact Dev.preemptWrite_keepsA d p v
  · exact hc _
  · exact hc _
  · exact hc _
  · exact hc _
  · exact Dev.prWriteHigh_keepsA d a p _ v

theorem Dev.qyWrite_keepsA (d : Dev) {a : Agent} (ha : a ≠ .host) (p : Fin 16) (k : Nat) (v : DW) :
    d.KeepsA (d.qyWrite a p k v) := by
  unfold Dev.qyWrite
  simp only [ha, decide_false, Bool.false_and, Bool.not_false, if_true, Bool.false_eq_true, if_false]
  split
  · exact .onReg rfl
  · exact .refl d

theorem Dev.ptWrite_keepsA (d : Dev) (p : Fin 16) (k : Nat) (v : DW) : d.KeepsA (d.ptWrite p k v) := by
  unfold Dev.ptWrite
  split
  · exact .onReg (congrArg Core.a (ptCtlWrite_core d _ v))
  · exact .onReg (congrArg Core.a (limitWrite_core _ _ v))
  · exact .onReg (congrArg Core.a (limitWrite_core _ _ v))
  · exact .refl d

/-! ### A register of the device keeps the warden, but for FR_RESET (R28, R478) -/

theorem Dev.foldl_warden {α : Type} {f : Dev → α → Dev} (h : ∀ (d : Dev) x, (f d x).warden = d.warden) (l : List α) (d : Dev) :
    (l.foldl f d).warden = d.warden :=
  List.foldlRecOn l f (motive := fun e => e.warden = d.warden) rfl fun _ he x _ => (h _ x).trans he

theorem Dev.onReg_warden (d : Dev) (p : Fin 16) (g : Pier → Pier) : (d.onReg p g).warden = d.warden := by
  unfold Dev.onReg
  split <;> rfl

theorem Dev.kcSync_warden (d : Dev) (p : Fin 16) : (d.kcSync p).warden = d.warden := by
  obtain ⟨_, h, -⟩ := d.kcSync_frame p
  rw [h]

theorem Dev.emptied_warden (d : Dev) (p : Fin 16) : (d.emptied p).warden = d.warden := by
  obtain ⟨_, _, h, -⟩ := d.emptied_frame p
  rw [h]

theorem Dev.loseItems_warden (d : Dev) (p : Fin 16) : (d.loseItems p).warden = d.warden := by
  obtain ⟨its, q, au, fl, ks, bd, lf, e, -⟩ :=
    Dev.endItems_frame 0x23 0 (d.items.filter fun i => i.unfinished p) (d.unbatched p)
  rw [Dev.loseItems_eq, e, Dev.emptied_warden]
  rfl

theorem Dev.place_warden (d : Dev) (b : Batch) (p : Fin 16) : (d.place b p).warden = d.warden := by
  unfold Dev.place
  dsimp only
  split
  · exact Dev.loseItems_warden _ p
  · split <;> rfl

theorem Dev.tryWake_warden {d e : Dev} {p : Fin 16} (h : d.tryWake p = some e) : e.warden = d.warden := by
  unfold Dev.tryWake at h
  dsimp only at h
  split at h
  · cases h
  · split at h
    · cases h
    · split at h <;> cases h
      rfl

theorem Dev.rule2_warden {d e : Dev} {b : Batch} {p : Fin 16} (h : d.rule2 b = some (p, e)) : e.warden = d.warden := by
  obtain ⟨q, -, hq⟩ := List.exists_of_findSome?_eq_some h
  split at hq
  · cases hq
  · obtain ⟨e', he', heq⟩ := Option.map_eq_some_iff.1 hq
    cases heq
    exact Dev.tryWake_warden he'

theorem Dev.placeOne_warden {d e : Dev} {b : Batch} (h : d.placeOne b = some e) : e.warden = d.warden := by
  unfold Dev.placeOne at h
  split at h
  · split at h <;> cases h
    rfl
  · split at h
    · cases h
      exact Dev.place_warden d b _
    · split at h
      case h_1 hr =>
        cases h
        exact (Dev.place_warden _ b _).trans (Dev.rule2_warden hr)
      · split at h <;> cases h
        rfl

theorem Dev.placeNext_warden (d : Dev) : d.placeNext.warden = d.warden := by
  unfold Dev.placeNext
  split
  · rfl
  · cases h : d.readyOrder.findSome? d.placeOne with
    | none => rfl
    | some e =>
      obtain ⟨b, -, hb⟩ := List.exists_of_findSome?_eq_some h
      exact Dev.placeOne_warden hb

theorem Dev.stCtlWrite_warden (d : Dev) (v : DW) : (d.stCtlWrite v).warden = d.warden := by
  unfold Dev.stCtlWrite
  exact Dev.foldl_warden Dev.kcSync_warden _ _

theorem Dev.stPartWrite_warden (d : Dev) (q : Fin 64) (v : DW) : (d.stPartWrite q v).warden = d.warden := by
  unfold Dev.stPartWrite
  dsimp only
  split
  · rfl
  · split
    · rfl
    · refine Dev.foldl_warden (fun d p => ?_) _ _
      split
      · rfl
      · split
        · rfl
        · split
          · rfl
          · split <;> rfl

theorem Dev.stPut_warden (d : Dev) (k : Nat) (v : DW) : (d.stPut k v).warden = d.warden := by
  unfold Dev.stPut
  dsimp only
  split
  · exact Dev.stCtlWrite_warden d v
  · split <;> rfl
  · split <;> rfl
  · split <;> rfl
  · rfl
  · rfl
  · split
    · exact Dev.stPartWrite_warden d _ v
    · rfl

theorem Dev.stWrite_warden (d : Dev) (k : Nat) (v : DW) : (d.stWrite k v).warden = d.warden := by
  obtain ⟨_, h⟩ := (d.stPut k v).eagerAll_frame
  rw [Dev.stWrite, Dev.placeNext_warden, h]
  exact Dev.stPut_warden d k v

theorem Dev.fcWrite_warden (d : Dev) (k : Nat) (v : DW) : (d.fcWrite k v).warden = d.warden := by
  unfold Dev.fcWrite
  split
  · rfl
  · refine Dev.foldl_warden (fun d p => ?_) _ _
    split <;> rfl
  · dsimp only
    split <;> rfl
  · split
    · unfold Dev.clogWrite
      split <;> rfl
    · rfl

theorem Dev.reclaim_warden (d : Dev) : d.reclaim.warden = d.warden := by
  unfold Dev.reclaim
  dsimp only
  split
  · rfl
  · exact Dev.foldl_warden (fun d p => by grind [Dev.onPier, Dev.setPier]) _ _

theorem Dev.setCap_warden (d : Dev) (b s : Nat) : (d.setCap b s).warden = d.warden := by
  unfold Dev.setCap
  grind [Dev.reclaim_warden, Dev.alertUp]

theorem Dev.writeBudget_warden (d : Dev) (v : DW) : (d.writeBudget v).warden = d.warden := by
  unfold Dev.writeBudget
  dsimp only
  split
  · rfl
  · split
    · rfl
    · exact Dev.setCap_warden d _ _

theorem Dev.getD_tryWake_warden (d : Dev) (p : Fin 16) : ((d.tryWake p).getD d).warden = d.warden := by
  cases h : d.tryWake p with
  | none => rfl
  | some e => exact Dev.tryWake_warden h

theorem Dev.writeTarget_warden (d : Dev) (p : Fin 16) (a : Agent) (v : DW) : (d.writeTarget p a v).warden = d.warden := by
  unfold Dev.writeTarget
  grind [Dev.onPier, Dev.setPier, Dev.getD_tryWake_warden]

theorem Dev.writeRst_warden (d : Dev) (p : Fin 16) (a : Agent) (v : DW) : (d.writeRst p a v).warden = d.warden := by
  unfold Dev.writeRst
  dsimp only
  split
  · exact (Dev.loseItems_warden _ p).trans (Dev.writeTarget_warden d p a v)
  · exact Dev.writeTarget_warden d p a v

theorem Dev.pwWrite_warden (d : Dev) (a : Agent) (k : Nat) (v : DW) : (d.pwWrite a k v).warden = d.warden := by
  unfold Dev.pwWrite
  split
  · rfl
  · exact Dev.writeBudget_warden d v
  · split
    · exact Dev.writeRst_warden d _ a v
    · rfl

theorem Dev.vfcfgWrite_warden (d : Dev) (f : Fin 64) (w : DW) : (d.vfcfgWrite f w).warden = d.warden := by
  unfold Dev.vfcfgWrite
  dsimp only
  split
  · rfl
  · split <;> rfl

theorem Dev.frResetWrite_warden_a (d : Dev) (v : DW) :
    (d.frResetWrite v).warden.core.a = d.warden.core.a ∨ (d.frResetWrite v).warden.core.a = 0 := by
  unfold Dev.frResetWrite
  split
  · exact .inl rfl
  · split
    · exact .inl rfl
    · split
      · exact .inl rfl
      · exact .inr rfl

/-- Of the FR registers FR_RESET alone reaches the warden's core, which it clears. -/
theorem Dev.frWrite_warden_a (d : Dev) (k : Nat) (v : DW) :
    (d.frWrite k v).warden.core.a = d.warden.core.a ∨ (d.frWrite k v).warden.core.a = 0 := by
  unfold Dev.frWrite
  split
  · exact .inl rfl
  · left
    unfold Dev.bootWrite
    split
    · rfl
    · split <;> rfl
  · exact Dev.frResetWrite_warden_a d v
  · exact .inl rfl
  · split
    · exact .inl (congrArg (fun w => w.core.a) (Dev.vfcfgWrite_warden d _ v))
    · exact .inl rfl

/-! ### The drain of the store buffer and the load (R249, R252) -/

theorem CRes.bind_eq_ok {α β : Type} {r : CRes α} {f : α → Dev → CRes β} {w : β} {e : Dev} (h : r.bind f = .ok w e) :
    ∃ v d, r = .ok v d ∧ f v d = .ok w e := by
  cases r with
  | ok v d => exact ⟨v, d, rfl, h⟩
  | held d => cases h
  | exc v s d => cases h

/-- A core's A stays, or is 0 as a warm reset leaves it. -/
def Dev.KeepsOrClearsA (c : CoreId) (d e : Dev) : Prop := (e.core c).a = (d.core c).a ∨ (e.core c).a = 0

namespace Dev.KeepsOrClearsA
variable {c : CoreId} {d e f : Dev}

theorem of_core (h : e.core c = d.core c) : KeepsOrClearsA c d e := .inl (congrArg Core.a h)

theorem refl (d : Dev) : KeepsOrClearsA c d d := of_core rfl

theorem trans (h1 : KeepsOrClearsA c d e) (h2 : KeepsOrClearsA c e f) : KeepsOrClearsA c d f := by
  rcases h2 with h2 | h2
  · rcases h1 with h1 | h1
    · exact .inl (h2.trans h1)
    · exact .inr (h2.trans h1)
  · exact .inr h2

theorem onCore {g : Core → Core} (h : (g (d.core c)).a = (d.core c).a) : KeepsOrClearsA c d (d.onCore c g) :=
  .inl (by rw [Dev.core_onCore_self, h])

theorem of_keepsA (h : d.KeepsA e) : KeepsOrClearsA c d e := .inl (h.core c)

theorem setPier {p : Fin 16} {P : Pier} (h : P.core = (d.pier p).core) : KeepsOrClearsA c d (d.setPier p P) :=
  of_keepsA (.setPier (congrArg Core.a h))

theorem of_warden (h : e.warden = d.warden) : KeepsOrClearsA .warden d e := of_core (congrArg Warden.core h)

end Dev.KeepsOrClearsA

theorem Dev.pierRegWrite_keepsA (d : Dev) {a : Agent} (ha : a ≠ .host) (p : Fin 16) (k : Nat) (v : DW) :
    d.KeepsA (d.regWrite a (.pr p k) v) ∧ d.KeepsA (d.regWrite a (.qy p k) v) ∧ d.KeepsA (d.regWrite a (.pt p k) v) := by
  unfold Dev.regWrite
  dsimp only
  split
  · exact ⟨Dev.prWrite_keepsA d ha p k v, Dev.qyWrite_keepsA d ha p k v, Dev.ptWrite_keepsA d p k v⟩
  · exact ⟨.refl d, .refl d, .refl d⟩

theorem Dev.wardenRegWrite_keepsOrClearsA (d : Dev) (r : RegAt) (v : DW) :
    KeepsOrClearsA .warden d (d.regWrite .warden r v) := by
  cases r with
  | fr k => exact Dev.frWrite_warden_a d k v
  | st k => exact .of_warden (Dev.stWrite_warden d k v)
  | fc k => exact .of_warden (Dev.fcWrite_warden d k v)
  | pw k => exact .of_warden (Dev.pwWrite_warden d .warden k v)
  | au k =>
    unfold Dev.regWrite
    dsimp only
    split <;> exact .refl _
  | sb k =>
    unfold Dev.regWrite
    dsimp only
    split <;> exact .refl _
  | pr p k => exact .of_keepsA (d.pierRegWrite_keepsA (by decide) p k v).1
  | qy p k => exact .of_keepsA (d.pierRegWrite_keepsA (by decide) p k v).2.1
  | pt p k => exact .of_keepsA (d.pierRegWrite_keepsA (by decide) p k v).2.2

/-- A pier's core reaches the registers of its own pier, the warden every register (R32). -/
theorem Dev.coreWrite_keepsOrClearsA (d : Dev) (c : CoreId) (a v : Word) : KeepsOrClearsA c d (d.coreWrite c a v) := by
  cases h : coreWindow c a with
  | none =>
    rw [Dev.coreWrite_of_none h]
    exact .refl d
  | some r =>
    rw [Dev.coreWrite_of_window h]
    cases c with
    | warden => exact d.wardenRegWrite_keepsOrClearsA r _
    | pier p =>
      have hp k := d.pierRegWrite_keepsA (a := .sequencer) (by decide) p k (v.extractLsb' 0 32)
      unfold coreWindow at h
      dsimp only at h
      split at h <;> cases h
      · exact .of_keepsA (hp _).1
      · exact .of_keepsA (hp _).2.1
      · exact .of_keepsA (hp _).2.2

theorem Dev.storeError_keepsOrClearsA (d : Dev) (c : CoreId) (x : SbEntry) (k : Nat) : KeepsOrClearsA c d (d.storeError c x k) := by
  unfold Dev.storeError
  split
  · cases c with
    | pier p => exact .of_keepsA (.onPier rfl)
    | warden => exact .of_core rfl
  · exact .onCore rfl

theorem Dev.drainPier_keepsOrClearsA {d e : Dev} {p : Fin 16} {x : SbEntry} (h : d.drainPier p x = .done e) :
    KeepsOrClearsA (.pier p) d e := by
  unfold Dev.drainPier at h
  split at h
  · cases h
    exact Dev.coreWrite_keepsOrClearsA d _ _ _
  · have hp := physWrite_core (d.pier p) d.now x.ident .seqData false x.pa x.data x.en false
    split at h
    case h_2 => cases h
    all_goals
      rename_i hw
      rw [hw] at hp
      cases h
    · exact .setPier hp
    · exact .trans (.setPier hp) (Dev.storeError_keepsOrClearsA _ _ _ _)
    · exact .trans (.setPier hp) (Dev.storeError_keepsOrClearsA _ _ _ _)

theorem Dev.sramRead_core (d : Dev) (k : Nat) : (d.sramRead k).2.warden.core = d.warden.core := by
  unfold Dev.sramRead
  dsimp only
  split <;> rfl

theorem Dev.keyRead_core (d : Dev) (k : Nat) : (d.keyRead k).2.warden = d.warden := by
  unfold Dev.keyRead
  dsimp only
  split
  · rfl
  · split <;> rfl

theorem Dev.drainWarden_keepsOrClearsA (d : Dev) (x : SbEntry) : KeepsOrClearsA .warden d (d.drainWarden x) := by
  unfold Dev.drainWarden
  split
  case h_1 k _ =>
    have hr : (if x.en = 0xF#4 then (some 0, d) else d.sramRead k).2.warden.core = d.warden.core := by
      split
      · rfl
      · exact d.sramRead_core k
    split
    next hq =>
      rw [hq] at hr
      exact .of_core hr
    next hq =>
      rw [hq] at hr
      exact .trans (.of_core hr) (Dev.storeError_keepsOrClearsA _ _ _ _)
  · exact .of_core rfl
  · exact Dev.coreWrite_keepsOrClearsA d _ _ _
  · exact Dev.storeError_keepsOrClearsA d _ _ _
  · exact Dev.storeError_keepsOrClearsA d _ _ _

theorem Dev.drainHead_keepsOrClearsA {d e : Dev} {c : CoreId} (h : d.drainHead c = .done e) : KeepsOrClearsA c d e := by
  unfold Dev.drainHead at h
  split at h
  · cases h
    exact .refl d
  · next x rest _ =>
    have hd : KeepsOrClearsA c d (d.onCore c fun k => { k with sbuf := rest }) := .onCore rfl
    cases c with
    | pier p =>
      dsimp only at h
      split at h <;> cases h
      next hp => exact hd.trans (Dev.drainPier_keepsOrClearsA hp)
    | warden =>
      cases h
      exact hd.trans (Dev.drainWarden_keepsOrClearsA _ x)

theorem Dev.drainTo_keepsOrClearsA {c : CoreId} {n fuel : Nat} {d e : Dev} (h : Dev.drainTo c n fuel d = .ok () e) :
    KeepsOrClearsA c d e := by
  induction fuel generalizing d with
  | zero =>
    cases h
    exact .refl _
  | succ fuel ih =>
    unfold Dev.drainTo at h
    split at h
    · cases h
      exact .refl _
    · split at h
      · next hd => exact (Dev.drainHead_keepsOrClearsA hd).trans (ih h)
      · cases h

theorem Dev.xlate_keepsOrClearsA {d e : Dev} {c : CoreId} {acc : Access} {va pa : Word} (h : d.xlate c acc va = .ok pa e) :
    KeepsOrClearsA c d e := by
  unfold Dev.xlate at h
  cases c with
  | warden =>
    cases h
    exact .refl d
  | pier p =>
    dsimp only at h
    split at h
    · split at h <;> cases h
      next ht => exact .setPier (translate_core ht)
    · cases h
      exact .refl d

theorem Dev.decodeAddr_of_none {d e : Dev} {c : CoreId} {acc : Access} {whole : Bool} {pa : Word}
    (h : d.decodeAddr c acc whole pa = (none, e)) : e = d := by
  unfold Dev.decodeAddr at h
  cases c <;> grind

theorem Dev.probe_keepsOrClearsA {d e : Dev} {c : CoreId} {acc : Access} {whole : Bool} {va pa : Word}
    (h : d.probe c acc whole va = .ok pa e) : KeepsOrClearsA c d e := by
  obtain ⟨pa', d', hx, h⟩ := CRes.bind_eq_ok h
  split at h
  · cases h
  · next hd =>
    cases h
    rw [Dev.decodeAddr_of_none hd]
    exact Dev.xlate_keepsOrClearsA hx

theorem Dev.readPhys_keepsOrClearsA {d e : Dev} {c : CoreId} {acc : Access} {va pa w : Word}
    (h : d.readPhys c acc va pa = .ok w e) : KeepsOrClearsA c d e := by
  unfold Dev.readPhys at h
  cases c with
  | pier p =>
    dsimp only at h
    split at h
    · cases h
      exact .refl _
    · have hp := physRead_core (d.pier p) d.now (d.coreIdent (.pier p)) .seqData pa
      split at h <;> cases h
      next hr =>
        rw [hr] at hp
        exact .setPier hp
  | warden =>
    dsimp only at h
    split at h
    · cases h
      exact .refl _
    · next k _ =>
      have hs := d.sramRead_core k
      split at h <;> cases h
      next hr =>
        rw [hr] at hs
        exact .of_core hs
    · cases h
      exact .of_warden (d.keyRead_core _)
    · cases h
      exact .refl _
    · cases h

theorem Dev.readVia_keepsOrClearsA {d e : Dev} {c : CoreId} {va pa w : Word} (h : d.readVia c va pa = .ok w e) :
    KeepsOrClearsA c d e := by
  have drained (h : ((d.drainAll c).bind fun _ d => d.readPhys c .read va pa) = .ok w e) : KeepsOrClearsA c d e := by
    obtain ⟨_, d', hd, hr⟩ := CRes.bind_eq_ok h
    exact (Dev.drainTo_keepsOrClearsA hd).trans (Dev.readPhys_keepsOrClearsA hr)
  unfold Dev.readVia at h
  dsimp only at h
  split at h
  · split at h
    · cases h
      exact .refl d
    · exact drained h
  · split at h
    · exact drained h
    · exact Dev.readPhys_keepsOrClearsA h

/-- What a load that answers leaves of its core's A. -/
theorem Dev.load_core_a {d e : Dev} {c : CoreId} {whole : Bool} {va w : Word} (h : d.load c whole va = .ok w e) :
    (e.core c).a = (d.core c).a ∨ (e.core c).a = 0 := by
  obtain ⟨pa, d', hp, hr⟩ := CRes.bind_eq_ok h
  exact (Dev.probe_keepsOrClearsA hp).trans (Dev.readVia_keepsOrClearsA hr)

end Sys2Proof.Machine
end

section
/-! O17 from the lemmas about strings, decimal words and loads. -/

namespace Sys2Proof.Machine

open Sys2Proof

/-- DADDS or DSUBS of one word: its two checks and its one step (R229). -/
theorem portDecStr_one {sub : Bool} {c : CoreId} {d d1 d2 d3 d4 d5 : Dev} (f : Fld) {u v : Word} {code : BitVec 3}
    (hcode : code = if sub then 4 else 3) (ha : (d.core c).a = 1) (hl : (d.core c).longop = none)
    (hr : (d.core c).sw.getLsbD 11 = false)
    (h1 : (d.onCore c fun k => { k with mh := code.setWidth 36 <<< 33, strNow := {} }).load c false ((d.core c).x1 + 0) = .ok u d1)
    (h2 : d1.load c false ((d.core c).x2 + 0) = .ok v d2) (hu : sdecOk u = true) (hv : sdecOk v = true)
    (h3 : (d2.onCore c fun k => { k with mh := decMh code (some (decFix sub [u] [v])) }).load c false (d2.core c).x1 = .ok u d3)
    (h4 : d3.load c false (d3.core c).x2 = .ok v d4)
    (h5 : d4.store c false (d4.core c).x2 (sdecWord (decTotal sub u v)) 0xF#4 = .ok () d5)
    (hm : (d2.core c).strNow = {}) (ht : (d5.core c).tre = 0) :
    portDecStr code none c f d = .next (d5.onCore c (decOneLeft (decTotal sub u v))).used := by
  have hn : (d.core c).a.toNat = 1 := congrArg BitVec.toNat ha
  have ha2 : (d2.core c).a.toNat ≤ 1 := by
    rcases Dev.load_core_a h2 with e2 | e2 <;> rw [e2]
    · rcases Dev.load_core_a h1 with e1 | e1 <;> rw [e1]
      · rw [Dev.core_onCore_self]
        exact hn.le
      · decide
    · decide
  have hsub : decide (code = 4#3) = sub := by
    rw [hcode]
    cases sub <;> rfl
  have hread : decRead c 0 (d.core c).a.toNat [] (d.onCore c fun k => { k with mh := decMh code none, strNow := {} }) =
      .ok [(u, v)] d2 := by
    rw [hn]
    exact decRead_one (by rw [Dev.core_onCore_self]; exact h1) (by rw [Dev.core_onCore_self]; exact h2)
  have hok : ∀ {w : Word}, sdecOk w = true → stringOk (d2.core c).strNow.first [w] = true := fun hw => by
    rw [hm]
    exact Bool.and_eq_true_iff.2 ⟨hw, rfl⟩
  rw [portDecStr_of_valid f (by rw [ha]; decide) hl hr hread (hok hu) (hok hv), hn, hsub]
  exact decStrWrite_one hu hv ha2 hm h3 h4 h5 ht

/-- What the completion of DADDS or DSUBS of one word leaves of its core. -/
theorem core_decOneLeft_complete1 (d : Dev) (c : CoreId) (t : Int) :
    let k := ((d.onCore c (decOneLeft t)).used.complete1 c).core c
    let j := d.core c
    k.x1 = j.x1 + 1 ∧ k.x2 = j.x2 + 1 ∧ k.a = j.a - 1 ∧ k.mh = 0 ∧ k.sw.getLsbD 1 = decide (t < 0) ∧
      k.sw.getLsbD 3 = decide (100000000 ≤ t.natAbs) ∧ k.sw.getLsbD 0 = decide (t.natAbs % 100000000 = 0) ∧
      k.sw.getLsbD 2 = j.sw.getLsbD 2 := by
  intro k j
  have hk : k = (decOneLeft t j).complete (d.onCore c (decOneLeft t)).used.fresh := by
    rw [show k = _ from Dev.core_complete1 _ c, Dev.core_used, Dev.core_onCore_self]
  obtain ⟨h0, h1, h2, h3⟩ := getLsbD_decOneLeft_sw t j
  obtain ⟨hx1, hx2, ha, hmh⟩ := (decOneLeft t j).complete_regs (d.onCore c (decOneLeft t)).used.fresh
  simp only [hk, hx1, hx2, ha, hmh, Core.getLsbD_complete_sw _ _ (show 0 ≠ 12 by decide),
    Core.getLsbD_complete_sw _ _ (show 1 ≠ 12 by decide), Core.getLsbD_complete_sw _ _ (show 2 ≠ 12 by decide),
    Core.getLsbD_complete_sw _ _ (show 3 ≠ 12 by decide)]
  exact ⟨rfl, rfl, rfl, rfl, h1, h3, h0, h2⟩

theorem answers_decStr {sub : Bool} {c : CoreId} {g : Gd} {s : State} {code : BitVec 3} {e : Dev}
    (hcode : code = if sub then 4 else 3) (he : Executes s.dev c 0x3D (immFld g (code.setWidth 24)))
    (h : portDecStr code none c (immFld g (code.setWidth 24)) s.dev = .next e) :
    Answers (if sub then .dsubs c ⟨g, none⟩ else .dadds c ⟨g, none⟩) s (e.complete1 c) := by
  subst hcode
  cases sub with
  | false => exact answers_dadds he ((congrArg _ h).trans (Dev.conclude_next _ _ _ _ (by decide)))
  | true => exact answers_dsubs he ((congrArg _ h).trans (Dev.conclude_next _ _ _ _ (by decide)))

/-- Settles O17. A string that has worked on its words ends or stands before the rest; DADDS and DSUBS of one word are their two
checks and one step. How many words come before an interrupt, and what a stop keeps, are the model's reading of log 26. -/
theorem stringOperations : Obligations.StringOperations := by
  refine ⟨⟨?movs, ?fills, ?xlts, ?dadds, ?dsubs, ?cmps⟩, ?cmpsLoop, ?decStr⟩
  case movs => exact fun c g stop s d he h => answers_movs he (Dev.conclude_strRun _ _ h)
  case fills =>
    intro c g stop s d he hl h
    exact answers_fills he (by rw [portFills_of_settled stop _ hl, Dev.conclude_strRun _ _ h])
  case xlts =>
    intro c g stop s d he hl h
    exact answers_xlts he (by rw [portXlts_of_settled stop _ hl, Dev.conclude_strRun _ _ h])
  case dadds =>
    intro c g stop s he ha
    exact answers_dadds he (by rw [portDecStr_of_zero _ stop _ ha, Dev.conclude_strEnd])
  case dsubs =>
    intro c g stop s he ha
    exact answers_dsubs he (by rw [portDecStr_of_zero _ stop _ ha, Dev.conclude_strEnd])
  case cmps =>
    intro c g stop s he ha
    exact answers_cmps he (by rw [portCmps_of_zero stop _ ha, Dev.conclude_strEnd])
  case cmpsLoop =>
    intro c g stop s d he ha hl hw h
    exact answers_cmps he (by rw [portCmps_of_loop _ ha hl hw h, Dev.conclude_strEnd, completed_cmpsEnd])
  case decStr =>
    intro sub c g s u v d1 d2 d3 d4 d5 code k he ha hl hr d0 h1 h2 hu hv dw h3 h4 t h5 _ hm ht
    exact (answers_decStr rfl he (portDecStr_one _ rfl ha hl hr h1 h2 hu hv h3 h4 h5 hm ht)).answersWith
      (core_decOneLeft_complete1 d5 c t)

end Sys2Proof.Machine
end

section
/-! The register, arithmetic, logic, shift and decimal ports (R184, R187, R188, R195, R200, R201, R216, R217, R220): what the shared
operations of a port leave, the bits of the status word, and O2, O3, O6 and O8 from them. -/

namespace Sys2Proof.Machine

open Sys2Proof

/-! ### The status word (R200, R201, R217) -/

theorem Core.getLsbD_zncv_sw (k : Core) (z n cy v : Bool) (i : Nat) : (k.zncv z n cy v).sw.getLsbD i =
    if i = 0 then z else if i = 1 then n else if i = 2 then cy else if i = 3 then v else k.sw.getLsbD i := by
  simp only [Core.zncv, getLsbD_putBit, Nat.reduceLT]
  by_cases h : i < 4
  · interval_cases i <;> rfl
  · simp [show i ≠ 0 ∧ i ≠ 1 ∧ i ≠ 2 ∧ i ≠ 3 by omega]

/-- The bits of SW that any core may hold: all but BDS and the reserved ones (R200). -/
theorem getLsbD_swMask {i : Nat} (hi : i < 36) : (0x3BFF#36).getLsbD i = decide (i ≤ 13 ∧ i ≠ 10) := by
  have h : ∀ i : Fin 36, (0x3BFF#36).getLsbD i.val = decide (i.val ≤ 13 ∧ i.val ≠ 10) := by decide
  exact h ⟨i, hi⟩

theorem getLsbD_putBit_self (w : Word) (b : Bool) {i : Nat} (hi : i < 36) : (putBit w i b).getLsbD i = b := by
  rw [getLsbD_putBit _ _ _ hi, if_pos rfl]

/-- A bit cleared of a word reads 0, and every other bit stays. -/
theorem getLsbD_putBit_false (w : Word) {j : Nat} (i : Nat) (hj : j < 36) :
    (putBit w j false).getLsbD i = (w.getLsbD i && decide (i ≠ j)) := by
  rw [getLsbD_putBit _ _ _ hj]
  by_cases h : i = j <;> simp [h]

theorem Dev.getLsbD_swHeld (d : Dev) (c : CoreId) (w : Word) {i : Nat} (hi : i < 36) : (d.swHeld c w).getLsbD i =
    (w.getLsbD i && decide (i ≤ 13 ∧ i ≠ 10) && (i ≠ 9 || decide (d.tcAllowed = true)) && (i ≠ 13 || decide (c ≠ .warden))) := by
  have htc : (if d.tcAllowed then w &&& 0x3BFF#36 else putBit (w &&& 0x3BFF#36) 9 false).getLsbD i =
      (w.getLsbD i && decide (i ≤ 13 ∧ i ≠ 10) && (i ≠ 9 || decide (d.tcAllowed = true))) := by
    have hm : (w &&& 0x3BFF#36).getLsbD i = (w.getLsbD i && decide (i ≤ 13 ∧ i ≠ 10)) := by
      rw [BitVec.getLsbD_and, getLsbD_swMask hi]
    cases d.tcAllowed
    · simp [getLsbD_putBit_false _ _ (show 9 < 36 by decide), hm]
    · simp [hm]
  cases c with
  | pier p => simpa [Dev.swHeld] using htc
  | warden => simpa [Dev.swHeld, getLsbD_putBit_false _ _ (show 13 < 36 by decide)] using congrArg (· && decide (i ≠ 13)) htc

/-- Settles O8. Flags are written bit by bit, and a held word is a masked one without TC and TE where they may not stand. -/
theorem statusWordBits : Obligations.StatusWordBits :=
  ⟨fun k z n cy v i _ => ⟨k.getLsbD_zncv_sw z n cy v i, rfl⟩, fun d c w _ hi => d.getLsbD_swHeld c w hi⟩

/-! ### The register ports (R216) -/

/-- Settles O2: each port reads its source and writes its register; MQ and MH deliver the long operation first. -/
theorem registerPortsSetTheirRegister : Obligations.RegisterPortsSetTheirRegister := by
  refine ⟨?null, ?a, ?x1, ?x2, ?sp, ?lk, ?c1, ?c2, ?c3, ?mq, ?mh, ?ldhi⟩
  all_goals exact valueAct_computes (by decide) fun _ _ _ => rfl

/-! ### The arithmetic ports (R184, R195, R217) -/

/-- A result of ADD, ADC, SUB, SBB or NEG is written with its flags, and its overflow may trap. -/
theorem Core.arith_eq (k : Core) (r : IntRes) : k.arith r = (withResult k r.r r.cy r.v, overflowTrap k r.v) := by
  rw [Core.arith, Core.ovTrap_eq]
  rfl

/-- A difference is 0 where the two words are equal. -/
theorem flagZ_sub (a b : Word) : flagZ (a - b) = decide (a = b) := by
  simp only [flagZ, sub_eq_zero]

section Arithmetic

variable {i : CoreId → Fld → Instr} {n : Nat}

/-- A port of `op` delivers the pending flags, then writes the result of `op`. -/
theorem computesTrap_arith {op : Core → Word → IntRes} (hn : n ≠ 0x3B)
    (hx : ∀ c f s, exec (i c f) s = s.instr c n f (trapAct fun k w => k.deliverFlags.arith (op k.deliverFlags w))) :
    ComputesTrap i n
      (fun k w => let j := k.deliverFlags; withResult j (op j w).r (op j w).cy (op j w).v)
      (fun k w => let j := k.deliverFlags; overflowTrap j (op j w).v) :=
  ComputesTrap.congr (trapAct_computes hn hx) (fun _ _ => by rw [Core.arith_eq]) fun _ _ => by rw [Core.arith_eq]

/-! ### The shifts and rotates (R187, R217) -/

/-- A shift or rotate by the source's low seven bits; a count of 0 leaves CY. -/
theorem Core.shift_eq (op : ShiftOp) (k : Core) (w : Word) : k.shift op w =
    let j := k.deliverFlags
    let n := w.toNat % 128
    withResult j (op.result j.a n) (if n = 0 then j.cy else op.lastOut j.a n) false := by
  rw [Core.shift]
  dsimp only
  by_cases h : w.toNat % 128 = 0
  · rw [intShift_of_zero h, h, op.result_zero]
    rfl
  · rw [intShift_of_ne_zero h, if_neg h]
    rfl

theorem computes_shift {op : ShiftOp} (hn : n ≠ 0x3B)
    (hx : ∀ c f s, exec (i c f) s = s.instr c n f (valueAct (Core.shift op))) :
    Computes i n (fun k w =>
      let j := k.deliverFlags
      let n := w.toNat % 128
      withResult j (op.result j.a n) (if n = 0 then j.cy else op.lastOut j.a n) false) :=
  ComputesTrap.congr (valueAct_computes hn hx) (Core.shift_eq op) fun _ _ => rfl

/-- A comparison port leaves 1 or 0 in A. -/
theorem computes_boolWord {q : Core → Word → Prop} [∀ k w, Decidable (q k w)] (hn : n ≠ 0x3B)
    (hx : ∀ c f s, exec (i c f) s = s.instr c n f (valueAct fun k w => k.setA (boolWord (q k w)))) :
    Computes i n (fun k w => { k with a := if q k w then 1 else 0 }) :=
  ComputesTrap.congr (valueAct_computes hn hx) (fun _ _ => by rw [ite_eq_boolWord]; rfl) fun _ _ => rfl

end Arithmetic

/-- Settles O3. The sums and differences are those of the integers that the words stand for, a shift moves its last bit into CY. -/
theorem arithmeticAndLogicPorts : Obligations.ArithmeticAndLogicPorts := by
  refine ⟨⟨?add, ?adc, ?sub, ?sbb, ?neg⟩, ⟨?and, ?or, ?xor, ?cmp, ?seq, ?slt, ?sltu⟩, ?shl, ?shr, ?sar, ?rol⟩
  case add =>
    exact ComputesTrap.congr (computesTrap_arith (op := fun j w => intAdd j.a w false) (by decide) fun _ _ _ => rfl)
      (fun _ _ => by simp only [intAdd_false]) fun _ _ => by simp only [intAdd_false]
  case adc =>
    exact ComputesTrap.congr (computesTrap_arith (op := fun j w => intAdd j.a w j.cy) (by decide) fun _ _ _ => rfl)
      (fun _ _ => by simp only [intAdd_eq]) fun _ _ => by simp only [intAdd_eq]
  case sub =>
    exact ComputesTrap.congr (computesTrap_arith (op := fun j w => intSub j.a w false) (by decide) fun _ _ _ => rfl)
      (fun _ _ => by simp only [intSub_false]) fun _ _ => by simp only [intSub_false]
  case sbb => exact computesTrap_arith (op := fun j w => intSub j.a w j.cy) (by decide) fun _ _ _ => rfl
  case neg => exact computesTrap_arith (op := fun _ w => intNeg w) (by decide) fun _ _ _ => rfl
  case and | or | xor => exact valueAct_computes (by decide) fun _ _ _ => rfl
  case cmp =>
    exact ComputesTrap.congr (valueAct_computes (by decide) fun _ _ _ => rfl)
      (fun k w => by simp only [intSub_false, flagZ_sub, flagN]) fun _ _ => rfl
  case seq => exact computes_boolWord (q := fun k w => k.a = w) (by decide) fun _ _ _ => rfl
  case slt => exact computes_boolWord (q := fun k w => k.a.toInt < w.toInt) (by decide) fun _ _ _ => rfl
  case sltu => exact computes_boolWord (q := fun k w => k.a.toNat < w.toNat) (by decide) fun _ _ _ => rfl
  case shl => exact computes_shift (op := .shl) (by decide) fun _ _ _ => rfl
  case shr => exact computes_shift (op := .shr) (by decide) fun _ _ _ => rfl
  case sar => exact computes_shift (op := .sar) (by decide) fun _ _ _ => rfl
  case rol => exact computes_shift (op := .rol) (by decide) fun _ _ _ => rfl

/-! ### The decimal ports (R51, R188, R195, R220) -/

/-- A decimal word holds its number modulo 10^9. -/
theorem decWord_add (n : Nat) : decWord (1000000000 + n) = decWord n := by
  rw [decWord, decWord, Nat.add_mod_left]

theorem decSub_eq (a b : Word) (k : Bool) : decSub a b k =
    (decWord (1000000000 + decVal a - (decVal b + k.toNat)), decide (decVal a < decVal b + k.toNat)) := by
  simp only [decSub]
  split
  case isTrue h => rw [decide_eq_true h]
  case isFalse h => rw [decide_eq_false h, Nat.add_sub_assoc (Nat.not_lt.1 h), decWord_add]

/-- Trap 11 where TRE.DVE is 1 (R195). -/
def decimalTrap (k : Core) : Option (BitVec 7) := if k.tre.getLsbD 2 = true then some 11 else none

theorem Core.decInvalid_eq (k : Core) : k.decInvalid = (decimalInvalid k, decimalTrap k) := rfl

/-- DADD and DSUB write the result of valid operands; an invalid one sets DV and may trap. -/
theorem Core.decimal_eq (op : Word → Word → Bool → Word × Bool) (k : Core) (w : Word) : k.decimal op w =
    let j := k.deliverFlags
    (if decOk j.a = true ∧ decOk w = true then withResult j (op j.a w j.cy).1 (op j.a w j.cy).2 false else decimalInvalid j,
      if decOk j.a = true ∧ decOk w = true then none else decimalTrap j) := by
  simp only [Core.decimal, Core.decInvalid_eq, Bool.and_eq_true]
  split <;> rfl

theorem computesTrap_decimal {i : CoreId → Fld → Instr} {n : Nat} {op : Word → Word → Bool → Word × Bool} (hn : n ≠ 0x3B)
    (hx : ∀ c f s, exec (i c f) s = s.instr c n f (trapAct (Core.decimal op))) :
    ComputesTrap i n
      (fun k w => let j := k.deliverFlags
        if decOk j.a = true ∧ decOk w = true then withResult j (op j.a w j.cy).1 (op j.a w j.cy).2 false else decimalInvalid j)
      (fun k w => let j := k.deliverFlags; if decOk j.a = true ∧ decOk w = true then none else decimalTrap j) :=
  ComputesTrap.congr (trapAct_computes hn hx) (fun _ _ => by rw [Core.decimal_eq]) fun _ _ => by rw [Core.decimal_eq]

/-- Settles O6. A difference is taken modulo 10^9 with its borrow; DCHK writes a valid source with CY and V as they were. -/
theorem decimalPorts : Obligations.DecimalPorts := by
  refine ⟨?dadd, ?dsub, ?dchk⟩
  case dadd => exact computesTrap_decimal (op := decAdd) (by decide) fun _ _ _ => rfl
  case dsub =>
    exact ComputesTrap.congr (computesTrap_decimal (op := decSub) (by decide) fun _ _ _ => rfl)
      (fun _ _ => by simp only [decSub_eq]) fun _ _ => rfl
  case dchk =>
    refine ComputesTrap.congr (trapAct_computes (by decide) fun _ _ _ => rfl) (fun k w => ?_) fun k w => ?_
    · dsimp only
      split <;> rfl
    · dsimp only
      split <;> rfl

end Sys2Proof.Machine
end

section
/-! The memory ports and the invalidation of TLB entries (R221, R231, R236, R249 to R252, R276, R317, R318): what a store, a load of
two words, a nonet access and an atomic access leave once their addresses have passed, and O9 and O11 from them. -/

namespace Sys2Proof.Machine

open Sys2Proof

/-! ### How an instruction ends, by what its effect answers -/

section Ends

variable {x : Instr} {s : State} {c : CoreId} {n : Nat} {f : Fld} {body : CoreId → Fld → Dev → Act} {d : Dev}
  (hx : exec x s = s.instr c n f body) (he : Executes s.dev c n f)

include hx he

/-- The instruction answers what its effect concludes to. -/
theorem answers_conclude {a : Act} (h : body c f s.dev = a) : Answers x s (Dev.conclude (s.dev.core c) c n f a) := by
  rw [Answers, hx, State.instr_of_executes _ he, h]

theorem answers_completed {g : Core → Core} (hn : n ≠ 0x3B) (h : body c f s.dev = .next (d.onCore c g)) :
    Answers x s (completed d c g) := by
  have hc := answers_conclude hx he h
  rwa [Dev.conclude_next _ _ _ _ hn] at hc

theorem answers_completedMem {b : Word} {g : Core → Core} (hn : n ≠ 0x3B) (h : body c f s.dev = d.memDone c f b g) :
    Answers x s (completedMem d c f b g) :=
  answers_completed hx he hn h

end Ends

/-- A core without a long operation has nothing to deliver (R247). -/
theorem Dev.onCore_deliver_of_none {d : Dev} {c : CoreId} (h : (d.core c).longop = none) : d.onCore c Core.deliver = d := by
  rw [Dev.onCore, Core.deliver_of_none _ h, Dev.setCore_core]

/-! ### The store buffer (R249, R250) -/

section Stores

variable {d d1 : Dev} {c : CoreId} {va pa : Word}

/-- A buffer with room drains nothing. -/
theorem Dev.drainTo_of_room {n : Nat} (fuel : Nat) (h : (d.core c).sbuf.length ≤ n) : Dev.drainTo c n fuel d = .ok () d := by
  cases fuel with
  | zero => rfl
  | succ fuel => exact if_pos h

theorem Dev.drainAll_of_empty (h : (d.core c).sbuf = []) : d.drainAll c = .ok () d :=
  Dev.drainTo_of_room 8 (by rw [h]; exact Nat.le_refl 0)

/-- A store whose address passes enters a buffer that has room. -/
theorem Dev.store_of_room {whole : Bool} (data : Word) (en : BitVec 4) (hp : d.probe c .write whole va = .ok pa d1)
    (hs : (d1.core c).sbuf.length ≤ 7) : d.store c whole va data en = .ok () (d1.enqueue c pa va data en) := by
  simp only [Dev.store, hp, CRes.bind, Dev.drainTo_of_room 8 hs]

end Stores

/-- STA, STX1 and STX2 are stores of their register. -/
theorem storesRegister {i : CoreId → Fld → Instr} {n : Nat} {r : Core → Word} (hn : n ≠ 0x3B)
    (hx : ∀ c f s, exec (i c f) s = s.instr c n f (portStore r)) : StoresRegister i n r := by
  intro c f s pa d he k hp hs
  refine answers_completedMem (hx c f s) he hn ?_
  simp only [portStore, CRes.act]
  rw [Dev.store_of_room _ _ hp hs]

/-! ### Two words (R221, R252) -/

section DoubleWord

variable {c : CoreId} {f : Fld} {d d1 d2 d3 d4 : Dev} {p0 p1 w0 w1 : Word} (hl : (d.core c).longop = none)

include hl

theorem portLdd_of_read (h0 : d.probe c .read false ((d.core c).ea f) = .ok p0 d1)
    (h1 : d1.probe c .read false ((d.core c).ea f + 1) = .ok p1 d2) (h2 : d2.readVia c ((d.core c).ea f) p0 = .ok w0 d3)
    (h3 : d3.readVia c ((d.core c).ea f + 1) p1 = .ok w1 d4) :
    portLdd c f d = d4.memDone c f 2 fun k => { k with a := w0, mq := w1 } := by
  simp only [portLdd, Dev.onCore_deliver_of_none hl, h0, h1, h2, h3, CRes.act]

theorem portStd_of_room (h0 : d.probe c .write false ((d.core c).ea f) = .ok p0 d1)
    (h1 : d1.probe c .write false ((d.core c).ea f + 1) = .ok p1 d2) (hs : (d2.core c).sbuf.length ≤ 6) :
    portStd c f d = ((d2.enqueue c p0 ((d.core c).ea f) (d.core c).a 0xF#4).enqueue c p1 ((d.core c).ea f + 1)
      (d.core c).mq 0xF#4).memDone c f 2 id := by
  simp only [portStd, Dev.onCore_deliver_of_none hl, h0, h1, Dev.drainTo_of_room 8 hs, CRes.act]

end DoubleWord

/-! ### Nonets (R221) -/

/-- A nonet of a word, shifted down and masked. -/
theorem shiftRight_and_nonet (w : Word) (n : Nat) : (w >>> n) &&& 0x1FF#36 = (w.extractLsb' n 9).setWidth 36 := by
  refine BitVec.eq_of_toNat_eq ?_
  rw [BitVec.toNat_and, BitVec.toNat_setWidth, BitVec.extractLsb'_toNat, BitVec.toNat_ushiftRight,
    show (0x1FF#36).toNat = 2 ^ 9 - 1 from rfl, Nat.and_two_pow_sub_one_eq_mod]
  omega

theorem and_nonet (w : Word) : w &&& 0x1FF#36 = (w.extractLsb' 0 9).setWidth 36 := by
  rw [← shiftRight_and_nonet, BitVec.ushiftRight_zero]

/-- The enable of one nonet. -/
theorem ofNat_two_pow_nonet (j : Nat) : BitVec.ofNat 4 (2 ^ j) = 1#4 <<< j :=
  BitVec.eq_of_toNat_eq (by simp [Nat.shiftLeft_eq])

section Nonet

variable {c : CoreId} {f : Fld} {d d1 : Dev}

theorem portLdn_of_load {w : Word} (h : d.load c false ((d.core c).ea f >>> 2) = .ok w d1) :
    portLdn c f d = d1.memDone c f 1 fun k =>
      { k with a := (w.extractLsb' (9 * (((d.core c).ea f).toNat % 4)) 9).setWidth 36 } := by
  simp only [portLdn, nonetWord, h, CRes.act, shiftRight_and_nonet]
  rfl

theorem portStn_of_room {pa : Word} (hp : d.probe c .write false ((d.core c).ea f >>> 2) = .ok pa d1)
    (hs : (d1.core c).sbuf.length ≤ 7) :
    portStn c f d = (d1.enqueue c pa ((d.core c).ea f >>> 2)
      (((d.core c).a.extractLsb' 0 9).setWidth 36 <<< (9 * (((d.core c).ea f).toNat % 4)))
      (1#4 <<< (((d.core c).ea f).toNat % 4))).memDone c f 1 id := by
  simp only [portStn, nonetWord, Dev.store_of_room _ _ hp hs, CRes.act, and_nonet, ofNat_two_pow_nonet, nonetIdx]

end Nonet

/-! ### Atomic accesses (R221, R236, R276) -/

section Atomic

variable {d d1 d2 : Dev} {c : CoreId} {va pa t : Word} {a : Nat} (w : Word → Word)

/-- An atomic access of a sequencer to a bank writes the word at once. -/
theorem Dev.atomic_of_bank {p : Fin 16} {b : Fin 16} (hs : (d.core (.pier p)).sbuf = [])
    (hp : d.probe (.pier p) .atomic false va = .ok pa d1) (hb : physTarget pa = .bank b a)
    (hr : d1.readPhys (.pier p) .atomic va pa = .ok t d2) :
    d.atomic (.pier p) va w = .ok t (d2.onPier p fun P => bankStore P a (eccEncode (w t))) := by
  simp only [Dev.atomic, Dev.drainAll_of_empty hs, hp, hr, hb, CRes.bind, Dev.atomicOk, Bool.not_true, Bool.false_eq_true, if_false]

/-- An atomic access of the warden to its SRAM writes the word at once, where its read has left REMAP. -/
theorem Dev.atomic_of_sram (hs : (d.core .warden).sbuf = []) (hp : d.probe .warden .atomic false va = .ok pa d1)
    (ht : wardenTarget d1.life.remap pa = .sram a) (hr : d1.readPhys .warden .atomic va pa = .ok t d2)
    (hm : d2.life.remap = d1.life.remap) : d.atomic .warden va w =
      .ok t { d2 with warden := { d2.warden with sram := d2.warden.sram.set a (eccEncode (w t)) } } := by
  simp only [Dev.atomic, Dev.drainAll_of_empty hs, hp, hr, hm, ht, CRes.bind, Dev.atomicOk, Bool.not_true, Bool.false_eq_true,
    if_false]

end Atomic

section AtomicPorts

variable {i : CoreId → Fld → Instr} {n : Nat} {g : Word → Word → Word} (hn : n ≠ 0x3B)
  (hx : ∀ c f s, exec (i c f) s = s.instr c n f (portAtomic g))

include hn hx

theorem atomicInBank : AtomicInBank i n g := by
  intro p f s pa t d1 d2 b a he k hs hp hb hr
  refine answers_completedMem (hx _ f s) he hn ?_
  rw [portAtomic, Dev.atomic_of_bank _ hs hp hb hr]
  rfl

theorem atomicInSram : AtomicInSram i n g := by
  intro f s pa t d1 d2 a he k hs hp ht hr hm
  refine answers_completedMem (hx _ f s) he hn ?_
  rw [portAtomic, Dev.atomic_of_sram _ hs hp ht hr hm]
  rfl

end AtomicPorts

/-- Settles O9: each port under the outcome of the accesses that it makes. -/
theorem memoryPorts : Obligations.MemoryPorts := by
  refine ⟨⟨?sta, ?stx1, ?stx2⟩, ⟨?ldd, ?std, ?ldn, ?stn⟩, ?xaddBank, ?xswpBank, ?xaddSram, ?xswpSram⟩
  case sta | stx1 | stx2 => exact storesRegister (by decide) fun _ _ _ => rfl
  case ldd =>
    intro c f s p0 p1 w0 w1 d1 d2 d3 d4 he hl ea h0 h1 h2 h3
    exact answers_completedMem rfl he (by decide) (portLdd_of_read hl h0 h1 h2 h3)
  case std =>
    intro c f s p0 p1 d1 d2 he hl k ea h0 h1 hs
    exact answers_completedMem rfl he (by decide) (portStd_of_room hl h0 h1 hs)
  case ldn =>
    intro c f s w d he ea h
    exact answers_completedMem rfl he (by decide) (portLdn_of_load h)
  case stn =>
    intro c f s pa d he k ea j hp hs
    exact answers_completedMem rfl he (by decide) (portStn_of_room hp hs)
  case xaddBank | xswpBank => exact atomicInBank (by decide) fun _ _ _ => rfl
  case xaddSram | xswpSram => exact atomicInSram (by decide) fun _ _ _ => rfl

/-! ### TLBI (R231, R236, R317) -/

section Tlbi

variable {p : Fin 16} {f : Fld} {d : Dev}

/-- TLBI of a sequencer in supervisor mode with an empty store buffer. -/
theorem portTlbi_pier (hu : (d.core (.pier p)).user = false) (hs : (d.core (.pier p)).sbuf = []) :
    portTlbi (.pier p) f d = (Invalidated d p (if f.mode = 0#2 then tlbiSelects f.src else
      tlbHit (d.pier p).regs.tag ((d.core (.pier p)).ea f))).memDone (.pier p) f 1 id := by
  simp only [portTlbi, hu, Bool.false_eq_true, if_false, Dev.drainAll_of_empty hs, CRes.act]
  rfl

theorem portTlbi_warden (hu : (d.core .warden).user = false) : portTlbi .warden f d = d.memDone .warden f 1 id := by
  simp only [portTlbi, hu, Bool.false_eq_true, if_false]

end Tlbi

/-- A row of TLBI that fixes its immediate invalidates what the immediate selects, and steps no index. -/
theorem answers_tlbiImmediate {x : Instr} {s : State} {p : Fin 16} {g : Gd} {src : BitVec 24}
    (hx : exec x s = s.instr (.pier p) 0x13 (immFld g src) portTlbi) (he : Executes s.dev (.pier p) 0x13 (immFld g src))
    (hu : (s.dev.core (.pier p)).user = false) (hs : (s.dev.core (.pier p)).sbuf = []) :
    Answers x s (completed (Invalidated s.dev p (tlbiSelects src)) (.pier p) id) :=
  answers_completedMem hx he (by decide) (portTlbi_pier hu hs)

theorem tlbiSelects_all : tlbiSelects 0x800000#24 = fun _ => true := rfl

/-- The immediate of TLBI_TAG names its space tag or, with PONLY, the tag's partition. -/
theorem tlbiSelects_tag (ponly : Bool) (tag : BitVec 22) : tlbiSelects (0#1 ++ (BitVec.ofBool ponly ++ tag)) =
    tagMatches ponly tag := by
  have hbit : ∀ j, (0#1 ++ (BitVec.ofBool ponly ++ tag)).getLsbD j = if j < 23 then
      (if j < 22 then tag.getLsbD j else (BitVec.ofBool ponly).getLsbD (j - 22)) else (0#1).getLsbD (j - 23) := fun j => by
    rw [← BitVec.getLsbD_append, ← BitVec.getLsbD_append]
  have htag : (0#1 ++ (BitVec.ofBool ponly ++ tag)).extractLsb' 0 22 = tag :=
    BitVec.eq_of_getLsbD_eq fun j hj => by
      rw [BitVec.getLsbD_extractLsb', decide_eq_true hj, Bool.true_and, Nat.zero_add, hbit, if_pos (by omega), if_pos hj]
  funext e
  rw [tlbiSelects, hbit 23, hbit 22, htag]
  cases ponly <;> rfl

/-! ### PR_TLBI (R318) -/

section PrTlbi

variable {p : Fin 16} {v : DW} {s : State} {i : Instr}

theorem answers_prTlbi (h : i = .prTlbiAll p v ∨ i = .prTlbiTag p v) : Answers i s (s.dev.onReg p fun P => prTlbiWrite P v) := by
  rcases h with rfl | rfl <;> exact State.answer_eq s _

/-- The bits of PR_TLBI below ALL. -/
theorem extractLsb'_prTlbi_eq_zero (v : DW) : v.extractLsb' 0 23 = 0#23 ↔ v.toNat % 2 ^ 23 = 0 := by
  rw [← BitVec.toNat_inj, BitVec.extractLsb'_toNat, Nat.shiftRight_zero]
  rfl

theorem prTlbiWrite_of_all (P : Pier) (ha : v.getLsbD 23 = true) (h : v.toNat % 2 ^ 23 = 0) :
    prTlbiWrite P v = tlbInvalidate P fun _ => true := by
  simp only [prTlbiWrite, ha, (extractLsb'_prTlbi_eq_zero v).2 h, if_true, ne_eq, not_true_eq_false, if_false]

theorem prTlbiWrite_of_reserved (P : Pier) (ha : v.getLsbD 23 = true) (h : v.toNat % 2 ^ 23 ≠ 0) :
    prTlbiWrite P v = { P with regs := { P.regs with prErr := true } } := by
  rw [prTlbiWrite, if_pos ha, if_pos (mt (extractLsb'_prTlbi_eq_zero v).1 h)]
  rfl

theorem prTlbiWrite_of_tag (P : Pier) (ha : v.getLsbD 23 = false) : prTlbiWrite P v = tlbInvalidate P fun e =>
    if v.getLsbD 22 then e.tag.extractLsb' 16 6 = v.extractLsb' 16 6 else e.tag = v.setWidth 22 := by
  rw [prTlbiWrite, ha, if_neg Bool.false_ne_true, ← BitVec.setWidth_eq_extractLsb' (by decide)]
  refine congrArg (tlbInvalidate P) (funext fun e => ?_)
  simp only [tagMatches, BitVec.extractLsb'_setWidth_of_le (show 16 + 6 ≤ 22 by decide)]

end PrTlbi

/-- Settles O11: TLBI by what its operand selects, PR_TLBI by its ALL bit. That a pier which is not reached takes no write of
PR_TLBI is the model's choice (log 69). -/
theorem tlbInvalidation : Obligations.TlbInvalidation := by
  refine ⟨⟨?mem, ?all, ?tag, ?memW, ?allW, ?tagW⟩, ?unreached, ?reached⟩
  case mem =>
    intro p f s he hm hu hs P
    exact answers_completedMem rfl he (by decide) (by rw [portTlbi_pier hu hs, if_neg hm]; rfl)
  case all =>
    intro p g s he hu hs
    exact tlbiSelects_all ▸ answers_tlbiImmediate rfl he hu hs
  case tag =>
    intro p g ponly tag s he hu hs
    have h := answers_tlbiImmediate (x := .tlbiTag (.pier p) g ponly tag) rfl he hu hs
    rw [tlbiSelects_tag] at h
    exact h
  case memW => exact fun f s he hu => answers_completedMem rfl he (by decide) (portTlbi_warden hu)
  case allW => exact fun g s he hu => answers_completedMem rfl he (by decide) (portTlbi_warden hu)
  case tagW => exact fun g ponly tag s he hu => answers_completedMem rfl he (by decide) (portTlbi_warden hu)
  case unreached =>
    intro p v s hr
    have hd : s.dev.onReg p (fun P => prTlbiWrite P v) = s.dev := by rw [Dev.onReg, hr, if_neg Bool.false_ne_true]
    exact ⟨hd ▸ answers_prTlbi (.inl rfl), hd ▸ answers_prTlbi (.inr rfl)⟩
  case reached =>
    intro p v s hr i hi
    have h : Answers i s (s.dev.onPier p fun P => prTlbiWrite P v) := by
      simpa only [Dev.onReg, hr, if_true] using answers_prTlbi (s := s) hi
    refine ⟨fun ha hz => ?_, fun ha hz => ?_, fun ha => ?_⟩
    · simp only [prTlbiWrite_of_all _ ha hz] at h
      exact h
    · simp only [prTlbiWrite_of_reserved _ ha hz] at h
      exact h
    · simp only [prTlbiWrite_of_tag _ ha] at h
      exact h

end Sys2Proof.Machine
end

section
/-! Branches, hardware loops, TRAP and RTT (R222 to R225, R230, R257 to R259): what a taken branch holds, where PC goes behind an
instruction, and O12 and O13 from them. -/

namespace Sys2Proof.Machine

open Sys2Proof

theorem Dev.onCore_setCore (d : Dev) (c : CoreId) (k : Core) (g : Core → Core) :
    (d.setCore c k).onCore c g = d.setCore c (g k) := by
  rw [Dev.onCore, Dev.core_setCore_self, Dev.setCore_setCore]

/-! ### A taken branch (R222, R223, R259) -/

/-- A taken branch holds its target and the registers of before it, and never annuls its slot. -/
theorem Core.branched_taken (k old : Core) (c : CoreId) (n : Nat) (f : Fld) (t : Word) : k.branched old c n f (some t) =
    { k with
      btb := old.btbBranch c n f (some t), sriHold := false, pc := old.pc + 1
      slot := some ⟨old.pc, some t, false, old.lk, old.x1, old.x2, old.sp, stepOf f⟩ } := by
  simp [Core.branched]

/-- A core with the return address `ra` in LK, where the branch links. -/
def linked (link : Bool) (ra : Word) (k : Core) : Core := { k with lk := if link then ra else k.lk }

theorem portBranch_of_source {rel link : Bool} {c : CoreId} {f : Fld} {d0 d : Dev} {v : Word}
    (h : (if f.mode = 0#2 then CRes.ok (if rel then (f.src.extractLsb' 0 23).signExtend 36 else (f.src.extractLsb' 0 23).setWidth 36) d0
      else d0.operand c f) = .ok v d) :
    portBranch rel link c f d0 = .branch (if rel then (d0.core c).pc + v else v)
      (d.setCore c (linked link ((d0.core c).pc + 2) ((d.core c).stepIdx (stepOf f) 1))) := by
  simp only [portBranch, h, CRes.act]
  cases rel <;> cases link <;> simp [linked, Dev.onCore]

theorem branches {i : CoreId → Fld → Instr} {n : Nat} {rel link : Bool}
    (hx : ∀ c f s, exec (i c f) s = s.instr c n f (portBranch rel link)) : Branches i n rel link := by
  intro c f s v d he k hsrc target
  refine (answers_conclude (hx c f s) he (portBranch_of_source hsrc)).answersWith ?_
  simp only [Dev.conclude, Dev.onCore_setCore, Core.branched_taken, Dev.core_setCore_self]
  exact ⟨rfl, rfl, rfl, rfl⟩

/-! ### LOOP (R224) -/

/-- LOOP's last address, and its count, of which 0 means 4096. -/
theorem loop_fields (src : BitVec 24) : (src.extractLsb' 0 12).setWidth 36 = BitVec.ofNat 36 (src.toNat % 4096) ∧
    (if src.extractLsb' 12 12 = 0#12 then 4096#13 else (src.extractLsb' 12 12).setWidth 13) =
      BitVec.ofNat 13 (if src.toNat / 4096 = 0 then 4096 else src.toNat / 4096) := by
  have hn : (src.extractLsb' 12 12).toNat = src.toNat / 4096 := by
    rw [BitVec.extractLsb'_toNat, Nat.shiftRight_eq_div_pow]
    omega
  have hz : src.extractLsb' 12 12 = 0#12 ↔ src.toNat / 4096 = 0 := by
    rw [← BitVec.toNat_inj, hn]
    rfl
  refine ⟨BitVec.eq_of_toNat_eq ?_, ?_⟩
  · rw [BitVec.toNat_setWidth, BitVec.extractLsb'_toNat, BitVec.toNat_ofNat]
    rfl
  · by_cases h : src.toNat / 4096 = 0
    · rw [if_pos (hz.2 h), if_pos h]
    · rw [if_neg (mt hz.1 h), if_neg h, ← hn, BitVec.ofNat_toNat]

theorem portLoop_eq (c : CoreId) (f : Fld) (d : Dev) : portLoop c f d = .next (d.onCore c fun k => { k with
    ls := k.pc + 1
    le := k.pc + BitVec.ofNat 36 (f.src.toNat % 4096)
    lc := BitVec.ofNat 13 (if f.src.toNat / 4096 = 0 then 4096 else f.src.toNat / 4096)
    sw := k.sw ||| 0x1000#36 }) := by
  obtain ⟨hle, hlc⟩ := loop_fields f.src
  simp only [portLoop, hle, hlc]
  rfl

/-! ### The boundary behind an instruction (R223, R225) -/

section Boundary

variable {k : Core} (fr : Nat)

theorem Core.complete_of_no_slot (h : k.slot = none) : k.complete fr = { k with sriHold := false }.advance fr := by
  simp only [Core.complete, h]

/-- Outside a loop's end the next instruction is the one behind. -/
theorem Core.advance_of_not_loop (h : k.sw.getLsbD 12 = false) : k.advance fr = { k with pc := k.pc + 1 } := by
  simp only [Core.advance, h, Bool.false_and, Bool.false_eq_true, if_false]

/-- At a loop's end with more than one pass left, PC goes back to its start. -/
theorem Core.advance_of_next_pass (h : k.sw.getLsbD 12 = true) (hpc : k.pc = k.le) (hlc : 1 < k.lc.toNat) :
    k.advance fr = { k with lc := k.lc - 1, pc := k.ls, fetchFaults := [] } := by
  have h0 : k.lc ≠ 0#13 := fun e => by simp [e] at hlc
  have h1 : k.lc - 1 ≠ 0#13 := fun e => by simp [sub_eq_zero.1 e] at hlc
  simp only [Core.advance, h, hpc, h0, h1, decide_true, Bool.and_self, if_true, if_false, ne_eq, not_false_eq_true]

/-- At the end of a loop's last pass, PC goes on and SW.LP falls. -/
theorem Core.advance_of_last_pass (h : k.sw.getLsbD 12 = true) (hpc : k.pc = k.le) (hlc : k.lc = 1) :
    k.advance fr = { k with lc := 0, sw := putBit k.sw 12 false, pc := k.le + 1 } := by
  simp [Core.advance, h, hpc, hlc]

/-- Behind a taken branch's slot PC is its target; a target outside the loop ends the loop. -/
theorem Core.complete_of_target {sl : SlotSt} {t : Word} (h : k.slot = some sl) (ht : sl.target = some t) : k.complete fr =
    { k with
      sriHold := false, slot := none, pc := t, fetchFaults := []
      sw := if k.sw.getLsbD 12 && (t.toNat < k.ls.toNat || k.le.toNat < t.toNat) then putBit k.sw 12 false else k.sw } := by
  simp only [Core.complete, h, ht]

end Boundary

/-- Settles O12: the taken branches, LOOP, and the boundary by the slot and the loop. -/
theorem branchesLoopsAndBoundaries : Obligations.BranchesLoopsAndBoundaries := by
  refine ⟨⟨?jmp, ?jmpr, ?call, ?callr⟩, ?loop, fun k fr => ⟨?on, ?next, ?last, ?target⟩⟩
  case jmp | jmpr | call | callr => exact branches fun _ _ _ => rfl
  case loop => exact fun c f s he => answers_completed rfl he (by decide) (portLoop_eq c f s.dev)
  case on =>
    intro hs hl
    rw [Core.complete_of_no_slot fr hs, Core.advance_of_not_loop fr (by exact hl)]
    exact ⟨rfl, rfl⟩
  case next =>
    intro hs hl hpc hlc
    rw [Core.complete_of_no_slot fr hs, Core.advance_of_next_pass fr (by exact hl) (by exact hpc) (by exact hlc)]
    exact ⟨rfl, rfl, rfl⟩
  case last =>
    intro hs hl hpc hlc
    rw [Core.complete_of_no_slot fr hs, Core.advance_of_last_pass fr (by exact hl) (by exact hpc) (by exact hlc)]
    exact ⟨rfl, rfl, getLsbD_putBit_self _ _ (by decide)⟩
  case target =>
    intro sl t hs ht
    rw [Core.complete_of_target fr hs ht]
    refine ⟨rfl, rfl, rfl, ?_⟩
    by_cases hout : t.toNat < k.ls.toNat ∨ k.le.toNat < t.toNat
    · have hin : ¬ (k.ls.toNat ≤ t.toNat ∧ t.toNat ≤ k.le.toNat) := by omega
      rw [decide_eq_false hin, Bool.and_false]
      split
      case isTrue => exact getLsbD_putBit_self _ _ (by decide)
      case isFalse h => simpa [hout] using h
    · have hin : k.ls.toNat ≤ t.toNat ∧ t.toNat ≤ k.le.toNat := by omega
      simp [hout, hin]

/-! ### TRAP and RTT (R230, R257, R258) -/

/-- An exception at an instruction in no slot waits with its address, and changes nothing else. -/
theorem Core.raise_of_no_slot {k : Core} (vec : BitVec 7) (syn : Option (Word × Word)) (off : Word) (res : Bool)
    (h : k.slot = none) : k.raise vec syn off res = { k with raised := some ⟨vec, k.pc + off, false, res, syn⟩ } := by
  simp only [Core.raise, h]

/-- TRAP raises vector 64 + n, and pushes the address behind it (R230). -/
theorem portTrap_eq (c : CoreId) (f : Fld) (d : Dev) :
    portTrap c f d = .exc (BitVec.ofNat 7 (64 + f.src.toNat)) none 1 false d := by
  rw [BitVec.ofNat_add]
  rfl

/-- RTT in supervisor mode without a chained event pops SW and PC. -/
theorem portRtt_of_return {c : CoreId} {f : Fld} {d d1 d2 : Dev} {w pc : Word} (hu : (d.core c).user = false)
    (hl : (d.core c).longop = none) (h1 : d.load c false (d.core c).sp = .ok w d1) (htc : (d1.core c).sw.getLsbD 9 = false)
    (h2 : d1.load c false ((d.core c).sp + 1) = .ok pc d2) : portRtt c f d =
      .jump (d2.onCore c fun k => { k with
        sw := d1.swHeld c w, pc := pc, sp := (d.core c).sp + 2, sriHold := false, fetchFaults := [] }) := by
  have hd : d.onCore c Core.deliverFlags = d := by rw [Dev.onCore, Core.deliverFlags_of_none _ hl, Dev.setCore_core]
  simp only [portRtt, hu, hd, h1, h2, htc, CRes.act, Bool.false_eq_true, if_false]

/-- Settles O13. RTT reads SW.TC of the core that its first load leaves, which is that of before it. -/
theorem trapAndReturn : Obligations.TrapAndReturn := by
  refine ⟨?trap, ?rtt⟩
  case trap =>
    intro c f s he k hs
    have h := answers_conclude (x := .trap c f) rfl he (portTrap_eq c f s.dev)
    rwa [Dev.conclude, Dev.onCore, Core.raise_of_no_slot _ _ _ _ hs] at h
  case rtt =>
    intro c f s w pc d1 d2 he k hu hl htc h1 hsw h2
    exact answers_conclude (x := .rtt c f) rfl he (portRtt_of_return hu hl h1 (hsw ▸ htc) h2)

end Sys2Proof.Machine
end

section
/-! The special registers (R201 to R208): what a move to SRI and one to SRV write, and O15 from them. -/

namespace Sys2Proof.Machine

open Sys2Proof

/-! ### The step of an index register (R213) -/

theorem Core.stepIdx_frame (k : Core) (i : BitVec 2) (b : Word) :
    ∃ x1 x2 sp, k.stepIdx i b = { k with x1 := x1, x2 := x2, sp := sp } := by
  unfold Core.stepIdx
  split <;> exact ⟨_, _, _, rfl⟩

section Step

variable (k : Core) (i : BitVec 2) (b : Word)

@[simp] theorem Core.stepIdx_sri : (k.stepIdx i b).sri = k.sri := by
  obtain ⟨_, _, _, h⟩ := k.stepIdx_frame i b
  rw [h]

@[simp] theorem Core.stepIdx_sw : (k.stepIdx i b).sw = k.sw := by
  obtain ⟨_, _, _, h⟩ := k.stepIdx_frame i b
  rw [h]

@[simp] theorem Core.stepIdx_longop : (k.stepIdx i b).longop = k.longop := by
  obtain ⟨_, _, _, h⟩ := k.stepIdx_frame i b
  rw [h]

end Step

/-! ### SRI (R203) -/

/-- An instruction that sets SRI completes into a boundary that accepts no interrupt (R203, R260). -/
theorem Dev.conclude_sri (k : Core) (c : CoreId) (f : Fld) (d : Dev) :
    Dev.conclude k c 0x3B f (.next d) = (d.complete1 c).onCore c fun k => { k with sriHold := true } := rfl

theorem portSri_of_operand {c : CoreId} {f : Fld} {d0 d : Dev} {w : Word} (h : d0.operand c f = .ok w d) :
    portSri c f d0 = .next (d.setCore c { (d.core c).stepIdx (stepOf f) 1 with sri := w.setWidth 6 }) := by
  simp only [portSri, valueAct, h, CRes.act, ← BitVec.setWidth_eq_extractLsb' (show 6 ≤ 36 by decide)]
  rfl

/-! ### A write through SRV, by the register that SRI names (R201 to R208) -/

section Write

variable {d : Dev} {c : CoreId} {k : Core}

theorem Dev.swHeld_setCore (d : Dev) (c e : CoreId) (k : Core) (w : Word) : (d.setCore c k).swHeld e w = d.swHeld e w := by
  cases c <;> rfl

/-- A write of SW in supervisor mode; the fetches made before it are squashed (R201, R242). -/
theorem Dev.srWrite_sw (w : Word) (h : k.sri.toNat = 0) (hl : k.longop = none) (hu : k.user = false) :
    (d.setCore c k).srWrite c w = .ok () (d.setCore c { k with sw := d.swHeld c w, fetchFaults := [] }) := by
  simp only [Dev.srWrite, Dev.core_setCore_self, h, Dev.onCore_setCore, Core.deliverFlags_of_none _ hl, Dev.swWritten, hu,
    Bool.false_eq_true, if_false, Dev.swHeld_setCore]

/-- A reserved rounding mode leaves RM (R206, R208). -/
theorem fpcrWritten_eq (old w : Word) : fpcrWritten old w =
    if (w >>> 16).toNat % 8 ≤ 4 then w &&& 0x71F1F#36 else (w &&& 0x01F1F#36) ||| (old &&& 0x70000#36) := by
  have hn : (w.extractLsb' 16 3).toNat = (w >>> 16).toNat % 8 := by
    rw [BitVec.extractLsb'_toNat, BitVec.toNat_ushiftRight]
  rw [fpcrWritten, hn]
  split
  case isTrue h => rw [if_neg (by omega)]
  case isFalse h => rw [if_pos (by omega)]

theorem Dev.srWrite_fpcr (w : Word) (h : k.sri.toNat = 10) (hl : k.longop = none) :
    (d.setCore c k).srWrite c w = .ok () (d.setCore c { k with fpcr :=
      if (w >>> 16).toNat % 8 ≤ 4 then w &&& 0x71F1F#36 else (w &&& 0x01F1F#36) ||| (k.fpcr &&& 0x70000#36) }) := by
  have hk : k.deliverF36 = k := by simp [Core.deliverF36, hl]
  simp only [Dev.srWrite, Dev.core_setCore_self, h, Dev.onCore_setCore, hk, fpcrWritten_eq]

theorem Dev.srWrite_imask (w : Word) (h : k.sri.toNat = 14) :
    (d.setCore c k).srWrite c w = .ok () (d.setCore c { k with
      imask := w.setWidth 9 &&& (if c = .warden then 0x1FF#9 else 0x03F#9) }) := by
  have hm : imaskBits c = if c = .warden then 0x1FF#9 else 0x03F#9 := by cases c <;> rfl
  simp only [Dev.srWrite, Dev.core_setCore_self, h, Dev.onCore_setCore, hm,
    ← BitVec.setWidth_eq_extractLsb' (show 9 ≤ 36 by decide)]

/-- TIME, RUNST, ICAUSE and IPEND take no write (R202). -/
theorem Dev.srWrite_readOnly (w : Word)
    (h : k.sri.toNat = 7 ∨ k.sri.toNat = 8 ∨ k.sri.toNat = 12 ∨ k.sri.toNat = 13 ∨ k.sri.toNat = 15) :
    (d.setCore c k).srWrite c w = .ok () (d.setCore c k) := by
  rcases h with h | h | h | h | h <;> simp only [Dev.srWrite, Dev.core_setCore_self, h]

end Write

/-- A move to SRV in supervisor mode is its write behind the step of the index (R203, R213). -/
theorem portSrv_of_write {c : CoreId} {f : Fld} {d0 d e : Dev} {w : Word} (hu : (d0.core c).user = false)
    (ho : d0.operand c f = .ok w d) (hw : (d.setCore c ((d.core c).stepIdx (stepOf f) 1)).srWrite c w = .ok () e) :
    portSrv c f d0 = .next e := by
  simp only [portSrv, Core.srPrivileged, hu, Bool.false_and, Bool.false_eq_true, if_false, ho, CRes.act, Dev.onCore, hw]

/-- Settles O15: SRI takes its bits and holds the boundary; a move to SRV is the write of the register that SRI names. -/
theorem specialRegisterPorts : Obligations.SpecialRegisterPorts := by
  refine ⟨?sri, ?srv⟩
  case sri =>
    intro c f s w d he ho k
    have h := answers_conclude (x := .sri c f) rfl he (portSri_of_operand ho)
    rwa [Dev.conclude_sri] at h
  case srv =>
    intro c f s w d he hu ho hl hu' hsri k n does
    have hn : k.sri.toNat = n := by rw [Core.stepIdx_sri, hsri]
    have hkl : k.longop = none := by rw [Core.stepIdx_longop, hl]
    have hku : k.user = false := by rw [Core.user, Core.stepIdx_sw]; exact hu'
    have hdoes : ∀ j, (d.setCore c k).srWrite c w = .ok () (d.setCore c j) → does j := fun j hw =>
      answers_completed rfl he (by decide) (portSrv_of_write hu ho hw)
    refine ⟨?sw, ?vbr, ?ls, ?le, ?lc, ?flt, ?fcs, ?fpcr, ?tre, ?imask, ?readOnly⟩
    case sw => exact fun h => hdoes _ (Dev.srWrite_sw w (hn.trans h) hkl hku)
    case fpcr => exact fun h => hdoes _ (Dev.srWrite_fpcr w (hn.trans h) hkl)
    case imask => exact fun h => hdoes _ (Dev.srWrite_imask w (hn.trans h))
    case readOnly => exact fun h => hdoes _ (Dev.srWrite_readOnly w (hn ▸ h))
    case vbr | ls | le | lc | flt | fcs | tre =>
      intro h
      refine hdoes _ ?_
      simp only [Dev.srWrite, Dev.core_setCore_self, hn.trans h, Dev.onCore_setCore,
        ← BitVec.setWidth_eq_extractLsb' (show 13 ≤ 36 by decide)] <;> rfl

end Sys2Proof.Machine
end

section
/-! The sparse memories read back, and the drain of the store buffer (R249, R275, R280, R290): what a drain reaches, what it leaves
of its pier, and O10 from them. -/

namespace Sys2Proof.Machine

open Sys2Proof

/-! ### A sparse memory read after a write (R275, R280) -/

section Sparse

variable {w : Nat}

/-- Below its first address a memory in canonical form reads zero. -/
theorem SMem.get_of_lt {m : SMem w} {a : Nat} (h : ∀ e ∈ m, a < e.1) : m.get a = 0 := by
  induction m with
  | nil => rfl
  | cons e m ih =>
    obtain ⟨b, v⟩ := e
    have hb : a ≠ b := (h (b, v) List.mem_cons_self).ne
    simpa only [SMem.get, if_neg hb] using ih fun e he => h e (List.mem_cons_of_mem _ he)

theorem SMem.get_set_self {m : SMem w} (a : Nat) (x : BitVec w) (h : m.wf = true) : (m.set a x).get a = x := by
  induction m with
  | nil =>
    by_cases hx : x = 0#w
    · simp [SMem.set, SMem.get, hx]
    · simp [SMem.set, SMem.get, hx]
  | cons e m ih =>
    obtain ⟨b, v⟩ := e
    obtain ⟨-, hb, hm⟩ := (SMem.wf_cons b v m).1 h
    simp only [SMem.set]
    split_ifs with h1 h2 h3 h4
    · have hl : ∀ e ∈ (b, v) :: m, a < e.1 := List.forall_mem_cons.2 ⟨h1, fun e he => h1.trans (hb e he)⟩
      rw [SMem.get_of_lt hl, h2]
    · simp [SMem.get]
    · rw [h3, h4]
      exact SMem.get_of_lt hb
    · simp [SMem.get]
    · simp only [SMem.get, if_neg h3, ih hm]

theorem SMem.get_set_of_ne (m : SMem w) {a b : Nat} (x : BitVec w) (h : b ≠ a) : (m.set a x).get b = m.get b := by
  induction m with
  | nil => by_cases hx : x = 0#w <;> simp [SMem.set, SMem.get, hx, h]
  | cons e m ih =>
    obtain ⟨c, v⟩ := e
    simp only [SMem.set]
    split_ifs with h1 h2 h3 h4
    · rfl
    · simp [SMem.get, h]
    · simp [SMem.get, ← h3, h]
    · simp [SMem.get, ← h3, h]
    · simp only [SMem.get, ih]

/-- A memory of which some addresses are kept reads zero at the others. -/
theorem SMem.get_filter (m : SMem w) (q : Nat → Bool) (a : Nat) :
    SMem.get (m.filter fun e => q e.1) a = if q a then m.get a else 0 := by
  induction m with
  | nil => exact (ite_self _).symm
  | cons e m ih =>
    obtain ⟨b, v⟩ := e
    by_cases hb : a = b
    · subst hb
      cases hq : q a <;> simp [SMem.get, hq, ih]
    · cases hq : q b <;> simp [SMem.get, hq, hb, ih]

/-- A range that is zeroed reads zero, and the rest as before. -/
theorem SMem.get_clear (m : SMem w) (lo hi a : Nat) : SMem.get (m.clear lo hi) a = if lo ≤ a ∧ a < hi then 0 else m.get a := by
  refine (SMem.get_filter m (fun n => n < lo || hi ≤ n) a).trans ?_
  have h : (decide (a < lo) || decide (hi ≤ a)) = !decide (lo ≤ a ∧ a < hi) := by
    rw [Bool.eq_iff_iff]
    simp
  by_cases ha : lo ≤ a ∧ a < hi <;> simp [h, ha]

end Sparse

/-! ### A write of a whole word (R221, R249, R280) -/

theorem mergeNonets_whole (old w : Word) : mergeNonets 0xF#4 old w = w := by
  have hm : (List.range 4).foldl (fun acc k => if (0xF#4).getLsbD k then acc ||| (0x1FF#36 <<< (9 * k)) else acc) (0 : Word) =
      BitVec.allOnes 36 := by decide
  simp only [mergeNonets, hm, BitVec.not_allOnes, BitVec.and_zero, BitVec.zero_or, BitVec.and_allOnes]

section Bank

variable {P : Pier} {i : Ident} {b : Fin 16} {a : Nat} {pa : Word} {now : Nat}

/-- An access of the owner to a bank that is scoured waits (R280). -/
theorem bankGrant_of_scour (m : Master) (hi : identMatches i P.mem.bank[b].owner = true) (hs : P.mem.bank[b].scour = true) :
    bankGrant P now i m b = .held P := by
  simp only [bankGrant, bankWait, hi, hs, Bool.not_true, Bool.false_eq_true, if_false, if_true]

/-- An access of the owner to an awake bank is granted to a master that no lock keeps out (R279, R283, R284). -/
theorem bankGrant_of_awake {m : Master} (hm : masterUnlocked m = true) (hi : identMatches i P.mem.bank[b].owner = true)
    (hs : P.mem.bank[b].scour = false) (hr : P.mem.bank[b].retn = .awake) :
    bankGrant P now i m b = .ok () (P.onBank b fun k => { k with lastUse := now }) := by
  simp only [bankGrant, bankWait, hi, hs, hr, hm, Bool.not_true, Bool.and_false, Bool.false_eq_true, if_false, reduceCtorEq]

theorem isWindow_of_bank {p : Fin 16} (h : physTarget pa = .bank b a) : isWindow (.pier p) pa = false := by
  simp only [isWindow, coreWindow, h, Option.isSome_none]

end Bank

/-! ### The drain (R249, R290) -/

section Drain

variable {d e : Dev} {c : CoreId} {p : Fin 16} {x : SbEntry} {rest : List SbEntry} {P Q : Pier}

/-- STORE_BUFFER_DRAIN is the drain of the oldest store, whether it goes or waits. -/
theorem answers_storeBufferDrain {s : State} (h : s.dev.drainHead c = .done e ∨ s.dev.drainHead c = .held e) :
    Answers (.storeBufferDrain c) s e := by
  rcases h with h | h
  all_goals
    simp only [Answers, exec, execStoreBufferDrain, h]
    rfl

theorem Dev.drainHead_of_empty (h : (d.core c).sbuf = []) : d.drainHead c = .done d := by
  simp only [Dev.drainHead, h]

/-- The drain of a whole word to the warden's SRAM (R290). -/
theorem Dev.drainHead_sram {k : Nat} (h : d.warden.core.sbuf = x :: rest) (he : x.en = 0xF#4)
    (ht : wardenTarget d.life.remap x.pa = .sram k) : d.drainHead .warden = .done { d with warden := { d.warden with
      core := { d.warden.core with sbuf := rest }, sram := d.warden.sram.set k (eccEncode x.data) } } := by
  simp only [Dev.drainHead, Dev.core, h, Dev.drainWarden, Dev.onCore_life, ht, he, if_true, mergeNonets_whole]
  rfl

/-- The pier whose core has given up its oldest store. -/
def Pier.popped (P : Pier) (rest : List SbEntry) : Pier := { P with core := { P.core with sbuf := rest } }

theorem Dev.onCore_popped (d : Dev) (p : Fin 16) (rest : List SbEntry) :
    d.onCore (.pier p) (fun k => { k with sbuf := rest }) = d.setPier p ((d.pier p).popped rest) := rfl

variable (h : (d.pier p).core.sbuf = x :: rest) (hx : isWindow (.pier p) x.pa = false)

include h hx

/-- A store outside the windows leaves the buffer once memory has taken it. -/
theorem Dev.drainHead_of_written
    (hw : physWrite ((d.pier p).popped rest) d.now x.ident .seqData false x.pa x.data x.en false = .ok () Q) :
    d.drainHead (.pier p) = .done (d.setPier p Q) := by
  have hd : (d.setPier p ((d.pier p).popped rest)).drainPier p x = .done (d.setPier p Q) := by
    simp only [Dev.drainPier, hx, Dev.pier_setPier_self, Dev.now, Dev.setPier_time, Bool.false_eq_true, if_false]
    rw [Dev.now] at hw
    simp only [hw, Dev.setPier_setPier]
  simp only [Dev.drainHead, Dev.core, h, Dev.onCore_popped, hd]

/-- A store outside the windows that memory holds stays the oldest. -/
theorem Dev.drainHead_of_held
    (hw : physWrite ((d.pier p).popped rest) d.now x.ident .seqData false x.pa x.data x.en false = .held Q) :
    d.drainHead (.pier p) = .held (d.setPier p (Q.popped (x :: rest))) := by
  have hd : (d.setPier p ((d.pier p).popped rest)).drainPier p x = .held (d.setPier p Q) := by
    simp only [Dev.drainPier, hx, Dev.pier_setPier_self, Dev.now, Dev.setPier_time, Bool.false_eq_true, if_false]
    rw [Dev.now] at hw
    simp only [hw, Dev.setPier_setPier]
  simp only [Dev.drainHead, Dev.core, h, Dev.onCore_popped, hd, Dev.pier_setPier_self, Dev.setPier_setPier]

end Drain

/-- Settles O10: the drain of an empty buffer, of the warden's oldest store, and of a sequencer's while its bank is scoured and while
it is awake. -/
theorem storeBufferDrainWritesOneWord : Obligations.StoreBufferDrainWritesOneWord := by
  refine ⟨?empty, ?warden, ?scour, ?awake⟩
  case empty =>
    intro c s h
    exact answers_storeBufferDrain (.inl (Dev.drainHead_of_empty h))
  case warden =>
    intro s x rest k h he ht
    exact answers_storeBufferDrain (.inl (Dev.drainHead_sram h he ht))
  case scour =>
    intro p s x rest b a P h hb hi hs
    have hw : physWrite (P.popped rest) s.dev.now x.ident .seqData false x.pa x.data x.en false = .held (P.popped rest) := by
      simp only [physWrite, hb, bankGrant_of_scour (P := P.popped rest) .seqData hi hs]
    refine (answers_storeBufferDrain (.inr (Dev.drainHead_of_held h (isWindow_of_bank hb) hw))).answersWith ⟨?_, ?_, ?_⟩
    · simp [Dev.core, Pier.popped]
    · simp [Pier.popped, P]
    · exact fun q hq => Dev.pier_setPier_of_ne _ _ hq
  case awake =>
    intro p s x rest b a P h he hb hi hs hr hwf
    have hw : physWrite (P.popped rest) s.dev.now x.ident .seqData false x.pa x.data x.en false = .ok ()
        (bankStore ((P.popped rest).onBank b fun k => { k with lastUse := s.dev.now }) a (eccEncode x.data)) := by
      simp only [physWrite, hb, bankGrant_of_awake (P := P.popped rest) (m := .seqData) rfl hi hs hr, he, Bool.false_eq_true, if_false,
        if_true]
    refine (answers_storeBufferDrain (.inl (Dev.drainHead_of_written h (isWindow_of_bank hb) hw))).answersWith ?_
    simp only [Dev.core, Dev.pier_setPier_self]
    exact ⟨rfl, SMem.get_set_self _ _ hwf, fun y hy => SMem.get_set_of_ne _ _ hy, rfl, rfl, rfl,
      fun q hq => Dev.pier_setPier_of_ne _ _ hq⟩

end Sys2Proof.Machine
end

section
/-! The entry of an exception (R251, R255, R258, R261, R262): which event a core enters at an interruptible boundary, and what the
entry pushes and leaves; O14 from them. -/

namespace Sys2Proof.Machine

open Sys2Proof

/-! ### The entry at a boundary, by rank (R258, R261) -/

section Rank

variable {k : Core}

theorem Core.entryRaised_frame (k : Core) (x : Exc) : ∃ flt fcs,
    k.entryRaised x = ⟨x.vec, x.pc, x.bds, x.res, { k with raised := none, flt := flt, fcs := fcs }⟩ := by
  simp only [Core.entryRaised]
  cases x.syn <;> exact ⟨_, _, rfl⟩

section Boundary

variable (hb : k.raised.any (·.bds) = false) (hi : k.interruptible = true)

include hb hi

theorem Core.entryOf_trap {v : BitVec 7} {ts : List (BitVec 7)} (h : k.traps = v :: ts) :
    k.entryOf = some ⟨v, k.pc, false, k.raised.any (·.res), { k with traps := ts, raised := none }⟩ := by
  simp [Core.entryOf, hb, hi, h]

theorem Core.entryOf_event {v : BitVec 7} (ht : k.traps = []) (h : k.event = some v) : k.entryOf =
    some ⟨v, k.pc, false, k.raised.any (·.res), { k.accept (k.sw.getLsbD 7) with raised := none }⟩ := by
  simp [Core.entryOf, hb, hi, ht, h]

theorem Core.entryOf_raised (ht : k.traps = []) (h : k.event = none) : k.entryOf = k.raised.map k.entryRaised := by
  simp [Core.entryOf, hb, hi, ht, h]

end Boundary

/-- The lowest pending and enabled interrupt (R261). -/
theorem lowestPending_eq_some {p : BitVec 9} {j : Nat} (hj : j < 9) (h : p.getLsbD j = true) (hl : ∀ i < j, p.getLsbD i = false) :
    lowestPending p = some j := by
  rw [lowestPending, List.find?_range_eq_some]
  exact ⟨h, List.mem_range.2 hj, fun i hi => by rw [hl i hi]; rfl⟩

theorem getLsbD_and_not_two_pow (w : BitVec 9) (j i : Nat) :
    (w &&& ~~~ BitVec.ofNat 9 (2 ^ j)).getLsbD i = (w.getLsbD i && !decide (i = j)) := by
  by_cases hi : i < 9
  · simp only [BitVec.getLsbD_and, BitVec.getLsbD_not, BitVec.getLsbD_ofNat, Nat.testBit_two_pow, hi, decide_true, Bool.true_and,
      eq_comm]
  · simp [BitVec.getLsbD_of_ge w i (by omega)]

end Rank

/-! ### The entry (R251, R255) -/

/-- EXCEPTION_ENTRY of a core that does not run, or has nothing to enter. -/
theorem answers_exceptionEntry_of_none {c : CoreId} {s : State}
    (h : (s.dev.core c).run ≠ .running ∨ (s.dev.core c).entryOf = none) : Answers (.exceptionEntry c) s s.dev := by
  refine congrArg s.answer ?_
  rcases h with h | h
  · simp only [ne_eq, h, not_false_eq_true, if_true]
  · simp only [h, ite_self]

theorem answers_exceptionEntry {c : CoreId} {s : State} {e : Entry} {d : Dev} (hr : (s.dev.core c).run = .running)
    (he : (s.dev.core c).entryOf = some e) (h : s.dev.takeException c e = d) : Answers (.exceptionEntry c) s d := by
  refine congrArg s.answer ?_
  simp only [hr, he, h, ne_eq, not_true_eq_false, if_false]

/-- An entry whose pushes have room and whose vector can be read enters the handler, and abandons a LOCK write that is held
(R251, R255). -/
theorem Dev.takeException_of_read {d d1 d2 d3 d4 : Dev} {c : CoreId} {e : Entry} {p1 p2 h : Word}
    (hp1 : (d.setCore c e.core).probe c .write false ((d.core c).sp - 1) = .ok p1 d1)
    (hp2 : d1.probe c .write false ((d.core c).sp - 2) = .ok p2 d2) (hd : Dev.drainTo c 6 8 d2 = .ok () d3)
    (hv : (((d3.enqueue c p1 ((d.core c).sp - 1) e.pc 0xF#4).enqueue c p2 ((d.core c).sp - 2) (e.pushed (d.core c).sw) 0xF#4).onCore
      c fun j => { j with sw := entrySw (d.core c).sw }).vectorWord c e.vec = .ok h d4) :
    d.takeException c e = match c with
      | .pier p => (d4.onCore c fun k => k.entered e.vec h).onPier p fun P => { P with mem := { P.mem with lockWait := none } }
      | .warden => d4.onCore c fun k => k.entered e.vec h := by
  simp only [Dev.takeException, CRes.bind, hp1, hp2, hd, hv]
  cases c <;> rfl

/-- Settles O14: by the rank of what waits at the boundary, and by the entry's pushes and its vector read, each under the outcome
of the access that it makes. -/
theorem exceptionEntry : Obligations.ExceptionEntry := by
  refine ⟨?rank, fun c s h => answers_exceptionEntry_of_none h, ?entry⟩
  case rank =>
    intro k hs hh hb
    have hi : k.interruptible = true := by simp [Core.interruptible, hs, hh]
    refine ⟨?trap, ?nmi, ?imprecise, ?runFault, ?interrupt, ?raised⟩
    case trap => exact fun v ts h => ⟨_, Core.entryOf_trap hb hi h, rfl, rfl, rfl⟩
    case nmi =>
      intro ht hn
      refine ⟨_, Core.entryOf_event hb hi ht (v := 1) ?_, rfl, rfl, ?_⟩
      · simp [Core.event, Core.eventOf, hn]
      · simp [Core.accept, hn]
    case imprecise =>
      intro x ht hn hx
      refine ⟨_, Core.entryOf_event hb hi ht (v := x.vec) ?_, rfl, ?_⟩
      · simp [Core.event, Core.eventOf, hn, hx]
      · simp [Core.accept, hn, hx]
    case runFault =>
      intro ht hn hx hf
      refine ⟨_, Core.entryOf_event hb hi ht (v := 14) ?_, rfl, ?_⟩
      · simp [Core.event, Core.eventOf, hn, hx, hf]
      · simp [Core.accept, hn, hx, hf]
    case interrupt =>
      intro j ht hn hx hf he hj hp hm hl
      have hlow : lowestPending (k.ipend &&& k.imask) = some j :=
        lowestPending_eq_some hj (by rw [BitVec.getLsbD_and, hp, hm]; rfl) fun i hij => by rw [BitVec.getLsbD_and, hl i hij]
      refine ⟨_, Core.entryOf_event hb hi ht (v := BitVec.ofNat 7 (16 + j)) ?_, rfl, ?_⟩
      · simp [Core.event, Core.eventOf, hn, hx, hf, he, hlow]
      · simp only [Core.accept, hn, hx, hf, he, hlow, Bool.false_eq_true, if_false, if_true, getLsbD_and_not_two_pow]
        exact ⟨by simp, fun i hij => by simp [hij]⟩
    case raised =>
      intro x ht he hx
      obtain ⟨flt, fcs, hr⟩ := k.entryRaised_frame x
      exact ⟨_, by rw [Core.entryOf_raised hb hi ht he, hx, Option.map_some, hr], rfl, rfl, rfl, rfl⟩
  case entry =>
    intro c s e p1 p2 h d1 d2 d3 d4 k hr he hp1 hp2 hd hv d
    refine answers_exceptionEntry hr he ?_
    have ht := Dev.takeException_of_read hp1 hp2 hd hv
    cases c <;> exact ht

end Sys2Proof.Machine
end

section
/-! Banks: ownership, scour, retirement, retention, wake and lock (R269, R278 to R285), and O29 from them. -/

namespace Sys2Proof.Machine

open Sys2Proof

/-! ### Commands of one pier -/

/-- A command that changes pier `p` by `g` answers with the pier that `g` makes of it. -/
theorem answers_setPier {i : Instr} {s : State} {p : Fin 16} {g : Pier → Pier} {Q : Pier}
    (hx : exec i s = s.answer (s.dev.onPier p g)) (h : g (s.dev.pier p) = Q) : Answers i s (s.dev.setPier p Q) := by
  rw [Answers, hx, Dev.onPier, h]
  rfl

/-- A command that leaves its pier as it was changes nothing. -/
theorem answers_of_same_pier {i : Instr} {s : State} {p : Fin 16} {g : Pier → Pier} (hx : exec i s = s.answer (s.dev.onPier p g))
    (h : g (s.dev.pier p) = s.dev.pier p) : Answers i s s.dev := by
  have ha := answers_setPier hx h
  rwa [Dev.setPier_pier] at ha

/-- A command that writes a register of a pier that takes writes. -/
theorem answers_onReg {i : Instr} {s : State} {p : Fin 16} {g : Pier → Pier} (hx : exec i s = s.answer (s.dev.onReg p g))
    (h : s.dev.reachable p = true) : Answers i s (s.dev.setPier p (g (s.dev.pier p))) := by
  rw [Answers, hx, Dev.onReg_of_reachable _ h]
  rfl

/-! ### A bank handed over (R278 to R281, R284) -/

section Bank

variable (P : Pier) (b : Fin 16)

theorem Pier.bank_onBank_self (f : Bank → Bank) : (P.onBank b f).mem.bank[b] = f P.mem.bank[b] := by
  simp [Pier.onBank]

/-- The lock of a bank is free once it is released (R281, R284). -/
theorem unlockBank_lockOn : (unlockBank P b).mem.lockOn =
    if P.mem.lockOn = some (BitVec.ofFin b) then none else P.mem.lockOn := by
  by_cases h : P.mem.lockOn = some (BitVec.ofFin b) <;> by_cases hw : P.mem.lockWait = some (BitVec.ofFin b) <;>
    simp [unlockBank, h, hw]

theorem unlockBank_lock (h : P.mem.lockOn = some (BitVec.ofFin b)) : (unlockBank P b).core.lock = P.core.lock &&& 0x0F#5 := by
  by_cases hw : P.mem.lockWait = some (BitVec.ofFin b) <;> simp [unlockBank, h, hw]

/-- What a bank handed over holds: its new owner, and a scour where the content is another's (R278, R280, R281). -/
theorem handOver_bank (now : Nat) (o : BitVec 7) :
    (handOver P now b o).mem.bank[b].owner = o ∧
    (handOver P now b o).mem.bank[b].scour = (P.mem.bank[b].scour || decide (o.toNat ≤ 65 ∧ o ≠ P.mem.bank[b].content)) ∧
    (handOver P now b o).mem.bank[b].content = (if o.toNat ≤ 65 then o else P.mem.bank[b].content) ∧
    (handOver P now b o).mem.lockOn = (unlockBank P b).mem.lockOn ∧ (handOver P now b o).mem.banks = P.mem.banks := by
  obtain ⟨k, l, w, e⟩ := unlockBank_frame P b
  unfold handOver
  rw [e]
  dsimp only
  split <;> rename_i h <;> rw [Pier.bank_onBank_self, Bool.and_eq_true, decide_eq_true_iff, decide_eq_true_iff] at h
  · rw [Pier.bank_onBank_self, icDropBank_bank, Pier.bank_onBank_self]
    exact ⟨rfl, by rw [decide_eq_true h, Bool.or_true], (if_pos h.1).symm, rfl, rfl⟩
  · rw [Pier.bank_onBank_self]
    simp only [h, decide_false, Bool.or_false]
    refine ⟨trivial, trivial, ?_, rfl, rfl⟩
    split_ifs with ho
    · by_contra hne
      exact h ⟨ho, fun e => hne e.symm⟩
    · rfl

/-- An owner that a write of PR_BANK_OWN does not take (R269, R278, R285). -/
def bankOwnRefused (P : Pier) (b : Fin 16) (o : BitVec 7) : Prop :=
  (66 ≤ o.toNat ∧ o.toNat ≤ 126) ∨ (P.regs.retire.getLsbD b.val = true ∧ o ≠ 0x7F#7) ∨
    (b = 0 ∧ P.core.run ≠ .reset ∧ o ≠ 0x40#7)

section Owner

variable {P b} (now : Nat) {v : DW}

theorem bankOwnWrite_of_refused (h : bankOwnRefused P b (v.setWidth 7)) : bankOwnWrite P now b v = prError P := by
  simp only [bankOwnWrite, ← BitVec.setWidth_eq_extractLsb' (show 7 ≤ 32 by decide), Bool.and_eq_true, decide_eq_true_eq, and_assoc]
  split_ifs with h1 h2 h3 h4
  · rfl
  · rfl
  · rfl
  all_goals exact absurd h (not_or.2 ⟨h1, not_or.2 ⟨h2, h3⟩⟩)

theorem bankOwnWrite_of_accepted (h : ¬ bankOwnRefused P b (v.setWidth 7)) : bankOwnWrite P now b v =
    if v.setWidth 7 = P.mem.bank[b].owner then P else handOver P now b (v.setWidth 7) := by
  obtain ⟨h1, h23⟩ := not_or.1 h
  obtain ⟨h2, h3⟩ := not_or.1 h23
  simp only [bankOwnWrite, ← BitVec.setWidth_eq_extractLsb' (show 7 ≤ 32 by decide), Bool.and_eq_true, decide_eq_true_eq, and_assoc]
  rw [if_neg h1, if_neg h2, if_neg h3]

end Owner

/-! ### Retirement (R285) -/

/-- The pier with the bits of PR_BANK_RETIRE set and its banks not yet retired. -/
def Pier.retiring (P : Pier) (v : DW) : Pier :=
  { P with regs := { P.regs with
    prErr := P.regs.prErr || v.getLsbD 0, retire := P.regs.retire ||| (v.setWidth 16 &&& 0xFFFE#16) } }

/-- Each bank that a write of PR_BANK_RETIRE has set ends with owner 0x7F, in retention. -/
theorem foldl_retireNew_bank {old : BitVec 16} (now : Nat) {c : Fin 16} {l : List (Fin 16)} (hc : c ∈ l) {P : Pier}
    (h : (P.regs.retire.getLsbD c.val && !old.getLsbD c.val) = true) :
    (l.foldl (retireNew old now) P).mem.bank[c].owner = 0x7F#7 ∧ (l.foldl (retireNew old now) P).mem.bank[c].retn = .retained := by
  induction l using List.reverseRecOn with
  | nil => exact absurd hc (List.not_mem_nil)
  | append_singleton l b ih =>
    rw [List.foldl_append, List.foldl_cons, List.foldl_nil]
    obtain ⟨hr, -⟩ := foldl_retireNew old now l P
    rw [retireNew, hr]
    by_cases hb : c = b
    · subst hb
      rw [if_pos h, retireBank, Pier.bank_onBank_self]
      exact ⟨(handOver_bank _ c now 0x7F#7).1, rfl⟩
    · have hl := ih ((List.mem_append.1 hc).resolve_right fun e => hb (List.mem_singleton.1 e))
      split
      · rw [(retireBank_frame _ now b).2.2 c hb]
        exact hl
      · exact hl

/-- A write of PR_BANK_RETIRE sets bits 15 to 1, sets CFG_ERR for bit 0, and retires each bank whose bit it has set. -/
theorem bankRetireWrite_spec (now : Nat) (v : DW) :
    (bankRetireWrite P now v).regs.retire = P.regs.retire ||| (v.setWidth 16 &&& 0xFFFE#16) ∧
    (bankRetireWrite P now v).regs.prErr = (P.regs.prErr || v.getLsbD 0) ∧
    ∀ b : Fin 16, (v.setWidth 16 &&& 0xFFFE#16).getLsbD b.val = true → P.regs.retire.getLsbD b.val = false →
      (bankRetireWrite P now v).mem.bank[b].owner = 0x7F#7 ∧ (bankRetireWrite P now v).mem.bank[b].retn = .retained := by
  have e : bankRetireWrite P now v = (List.finRange 16).foldl (retireNew P.regs.retire now) (P.retiring v) := by
    rw [Pier.retiring, BitVec.setWidth_eq_extractLsb' (show 16 ≤ 32 by decide)]
    cases hv : v.getLsbD 0 <;> simp only [bankRetireWrite, hv, prError, Bool.or_true, Bool.or_false] <;> rfl
  obtain ⟨hr, -⟩ := foldl_retireNew P.regs.retire now (List.finRange 16) (P.retiring v)
  rw [e, hr]
  refine ⟨rfl, rfl, fun b hb ho => foldl_retireNew_bank now (List.mem_finRange b) ?_⟩
  rw [Pier.retiring, BitVec.getLsbD_or, ho, hb]
  rfl

end Bank

/-- Settles O29: the parts of a hand-over, a scour's end, a retirement, and of the retention, wake and lock of a bank, each in its turn and
out of it. -/
theorem bankOwnershipAndRetention : Obligations.BankOwnershipAndRetention := by
  refine ⟨⟨?ownUnreached, ?own⟩, ⟨?scourNone, ?scour⟩, ?retireUnreached, ?retire, ?retention, ?wakeNone, ?lockNone, ?timeoutNone,
    ?wake, ?lock, ?timeout⟩
  case ownUnreached => exact fun p b v s h => congrArg s.answer (Dev.onReg_of_unreachable _ h)
  case own =>
    intro p b v s h P o refused
    have ha : Answers (.prBankOwnWrite p b v) s (s.dev.setPier p (bankOwnWrite P s.dev.now b v)) :=
      answers_onReg (g := fun P => bankOwnWrite P s.dev.now b v) rfl h
    refine ⟨fun hr => ?_, fun hr he => ?_, fun hr he => ?_⟩
    · rwa [bankOwnWrite_of_refused _ hr] at ha
    · rwa [bankOwnWrite_of_accepted _ hr, if_pos he, Dev.setPier_pier] at ha
    · rw [bankOwnWrite_of_accepted _ hr, if_neg he] at ha
      refine ha.answersWith ?_
      obtain ⟨howner, hscour, hcontent, hlock, hbanks⟩ := handOver_bank P b s.dev.now o
      obtain ⟨-, hquarry, -, hother⟩ := handOver_frame P s.dev.now b o
      rw [Dev.pier_setPier_self]
      refine ⟨howner, hscour, hcontent, ?_, hbanks, hquarry, hother⟩
      rw [hlock, unlockBank_lockOn]
      split_ifs with hl
      · exact Option.some_ne_none _ |>.symm
      · exact hl
  case scourNone =>
    intro p b s h
    refine answers_of_same_pier (g := fun P => if P.mem.bank[b].scour then scourEnd P b else P) rfl (if_neg ?_)
    rw [h]
    exact Bool.false_ne_true
  case scour =>
    intro p b s h
    refine (answers_setPier (g := fun P => if P.mem.bank[b].scour then scourEnd P b else P) rfl (if_pos h)).answersWith ?_
    rw [Dev.pier_setPier_self]
    refine ⟨?_, fun a ha => (SMem.get_clear _ _ _ a).trans (if_pos ?_), fun a ha => (SMem.get_clear _ _ _ a).trans (if_neg ?_), rfl,
      rfl⟩
    · exact congrArg Bank.scour (Pier.bank_onBank_self _ b fun k => { k with scour := false })
    · omega
    · omega
  case retireUnreached => exact fun p v s h => congrArg s.answer (Dev.onReg_of_unreachable _ h)
  case retire =>
    intro p v s h P new
    refine Answers.answersWith (answers_onReg rfl h) ?_
    rw [Dev.pier_setPier_self]
    exact bankRetireWrite_spec P s.dev.now v
  case retention =>
    intro p b s P k idle
    refine ⟨fun hi => answers_setPier (p := p) rfl (if_pos ?_), fun hi => answers_of_same_pier (p := p) rfl (if_neg ?_)⟩
    all_goals
      simp only [Bool.and_eq_true, decide_eq_true_eq, Bool.not_eq_true', and_assoc]
      exact hi
  case wakeNone =>
    intro p b s h
    refine answers_of_same_pier (p := p) rfl (if_neg ?_)
    rw [Bool.and_eq_true, decide_eq_true_eq, decide_eq_true_eq]
    exact fun hc => h.elim (fun hr => hr hc.1) fun ht => ht.not_ge hc.2
  case lockNone =>
    intro p s h
    refine answers_of_same_pier (p := p) rfl ?_
    cases hw : (s.dev.pier p).mem.lockWait with
    | none => rfl
    | some b => exact if_pos (h b hw)
  case timeoutNone =>
    intro p s h
    refine answers_of_same_pier (p := p) rfl ?_
    simp only [h]
  case wake =>
    intro p b s hr ht
    refine answers_setPier (p := p) rfl (if_pos ?_)
    simp only [hr, ht, decide_true, Bool.and_self]
  case lock =>
    intro p b s P hw hu
    refine answers_setPier (p := p) rfl ?_
    simp only [P] at hw hu
    simp only [hw, hu]
    rfl
  case timeout =>
    intro p b s h
    refine (answers_setPier (p := p) (Q := (unlockBank (s.dev.pier p) b.toFin).detect 0x0B b.toNat 0) rfl ?_).answersWith ?_
    · simp only [h]
    · obtain ⟨k, l, w, e⟩ := unlockBank_frame (s.dev.pier p) b.toFin
      rw [Dev.pier_setPier_self]
      refine ⟨?_, unlockBank_lock _ _ h, by simp only [Pier.detect, e]⟩
      exact (unlockBank_lockOn _ _).trans (if_pos h)

end Sys2Proof.Machine
end

section
/-! The core timer, the instruction cache, table walks and the release of a core (R240, R242, R267 to R269, R310): what each of
these events leaves, and O18 from them. -/

namespace Sys2Proof.Machine

open Sys2Proof

/-! ### The instruction cache (R240, R242) -/

theorem mem_icFill (fr : Nat) (l : IcLine) (cache : List IcLine) : l ∈ icFill fr l cache := by
  simp only [icFill]
  split <;> simp

theorem Core.mem_recordFetch (k : Core) (va : Word) (vec : BitVec 7) (fcs : Word) :
    (⟨va, vec, va, fcs⟩ : FetchFault) ∈ (k.recordFetch va vec fcs).fetchFaults :=
  List.mem_append_right _ List.mem_cons_self

/-- The pier once a fault is recorded with the word fetched at `va` (R242). -/
def Pier.noteFetch (P : Pier) (va : Word) (vec : BitVec 7) (fcs : Word) : Pier := { P with core := P.core.recordFetch va vec fcs }

/-- The identity of a fetch (R277). -/
def Pier.fetchIdent (P : Pier) : Ident := if P.core.user then tagIdent P.regs.tag else .supervisor

section Fetch

variable {P Q P1 P2 P3 : Pier} {now fr : Nat} {va pa w : Word}

/-- A cached line answers as it stands. -/
theorem fetchWord_of_hit {l : IcLine} (h : P.mem.icache.find? (fun l => l.line = pa.toNat / 8) = some l) :
    (fetchWord P now fr va pa).pier = { P with core := P.core.dropFetch va } := by
  simp only [fetchWord, h, FetchRes.pier]

section Miss

variable (h : ∀ l ∈ P.mem.icache, l.line ≠ pa.toNat / 8)

include h

theorem find?_icache_eq_none : P.mem.icache.find? (fun l => l.line = pa.toNat / 8) = none :=
  List.find?_eq_none.2 fun l hl => by simpa using h l hl

theorem fetchWord_of_filled {ws : List Word} (hr : physRead P now P.fetchIdent .fetch pa = .ok w P2)
    (hw : icWords now P.fetchIdent 8 (8 * (pa.toNat / 8)) { P2 with core := P2.core.dropFetch va } = (some ws, P3)) :
    (fetchWord P now fr va pa).pier =
      { P3 with mem := { P3.mem with icache := icFill fr ⟨pa.toNat / 8, ws⟩ P3.mem.icache } } := by
  rw [Pier.fetchIdent] at hr hw
  simp only [fetchWord, find?_icache_eq_none h, hr, hw, FetchRes.pier]

/-- A line of which some word cannot be read stays out of the cache. -/
theorem fetchWord_of_unfilled (hr : physRead P now P.fetchIdent .fetch pa = .ok w P2)
    (hw : icWords now P.fetchIdent 8 (8 * (pa.toNat / 8)) { P2 with core := P2.core.dropFetch va } = (none, P3)) :
    (fetchWord P now fr va pa).pier = P3 := by
  rw [Pier.fetchIdent] at hr hw
  simp only [fetchWord, find?_icache_eq_none h, hr, hw, FetchRes.pier]

theorem fetchWord_of_held (hr : physRead P now P.fetchIdent .fetch pa = .held P2) :
    (fetchWord P now fr va pa).pier = { P with mem := { P.mem with bank := P2.mem.bank } } := by
  rw [Pier.fetchIdent] at hr
  simp only [fetchWord, find?_icache_eq_none h, hr, FetchRes.pier]

theorem fetchWord_of_bus {kind : Nat} (hr : physRead P now P.fetchIdent .fetch pa = .bus kind P2) :
    (fetchWord P now fr va pa).pier =
      P2.noteFetch va (if kind = 0xF then 7 else 8) (mkFcs P2.core.user .execute 0 false 0 kind) := by
  rw [Pier.fetchIdent] at hr
  simp only [fetchWord, find?_icache_eq_none h, hr, FetchRes.pier, Pier.noteFetch]

theorem fetchWord_of_rubble (hr : physRead P now P.fetchIdent .fetch pa = .rubble P2) :
    (fetchWord P now fr va pa).pier = P2.noteFetch va 7 (mkFcs P2.core.user .execute 0 false 0 0xF) := by
  rw [Pier.fetchIdent] at hr
  simp only [fetchWord, find?_icache_eq_none h, hr, FetchRes.pier]
  rfl

end Miss

theorem fetchVa_of_fetches (h : Fetches P now va pa Q) : fetchVa P now fr va = fetchWord Q now fr va pa := by
  simp only [Fetches] at h
  simp only [fetchVa, Bool.or_eq_true]
  split_ifs at h ⊢ with ht
  · simp only [h]
  · rw [h.1, h.2]

/-- A fetch whose translation fails records the fault with its word (R242). -/
theorem fetchVa_of_fault {vec : BitVec 7} {fcs : Word} (ht : P.core.user = true ∨ P.core.te = true)
    (h : translate (pierTrCtx P P.core.user) now false .execute va P = .fault vec fcs P1) :
    (fetchVa P now fr va).pier = P1.noteFetch va vec fcs := by
  simp only [fetchVa, Bool.or_eq_true, if_pos ht, h, FetchRes.pier, Pier.noteFetch]

theorem fetchVa_of_held (ht : P.core.user = true ∨ P.core.te = true)
    (h : translate (pierTrCtx P P.core.user) now false .execute va P = .held P1) :
    (fetchVa P now fr va).pier = { P with mem := { P.mem with bank := P1.mem.bank } } := by
  simp only [fetchVa, Bool.or_eq_true, if_pos ht, h, FetchRes.pier]

/-- INSTRUCTION_CACHE_FILL leaves its pier as the fetch does, and every other pier as it was. -/
theorem answersWith_instructionCacheFill {p : Fin 16} {s : State} {C : Dev → Prop} (hrun : (s.dev.pier p).core.run = .running)
    (h : (fetchVa (s.dev.pier p) s.dev.now s.dev.fresh va).pier = P)
    (hC : ∀ d, d.pier p = P → (∀ q, q ≠ p → d.pier q = s.dev.pier q) → C d) : AnswersWith (.instructionCacheFill p va) s C := by
  have ha : Answers (.instructionCacheFill p va) s (s.dev.setPier p P).used := by
    subst h
    exact congrArg s.answer (if_neg (not_not.2 hrun))
  refine ha.answersWith (hC _ ?_ fun q hq => ?_)
  · rw [Dev.pier_used, Dev.pier_setPier_self]
  · rw [Dev.pier_used, Dev.pier_setPier_of_ne _ _ hq]

end Fetch

/-! ### Table walks (R310, R315) -/

theorem mem_tlbFill {cap : Nat} (hc : 0 < cap) (lfsr : BitVec 16) (tlb : List TlbEntry) (e : TlbEntry) : e ∈ tlbFill cap lfsr tlb e := by
  rw [tlbFill]
  split
  · simp
  · exact List.mem_set (by have := Nat.mod_lt lfsr.toNat hc; omega) e

section Walk

variable {P P1 : Pier} {c : TrCtx} {now : Nat} {hod : Bool} {acc : Access} {va pa : Word}

theorem walkFor_of_hit {x : TlbEntry} (hx : x ∈ tlbOf P hod) (h : tlbHit c.tag va x = true) : walkFor P c now hod acc va = P :=
  if_pos (List.any_eq_true.2 ⟨x, hx, h⟩)

section Miss

variable (h : ∀ x ∈ tlbOf P hod, tlbHit c.tag va x = false)

include h

theorem any_tlbHit_eq_false : (tlbOf P hod).any (tlbHit c.tag va) = false :=
  List.any_eq_false.2 fun x hx => by rw [h x hx]; exact Bool.false_ne_true

/-- A walk that ends in a leaf fills the TLB, and its address is noted. -/
theorem walkFor_of_filled {e : TlbEntry} (hw : walk c now acc va P = (.ok (pa, e), P1)) :
    (walkFor P c now hod acc va).mem.walkRes = some (.inl pa) ∧ e ∈ tlbOf (walkFor P c now hod acc va) hod ∧
    (walkFor P c now hod acc va).core = P1.core ∧ (walkFor P c now hod acc va).mem.banks = P1.mem.banks := by
  simp only [walkFor, any_tlbHit_eq_false h, walkFill, hw, Bool.false_eq_true, if_false]
  cases hod
  · exact ⟨trivial, mem_tlbFill (by decide) _ _ _, rfl, rfl⟩
  · exact ⟨trivial, mem_tlbFill (by decide) _ _ _, rfl, rfl⟩

theorem walkFor_of_fault {s2 : Bool} {lvl s1 k : Nat} (hw : walk c now acc va P = (.error (.kind s2 lvl s1 k), P1)) :
    walkFor P c now hod acc va = { P1 with mem := { P1.mem with walkRes := some (.inr (mkFcs c.user acc s1 s2 lvl k)) } } := by
  simp only [walkFor, any_tlbHit_eq_false h, walkFill, hw, Bool.false_eq_true, if_false]

theorem walkFor_of_held (hw : walk c now acc va P = (.error .held, P1)) :
    walkFor P c now hod acc va = { P with mem := { P.mem with bank := P1.mem.bank } } := by
  simp only [walkFor, any_tlbHit_eq_false h, walkFill, hw, Bool.false_eq_true, if_false]

end Miss

/-- TABLE_WALK walks in the space of its requester. -/
theorem answers_tableWalk {p : Fin 16} {s : State} (h : WalksFor s.dev p hod c) :
    Answers (.tableWalk p hod acc va) s (s.dev.setPier p (walkFor (s.dev.pier p) c s.dev.now hod acc va)) := by
  refine congrArg s.answer ?_
  cases hod with
  | true =>
    obtain ⟨t, ht, hf, rfl⟩ := h
    simp only [ht, hf, Bool.false_eq_true, if_false, if_true]
  | false =>
    obtain ⟨hr, hu, rfl⟩ := h
    have hc : (decide ((s.dev.pier p).core.run = .running) && ((s.dev.pier p).core.user || (s.dev.pier p).core.te)) = true := by
      simpa [hr] using hu
    simp only [hc, Bool.false_eq_true, if_false, if_true]

theorem answers_tableWalk_of_none {p : Fin 16} {s : State} (h : ∀ c, ¬ WalksFor s.dev p hod c) :
    Answers (.tableWalk p hod acc va) s s.dev := by
  refine congrArg s.answer ?_
  cases hod with
  | true =>
    cases ht : (s.dev.pier p).hod.cur with
    | none => simp only [if_true]
    | some t =>
      cases hf : t.frontage with
      | true => simp only [hf, if_true]
      | false => exact absurd ⟨t, ht, hf, rfl⟩ (h _)
  | false =>
    have hc : (decide ((s.dev.pier p).core.run = .running) && ((s.dev.pier p).core.user || (s.dev.pier p).core.te)) = false := by
      rw [Bool.eq_false_iff]
      intro hc
      rw [Bool.and_eq_true, Bool.or_eq_true, decide_eq_true_eq] at hc
      exact h _ ⟨hc.1, hc.2, rfl⟩
    simp only [hc, Bool.false_eq_true, if_false]

end Walk

/-! ### The release of a core (R268, R269) -/

theorem SMem.get_append_of_ne {w : Nat} {l : SMem w} (m : SMem w) {a : Nat} (h : ∀ e ∈ l, e.1 ≠ a) :
    SMem.get (l ++ m) a = m.get a := by
  induction l with
  | nil => rfl
  | cons e l ih =>
    obtain ⟨b, v⟩ := e
    rw [List.cons_append, SMem.get, if_neg (h (b, v) List.mem_cons_self).symm]
    exact ih fun e he => h e (List.mem_cons_of_mem _ he)

/-- The boot block takes the first 4,096 words (R269). -/
theorem get_bootWords (banks : SMem 43) {a : Nat} (h : 4096 ≤ a) : (bootWords banks).get a = banks.get a := by
  rw [bootWords, SMem.get_append_of_ne]
  · exact (SMem.get_filter banks (fun n => 4096 ≤ n) a).trans (if_pos (decide_eq_true h))
  · intro e he
    obtain ⟨i, hi, rfl⟩ := List.mem_map.1 (List.mem_filter.1 he).1
    have := List.mem_range.1 hi
    show i ≠ a
    omega

/-- The banks that a released core finds (R269). -/
def Pier.bootBanks (P : Pier) : SMem 43 :=
  bootWords (if P.mem.bank[0].content = 64#7 then P.mem.banks else P.mem.banks.clear 0 0x20000)

theorem get_bootBanks_of_scoured (P : Pier) {a : Nat} (h1 : 4096 ≤ a) (h2 : a < 0x20000) (hc : P.mem.bank[0].content ≠ 64#7) :
    P.bootBanks.get a = 0 := by
  rw [Pier.bootBanks, get_bootWords _ h1, if_neg hc, SMem.get_clear, if_pos ⟨Nat.zero_le a, h2⟩]

theorem get_bootBanks_of_le (P : Pier) {a : Nat} (h : 0x20000 ≤ a) : P.bootBanks.get a = P.mem.banks.get a := by
  rw [Pier.bootBanks, get_bootWords _ (by omega)]
  split
  · rfl
  · rw [SMem.get_clear, if_neg (by omega)]

/-- A fetch answers with a word by what the banks hold alone. -/
theorem bankFetch_ok_iff (P : Pier) (m : Master) (a : Nat) (w : Word) : (∃ Q, bankFetch P m a = .ok w Q) ↔
    ((eccDecode (P.mem.banks.get a)).1 = .clean ∨ (eccDecode (P.mem.banks.get a)).1 = .corrected) ∧
      (eccDecode (P.mem.banks.get a)).2 = w := by
  rw [bankFetch]
  cases (eccDecode (P.mem.banks.get a)).1 <;> simp

/-- The pier whose bank 0 is prepared for the release of its core. -/
def Pier.booted (P : Pier) (now : Nat) : Pier :=
  { P with mem := { P.mem with
    banks := P.bootBanks, bank := P.mem.bank.set 0 { owner := 64#7, content := 64#7, lastUse := now } } }

/-- A released core starts at the word that physical address 0 holds. -/
theorem release_pc {P Q : Pier} {now : Nat} {w : Word} (h : bankFetch (P.release now) .fetch 0 = .ok w Q) :
    (P.release now).core.pc = w := by
  obtain ⟨R, hR⟩ : ∃ R, bankFetch (P.booted now) .fetch 0 = .ok w R :=
    (bankFetch_ok_iff (P.booted now) _ _ _).2 ((bankFetch_ok_iff (P.release now) _ _ _).1 ⟨Q, h⟩)
  show (match bankFetch (P.booted now) .fetch 0 with
    | .ok w _ => w
    | _ => 0) = w
  rw [hR]

theorem release_owner (P : Pier) (now : Nat) : (P.release now).mem.bank[0].owner = 64#7 := by
  simp [Pier.release]

/-- Settles O18: the timer, the instruction cache, the table walk and the release, each by the outcome of what it reads, and each out
of its turn. -/
theorem coreEventsTakeEffect : Obligations.CoreEventsTakeEffect := by
  refine ⟨?timer, ?timerWarden, ?expiry, ?expiryNone, ?invUnreached, ?fillStopped, ?walkNone, ?releaseNone, ?inv, ?fill, ?fillFault,
    ?fillHeld, ?walkHit, ?walk, ?release⟩
  case timer =>
    intro p v s
    refine congrArg s.answer ?_
    split_ifs with h
    · exact Dev.onReg_of_reachable _ h
    · exact Dev.onReg_of_unreachable _ (Bool.eq_false_iff.2 h)
  case timerWarden => exact fun v s => rfl
  case expiry =>
    intro c s hr ht
    refine congrArg s.answer ?_
    simp only [Dev.onCore, hr, ht, decide_true, Bool.and_self, if_true]
  case expiryNone =>
    intro c s h
    refine congrArg s.answer ?_
    have hc : ((s.dev.core c).tmrRun && decide ((s.dev.core c).tmr = 0)) = false := by
      rw [Bool.and_eq_false_iff, decide_eq_false_iff_not]
      exact h
    simp only [Dev.onCore, hc, Bool.false_eq_true, if_false, Dev.setCore_core]
  case invUnreached => exact fun p s h => congrArg s.answer (Dev.onReg_of_unreachable _ h)
  case fillStopped => exact fun p va s h => congrArg s.answer (if_pos h)
  case walkNone => exact fun p hod acc va s h => answers_tableWalk_of_none h
  case releaseNone =>
    intro p s h
    refine congrArg s.answer (if_neg ?_)
    rw [h]
    exact Bool.false_ne_true
  case inv => exact fun p s h => congrArg s.answer (Dev.onReg_of_reachable _ h)
  case fill =>
    intro p va s pa P1 hrun hf i
    have ha {P : Pier} {C : Dev → Prop} (hP : (fetchWord P1 s.dev.now s.dev.fresh va pa).pier = P) :=
      answersWith_instructionCacheFill (C := C) hrun ((congrArg FetchRes.pier (fetchVa_of_fetches hf)).trans hP)
    refine ⟨fun l hl => ?hit, fun hm => ⟨fun w ws P2 P3 hr hw => ?filled, fun w P2 P3 hr hw => ?unfilled, fun P2 hr => ?held,
      fun kind P2 hr => ?bus, fun P2 hr => ?rubble⟩⟩
    case hit =>
      exact ha (fetchWord_of_hit hl) fun d hp hq => by rw [hp]; exact ⟨rfl, rfl, hq⟩
    case filled =>
      exact ha (fetchWord_of_filled hm hr hw) fun d hp hq => by rw [hp]; exact ⟨mem_icFill _ _ _, rfl, rfl, rfl, hq⟩
    case unfilled => exact ha (fetchWord_of_unfilled hm hr hw) fun d hp _ => hp
    case held => exact ha (fetchWord_of_held hm hr) fun d hp _ => hp
    case bus => exact ha (fetchWord_of_bus hm hr) fun d hp _ => by rw [hp]; exact ⟨Core.mem_recordFetch _ _ _ _, rfl⟩
    case rubble => exact ha (fetchWord_of_rubble hm hr) fun d hp _ => by rw [hp]; exact ⟨Core.mem_recordFetch _ _ _ _, rfl⟩
  case fillFault =>
    intro p va s vec fcs P1 hrun ht h
    exact answersWith_instructionCacheFill hrun (fetchVa_of_fault ht h) fun d hp _ => by
      rw [hp]
      exact ⟨Core.mem_recordFetch _ _ _ _, rfl⟩
  case fillHeld =>
    intro p va s P1 hrun ht h
    exact answersWith_instructionCacheFill hrun (fetchVa_of_held ht h) fun d hp _ => hp
  case walkHit =>
    intro p hod acc va s c x hw hx h
    have ha := answers_tableWalk (acc := acc) (va := va) hw
    rwa [walkFor_of_hit hx h, Dev.setPier_pier] at ha
  case walk =>
    intro p hod acc va s c hc P hm
    have ha := answers_tableWalk (acc := acc) (va := va) hc
    refine ⟨fun pa e P1 hw => ?filled, fun s2 lvl s1 k P1 hw => ?fault, fun P1 hw => ?held⟩
    case filled =>
      obtain ⟨hres, hmem, hcore, hbanks⟩ := walkFor_of_filled hm hw
      refine ha.answersWith ?_
      rw [Dev.pier_setPier_self]
      exact ⟨hres, hmem, hcore, hbanks, fun q hq => Dev.pier_setPier_of_ne _ _ hq⟩
    case fault =>
      rw [walkFor_of_fault hm hw] at ha
      exact ha.answersWith (Dev.pier_setPier_self _ _ _)
    case held =>
      rw [walkFor_of_held hm hw] at ha
      exact ha.answersWith (Dev.pier_setPier_self _ _ _)
  case release =>
    intro p s h
    have ha : Answers (.coreRelease p) s (s.dev.onPier p fun P => P.release s.dev.now) := congrArg s.answer (if_pos h)
    refine ha.answersWith ?_
    simp only [Dev.core, Dev.pier_onPier_self]
    refine ⟨rfl, fun w Q => release_pc, release_owner _ _, fun a h1 h2 hc => get_bootBanks_of_scoured _ h1 h2 hc,
      fun a h1 _ => get_bootBanks_of_le _ h1, fun q hq => Dev.pier_onPier_of_ne _ _ hq⟩

end Sys2Proof.Machine
end

section
/-! The steps of start-up (R268, R480 to R483, R492, R497): each in its turn and out of it, and O53 from them. -/

namespace Sys2Proof.Machine

open Sys2Proof

/-! ### A step in its turn and out of it (R480, R492) -/

section Step

variable {i : Instr} {n : Nat} {turn : Dev → Bool} {f : Dev → Dev} (hx : ∀ s, exec i s = s.answer (s.dev.bootStep n (turn s.dev) f))

include hx

theorem waitsForItsTurn {T : Dev → Prop} (hT : ∀ d, turn d = true ↔ T d) : WaitsForItsTurn i n T := by
  intro s
  simp only [Answers, hx, ← hT]
  refine ⟨fun ht => ?_, fun ht hs => ?_, fun ht hs hok => ?_⟩
  · simp only [Dev.bootStep, Bool.eq_false_iff.2 ht, Bool.false_and, Bool.false_eq_true, if_false]
    rfl
  · have hok : s.dev.bootOk n = false := by simp [Dev.bootOk, hs]
    simp only [Dev.bootStep, ht, hs, hok, Bool.and_false, decide_true, Bool.and_self, Bool.false_eq_true, if_false, if_true]
    rfl
  · simp only [Dev.bootStep, hs, hok, Bool.and_false, decide_false, Bool.false_eq_true, if_false]
    rfl

theorem answers_bootStep {s : State} (ht : turn s.dev = true) (hok : s.dev.bootOk n = true) : Answers i s (f s.dev) := by
  simp only [Answers, hx, Dev.bootStep, ht, hok, Bool.and_self, if_true]
  rfl

end Step

/-! ### What each step does -/

theorem Dev.reloads_iff (d : Dev) : d.reloads = true ↔ d.life.warm = false ∨ d.fc.halt1B = true := by
  simp [Dev.reloads]

/-! ### What the detection of a channel that does not train leaves of the pier's memories (R447, R451, R480) -/

/-- A pier whose fill, banks, quarry and retired banks are those of `P`. -/
structure Pier.SameFill (P Q : Pier) : Prop where
  filled : Q.pw.filled = P.pw.filled
  banks : Q.mem.banks = P.mem.banks
  quarry : Q.mem.quarry = P.mem.quarry
  retire : Q.regs.retire = P.regs.retire

namespace Pier.SameFill

theorem refl (P : Pier) : P.SameFill P := ⟨rfl, rfl, rfl, rfl⟩

theorem of_eq {P Q : Pier} (h : Q = P) : P.SameFill Q := h ▸ refl P

theorem trans {P Q R : Pier} (h : P.SameFill Q) (h2 : Q.SameFill R) : P.SameFill R :=
  ⟨h2.filled.trans h.filled, h2.banks.trans h.banks, h2.quarry.trans h.quarry, h2.retire.trans h.retire⟩

end Pier.SameFill

theorem handOver_sameFill (P : Pier) (now : Nat) (b : Fin 16) (o : BitVec 7) : P.SameFill (handOver P now b o) := by
  obtain ⟨hregs, hquarry, -⟩ := handOver_frame P now b o
  refine ⟨?_, (handOver_bank P b now o).2.2.2.2, hquarry, by rw [hregs]⟩
  obtain ⟨k, l, w, e⟩ := unlockBank_frame P b
  unfold handOver
  rw [e]
  dsimp only
  split <;> rfl

theorem bankOwnWrite_sameFill (P : Pier) (now : Nat) (b : Fin 16) (v : DW) : P.SameFill (bankOwnWrite P now b v) := by
  by_cases h : bankOwnRefused P b (v.setWidth 7)
  · rw [bankOwnWrite_of_refused now h]
    exact ⟨rfl, rfl, rfl, rfl⟩
  · rw [bankOwnWrite_of_accepted now h]
    split
    · exact .refl P
    · exact handOver_sameFill P now b _

section Lost

variable {P : Pier} {d : Dev} {p : Fin 16} (h : P.SameFill (d.pier p))

include h

theorem Dev.kcSync_sameFill : P.SameFill ((d.kcSync p).pier p) := by
  have h1 : P.SameFill ((d.onPier p fun P => { P with kcOn := d.setter.kc }).pier p) := by
    rw [Dev.pier_onPier_self]
    exact h.trans ⟨rfl, rfl, rfl, rfl⟩
  unfold Dev.kcSync
  split
  · exact h
  · dsimp only
    split
    · unfold Dev.onReg
      split
      · rw [Dev.pier_onPier_self _ p fun P => bankOwnWrite P _ 15 64]
        exact h1.trans (bankOwnWrite_sameFill _ _ _ _)
      · exact h1
    · exact h1

theorem Dev.emptied_sameFill : P.SameFill ((d.emptied p).pier p) := by
  have h1 : P.SameFill ((d.s2Late p).pier p) := by
    unfold Dev.s2Late
    dsimp only
    rw [Dev.pier_onPier_self]
    exact h.trans ⟨rfl, rfl, rfl, rfl⟩
  unfold Dev.emptied
  dsimp only
  split
  · exact h1
  · exact Dev.kcSync_sameFill h1

theorem Dev.loseItems_sameFill : P.SameFill ((d.loseItems p).pier p) := by
  obtain ⟨its, q, au, fl, ks, bd, lf, e, -⟩ := Dev.endItems_frame 0x23 0 (d.items.filter (fun i => i.unfinished p)) (d.unbatched p)
  have h1 : P.SameFill ((d.unbatched p).pier p) := by
    rw [Dev.unbatched_pier]
    exact h.trans ⟨rfl, rfl, rfl, rfl⟩
  rw [d.loseItems_eq, e]
  exact Dev.emptied_sameFill h1

theorem Dev.contain_sameFill : P.SameFill ((d.contain p).pier p) := by
  unfold Dev.contain
  dsimp only
  split
  · exact h
  · refine Dev.loseItems_sameFill ?_
    rw [Dev.pier_onPier_self]
    exact h.trans ⟨rfl, rfl, rfl, rfl⟩

/-- The reaction to a CONTAIN detection of the pier (R451). -/
theorem Dev.react_contain_sameFill (c : Nat) : P.SameFill ((d.react 2 c p.val).pier p) := by
  simp only [Dev.react, p.isLt, dite_true]
  split
  · exact h
  · exact Dev.contain_sameFill h

end Lost

theorem Dev.entry1_piers (d : Dev) (r : FRec) : (d.entry1 r).piers = d.piers := by
  obtain ⟨h, n, e, -⟩ := d.fcEntry_frame 1 (r.dws.flatMap fun w => leBytes 4 w.toNat)
  rw [Dev.entry1, e]

theorem Dev.logFault_piers (d : Dev) (r : FRec) : (d.logFault r).piers = d.piers := by
  unfold Dev.logFault
  split <;> rfl

theorem Dev.newRec_piers (d : Dev) (x : Detection) (cls : Nat) (opened : Bool) : (d.newRec x cls opened).piers = d.piers := by
  unfold Dev.newRec
  split
  · rfl
  · dsimp only
    split
    · rw [Dev.logFault_piers, Dev.entry1_piers]
      rfl
    · rw [Dev.entry1_piers, Dev.logFault_piers, Dev.entry1_piers]
      rfl

theorem Dev.pier_congr {d e : Dev} (h : e.piers = d.piers) (p : Fin 16) : e.pier p = d.pier p := by
  rw [Dev.pier, h]
  rfl

theorem Dev.closeRec_piers (d : Dev) (k : Fin 64) : (d.closeRec k).piers = d.piers := by
  rw [Dev.closeRec, Dev.entry1_piers]
  rfl

/-- A CONTAIN detection of a pier leaves its memories, whether it opens a record, joins one or closes at once (R448, R451). -/
theorem Dev.record_contain_sameFill (d : Dev) {x : Detection} {p : Fin 16} (hx : x.region.toNat = p.val) :
    (d.pier p).SameFill ((d.record x 2).pier p) := by
  have hset : ∀ k r, (d.pier p).SameFill ((d.setFrec k r).pier p) := fun _ _ => .refl _
  have hlog : ∀ k q r, (d.pier p).SameFill ((((d.setFrec k q).entry1 q).logFault r).pier p) := fun k q r =>
    .of_eq (Dev.pier_congr (by rw [Dev.logFault_piers, Dev.entry1_piers]; rfl) p)
  have hnew : ∀ o, (d.pier p).SameFill ((d.newRec x 2 o).pier p) := fun o => .of_eq (Dev.pier_congr (d.newRec_piers x 2 o) p)
  have hclose : ∀ {b : Bool} {k : Fin 64} (e : Dev), (d.pier p).SameFill (e.pier p) →
      (d.pier p).SameFill ((if b then e.closeRec k else e).pier p) := by
    intro b k e he
    split
    · exact he.trans (.of_eq (Dev.pier_congr (e.closeRec_piers k) p))
    · exact he
  unfold Dev.record
  dsimp only
  rw [hx]
  split
  · split
    · exact hset _ _
    · exact .refl _
  · split
    · split
      · exact hset _ _
      · refine hclose _ ?_
        split
        · exact hset _ _
        · exact Dev.react_contain_sameFill (hlog _ _ _) _
    · exact Dev.react_contain_sameFill (hnew _) _

/-- The detection of a channel that does not train leaves its pier's memories as the fill has left them. -/
theorem Dev.detected_untrained_sameFill {P : Pier} {d : Dev} {p : Fin 16} (h : P.SameFill (d.pier p)) (a b : Nat) :
    P.SameFill ((d.detected (mkDetection 0x16 p.val a b)).pier p) := by
  have hr : (mkDetection 0x16 p.val a b).region.toNat = p.val := by
    have := p.isLt
    simp only [mkDetection, BitVec.toNat_ofNat]
    omega
  have hc : causeClass (mkDetection 0x16 p.val a b).cause.toNat (mkDetection 0x16 p.val a b).region.toNat = 2 := rfl
  have hs : ∀ e : Dev, e.sideEffects (mkDetection 0x16 p.val a b) = e := by
    intro e
    unfold Dev.sideEffects
    dsimp only
    rw [dif_pos (by rw [hr]; exact p.isLt)]
    rfl
  rw [Dev.detected, hc, hs]
  exact h.trans (Dev.record_contain_sameFill d hr)

/-! ### Step 6: the fill of a pier's memories (R17, R470, R480) -/

/-- What PIER_MEMORY_FILL does in its turn. -/
def Dev.fillPier (p : Fin 16) (trained : Bool) (d : Dev) : Dev :=
  let P := d.pier p
  let base := 96 + ((d.piers.toList.take p.val).map (fun P => P.pw.shares)).sum
  let f := if d.cap < base then none else fitFreq (d.cap - base) 0 4 16
  let Q := P.filledBy d.life.warm
  let train := if d.life.warm then P.mem.trained else trained
  match f with
  | none => d.setPier p { Q with pw := { ({} : PierPower) with filled := true, since := d.now } }
  | some f =>
    let pw : PierPower :=
      { st := .idle, freq := f, shares := sharesAt f, since := d.now, lastRun := d.now, filled := true }
    let Q := { Q with mem := { Q.mem with trained := train, selfRefresh := !train }, pw := pw }
    let d := { d.setPier p Q with pw := { d.pw with lastStart := some d.now } }
    if train || d.life.warm then d
    else d.used.detected (mkDetection 0x16 p.val (hbmPseudo p (d.free 1).toNat) 0)

/-- The memories of a pier as its fill leaves them, whatever its power and its channel's training. -/
def Pier.afterFill (P : Pier) (warm : Bool) : Pier := { P.filledBy warm with pw := { P.pw with filled := true } }

theorem Pier.afterFill_spec (P : Pier) (warm : Bool) : (P.afterFill warm).pw.filled = true ∧ (P.afterFill warm).mem.banks = [] ∧
    (P.afterFill warm).regs.retire = P.regs.retire ∧ (warm = false → (P.afterFill warm).mem.quarry = []) ∧
    (warm = true → (P.afterFill warm).mem.quarry = P.mem.quarry) := by
  cases warm
  · exact ⟨rfl, rfl, rfl, fun _ => rfl, fun h => absurd h Bool.false_ne_true⟩
  · exact ⟨rfl, rfl, rfl, fun h => absurd h.symm Bool.false_ne_true, fun _ => rfl⟩

theorem Dev.fillPier_sameFill (d : Dev) (p : Fin 16) (t : Bool) :
    ((d.pier p).afterFill d.life.warm).SameFill ((d.fillPier p t).pier p) := by
  unfold Dev.fillPier
  dsimp only
  split
  · rw [Dev.pier_setPier_self]
    exact ⟨rfl, rfl, rfl, rfl⟩
  · have h : ∀ (Q : Pier) (x : Arbiter), ((d.pier p).afterFill d.life.warm).SameFill Q →
        ((d.pier p).afterFill d.life.warm).SameFill (Dev.pier { d.setPier p Q with pw := x } p) :=
      fun Q x hQ => hQ.trans (.of_eq (Dev.pier_setPier_self d p Q))
    generalize (if d.life.warm = true then (d.pier p).mem.trained else t) = train
    split
    · exact h _ _ ⟨rfl, rfl, rfl, rfl⟩
    · refine Dev.detected_untrained_sameFill ?_ _ _
      rw [Dev.pier_used]
      exact h _ _ ⟨rfl, rfl, rfl, rfl⟩

theorem Dev.fillPier_spec (d : Dev) (p : Fin 16) (t : Bool) : ((d.fillPier p t).pier p).pw.filled = true ∧
    ((d.fillPier p t).pier p).mem.banks = [] ∧ ((d.fillPier p t).pier p).regs.retire = (d.pier p).regs.retire ∧
    (d.life.warm = false → ((d.fillPier p t).pier p).mem.quarry = []) ∧
    (d.life.warm = true → ((d.fillPier p t).pier p).mem.quarry = (d.pier p).mem.quarry) := by
  obtain ⟨hfilled, hbanks, hquarry, hretire⟩ := d.fillPier_sameFill p t
  obtain ⟨h1, h2, h3, h4, h5⟩ := (d.pier p).afterFill_spec d.life.warm
  exact ⟨hfilled.trans h1, hbanks.trans h2, hretire.trans h3, fun h => hquarry.trans (h4 h), fun h => hquarry.trans (h5 h)⟩

/-! ### A step that goes through the piers (R181, R480) -/

/-- What a walk through the piers keeps, and what it leaves of each pier, where the visit of a pier changes no other one. -/
theorem Dev.foldl_piers {f : Dev → Fin 16 → Dev} {K : Dev → Prop} (hK : ∀ e p, K e → K (f e p))
    (hne : ∀ e p q, q ≠ p → (f e p).pier q = e.pier q) {l : List (Fin 16)} (hl : l.Nodup) {d : Dev} (hd : K d) :
    K (l.foldl f d) ∧ ∀ p, (p ∉ l → (l.foldl f d).pier p = d.pier p) ∧
      (p ∈ l → ∃ e, K e ∧ e.pier p = d.pier p ∧ (l.foldl f d).pier p = (f e p).pier p) := by
  induction l generalizing d with
  | nil => exact ⟨hd, fun p => ⟨fun _ => rfl, fun hp => absurd hp List.not_mem_nil⟩⟩
  | cons a l ih =>
    obtain ⟨ha, hl⟩ := List.nodup_cons.1 hl
    obtain ⟨hKl, hpier⟩ := ih hl (hK d a hd)
    refine ⟨hKl, fun p => ⟨fun hp => ?_, fun hp => ?_⟩⟩
    · obtain ⟨hpa, hpl⟩ := not_or.1 (mt List.mem_cons.2 hp)
      exact ((hpier p).1 hpl).trans (hne d a p hpa)
    · by_cases hpa : p = a
      · subst hpa
        exact ⟨d, hd, rfl, (hpier p).1 ha⟩
      · obtain ⟨e, he, hep, hfp⟩ := (hpier p).2 ((List.mem_cons.1 hp).resolve_left hpa)
        exact ⟨e, he, hep.trans (hne d a p hpa), hfp⟩

/-! ### Step 8: the device tables (R305, R434, R480) -/

/-- A device that differs from `d` in its piers and in the setter's record of where leaves stand. -/
def Dev.Tabled (d e : Dev) : Prop := ∃ ps st, e = { d with piers := ps, setter := st } ∧ st.part = d.setter.part

theorem Dev.Tabled.refl (d : Dev) : d.Tabled d := ⟨d.piers, d.setter, rfl, rfl⟩

theorem Dev.Tabled.trans {d e g : Dev} (h : d.Tabled e) (h2 : e.Tabled g) : d.Tabled g := by
  obtain ⟨ps, st, rfl, hst⟩ := h
  obtain ⟨ps2, st2, rfl, hst2⟩ := h2
  exact ⟨ps2, st2, rfl, hst2.trans hst⟩

theorem Dev.onPier_tabled (d : Dev) (p : Fin 16) (g : Pier → Pier) : d.Tabled (d.onPier p g) := ⟨_, d.setter, rfl, rfl⟩

theorem Dev.buildNew_tabled (d : Dev) (q : Partition) (p : Fin 16) : d.Tabled (d.buildNew q p) := ⟨_, _, rfl, rfl⟩

theorem Dev.s2Restore_tabled (d : Dev) (p : Fin 16) : d.Tabled (d.s2Restore p) := d.onPier_tabled p _

/-- The tables of a pier's partitions are built on that pier alone. -/
theorem Dev.foldl_buildNew (p : Fin 16) (c : Dev → Partition → Bool) (l : List Partition) (d : Dev) :
    d.Tabled (l.foldl (fun d q => if c d q then d.buildNew q p else d) d) ∧
    ∀ r, r ≠ p → (l.foldl (fun d q => if c d q then d.buildNew q p else d) d).pier r = d.pier r := by
  induction l generalizing d with
  | nil => exact ⟨.refl d, fun _ _ => rfl⟩
  | cons q l ih =>
    rw [List.foldl_cons]
    split
    · obtain ⟨ht, hp⟩ := ih (d.buildNew q p)
      exact ⟨(d.buildNew_tabled q p).trans ht, fun r hr => (hp r hr).trans (Dev.pier_onPier_of_ne _ _ hr)⟩
    · exact ih d

/-- What DEVICE_TABLES_WRITTEN does for one pier. -/
def Dev.tablePier (kek : List Byte) (d : Dev) (p : Fin 16) : Dev :=
  let d := d.onPier p (fun P => d.reapply p (residentSet P))
  let d := if d.life.warm then d
    else (d.parts.foldl (fun d q => if d.setter.part[q.part].piers.getLsbD p.val then d.buildNew q p else d) d).onPier p (fun P =>
      d.flash.keys.foldl (fun P e => writeEntry kek e P) P)
  d.s2Restore p

/-- The pier once its tables are written, before PR_S2CFG follows. -/
theorem Dev.tablePier_eq (kek : List Byte) (d : Dev) (p : Fin 16) : ∃ e, d.tablePier kek p = e.s2Restore p ∧ d.Tabled e ∧
    ∀ r, r ≠ p → e.pier r = d.pier r := by
  unfold Dev.tablePier
  dsimp only
  split
  · exact ⟨_, rfl, d.onPier_tabled p _, fun r hr => Dev.pier_onPier_of_ne _ _ hr⟩
  · obtain ⟨ht, hp⟩ := Dev.foldl_buildNew p (fun d q => d.setter.part[q.part].piers.getLsbD p.val)
      (d.onPier p fun P => d.reapply p (residentSet P)).parts (d.onPier p fun P => d.reapply p (residentSet P))
    exact ⟨_, rfl, ((d.onPier_tabled p _).trans ht).trans (Dev.onPier_tabled _ p _), fun r hr =>
      (Dev.pier_onPier_of_ne _ _ hr).trans ((hp r hr).trans (Dev.pier_onPier_of_ne _ _ hr))⟩

theorem Dev.tablePier_frame (kek : List Byte) (d : Dev) (p : Fin 16) : d.Tabled (d.tablePier kek p) ∧
    ∀ r, r ≠ p → (d.tablePier kek p).pier r = d.pier r := by
  obtain ⟨e, he, ht, hp⟩ := d.tablePier_eq kek p
  rw [he]
  exact ⟨ht.trans (e.s2Restore_tabled p), fun r hr => (Dev.pier_onPier_of_ne _ _ hr).trans (hp r hr)⟩

theorem Dev.tablePier_s2cfg (kek : List Byte) (d : Dev) (p : Fin 16) (q : Fin 64) : ((d.tablePier kek p).pier p).regs.s2cfg[q] =
    s2CfgFor (d.partExists q && d.setter.part[q].piers.getLsbD p.val) q.val := by
  obtain ⟨e, he, ⟨ps, st, rfl, hst⟩, -⟩ := d.tablePier_eq kek p
  rw [he, Dev.s2Restore, Dev.pier_onPier_self, ← hst]
  exact Vector.getElem_ofFn q.isLt

/-- After every pier's visit PR_S2CFG names the partitions that exist and may run there. -/
theorem Dev.foldl_tablePier (kek : List Byte) (d : Dev) : d.Tabled ((List.finRange 16).foldl (Dev.tablePier kek) d) ∧
    ∀ (p : Fin 16) (q : Fin 64), (((List.finRange 16).foldl (Dev.tablePier kek) d).pier p).regs.s2cfg[q] =
      s2CfgFor (d.partExists q && d.setter.part[q].piers.getLsbD p.val) q.val := by
  obtain ⟨hK, hp⟩ := Dev.foldl_piers (K := d.Tabled) (fun e p he => he.trans (e.tablePier_frame kek p).1)
    (fun e p => (e.tablePier_frame kek p).2) (List.nodup_finRange 16) (.refl d)
  refine ⟨hK, fun p q => ?_⟩
  obtain ⟨e, ⟨ps, st, rfl, hst⟩, -, hfp⟩ := (hp p).2 (List.mem_finRange p)
  rw [hfp, Dev.tablePier_s2cfg, ← hst]
  rfl

/-- The device in step 8 before its tables are written. -/
def Dev.inTablesStep (d : Dev) : Dev :=
  { d with life := { d.life with boot := if d.reloads then .tables else .seals }, parts := d.flash.parts }

/-! ### Step 10: READY (R181, R428, R480) -/

/-- What READY_ASSERT does for one pier. -/
def Dev.readyPier (d : Dev) (p : Fin 16) : Dev :=
  let d := d.onPier p (fun P => { P with runs := { P.runs with au0 := d.au0For p } })
  if d.mayRelease p then d.onPier p (fun P => P.release d.now) else d

theorem Dev.readyPier_frame (d : Dev) (p : Fin 16) : (∃ ps, d.readyPier p = { d with piers := ps }) ∧
    ∀ q, q ≠ p → (d.readyPier p).pier q = d.pier q := by
  unfold Dev.readyPier
  dsimp only
  split
  · exact ⟨⟨_, rfl⟩, fun q hq => (Dev.pier_onPier_of_ne _ _ hq).trans (Dev.pier_onPier_of_ne _ _ hq)⟩
  · exact ⟨⟨_, rfl⟩, fun q hq => Dev.pier_onPier_of_ne _ _ hq⟩

theorem Dev.readyPier_pier (d : Dev) (p : Fin 16) : ((d.readyPier p).pier p).runs.au0 = d.au0For p ∧
    (d.mayRelease p = true → ((d.readyPier p).pier p).core.run = .running) := by
  have hm : (d.onPier p fun P => { P with runs := { P.runs with au0 := d.au0For p } }).mayRelease p = d.mayRelease p := by
    simp only [Dev.mayRelease, Dev.pier_onPier_self, Dev.onPier_life, Dev.onPier_fc]
    rfl
  unfold Dev.readyPier
  dsimp only
  rw [hm]
  split
  · rw [Dev.pier_onPier_self _ p fun P => P.release _, Dev.pier_onPier_self]
    exact ⟨rfl, fun _ => rfl⟩
  · rename_i h
    rw [Dev.pier_onPier_self]
    exact ⟨rfl, fun hr => absurd hr h⟩

/-- After every pier's visit AU0 is loaded and each core that may be released runs. -/
theorem Dev.foldl_readyPier (d : Dev) : (∃ ps, (List.finRange 16).foldl Dev.readyPier d = { d with piers := ps }) ∧
    ∀ p : Fin 16, (((List.finRange 16).foldl Dev.readyPier d).pier p).runs.au0 = d.au0For p ∧
      (d.mayRelease p = true → (((List.finRange 16).foldl Dev.readyPier d).pier p).core.run = .running) := by
  obtain ⟨hK, hp⟩ := Dev.foldl_piers (f := Dev.readyPier) (K := fun e => ∃ ps, e = { d with piers := ps })
    (by
      rintro e p ⟨ps, rfl⟩
      obtain ⟨⟨ps2, h⟩, -⟩ := Dev.readyPier_frame { d with piers := ps } p
      exact ⟨ps2, h⟩)
    (fun e p => (e.readyPier_frame p).2) (List.nodup_finRange 16) ⟨d.piers, rfl⟩
  refine ⟨hK, fun p => ?_⟩
  obtain ⟨e, ⟨ps, rfl⟩, hep, hfp⟩ := (hp p).2 (List.mem_finRange p)
  obtain ⟨hau, hrun⟩ := Dev.readyPier_pier { d with piers := ps } p
  rw [hfp]
  refine ⟨hau, fun hm => hrun ?_⟩
  rw [← hm, Dev.mayRelease, hep]
  rfl

/-- The hold of TC in SERVICE leaves a pier's runs and whether its core runs (R200). -/
theorem Dev.pier_enterService (d : Dev) (p : Fin 16) : (d.enterService.pier p).runs = (d.pier p).runs ∧
    (d.enterService.pier p).core.run = (d.pier p).core.run := by
  have h : d.enterService.pier p = { d.pier p with core := { (d.pier p).core with sw := (d.pier p).core.sw &&& ~~~ 0x200#36 } } :=
    Dev.pier_allPiers (d.onCore .warden fun k => { k with sw := k.sw &&& ~~~ 0x200#36 }) p _
  rw [h]
  exact ⟨rfl, rfl⟩

/-- The last part of step 10, behind the piers. -/
def Dev.readied (d : Dev) : Dev :=
  let d := if d.life.life = 3#3 then { d with life := { d.life with op := .recovery } } else d.enterService
  { d with
    board := { d.board with ready := true }
    fc := { d.fc with halt1B := false }
    life := { d.life with boot := .ready, warm := false } }

theorem Dev.readied_spec (d : Dev) : d.readied.life.boot = .ready ∧ d.readied.board.ready = true ∧ d.readied.life.warm = false ∧
    d.readied.life.op = (if d.life.life = 3#3 then .recovery else .service) ∧
    (∀ p, (d.readied.pier p).runs = (d.pier p).runs) ∧ ∀ p, (d.readied.pier p).core.run = (d.pier p).core.run := by
  refine ⟨rfl, rfl, rfl, ?_, ?_⟩
  · unfold Dev.readied
    split <;> rfl
  · unfold Dev.readied
    split
    · exact ⟨fun _ => rfl, fun _ => rfl⟩
    · exact ⟨fun p => (d.pier_enterService p).1, fun p => (d.pier_enterService p).2⟩

theorem execReadyAssert_eq (s : State) : exec .readyAssert s = s.answer
    (s.dev.bootStep 10 (s.dev.life.boot = .seals) fun d => ((List.finRange 16).foldl Dev.readyPier d).readied) := by
  show execReadyAssert s = _
  unfold execReadyAssert Dev.readied Dev.readyPier
  dsimp only

/-! ### Step 9: the chains resume (R425) -/

/-- A record of chain 16 leaves the seals that wait, the time of the last one and the step of start-up. -/
theorem Dev.append16_seals (d : Dev) (f : RecFields) (item : Option Nat) :
    (d.append16 f item).audit.seals = d.audit.seals ∧ (d.append16 f item).audit.lastSeal = d.audit.lastSeal ∧
    (d.append16 f item).life.boot = d.life.boot := by
  rcases Nat.lt_or_ge (d.acceptedHead 16).1 cseqMax with h | h
  · obtain ⟨q, m, b, w, e⟩ := d.append16_of_lt f item h
    rw [e]
    exact ⟨rfl, rfl, rfl⟩
  · rw [Dev.append16_of_le f item h]
    rcases d.exhaust16_cases with e | ⟨full, e⟩
    · rw [e]
      exact ⟨rfl, rfl, rfl⟩
    · obtain ⟨q, fl, ks, e2⟩ := Dev.enterRecovery_frame { d with audit := { d.audit with full := full } }
      rw [e, e2]
      exact ⟨rfl, rfl, rfl⟩

/-- After a final seal the chains resume from it. -/
theorem Dev.resumeChains_of_final {d : Dev} {b : List Byte} (h : d.bestSeal = some b) (hk : sealKind b = 2) :
    d.resumeChains.audit.seals = [⟨sealEpoch b, 2, b, true, true⟩] ∧ d.resumeChains.audit.lastSeal = d.now ∧
    d.resumeChains.life.boot = d.life.boot := by
  simp only [Dev.resumeChains, h, hk, if_true, Dev.startRecord]
  exact Dev.append16_seals _ _ _

/-- The EPOCH that a gap seal goes on from: that of the best seal, or the highest one where none is valid. -/
def Dev.gapFrom (d : Dev) : Nat :=
  match d.bestSeal with
  | some b => sealEpoch b
  | none => (d.flash.seals.map (fun e => sealEpoch e.2)).foldl max 0

/-- Without a final seal the chains resume through a gap seal, 40 epochs on. -/
theorem Dev.resumeChains_of_gap {d : Dev} (h : ∀ b, d.bestSeal = some b → sealKind b ≠ 2) :
    (∃ x, d.resumeChains.audit.seals = [⟨d.gapFrom + 40, 3, x, true, false⟩]) ∧ d.resumeChains.audit.lastSeal = d.now ∧
    d.resumeChains.life.boot = d.life.boot := by
  cases hb : d.bestSeal with
  | some b =>
    simp only [Dev.resumeChains, Dev.gapFrom, hb, if_neg (h b hb), Dev.startRecord]
    obtain ⟨h1, h2, h3⟩ := Dev.append16_seals _ _ none
    obtain ⟨h4, h5, h6⟩ := Dev.append16_seals _ _ none
    exact ⟨⟨_, h1.trans h4⟩, h2.trans h5, h3.trans h6⟩
  | none =>
    simp only [Dev.resumeChains, Dev.gapFrom, hb, Dev.startRecord, OfNat.one_ne_ofNat, if_false]
    obtain ⟨h1, h2, h3⟩ := Dev.append16_seals _ _ none
    obtain ⟨h4, h5, h6⟩ := Dev.append16_seals _ _ none
    exact ⟨⟨_, h1.trans h4⟩, h2.trans h5, h3.trans h6⟩

/-! ### Step 5: the keystone image (R438, R440) -/

/-- The device in step 5 before its image is looked for. -/
def Dev.inKeystoneStep (d : Dev) : Dev :=
  { d with life := { d.life with
    boot := .keystone, reentry := (d.flash.life.map (fun (r : BitVec 3 × Bool) => r.2)).getD false } }

/-- A start-up without an image of its ZCNT has no keys, and is BLANK where the lifecycle record and the fuses allow it, else
DECOMMISSIONED (R440). -/
theorem Dev.noImage_spec {d : Dev} (ht : d.life.terminal = false) :
    d.noImage.life.boot = d.life.boot ∧ d.noImage.ks.zeroized = true ∧ d.noImage.flash.image = none ∧
    (∀ r, d.flash.life = some r → r.2 = true → d.life.zcnt < 8 → d.noImage.life.life = 0#3) ∧
    ((∀ r, d.flash.life = some r → r.2 = false ∨ 8 ≤ d.life.zcnt) → d.noImage.life.life = 4#3) := by
  refine ⟨rfl, rfl, rfl, fun r hr h2 hz => ?_, fun h => ?_⟩
  · simp [Dev.noImage, hr, h2, hz, ht]
  · cases hr : d.flash.life with
    | none => simp [Dev.noImage, hr]
    | some r =>
      rcases h r hr with h2 | hz
      · simp [Dev.noImage, hr, h2]
      · simp [Dev.noImage, hr, Nat.not_lt.2 hz]

/-! ### The turns -/

/-- The turn of step 4, as the model tests it. -/
def Dev.verifyTurn (d : Dev) : Bool := d.life.boot = .pll && (!d.life.zeroLow || d.life.warm)

theorem Dev.verifyTurn_iff (d : Dev) : d.verifyTurn = true ↔ d.life.boot = .pll ∧ (d.life.zeroLow = false ∨ d.life.warm = true) := by
  simp [Dev.verifyTurn]

/-- The turn of pier `p` in step 6, as the model tests it. -/
def Dev.fillTurn (p : Fin 16) (d : Dev) : Bool :=
  d.life.boot = .keystone && !(d.pier p).pw.filled && (List.finRange 16).all (fun q => p ≤ q || (d.pier q).pw.filled)

theorem Dev.fillTurn_iff (p : Fin 16) (d : Dev) : d.fillTurn p = true ↔
    d.life.boot = .keystone ∧ (d.pier p).pw.filled = false ∧ ∀ q : Fin 16, p ≤ q ∨ (d.pier q).pw.filled = true := by
  simp [Dev.fillTurn, and_assoc]

/-- The turn of step 7, as the model tests it. -/
def Dev.startTurn (d : Dev) : Bool := d.life.boot = .keystone && (List.finRange 16).all (fun q => (d.pier q).pw.filled)

theorem Dev.startTurn_iff (d : Dev) : d.startTurn = true ↔ d.life.boot = .keystone ∧ ∀ q : Fin 16, (d.pier q).pw.filled = true := by
  simp [Dev.startTurn]

/-- Settles O53: each step by the device that its turn leaves, and by the turn that it waits for. -/
theorem startUpSteps : Obligations.StartUpSteps := by
  refine ⟨?porHigh, ?por, ?pllTurn, ?pll, ?imageTurn, ?image, ?imageNone, ?keystoneTurn, ?keystone, ?fillTurn, ?fill, ?evoariTurn,
    ?evoari, ?tablesTurn, ?tables, ?sealsTurn, ?sealsBlank, ?seals, ?readyTurn, ?ready⟩
  case porHigh =>
    intro b s h
    refine congrArg s.answer ?_
    simp only [h, Bool.not_false, if_true]
  case por =>
    intro b s h
    refine Answers.answersWith (congrArg s.answer (if_neg (by rw [h]; decide))) ?_
    cases hr : b.railsReady with
    | true => exact ⟨rfl, fun _ => rfl⟩
    | false => exact ⟨rfl, fun h => absurd h Bool.false_ne_true⟩
  case pllTurn => exact waitsForItsTurn (fun _ => rfl) fun d => decide_eq_true_iff
  case pll =>
    intro s hok ht
    have ha := answers_bootStep (i := .frontagePllLock) (turn := fun d => d.life.boot = .released) (fun _ => rfl)
      (decide_eq_true ht) hok
    exact ha.answersWith ⟨rfl, rfl, rfl, rfl, rfl⟩
  case imageTurn => exact waitsForItsTurn (turn := Dev.verifyTurn) (fun _ => rfl) Dev.verifyTurn_iff
  case image =>
    intro s i isB hok ht hi
    have ha := answers_bootStep (i := .firmwareImageVerify) (turn := Dev.verifyTurn) (fun _ => rfl) (s.dev.verifyTurn_iff.2 ht) hok
    simp only [hi, Dev.reloads_iff] at ha
    exact ha
  case imageNone =>
    intro s hok ht hi
    have ha := answers_bootStep (i := .firmwareImageVerify) (turn := Dev.verifyTurn) (fun _ => rfl) (s.dev.verifyTurn_iff.2 ht) hok
    simp only [hi] at ha
    exact ha
  case keystoneTurn => exact waitsForItsTurn (fun _ => rfl) fun d => decide_eq_true_iff
  case keystone =>
    intro s hok ht
    have ha := answers_bootStep (i := .keystoneLoad) (turn := fun d => d.life.boot = .image) (fun _ => rfl)
      (decide_eq_true ht) hok
    cases hterm : s.dev.life.terminal with
    | true =>
      simp only [hterm, if_true] at ha
      exact ha.answersWith ⟨rfl, fun _ => ⟨rfl, rfl⟩, fun _ _ h => absurd h.symm Bool.false_ne_true,
        fun _ h => absurd h.symm Bool.false_ne_true, fun h => absurd h.symm Bool.false_ne_true⟩
    | false =>
      have hne {C : Prop} (h : false = true) : C := absurd h Bool.false_ne_true
      by_cases him : ∃ im, s.dev.flash.image = some im ∧ im.zcnt = s.dev.life.zcnt
      · obtain ⟨im, hi, hz⟩ := him
        simp only [hterm, hi, hz, Bool.false_eq_true, if_false, if_true] at ha
        refine ha.answersWith ⟨rfl, hne, ?_, ?_, fun _ h => absurd hz (h im hi)⟩
        · rintro im' r - hi' - hl
          obtain rfl := Option.some.inj (hi.symm.trans hi')
          simp [hl]
        · rintro im' - hi' - hl
          obtain rfl := Option.some.inj (hi.symm.trans hi')
          simp [hl]
      · have hn : Answers .keystoneLoad s s.dev.inKeystoneStep.noImage := by
          simp only [Dev.inKeystoneStep, hterm]
          cases hi : s.dev.flash.image with
          | none =>
            simp only [hterm, hi, Bool.false_eq_true, if_false] at ha
            exact ha
          | some im =>
            have hz : im.zcnt ≠ s.dev.life.zcnt := fun hz => him ⟨im, hi, hz⟩
            simp only [hterm, hi, hz, Bool.false_eq_true, if_false] at ha
            exact ha
        obtain ⟨hboot, hks, himage, hblank, hdead⟩ := Dev.noImage_spec (d := s.dev.inKeystoneStep) hterm
        exact hn.answersWith ⟨hboot, hne, fun im _ _ hi hz => absurd ⟨im, hi, hz⟩ him, fun im _ hi hz => absurd ⟨im, hi, hz⟩ him,
          fun _ _ => ⟨hks, himage, hblank, hdead⟩⟩
  case fillTurn => exact fun p t => waitsForItsTurn (turn := Dev.fillTurn p) (fun _ => rfl) (Dev.fillTurn_iff p)
  case fill =>
    intro p t s hok ht
    exact Answers.answersWith (answers_bootStep (turn := Dev.fillTurn p) (f := Dev.fillPier p t) (fun _ => rfl)
      ((s.dev.fillTurn_iff p).2 ht) hok) (Dev.fillPier_spec s.dev p t)
  case evoariTurn => exact waitsForItsTurn (turn := Dev.startTurn) (fun _ => rfl) Dev.startTurn_iff
  case evoari =>
    intro s hok ht
    have ha := answers_bootStep (i := .evoariStart) (turn := Dev.startTurn) (fun _ => rfl) (s.dev.startTurn_iff.2 ht) hok
    exact ha.answersWith ⟨rfl, rfl, rfl, rfl⟩
  case tablesTurn => exact waitsForItsTurn (fun _ => rfl) fun d => decide_eq_true_iff
  case tables =>
    intro s hok ht
    have ha := answers_bootStep (i := .deviceTablesWritten) (turn := fun d => d.life.boot = .evoari) (fun _ => rfl)
      (decide_eq_true ht) hok
    obtain ⟨q, hq⟩ := Dev.keyUse_frame s.dev.inTablesStep 0 8
    obtain ⟨⟨ps, st, e, hst⟩, hs2⟩ := Dev.foldl_tablePier (s.dev.ks.bytes 0 8) (s.dev.inTablesStep.keyUse 0 8)
    replace ha : Answers .deviceTablesWritten s ((List.finRange 16).foldl (Dev.tablePier (s.dev.ks.bytes 0 8))
      (s.dev.inTablesStep.keyUse 0 8)) := ha
    refine ha.answersWith ⟨?_, ?_, ?_, ?_, fun p r => (hs2 p r).trans ?_⟩
    · rw [e, hq]
      simp only [Dev.inTablesStep, Dev.reloads_iff]
    · rw [e, hq]
      rfl
    · rw [e, hq]
      rfl
    · rw [e, hq]
      rfl
    · rw [e, ← hst]
      rfl
  case sealsTurn => exact waitsForItsTurn (fun _ => rfl) fun d => decide_eq_true_iff
  case sealsBlank =>
    intro s hok ht hid
    have ha := answers_bootStep (i := .sealsProcessed) (turn := fun d => d.life.boot = .tables) (fun _ => rfl)
      (decide_eq_true ht) hok
    have hid' : ({ s.dev with life := { s.dev.life with boot := .seals } } : Dev).hasIdentity = false := hid
    simp only [hid', Bool.false_eq_true, if_false] at ha
    exact ha
  case seals =>
    intro s hok ht hid
    have ha := answers_bootStep (i := .sealsProcessed) (turn := fun d => d.life.boot = .tables) (fun _ => rfl)
      (decide_eq_true ht) hok
    have hid' : ({ s.dev with life := { s.dev.life with boot := .seals } } : Dev).hasIdentity = true := hid
    simp only [hid', if_true] at ha
    have hbest : ({ s.dev with life := { s.dev.life with boot := .seals } } : Dev).bestSeal = s.dev.bestSeal := rfl
    by_cases hfinal : ∃ b, s.dev.bestSeal = some b ∧ sealKind b = 2
    · obtain ⟨b, hb, hk⟩ := hfinal
      obtain ⟨hseals, hlast, hboot⟩ := Dev.resumeChains_of_final (hbest.trans hb) hk
      refine ha.answersWith ⟨hboot, hlast, fun b' hb' hk' => ?_, fun b' hb' hk' => ?_, fun hb' => ?_⟩
      · obtain rfl := Option.some.inj (hb.symm.trans hb')
        exact hseals
      · obtain rfl := Option.some.inj (hb.symm.trans hb')
        exact absurd hk hk'
      · exact absurd (hb.symm.trans hb') (Option.some_ne_none b)
    · have hgap : ∀ b, s.dev.bestSeal = some b → sealKind b ≠ 2 := fun b hb hk => hfinal ⟨b, hb, hk⟩
      obtain ⟨hseals, hlast, hboot⟩ := Dev.resumeChains_of_gap
        (d := { s.dev with life := { s.dev.life with boot := .seals } }) fun b hb => hgap b (hbest.symm.trans hb)
      refine ha.answersWith ⟨hboot, hlast, fun b hb hk => absurd hk (hgap b hb), fun b hb _ => ?_, fun hb => ?_⟩
      · rwa [Dev.gapFrom, hbest.trans hb] at hseals
      · rwa [Dev.gapFrom, hbest.trans hb] at hseals
  case readyTurn => exact waitsForItsTurn (fun _ => rfl) fun d => decide_eq_true_iff
  case ready =>
    intro s hok ht
    obtain ⟨⟨ps, e⟩, hpier⟩ := Dev.foldl_readyPier s.dev
    have ha := answers_bootStep (turn := fun d => d.life.boot = .seals) execReadyAssert_eq (decide_eq_true ht) hok
    obtain ⟨hboot, hready, hwarm, hop, hruns, hrun⟩ := Dev.readied_spec ((List.finRange 16).foldl Dev.readyPier s.dev)
    refine ha.answersWith ⟨hboot, hready, hwarm, ?_, fun p => ⟨?_, fun hm => ?_⟩⟩
    · rw [hop, e]
    · rw [hruns, (hpier p).1]
    · rw [Dev.core, hrun]
      exact (hpier p).2 hm

end Sys2Proof.Machine
end

section
/-! O50: epoch seals fall due, are formed, written and persisted; the power-fail sequence with its final seal (R264, R335, R418,
R421 to R423, R452, R475, R476). -/

namespace Sys2Proof.Machine

open Sys2Proof

/-! ### A seal falls due (R418) -/

/-- A seal falls due: seals are formed, none is due, and 50 ms or 65,536 records have passed since the last one. -/
def Dev.SealFallsDue (d : Dev) : Prop :=
  d.sealing = true ∧ d.audit.due = false ∧ (d.audit.lastSeal + 1250000 ≤ d.now ∨ ∃ n ∈ d.audit.since, 65536 ≤ n)

theorem Dev.sealFallsDue_iff (d : Dev) :
    (d.sealing && !d.audit.due && (d.audit.lastSeal + 1250000 ≤ d.now || d.audit.since.any (fun n => 65536 ≤ n))) = true ↔
      d.SealFallsDue := by
  simp [Dev.SealFallsDue, and_assoc]

theorem answers_sealDue {s : State} (h : s.dev.SealFallsDue) :
    Answers .sealDue s (Dev.pendWarden { s.dev with audit := { s.dev.audit with due := true } } 7) :=
  congrArg s.answer (if_pos ((Dev.sealFallsDue_iff _).2 h))

theorem answers_sealDue_not_due {s : State} (h : ¬ s.dev.SealFallsDue) : Answers .sealDue s s.dev :=
  congrArg s.answer (if_neg (mt (Dev.sealFallsDue_iff _).1 h))

/-! ### A seal is formed (R418, R422, R452) -/

/-- The sealer can form no seal: it holds two, or one that waits for room in slot 2, or a power failure or zeroize runs. -/
def Dev.SealBlocked (d : Dev) : Prop :=
  2 ≤ d.audit.seals.length ∨ (d.audit.seals ≠ [] ∧ d.slot2Full = true) ∨ d.life.pf ≠ .none ∨ d.life.zero ≠ .none

/-- An item of SEAL_NOW waits, and 10 ms have passed since the previous seal. -/
def Dev.SealNowDue (d : Dev) : Prop := d.audit.sealNow ≠ [] ∧ d.audit.lastSeal + 250000 ≤ d.now

/-- The seals held once the next one is formed over the delivered heads. -/
def Dev.sealsFormed (d : Dev) (persist : Bool) : List Seal :=
  let e := d.ks.epoch + 1
  d.audit.seals ++ [⟨e, 1, d.sealBytes 1 e 0 d.heads, persist || decide (e % 40 = 0), false⟩]

theorem Dev.sealBlocked_iff (d : Dev) :
    (2 ≤ d.audit.seals.length || (d.audit.seals ≠ [] && d.slot2Full) || d.life.pf ≠ .none || d.life.zero ≠ .none) = true ↔
      d.SealBlocked := by
  simp [Dev.SealBlocked, or_assoc]

theorem Dev.sealNowDue_iff (d : Dev) :
    (!d.audit.sealNow.isEmpty && d.audit.lastSeal + 250000 ≤ d.now) = true ↔ d.SealNowDue := by
  simp [Dev.SealNowDue]

theorem Dev.sealing_halt {d : Dev} (h : d.sealing = true) : d.fc.halt = false := by
  simp only [Dev.sealing, Bool.and_eq_true, Bool.not_eq_true'] at h
  exact h.2

theorem answers_sealForm_blocked {s : State} (h : s.dev.SealBlocked) : Answers .sealForm s s.dev :=
  congrArg s.answer (if_pos ((Dev.sealBlocked_iff _).2 h))

/-- What SEAL_FORM answers in a HALT. -/
theorem answers_sealForm_halt {s : State} (hb : ¬ s.dev.SealBlocked) (hh : s.dev.fc.halt = true) :
    Answers .sealForm s
      (if s.dev.fc.haltStep2 && s.dev.items.isEmpty && s.dev.audit.recs.isEmpty then
        (if s.dev.hasIdentity && s.dev.chainsUp then
          Dev.formSeal { s.dev with fc := { s.dev.fc with haltStep2 := false } } true
        else Dev.haltEnd { s.dev with fc := { s.dev.fc with haltStep2 := false } })
      else s.dev) :=
  congrArg s.answer ((if_neg (mt (Dev.sealBlocked_iff _).1 hb)).trans (if_pos hh))

/-- What SEAL_FORM answers outside a HALT. -/
theorem answers_sealForm {s : State} (hb : ¬ s.dev.SealBlocked) (hh : s.dev.fc.halt = false) :
    Answers .sealForm s
      (if !s.dev.sealing then s.dev
      else if !s.dev.audit.sealNow.isEmpty && s.dev.audit.lastSeal + 250000 ≤ s.dev.now then s.dev.sealNowForm
      else if s.dev.audit.due then s.dev.formSeal false
      else s.dev) :=
  congrArg s.answer ((if_neg (mt (Dev.sealBlocked_iff _).1 hb)).trans (if_neg (by simp [hh])))

/-- Reading the keys of a seal only queues detections: the seal is of the device as it stood. -/
theorem Dev.formSeal_eq (d : Dev) (persist : Bool) :
    ∃ q, d.formSeal persist = { d with
      fc := { d.fc with detq := q }
      ks := d.ks.setEpoch (d.ks.epoch + 1)
      audit := { d.audit with
        seals := d.sealsFormed persist, due := false, lastSeal := d.now, since := List.replicate 17 0 } } := by
  obtain ⟨q1, h1⟩ := d.keyUse_frame 0x10 12
  obtain ⟨q2, h2⟩ := (d.keyUse 0x10 12).keyUse_frame 0x40 0x8A
  refine ⟨q2, ?_⟩
  simp only [Dev.formSeal, h2]
  rw [h1]
  rfl

theorem answers_sealForm_due {s : State} (hb : ¬ s.dev.SealBlocked) (hs : s.dev.sealing = true)
    (hn : ¬ s.dev.SealNowDue) (hd : s.dev.audit.due = true) :
    Answers .sealForm s (s.dev.formSeal false) := by
  have ha := answers_sealForm hb (Dev.sealing_halt hs)
  rwa [if_neg (by simp [hs]), if_neg (mt (Dev.sealNowDue_iff _).1 hn), if_pos hd] at ha

theorem answers_sealForm_sealNow {s : State} (hb : ¬ s.dev.SealBlocked) (hs : s.dev.sealing = true)
    (hn : s.dev.SealNowDue) : Answers .sealForm s s.dev.sealNowForm := by
  have ha := answers_sealForm hb (Dev.sealing_halt hs)
  rwa [if_neg (by simp [hs]), if_pos ((Dev.sealNowDue_iff _).2 hn)] at ha

theorem answers_sealForm_nothing {s : State} (hb : ¬ s.dev.SealBlocked) (hh : s.dev.fc.halt = false)
    (h : s.dev.sealing = false ∨ (¬ s.dev.SealNowDue ∧ s.dev.audit.due = false)) : Answers .sealForm s s.dev := by
  have ha := answers_sealForm hb hh
  cases hs : s.dev.sealing with
  | false => rwa [if_pos (by simp [hs])] at ha
  | true =>
    obtain ⟨hn, hd⟩ := h.resolve_left (by simp [hs])
    rwa [if_neg (by simp [hs]), if_neg (mt (Dev.sealNowDue_iff _).1 hn), if_neg (by simp [hd])] at ha

theorem Dev.item?_audit (d : Dev) (a : Audit) (it : Nat) : Dev.item? { d with audit := a } it = d.item? it := rfl

theorem Dev.sealNowForm_gone {d : Dev} {it : Nat} {per : Bool} {rest : List (Nat × Bool)}
    (h : d.audit.sealNow = (it, per) :: rest) (hi : d.item? it = none) :
    d.sealNowForm = { d with audit := { d.audit with sealNow := rest } } := by
  simp only [Dev.sealNowForm, h]
  exact if_pos (by rw [Dev.item?_audit, hi]; rfl)

theorem Dev.sealNowForm_waiting {d : Dev} {it : Nat} {per : Bool} {rest : List (Nat × Bool)} {i : Item}
    (h : d.audit.sealNow = (it, per) :: rest) (hi : d.item? it = some i) :
    d.sealNowForm.audit.sealNow = rest ∧ d.sealNowForm.audit.seals = d.sealsFormed per ∧
      ∀ x ∈ d.sealNowForm.items, x.id = it → x.stage = .sealWait d.sealNowForm.ks.epoch per := by
  obtain ⟨q, hq⟩ := Dev.formSeal_eq { d with audit := { d.audit with sealNow := rest } } per
  have hf : d.sealNowForm =
      (Dev.formSeal { d with audit := { d.audit with sealNow := rest } } per).onItem it (fun i =>
        { i with stage := .sealWait (Dev.formSeal { d with audit := { d.audit with sealNow := rest } } per).ks.epoch per }) := by
    simp only [Dev.sealNowForm, h]
    exact if_neg (by rw [Dev.item?_audit, hi]; simp)
  rw [hf, hq]
  refine ⟨rfl, rfl, fun x hx hid => ?_⟩
  obtain ⟨y, -, rfl⟩ := List.mem_map.1 hx
  dsimp only at hid ⊢
  split at hid
  · next hy => rw [if_pos hy]; rfl
  · next hy => exact absurd hid hy

/-! ### The nine entries of a seal (R335, R418) -/

theorem Dev.canSend_eventEntry (d : Dev) (r : Fin 64) (k : WriteKind) (bs : List Byte) :
    (d.eventEntry r k bs).canSend .pf1 = d.canSend .pf1 := by
  unfold Dev.eventEntry
  dsimp only
  rw [Dev.canSend_onRing_self]
  unfold Dev.write
  split <;> rfl

/-- An entry that may be sent goes out as a write of its own kind. -/
theorem Dev.eventEntry_out {d : Dev} (r : Fin 64) (k : WriteKind) (bs : List Byte) (h : d.canSend .pf1 = true) :
    ∃ a, .write .pf1 k a bs false ∈ (d.eventEntry r k bs).host.out := by
  refine ⟨(d.ring .pf1 r).sqb + BitVec.ofNat 64 (64 * (d.ring .pf1 r).sqHead.toNat),
    (Dev.onRing_sendsOn _ _ _ _).mem_out ?_⟩
  rw [Dev.write_of_canSend k _ _ _ h, Dev.send_out]
  exact List.mem_append_right _ (List.mem_singleton_self _)

theorem Dev.foldl_eventEntry_sendsOn (r : Fin 64) (k : WriteKind) (es : List (List Byte)) (d : Dev) :
    d.SendsOn (es.foldl (fun d e => d.eventEntry r k e) d) := by
  induction es generalizing d with
  | nil => exact .refl d
  | cons e es ih => exact (d.eventEntry_sendsOn r k e).trans (ih _)

theorem Dev.foldl_eventEntry_out (r : Fin 64) (k : WriteKind) (es : List (List Byte)) (d : Dev)
    (h : d.canSend .pf1 = true) :
    ∀ bs ∈ es, ∃ a, .write .pf1 k a bs false ∈ (es.foldl (fun d e => d.eventEntry r k e) d).host.out := by
  induction es generalizing d with
  | nil => simp
  | cons e es ih =>
    intro bs hb
    obtain rfl | hb := List.mem_cons.1 hb
    · obtain ⟨a, ha⟩ := Dev.eventEntry_out r k bs h
      exact ⟨a, (Dev.foldl_eventEntry_sendsOn r k es _).mem_out ha⟩
    · exact ih _ ((d.canSend_eventEntry r k e).trans h) bs hb

/-- Every entry put on an event ring goes out, whatever the signal then does. -/
theorem Dev.eventPut_out {d : Dev} (r : Fin 64) (k : WriteKind) (es : List (List Byte)) (h : d.canSend .pf1 = true) :
    ∀ bs ∈ es, ∃ a, .write .pf1 k a bs false ∈ (d.eventPut r k es).host.out := by
  intro bs hb
  obtain ⟨a, ha⟩ := Dev.foldl_eventEntry_out r k es d h bs hb
  exact ⟨a, ((Dev.write_sendsOn _ _ _ _ _ _).trans (Dev.signal_sendsOn _ _ _)).mem_out ha⟩

theorem mem_sealEntries (s : List Byte) {k : Nat} (h : k < 9) : (s.drop (64 * k)).take 64 ∈ sealEntries s :=
  List.mem_map.2 ⟨k, List.mem_range.2 h, rfl⟩

/-! ### The item of SEAL_NOW ends (R422) -/

theorem Dev.exhaust16_seals (d : Dev) : d.exhaust16.audit.seals = d.audit.seals := by
  rcases d.exhaust16_cases with e | ⟨full, e⟩
  · rw [e]
  · obtain ⟨q, fl, ks, e2⟩ := Dev.enterRecovery_frame { d with audit := { d.audit with full := full } }
    rw [e, e2]

theorem Dev.record16_seals (d : Dev) (i : Item) : (d.record16 i).audit.seals = d.audit.seals := by
  unfold Dev.record16
  dsimp only
  split
  · rfl
  · split
    · exact d.exhaust16_seals
    · exact (d.append16_seals _ _).1

theorem Dev.sealItems_seals (d : Dev) (e : Nat) : (d.sealItems e).audit.seals = d.audit.seals := by
  unfold Dev.sealItems
  split
  · exact d.record16_seals _
  · rfl

theorem Dev.record16_host (d : Dev) (i : Item) : (d.record16 i).host = d.host := by
  obtain ⟨its, q, au, fl, ks, bd, lf, h, -⟩ := d.record16_frame i
  rw [h]

theorem Dev.sealItems_host (d : Dev) (e : Nat) : (d.sealItems e).host = d.host := by
  unfold Dev.sealItems
  split
  · exact d.record16_host _
  · rfl

/-! ### A seal is written (R418, R421) -/

/-- The oldest seal stays: it is not yet in flash, its records are not delivered, or slot 2 has no room. -/
def Dev.SealStays (d : Dev) (x : Seal) : Prop :=
  (x.persist = true ∧ x.flashed = false) ∨ d.delivering = false ∨ d.eventRoom 2 9 = false

theorem Dev.sealStays_iff (d : Dev) (x : Seal) :
    ((x.persist && !x.flashed) || !d.delivering || !d.eventRoom 2 9) = true ↔ d.SealStays x := by
  simp [Dev.SealStays, or_assoc]

/-- The device once its oldest seal `x` is on slot 2 and `rest` are held. -/
def Dev.sealWritten (d : Dev) (x : Seal) (rest : List Seal) : Dev :=
  let d := d.eventPut 2 (.seal x.epoch) (sealEntries x.bytes)
  Dev.sealItems { d with audit := { d.audit with seals := rest } } x.epoch

theorem Dev.sealWritten_seals (d : Dev) (x : Seal) (rest : List Seal) : (d.sealWritten x rest).audit.seals = rest := by
  unfold Dev.sealWritten
  dsimp only
  rw [Dev.sealItems_seals]

theorem Dev.sealWritten_host (d : Dev) (x : Seal) (rest : List Seal) :
    (d.sealWritten x rest).host = (d.eventPut 2 (.seal x.epoch) (sealEntries x.bytes)).host := by
  unfold Dev.sealWritten
  dsimp only
  rw [Dev.sealItems_host]

theorem answers_sealWrite_none {s : State} (h : s.dev.audit.seals = []) : Answers .sealWrite s s.dev := by
  show execSealWrite s = _
  simp only [execSealWrite, h]
  rfl

theorem answers_sealWrite {s : State} {x : Seal} {rest : List Seal} (h : s.dev.audit.seals = x :: rest) :
    Answers .sealWrite s (if (x.persist && !x.flashed) || !s.dev.delivering || !s.dev.eventRoom 2 9 then s.dev
      else s.dev.sealWritten x rest) := by
  show execSealWrite s = _
  unfold execSealWrite Dev.sealWritten
  dsimp only
  split
  · next h0 => simp [h] at h0
  · next h0 =>
    obtain ⟨rfl, rfl⟩ := List.cons.inj (h0.symm.trans h)
    rw [State.answer]

theorem answers_sealWrite_stays {s : State} {x : Seal} {rest : List Seal} (h : s.dev.audit.seals = x :: rest)
    (hs : s.dev.SealStays x) : Answers .sealWrite s s.dev := by
  have ha := answers_sealWrite h
  rwa [if_pos ((Dev.sealStays_iff _ _).2 hs)] at ha

theorem answersWith_sealWrite {s : State} {x : Seal} {rest : List Seal} (h : s.dev.audit.seals = x :: rest)
    (hs : ¬ s.dev.SealStays x) :
    AnswersWith .sealWrite s (fun d => d.audit.seals = rest ∧
      ∀ k, k < 9 → ∃ a, .write .pf1 (.seal x.epoch) a ((x.bytes.drop (64 * k)).take 64) false ∈ d.host.out) := by
  have ha := answers_sealWrite h
  rw [if_neg (mt (Dev.sealStays_iff _ _).1 hs)] at ha
  have hroom : s.dev.eventRoom 2 9 = true := by
    by_contra hr
    exact hs (.inr (.inr (by simpa using hr)))
  refine ha.answersWith ⟨s.dev.sealWritten_seals x rest, fun k hk => ?_⟩
  rw [Dev.sealWritten_host]
  exact Dev.eventPut_out 2 _ _ (Dev.canSend_of_eventRoom hroom) _ (mem_sealEntries _ hk)

/-! ### A seal is persisted (R421, R463) -/

theorem Flash.mem_putSeal (f : Flash) (b : List Byte) : (f.goodSlot 4096 f.nextSeal, b) ∈ (f.putSeal b).seals :=
  List.mem_append_right _ (List.mem_singleton_self _)

/-- A retired sector is known as bad; audit and seals stay. -/
theorem Dev.retireSector_spec (d : Dev) (sec : Nat) :
    (d.retireSector sec).audit = d.audit ∧ (d.retireSector sec).flash.seals = d.flash.seals ∧
      sec ∈ (d.retireSector sec).flash.badSectors := by
  unfold Dev.retireSector
  split
  · next h => exact ⟨rfl, rfl, by simpa using h⟩
  · dsimp only
    split
    · split
      · simp
      · simp
    · simp

theorem Dev.haltEnd_audit (d : Dev) : d.haltEnd.audit = d.audit := by
  unfold Dev.haltEnd
  split <;> rfl

theorem Dev.haltEnd_flash (d : Dev) : d.haltEnd.flash = d.flash := by
  unfold Dev.haltEnd
  split <;> rfl

/-- The device once seal `x` is in flash. -/
def Dev.sealFlashed (d : Dev) (x : Seal) : Dev :=
  { d with
    flash := d.flash.putSeal x.bytes
    audit := { d.audit with
      seals := d.audit.seals.map (fun (y : Seal) => if y.epoch = x.epoch then { y with flashed := true } else y) } }

theorem Dev.sealFlashed_flashed (d : Dev) (x : Seal) :
    ∀ y ∈ (d.sealFlashed x).audit.seals, y.epoch = x.epoch → y.flashed = true := by
  intro y hy he
  obtain ⟨z, -, rfl⟩ := List.mem_map.1 hy
  split at he
  · next hz => rw [if_pos hz]
  · next hz => exact absurd he hz

theorem answers_sealPersist_nothing {s : State} (b : Bool)
    (h : s.dev.audit.seals.find? (fun y => y.persist && !y.flashed) = none ∨ s.dev.delivering = false) :
    Answers (.sealPersist b) s s.dev := by
  show execSealPersist b s = _
  unfold execSealPersist
  dsimp only
  split
  · rfl
  · next x hx => exact congrArg s.answer (if_pos (by simpa [hx] using h))

theorem answers_sealPersist_good {s : State} {x : Seal}
    (hx : s.dev.audit.seals.find? (fun y => y.persist && !y.flashed) = some x) (hd : s.dev.delivering = true) :
    Answers (.sealPersist true) s
      (if s.dev.fc.halt && !s.dev.fc.haltStep2 then (s.dev.sealFlashed x).haltEnd else s.dev.sealFlashed x) := by
  show execSealPersist true s = _
  simp only [execSealPersist, hx]
  exact congrArg s.answer (if_neg (by simp [hd]))

theorem answers_sealPersist_bad {s : State} {x : Seal}
    (hx : s.dev.audit.seals.find? (fun y => y.persist && !y.flashed) = some x) (hd : s.dev.delivering = true) :
    Answers (.sealPersist false) s (s.dev.programSeal false x.bytes) := by
  show execSealPersist false s = _
  simp only [execSealPersist, hx]
  exact congrArg s.answer (if_neg (by simp [hd]))

theorem answersWith_sealPersist_good {s : State} {x : Seal}
    (hx : s.dev.audit.seals.find? (fun y => y.persist && !y.flashed) = some x) (hd : s.dev.delivering = true) :
    AnswersWith (.sealPersist true) s (fun d =>
      (∃ slot, (slot, x.bytes) ∈ d.flash.seals) ∧ ∀ y ∈ d.audit.seals, y.epoch = x.epoch → y.flashed = true) := by
  refine (answers_sealPersist_good hx hd).answersWith ?_
  have hslot := Flash.mem_putSeal s.dev.flash x.bytes
  split
  · rw [Dev.haltEnd_flash, Dev.haltEnd_audit]
    exact ⟨⟨_, hslot⟩, s.dev.sealFlashed_flashed x⟩
  · exact ⟨⟨_, hslot⟩, s.dev.sealFlashed_flashed x⟩

theorem answersWith_sealPersist_bad {s : State} {x : Seal}
    (hx : s.dev.audit.seals.find? (fun y => y.persist && !y.flashed) = some x) (hd : s.dev.delivering = true) :
    AnswersWith (.sealPersist false) s (fun d =>
      d.audit = s.dev.audit ∧ d.flash.seals = s.dev.flash.seals ∧
      sealSector (s.dev.flash.goodSlot 4096 s.dev.flash.nextSeal) ∈ d.flash.badSectors) :=
  (answers_sealPersist_bad hx hd).answersWith (Dev.retireSector_spec _ _)

/-! ### Power failure (R264, R423, R475, R476) -/

theorem Dev.run_stopPiers (d : Dev) (p : Fin 16) : (d.stopPiers.core (.pier p)).run = .stopped := by
  show (d.stopPiers.pier p).core.run = .stopped
  rw [Dev.stopPiers, Dev.pier_allPiers]

theorem answers_pwrfail_ignored {n : Nat} {s : State} (h : n < 2 ∨ s.dev.board.porLow = true) :
    Answers (.pwrfailNAssert n) s s.dev :=
  congrArg s.answer (if_pos (by simpa using h))

theorem answers_pwrfail_again {n : Nat} {s : State} (hn : 2 ≤ n) (hp : s.dev.board.porLow = false)
    (h : s.dev.life.pf ≠ .none ∨ s.dev.life.zero ≠ .none) :
    Answers (.pwrfailNAssert n) s (s.dev.onCore .warden Core.nmiEdge) :=
  congrArg s.answer ((if_neg (by simp [hp]; omega)).trans (if_pos (by simpa using h)))

/-- Nothing more is written: a HALT of cause 0x19 or 0x1B runs, or the chain heads are not known (R476). -/
def Dev.writesNothing (d : Dev) : Bool := d.fc.haltHard || !d.headsKnown

theorem Dev.writesNothing_iff (d : Dev) : d.writesNothing = true ↔ d.fc.haltHard = true ∨ d.headsKnown = false := by
  simp [Dev.writesNothing]

theorem Dev.writesNothing_eq_false {d : Dev} (hh : d.fc.haltHard = false) (hk : d.headsKnown = true) :
    d.writesNothing = false := by
  simp [Dev.writesNothing, hh, hk]

/-- The start of the sequence of R423. -/
def Dev.powerFails (d : Dev) : Dev :=
  let e := d.abandonFetches.onCore .warden Core.nmiEdge
  let e := if d.writesNothing then e.stopPiers else e
  { e with
    board := { e.board with ready := false }
    life := { e.life with pf := if d.writesNothing then .done else .stopped, pfAt := e.now } }

theorem answers_pwrfail {n : Nat} {s : State} (hn : 2 ≤ n) (hp : s.dev.board.porLow = false)
    (hf : s.dev.life.pf = .none) (hz : s.dev.life.zero = .none) :
    Answers (.pwrfailNAssert n) s s.dev.powerFails :=
  congrArg s.answer ((if_neg (by simp [hp]; omega)).trans (if_neg (by simp [hf, hz])))

/-- Whether the piers stop or not, the warden sees its edge, the power fails, and items, audit and flash stay. -/
theorem Dev.powerFails_spec (d : Dev) :
    d.powerFails.life.pf = (if d.writesNothing then .done else .stopped) ∧ d.powerFails.life.pfAt = d.now ∧
      d.powerFails.board.ready = false ∧ d.powerFails.items = d.items ∧ d.powerFails.audit = d.audit ∧
      d.powerFails.core .warden = (d.core .warden).nmiEdge ∧ d.powerFails.flash = d.flash := by
  unfold Dev.powerFails
  cases d.writesNothing <;> exact ⟨rfl, rfl, rfl, rfl, rfl, rfl, rfl⟩

theorem Dev.powerFails_stopped {d : Dev} (h : d.writesNothing = true) (p : Fin 16) :
    (d.powerFails.core (.pier p)).run = .stopped := by
  unfold Dev.powerFails
  rw [h]
  exact Dev.run_stopPiers _ p

theorem Dev.placing_powerFailed {d : Dev} (h : d.life.pf ≠ .none) : d.placing = false := by
  simp [Dev.placing, h]

theorem Dev.doorbellTaken_powerFailed {d : Dev} (h : d.life.pf ≠ .none) (f : FnId) : d.doorbellTaken f = false := by
  simp [Dev.doorbellTaken, h]

theorem answersWith_pwrfail {n : Nat} {s : State} (hn : 2 ≤ n) (hp : s.dev.board.porLow = false)
    (hf : s.dev.life.pf = .none) (hz : s.dev.life.zero = .none) :
    AnswersWith (.pwrfailNAssert n) s (fun d =>
      (s.dev.fc.haltHard = true ∨ s.dev.headsKnown = false → d.life.pf = .done ∧
        ∀ p : Fin 16, (d.core (.pier p)).run = .stopped) ∧
      (s.dev.fc.haltHard = false → s.dev.headsKnown = true → d.life.pf = .stopped) ∧
      d.life.pfAt = s.dev.now ∧ d.board.ready = false ∧ d.items = s.dev.items ∧ d.audit = s.dev.audit ∧
      d.core .warden = (s.dev.core .warden).nmiEdge ∧
      d.placing = false ∧ (∀ f, d.doorbellTaken f = false) ∧ d.flash = s.dev.flash) := by
  obtain ⟨hpf, hat, hready, hitems, haudit, hwarden, hflash⟩ := s.dev.powerFails_spec
  have hnot : s.dev.powerFails.life.pf ≠ .none := by
    rw [hpf]
    split <;> simp
  refine (answers_pwrfail hn hp hf hz).answersWith ⟨fun h => ?_, fun hh hk => ?_, hat, hready, hitems, haudit, hwarden,
    Dev.placing_powerFailed hnot, Dev.doorbellTaken_powerFailed hnot, hflash⟩
  · have hw := s.dev.writesNothing_iff.2 h
    exact ⟨hpf.trans (if_pos hw), Dev.powerFails_stopped hw⟩
  · exact hpf.trans (if_neg (by simp [Dev.writesNothing_eq_false hh hk]))

theorem answers_headsFreeze {s : State} (hf : s.dev.life.pf = .stopped) (hz : s.dev.life.zero = .none)
    (ht : s.dev.life.pfAt + 2500 ≤ s.dev.now) :
    Answers .headsFreeze s { s.dev with
      life := { s.dev.life with pf := .frozen }, audit := { s.dev.audit with frozen := true, seals := [] } } :=
  congrArg s.answer (if_pos (by simp [hf, hz, ht]))

theorem answers_headsFreeze_out_of_turn {s : State}
    (h : s.dev.life.pf ≠ .stopped ∨ s.dev.life.zero ≠ .none ∨ s.dev.now < s.dev.life.pfAt + 2500) :
    Answers .headsFreeze s s.dev := by
  refine congrArg s.answer (if_neg ?_)
  simp only [Bool.and_eq_true, decide_eq_true_eq]
  rintro ⟨⟨hf, hz⟩, ht⟩
  rcases h with h | h | h
  · exact h hf
  · exact h hz
  · omega

theorem answers_finalSealForm {s : State} (hf : s.dev.life.pf = .frozen) (hz : s.dev.life.zero = .none) :
    let e := s.dev.ks.epoch + 1
    Answers .finalSealForm s { s.dev with
      audit := { s.dev.audit with final := some (e, s.dev.sealBytes 2 e 0 s.dev.heads) }
      ks := s.dev.ks.setEpoch e
      life := { s.dev.life with pf := .sealed } } :=
  congrArg s.answer (if_pos (by simp [hf, hz]))

theorem answers_finalSealForm_out_of_turn {s : State} (h : s.dev.life.pf ≠ .frozen ∨ s.dev.life.zero ≠ .none) :
    Answers .finalSealForm s s.dev := by
  refine congrArg s.answer (if_neg ?_)
  simp only [Bool.and_eq_true, decide_eq_true_eq]
  rintro ⟨hf, hz⟩
  exact h.elim (· hf) (· hz)

/-! ### The final seal is programmed (R423, R475) -/

/-- The final seal goes to the seal ring where the link is up and it has room. -/
def Dev.finalSealSent (d : Dev) (e : Nat) (b : List Byte) : Dev :=
  if d.host.link = .up && d.eventRoom 2 9 then d.eventPut 2 (.seal e) (sealEntries b) else d

/-- The device that has written what it may: it stays stopped until POR. -/
def Dev.powerFailDone (d : Dev) : Dev := Dev.stopPiers { d with life := { d.life with pf := .done } }

theorem Dev.finalSealSent_flash (d : Dev) (e : Nat) (b : List Byte) : (d.finalSealSent e b).flash = d.flash := by
  unfold Dev.finalSealSent
  split
  · obtain ⟨h, he, -⟩ := d.eventPut_sendsOn 2 (.seal e) (sealEntries b)
    rw [he]
  · rfl

theorem Dev.eventRoom_done {d : Dev} (h : d.life.pf = .done) (r : Fin 64) (n : Nat) : d.eventRoom r n = false := by
  simp [Dev.eventRoom, h]

theorem answers_finalSealProgram_good {s : State} {e : Nat} {b : List Byte} (hf : s.dev.life.pf = .sealed)
    (hz : s.dev.life.zero = .none) (hs : s.dev.audit.final = some (e, b)) :
    Answers (.finalSealProgram true) s
      (Dev.finalSealSent { s.dev with flash := s.dev.flash.putSeal b } e b).powerFailDone := by
  show execFinalSealProgram true s = _
  simp only [execFinalSealProgram, hf, hs]
  exact congrArg s.answer (if_neg (by simp [hz]))

theorem answers_finalSealProgram_bad {s : State} {e : Nat} {b : List Byte} (hf : s.dev.life.pf = .sealed)
    (hz : s.dev.life.zero = .none) (hs : s.dev.audit.final = some (e, b)) :
    Answers (.finalSealProgram false) s s.dev.powerFailDone := by
  show execFinalSealProgram false s = _
  simp only [execFinalSealProgram, hf, hs]
  exact congrArg s.answer (if_neg (by simp [hz]))

theorem answers_finalSealProgram_out_of_turn {s : State} (g : Bool)
    (h : s.dev.life.pf ≠ .sealed ∨ s.dev.life.zero ≠ .none ∨ s.dev.audit.final = none) :
    Answers (.finalSealProgram g) s s.dev := by
  show execFinalSealProgram g s = _
  unfold execFinalSealProgram
  dsimp only
  split
  · next e b hf hs => exact congrArg s.answer (if_pos (by simpa [hf, hs] using h))
  · rfl

theorem answersWith_finalSealProgram_good {s : State} {e : Nat} {b : List Byte} (hf : s.dev.life.pf = .sealed)
    (hz : s.dev.life.zero = .none) (hs : s.dev.audit.final = some (e, b)) :
    AnswersWith (.finalSealProgram true) s (fun d =>
      d.life.pf = .done ∧ (s.dev.flash.goodSlot 4096 s.dev.flash.nextSeal, b) ∈ d.flash.seals ∧
      (∀ p : Fin 16, (d.core (.pier p)).run = .stopped) ∧ (∀ r n, d.eventRoom r n = false)) := by
  refine (answers_finalSealProgram_good hf hz hs).answersWith
    ⟨rfl, ?_, Dev.run_stopPiers _, Dev.eventRoom_done rfl⟩
  have hflash := Dev.finalSealSent_flash { s.dev with flash := s.dev.flash.putSeal b } e b
  show _ ∈ (Dev.finalSealSent _ e b).flash.seals
  rw [hflash]
  exact Flash.mem_putSeal _ _

theorem answersWith_finalSealProgram_bad {s : State} {e : Nat} {b : List Byte} (hf : s.dev.life.pf = .sealed)
    (hz : s.dev.life.zero = .none) (hs : s.dev.audit.final = some (e, b)) :
    AnswersWith (.finalSealProgram false) s (fun d => d.life.pf = .done ∧ d.flash = s.dev.flash ∧
      ∀ p : Fin 16, (d.core (.pier p)).run = .stopped) :=
  (answers_finalSealProgram_bad hf hz hs).answersWith ⟨rfl, rfl, Dev.run_stopPiers _⟩

/-! ### The step of a HALT (R452) -/

theorem answersWith_sealForm_halt {s : State} (hb : ¬ s.dev.SealBlocked) (hh : s.dev.fc.halt = true)
    (h2 : s.dev.fc.haltStep2 = true) (hi : s.dev.items = []) (hr : s.dev.audit.recs = []) (hid : s.dev.hasIdentity = true)
    (hc : s.dev.chainsUp = true) :
    AnswersWith .sealForm s (fun d => d.audit.seals = s.dev.sealsFormed true ∧ d.fc.haltStep2 = false) := by
  have ha := answers_sealForm_halt hb hh
  rw [if_pos (by simp [h2, hi, hr]), if_pos (by simp [hid, hc])] at ha
  obtain ⟨q, hq⟩ := Dev.formSeal_eq { s.dev with fc := { s.dev.fc with haltStep2 := false } } true
  rw [hq] at ha
  exact ha.answersWith ⟨rfl, rfl⟩

theorem answers_sealForm_halt_end {s : State} (hb : ¬ s.dev.SealBlocked) (hh : s.dev.fc.halt = true)
    (h2 : s.dev.fc.haltStep2 = true) (hi : s.dev.items = []) (hr : s.dev.audit.recs = [])
    (h : s.dev.hasIdentity = false ∨ s.dev.chainsUp = false) :
    Answers .sealForm s (Dev.haltEnd { s.dev with fc := { s.dev.fc with haltStep2 := false } }) := by
  have ha := answers_sealForm_halt hb hh
  rwa [if_pos (by simp [h2, hi, hr]), if_neg (by simpa [imp_iff_not_or] using h)] at ha

theorem answers_sealForm_halt_out_of_turn {s : State} (hb : ¬ s.dev.SealBlocked) (hh : s.dev.fc.halt = true)
    (h : s.dev.fc.haltStep2 = false ∨ s.dev.items ≠ [] ∨ s.dev.audit.recs ≠ []) : Answers .sealForm s s.dev := by
  have ha := answers_sealForm_halt hb hh
  rwa [if_neg (by simpa [imp_iff_not_or, or_assoc] using h)] at ha

/-- Settles O50: the seals by what SEAL_FORM, SEAL_WRITE and SEAL_PERSIST answer in each case, the power failure by the device
at its start and the step that each later command answers in its turn. -/
theorem sealsAndPowerFailure : Obligations.SealsAndPowerFailure := by
  unfold Obligations.SealsAndPowerFailure
  refine ⟨?seals, ?power⟩
  case seals =>
    intro due blocked nowDue formed stays
    refine ⟨fun s h => (answers_sealDue h).answersWith ⟨rfl, rfl, rfl⟩, fun s h => answers_sealDue_not_due h,
      fun s h => answers_sealForm_blocked h, fun s hb hs hn hd => ?due, fun s it per rest i hb hs hq ht hi => ?sealNow,
      fun s it per rest hb hs hq ht hi => ?gone, fun s hb hh h => answers_sealForm_nothing hb hh h,
      fun s hb hh h2 hi hr => ⟨answersWith_sealForm_halt hb hh h2 hi hr, answers_sealForm_halt_end hb hh h2 hi hr⟩,
      fun s hb hh h => answers_sealForm_halt_out_of_turn hb hh h, fun s h => answers_sealWrite_none h,
      fun s x rest h hs => answers_sealWrite_stays h hs, fun s x rest h hs => answersWith_sealWrite h hs,
      fun b s h => answers_sealPersist_nothing b h,
      fun s x hx hd => ⟨answersWith_sealPersist_good hx hd, answersWith_sealPersist_bad hx hd⟩⟩
    case due =>
      obtain ⟨q, hq⟩ := s.dev.formSeal_eq false
      have ha := answers_sealForm_due hb hs hn hd
      rw [hq] at ha
      exact ha.answersWith ⟨rfl, rfl, rfl, rfl, rfl⟩
    case sealNow =>
      exact (answers_sealForm_sealNow hb hs ⟨by simp [hq], ht⟩).answersWith (Dev.sealNowForm_waiting hq hi)
    case gone =>
      have ha := answers_sealForm_sealNow hb hs ⟨by simp [hq], ht⟩
      rwa [Dev.sealNowForm_gone hq hi] at ha
  case power =>
    exact ⟨fun n s h => answers_pwrfail_ignored h, fun n s hn hp h => answers_pwrfail_again hn hp h,
      fun n s hn hp hf hz => answersWith_pwrfail hn hp hf hz, fun s hf hz ht => answers_headsFreeze hf hz ht,
      fun s h => answers_headsFreeze_out_of_turn h, fun s hf hz => answers_finalSealForm hf hz,
      fun s h => answers_finalSealForm_out_of_turn h,
      fun s e b hf hz hs => ⟨answersWith_finalSealProgram_good hf hz hs, answersWith_finalSealProgram_bad hf hz hs⟩,
      fun g s h => answers_finalSealProgram_out_of_turn g h⟩

end Sys2Proof.Machine
end

section
/-! Sparse memories: O27 from the laws of a write and of a zeroed range. -/

namespace Sys2Proof.Machine

open Sys2Proof

/-- Settles O27, by the laws of a write and of a zeroed range. -/
theorem sparseMemoryReadAfterWrite : Obligations.SparseMemoryReadAfterWrite := by
  intro w m a x hm
  exact ⟨m.wf_set a x hm, SMem.get_set_self a x hm, fun b hb => SMem.get_set_of_ne m x hb,
    fun lo hi => ⟨m.wf_clear lo hi hm, m.get_clear lo hi⟩⟩

end Sys2Proof.Machine
end

section
/-! The bank code (R274): its check bits are linear, so the syndrome of a stored codeword depends on the wrong bits alone; O28 from the
syndrome of each wrong bit. -/

namespace Sys2Proof.Machine

open Sys2Proof

/-! ### The check bits are linear in the word -/

theorem eccFold_xor (v w : Word) (cs : List Nat) (i : Nat) : eccFold (v ^^^ w) i cs = eccFold v i cs ^^^ eccFold w i cs := by
  induction cs generalizing i with
  | nil => exact (Nat.xor_self 0).symm
  | cons c cs ih =>
    simp only [eccFold, ih, BitVec.getLsbD_xor]
    cases v.getLsbD i <;> cases w.getLsbD i <;> simp [Nat.xor_assoc, Nat.xor_left_comm]

theorem eccCheck_xor (v w : Word) : eccCheck (v ^^^ w) = eccCheck v ^^^ eccCheck w := by
  rw [eccCheck, eccFold_xor, BitVec.ofNat_xor, eccCheck, eccCheck]

/-! ### Decoding by the syndrome -/

section Decode

variable {k : BitVec 7} {v : Word} {i : Nat}

/-- The syndrome of check bits `k` stored with data `v`. -/
def eccSyndrome (k : BitVec 7) (v : Word) : Nat := (k ^^^ eccCheck v).toNat

/-- The syndrome of a word's codeword with wrong check bits `e` and wrong data bits `f` is that of the wrong bits alone. -/
theorem eccSyndrome_error (w : Word) (e : BitVec 7) (f : Word) : eccSyndrome (eccCheck w ^^^ e) (w ^^^ f) = eccSyndrome e f := by
  rw [eccSyndrome, eccSyndrome, eccCheck_xor, BitVec.xor_comm (eccCheck w) e, BitVec.xor_assoc, ← BitVec.xor_assoc (eccCheck w),
    BitVec.xor_self, BitVec.zero_xor]

theorem eccDecode_append_of_clean (h : eccSyndrome k v = 0) : eccDecode (k ++ v) = (.clean, v) := by
  rw [eccSyndrome] at h
  simp only [eccDecode, eccData, BitVec.extractLsb'_append_eq_left, BitVec.extractLsb'_append_eq_right, if_pos h]

theorem eccDecode_append_of_column (h0 : eccSyndrome k v ≠ 0) (hi : eccFind (eccSyndrome k v) 0 eccColumns = some i) :
    eccDecode (k ++ v) = (.corrected, v ^^^ BitVec.ofNat 36 (2 ^ i)) := by
  rw [eccSyndrome] at h0 hi
  simp only [eccDecode, eccData, BitVec.extractLsb'_append_eq_left, BitVec.extractLsb'_append_eq_right, if_neg h0, hi]

theorem eccDecode_append_of_check (h0 : eccSyndrome k v ≠ 0) (hn : eccFind (eccSyndrome k v) 0 eccColumns = none)
    (hc : (eccFind (eccSyndrome k v) 0 [1, 2, 4, 8, 16, 32, 64]).isSome = true) : eccDecode (k ++ v) = (.corrected, v) := by
  rw [eccSyndrome] at h0 hn hc
  simp only [eccDecode, eccData, BitVec.extractLsb'_append_eq_left, BitVec.extractLsb'_append_eq_right, if_neg h0, hn, if_pos hc]

end Decode

/-! ### The syndromes of single wrong bits -/

/-- A wrong data bit has the column of its position as syndrome, which no other position has. -/
theorem eccSyndrome_data_bit (i : Fin 36) : eccSyndrome 0#7 (BitVec.ofNat 36 (2 ^ i.val)) ≠ 0 ∧
    eccFind (eccSyndrome 0#7 (BitVec.ofNat 36 (2 ^ i.val))) 0 eccColumns = some i.val := by
  revert i
  decide

/-- A wrong check bit has a syndrome of weight one, which is no column. -/
theorem eccSyndrome_check_bit (j : Fin 7) : eccSyndrome (BitVec.ofNat 7 (2 ^ j.val)) 0#36 ≠ 0 ∧
    eccFind (eccSyndrome (BitVec.ofNat 7 (2 ^ j.val)) 0#36) 0 eccColumns = none ∧
    (eccFind (eccSyndrome (BitVec.ofNat 7 (2 ^ j.val)) 0#36) 0 [1, 2, 4, 8, 16, 32, 64]).isSome = true := by
  revert j
  decide

/-- Bits 0 to 35 of a codeword are its data. -/
theorem one_shiftLeft_data_bit (i : Fin 36) : 1#43 <<< i.val = 0#7 ++ BitVec.ofNat 36 (2 ^ i.val) := by
  revert i
  decide

/-- Bits 36 to 42 of a codeword are its check bits. -/
theorem one_shiftLeft_check_bit (j : Fin 7) : 1#43 <<< (36 + j.val) = BitVec.ofNat 7 (2 ^ j.val) ++ 0#36 := by
  revert j
  decide

theorem eccDecode_eccEncode (w : Word) : eccDecode (eccEncode w) = (.clean, w) := by
  refine eccDecode_append_of_clean ?_
  rw [eccSyndrome, BitVec.xor_self, BitVec.toNat_zero]

theorem eccDecode_data_bit (w : Word) (i : Fin 36) : eccDecode (eccEncode w ^^^ 1#43 <<< i.val) = (.corrected, w) := by
  obtain ⟨h0, hi⟩ := eccSyndrome_data_bit i
  rw [← eccSyndrome_error w] at h0 hi
  rw [eccEncode, one_shiftLeft_data_bit, BitVec.xor_append, eccDecode_append_of_column h0 hi, BitVec.xor_assoc, BitVec.xor_self,
    BitVec.xor_zero]

theorem eccDecode_check_bit (w : Word) (j : Fin 7) : eccDecode (eccEncode w ^^^ 1#43 <<< (36 + j.val)) = (.corrected, w) := by
  obtain ⟨h0, hn, hc⟩ := eccSyndrome_check_bit j
  rw [← eccSyndrome_error w] at h0 hn hc
  rw [eccEncode, one_shiftLeft_check_bit, BitVec.xor_append, eccDecode_append_of_check h0 hn hc, BitVec.xor_zero]

/-- Settles O28: a wrong bit is one of the 36 data bits or one of the 7 check bits, and its syndrome names it. -/
theorem bankCodewordCorrectsOneBit : Obligations.BankCodewordCorrectsOneBit := by
  intro w i hi
  refine ⟨eccDecode_eccEncode w, ?_⟩
  by_cases hd : i < 36
  · exact eccDecode_data_bit w ⟨i, hd⟩
  · obtain ⟨j, rfl⟩ := Nat.exists_eq_add_of_le (Nat.not_lt.1 hd)
    exact eccDecode_check_bit w ⟨j, by omega⟩

end Sys2Proof.Machine
end

section
/-! Background work on memory: what a write-back, a line read, a write-out, a pointing read and a sector's retirement do in each case, and
O30 from them. -/

namespace Sys2Proof.Machine

open Sys2Proof

/-! ### Write-backs (R275) -/

section WriteBack

variable {P : Pier} {a : Nat} {w : Word}

theorem writeBack_of_not_mem (h : a ∉ P.mem.wback) : writeBack P a = P := if_neg h

theorem writeBack_of_corrected (h : a ∈ P.mem.wback) (hc : eccDecode (P.mem.banks.get a) = (.corrected, w)) :
    writeBack P a = bankStore P a (eccEncode w) := by
  simp only [writeBack, if_pos h, hc, if_true]

theorem writeBack_of_not_corrected (h : a ∈ P.mem.wback) (hc : (eccDecode (P.mem.banks.get a)).1 ≠ .corrected) :
    writeBack P a = { P with mem := { P.mem with wback := P.mem.wback.filter (· ≠ a) } } := by
  simp only [writeBack, if_pos h, if_neg hc]

end WriteBack

/-! ### Reads of a line, and its write-out (R289, R290, R460) -/

section Line

variable {P : Pier} {m : Master} {l n : Nat} {c : BitVec 576} {e : MergeLine}

theorem find?_line_of_unmerged (h : ∀ e ∈ P.mem.merge, e.line ≠ l) : P.mem.merge.find? (fun x => x.line = l) = none :=
  List.find?_eq_none.2 fun e he => by simpa using h e he

theorem line_of_find? (h : P.mem.merge.find? (fun x => x.line = l) = some e) : e.line = l := by
  simpa using List.find?_some h

/-- A line in the merge buffer is read there, and nothing changes (R290). -/
theorem lineFetch_of_merged (h : ∃ e ∈ P.mem.merge, e.line = l) : (lineFetch P m l).2 = P := by
  have hs : (P.mem.merge.find? fun x => x.line = l).isSome = true := List.find?_isSome.2 (by simpa using h)
  obtain ⟨x, hx⟩ := Option.isSome_iff_exists.1 hs
  simp only [lineFetch, hx]

theorem lineFetch_of_good_or_poison (hm : ∀ e ∈ P.mem.merge, e.line ≠ l)
    (h : (lineDecode (P.mem.quarry.get l)).1 = .clean ∨ (lineDecode (P.mem.quarry.get l)).1 = .poison) : (lineFetch P m l).2 = P := by
  rcases h with h | h
  all_goals simp only [lineFetch, find?_line_of_unmerged hm, h]

theorem lineFetch_of_corrected (hm : ∀ e ∈ P.mem.merge, e.line ≠ l) (h : lineDecode (P.mem.quarry.get l) = (.corrected n, c)) :
    (lineFetch P m l).2 = { P with mem := { P.mem with quarry := P.mem.quarry.set l c } }.detect 0x04 l n := by
  simp only [lineFetch, find?_line_of_unmerged hm, h]

theorem lineFetch_of_uncorrectable (hm : ∀ e ∈ P.mem.merge, e.line ≠ l) (h : (lineDecode (P.mem.quarry.get l)).1 = .uncorrectable) :
    (lineFetch P m l).2 = P.detect 0x05 l (masterCode m) := by
  simp only [lineFetch, find?_line_of_unmerged hm, h]

theorem hbmWrite_of_other_line (h : P.regs.injLine.toNat ≠ l) :
    hbmWrite P l c = { P with mem := { P.mem with quarry := P.mem.quarry.set l c } } :=
  if_neg fun hl => h hl.1

end Line

/-! ### Pointing (R461, R462) -/

theorem lapCount_eq (total : Nat) (l : Lap) : lapCount total l =
    if l.count + 1 < total then { l with count := l.count + 1 }
    else { l with count := 0, ticks := 0, overdue := false, last := BitVec.ofNat 32 (min l.ticks 0xFFFFFFFF) } := by
  rw [lapCount, ← ite_not]
  simp only [Nat.not_le]

section Pointing

variable {P : Pier} {now : Nat} {a : BitVec 21} {l : BitVec 25}

/-- What keeps pointing from a bank: it is retired, scoured, waking or locked (R461). -/
def Pier.NotPointed (P : Pier) (b : Fin 16) : Prop :=
  P.regs.retire.getLsbD b.val = true ∨ P.mem.bank[b].scour = true ∨ P.mem.bank[b].retn = .waking ∨
    P.mem.lockOn = some (BitVec.ofFin b)

theorem Pier.notPointed_iff (P : Pier) (b : Fin 16) :
    (P.regs.retire.getLsbD b.val || P.mem.bank[b].scour || P.mem.bank[b].retn = .waking || P.mem.lockOn = some (BitVec.ofFin b)) = true ↔
      P.NotPointed b := by
  simp only [Pier.NotPointed, Bool.or_eq_true, decide_eq_true_eq, or_assoc]

theorem bankFetch_pier_of_clean {m : Master} {a : Nat} {w : Word} (h : eccDecode (P.mem.banks.get a) = (.clean, w)) :
    (bankFetch P m a).pier = P := by
  simp only [bankFetch, h]
  rfl

theorem pointAt_of_not_pointed (h : P.NotPointed (bankOf a.toNat)) : pointAt P now (.bank a) = P :=
  if_pos ((P.notPointed_iff _).2 h)

theorem pointAt_of_retained (h : ¬ P.NotPointed (bankOf a.toNat)) (hr : P.mem.bank[bankOf a.toNat].retn = .retained) :
    pointAt P now (.bank a) = P.onBank (bankOf a.toNat) (fun k => { k with retn := .waking, lastUse := now }) :=
  (if_neg (mt (P.notPointed_iff _).1 h)).trans (if_pos hr)

theorem pointAt_of_clean_word {w : Word} (h : ¬ P.NotPointed (bankOf a.toNat)) (hr : P.mem.bank[bankOf a.toNat].retn = .awake)
    (hc : eccDecode (P.mem.banks.get a.toNat) = (.clean, w)) :
    pointAt P now (.bank a) = { P with lapB := lapCount (bankLapWords P) P.lapB } := by
  have hn : P.mem.bank[bankOf a.toNat].retn ≠ .retained := by
    rw [hr]
    decide
  refine (if_neg (mt (P.notPointed_iff _).1 h)).trans ((if_neg hn).trans ?_)
  simp only [bankFetch_pier_of_clean hc]

theorem pointAt_of_self_refresh (h : P.mem.selfRefresh = true) : pointAt P now (.line l) = P := if_pos h

theorem pointAt_of_clean_line (hs : P.mem.selfRefresh = false) (hm : ∀ e ∈ P.mem.merge, e.line ≠ l.toNat)
    (hc : (lineDecode (P.mem.quarry.get l.toNat)).1 = .clean) :
    pointAt P now (.line l) = { P with lapQ := lapCount quarryLapLines P.lapQ } := by
  simp only [pointAt, hs, Bool.false_eq_true, if_false, lineFetch_of_good_or_poison hm (.inl hc)]

end Pointing

/-! ### The commands of one pier as changes of that pier -/

section Commands

variable {s : State} {p : Fin 16} {Q : Pier}

theorem answers_correctionWriteBack {addr : BitVec 21} (hl : (s.dev.pier p).mem.lockOn ≠ some (BitVec.ofFin (bankOf addr.toNat)))
    (h : writeBack (s.dev.pier p) addr.toNat = Q) : Answers (.correctionWriteBack p addr) s (s.dev.setPier p Q) :=
  answers_setPier rfl ((if_neg hl).trans h)

theorem answers_quarryReadCompletion {l : BitVec 25} {m : Master} (hs : (s.dev.pier p).mem.selfRefresh = false)
    (h : (lineFetch (s.dev.pier p) m l.toNat).2 = Q) : Answers (.quarryReadCompletion p l m) s (s.dev.setPier p Q) :=
  answers_setPier rfl ((if_neg (Bool.eq_false_iff.1 hs)).trans h)

theorem answers_mergeBufferWriteOut {l : BitVec 25} {e : MergeLine} (hs : (s.dev.pier p).mem.selfRefresh = false)
    (he : (s.dev.pier p).mem.merge.find? (fun x => x.line = l.toNat) = some e) (h : mergeOut (s.dev.pier p) e = Q) :
    Answers (.mergeBufferWriteOut p l) s (s.dev.setPier p Q) := by
  refine answers_setPier rfl ?_
  simp only [he, hs, Bool.false_eq_true, if_false, h]

theorem answers_mergeBufferWriteOut_nothing {l : BitVec 25} (h : (s.dev.pier p).mem.selfRefresh = true ∨
    ∀ e ∈ (s.dev.pier p).mem.merge, e.line ≠ l.toNat) : Answers (.mergeBufferWriteOut p l) s s.dev := by
  refine answers_of_same_pier (p := p) rfl ?_
  split
  · next e he =>
    exact if_pos (h.resolve_right fun hm => Option.some_ne_none e (he.symm.trans (find?_line_of_unmerged hm)))
  · rfl

theorem answers_pointingRead {loc : MemLoc} (ha : (s.dev.pier p).awake = true) (hp : (s.dev.pier p).regs.pause = false)
    (h : pointAt (s.dev.pier p) s.dev.now loc = Q) : Answers (.pointingRead p loc) s (s.dev.setPier p Q) := by
  refine answers_setPier rfl ((if_pos ?_).trans h)
  rw [ha, hp]
  rfl

theorem answers_pointingRead_nothing {loc : MemLoc} (h : (s.dev.pier p).awake = false ∨ (s.dev.pier p).regs.pause = true ∨
    pointAt (s.dev.pier p) s.dev.now loc = s.dev.pier p) : Answers (.pointingRead p loc) s s.dev := by
  refine answers_of_same_pier (p := p) rfl ?_
  split
  · next hc =>
    obtain ⟨ha, hp⟩ := Bool.and_eq_true_iff.1 hc
    rcases h with h | h | h
    · exact absurd ha (Bool.eq_false_iff.1 h)
    · simp [h] at hp
    · exact h
  · rfl

end Commands

/-! ### A sector of flash is retired (R463) -/

/-- A retirement of a good sector lists it as bad, and adds at most a report that its region runs low. -/
theorem Dev.retireSector_of_good {d : Dev} {sec : Nat} (h : d.flash.badSectors.contains sec = false) :
    (d.retireSector sec).flash.badSectors = d.flash.badSectors ++ [sec] ∧ d.fc.detq ⊆ (d.retireSector sec).fc.detq := by
  simp only [Dev.retireSector, h, Bool.false_eq_true, if_false]
  split
  · split
    · exact ⟨rfl, List.subset_append_left _ _⟩
    · exact ⟨rfl, List.Subset.refl _⟩
  · exact ⟨rfl, List.Subset.refl _⟩

section Erase

variable {s : State} {sec : Nat} {r : Nat × Nat × Nat}

/-- The device once an erase of a sector is counted. -/
def Dev.eraseCounted (d : Dev) (sec : Nat) : Dev :=
  { d with flash := { d.flash with erases := assocSet d.flash.erases sec (assocGet d.flash.erases sec 0 + 1) } }

theorem answers_wearLevellingErase_nothing (g : Bool) (h : s.dev.flash.region sec = none ∨ s.dev.flash.badSectors.contains sec = true) :
    Answers (.wearLevellingErase sec g) s s.dev := by
  show execWearLevellingErase sec g s = s.answer s.dev
  unfold execWearLevellingErase
  dsimp only
  split
  · rfl
  · next r hr => exact if_pos (h.resolve_left (by simp [hr]))

variable (hr : s.dev.flash.region sec = some r) (hb : s.dev.flash.badSectors.contains sec = false)

include hr hb

/-- An erase of a good sector is counted; at 80,000 erases the sector is retired. -/
theorem answers_wearLevellingErase_good : Answers (.wearLevellingErase sec true) s
    (if 80000 ≤ assocGet s.dev.flash.erases sec 0 + 1 then (s.dev.eraseCounted sec).retireSector sec else s.dev.eraseCounted sec) := by
  show execWearLevellingErase sec true s = s.answer _
  simp only [execWearLevellingErase, hr, hb, Bool.false_eq_true, if_false, if_true, Bool.not_true, Bool.false_or, decide_eq_true_eq,
    Dev.eraseCounted]

/-- An erase that fails is counted and reported, and the sector is retired. -/
theorem answers_wearLevellingErase_failed : Answers (.wearLevellingErase sec false) s
    (((s.dev.eraseCounted sec).detect 0x21 22 sec (Config.flashRegion r.1).toNat).retireSector sec) := by
  show execWearLevellingErase sec false s = s.answer _
  simp only [execWearLevellingErase, hr, hb, Bool.false_eq_true, if_false, if_true, Bool.not_false, Bool.true_or, Dev.eraseCounted]

end Erase

/-- Settles O30: each command in the case that changes its pier, by what it makes of the pier there, and in the cases that change
nothing. -/
theorem backgroundMemoryWork : Obligations.BackgroundMemoryWork := by
  refine ⟨⟨?dropped, ?readNothing, ?outNothing, ?out, ?corrected, ?readCorrected, ?readOther, ?outPlain⟩,
    ⟨?paused, ?bankOut, ?lineOut, ?lapNothing, ?word, ?line, ?overdue⟩,
    ⟨?noRefresh, ?noTraining, ?noCalibration, ?noErase, ?refresh, ?training, ?calibration, ?erase, ?eraseLast, ?eraseFailed⟩⟩
  case dropped =>
    intro p addr s P
    refine ⟨fun h => answers_of_same_pier (p := p) rfl ?_, fun hl hm hc => ?_⟩
    · split_ifs with hl
      · rfl
      · exact writeBack_of_not_mem (h.resolve_left hl)
    · exact answers_correctionWriteBack hl (writeBack_of_not_corrected hm hc)
  case readNothing =>
    intro p l m s h
    refine answers_of_same_pier (p := p) rfl ?_
    split_ifs with hs
    · rfl
    · exact lineFetch_of_merged (h.resolve_left hs)
  case outNothing => exact fun p l s h => answers_mergeBufferWriteOut_nothing h
  case out =>
    intro p l s e P hs he
    refine answers_mergeBufferWriteOut hs he ?_
    rw [mergeOut, line_of_find? he]
  case corrected =>
    exact fun p addr s w hl hm hc => answers_correctionWriteBack hl (writeBack_of_corrected hm hc)
  case readCorrected => exact fun p l m s n c hs hm hc => answers_quarryReadCompletion hs (lineFetch_of_corrected hm hc)
  case readOther =>
    intro p l m s P hs hm
    refine ⟨fun h => answers_of_same_pier (p := p) rfl ?_,
      fun h => answers_quarryReadCompletion hs (lineFetch_of_uncorrectable hm h)⟩
    exact (if_neg (Bool.eq_false_iff.1 hs)).trans (lineFetch_of_good_or_poison hm h)
  case outPlain =>
    intro p l s e P hs he hi
    refine answers_mergeBufferWriteOut hs he ?_
    rw [mergeOut, line_of_find? he]
    exact hbmWrite_of_other_line fun h => hi (BitVec.eq_of_toNat_eq h)
  case paused => exact fun p loc s h => answers_pointingRead_nothing (h.imp_right .inl)
  case bankOut =>
    intro p a s P b out
    exact ⟨fun h => answers_pointingRead_nothing (.inr (.inr (pointAt_of_not_pointed h))),
      fun h ha hp hr => answers_pointingRead ha hp (pointAt_of_retained h hr)⟩
  case lineOut => exact fun p l s h => answers_pointingRead_nothing (.inr (.inr (pointAt_of_self_refresh h)))
  case lapNothing =>
    intro p s P
    refine ⟨fun h => answers_of_same_pier (p := p) rfl (if_pos ?_), fun h => answers_of_same_pier (p := p) rfl (if_pos ?_)⟩
    all_goals simpa using h
  case word =>
    intro p a s w P b ha hp hret hsc hr hl hc
    have hn : ¬ P.NotPointed b := by
      simp only [Pier.NotPointed, hret, hsc, hr, Bool.false_eq_true, reduceCtorEq, false_or]
      exact hl
    refine answers_pointingRead ha hp ((pointAt_of_clean_word hn hr hc).trans ?_)
    rw [lapCount_eq]
  case line =>
    intro p l s P ha hp hs hm hc
    refine answers_pointingRead ha hp ((pointAt_of_clean_line hs hm hc).trans ?_)
    rw [lapCount_eq, quarryLapLines]
  case overdue =>
    intro p s P
    refine ⟨fun ho ht => answers_setPier (p := p) rfl (if_neg ?_), fun ho ht => answers_setPier (p := p) rfl (if_neg ?_)⟩
    all_goals simpa using ⟨ho, ht⟩
  case noRefresh => exact fun p s h => answers_of_same_pier (p := p) rfl (if_pos h)
  case noTraining =>
    intro p s h
    refine answers_of_same_pier (p := p) rfl (if_neg ?_)
    simpa [imp_iff_not_or] using h
  case noCalibration => exact fun s h => congrArg s.answer (if_neg h.not_ge)
  case noErase => exact fun sector g s h => answers_wearLevellingErase_nothing g h
  case refresh => exact fun p s h => answers_setPier (p := p) rfl (if_neg (Bool.eq_false_iff.1 h))
  case training =>
    intro p s ht hn
    refine answers_setPier (p := p) rfl (if_pos ?_)
    simp [ht, hn]
  case calibration => exact fun s h => congrArg s.answer (if_pos h)
  case erase =>
    intro sector s r hr hb hn
    have ha := answers_wearLevellingErase_good hr hb
    rwa [if_neg hn.not_ge] at ha
  case eraseLast =>
    intro sector s r hr hb hn
    have ha := answers_wearLevellingErase_good hr hb
    rw [if_pos hn] at ha
    exact ha.answersWith (Dev.retireSector_of_good (d := s.dev.eraseCounted sector) hb).1
  case eraseFailed =>
    intro sector s r hr hb
    obtain ⟨hbad, hq⟩ := Dev.retireSector_of_good
      (d := (s.dev.eraseCounted sector).detect 0x21 22 sector (Config.flashRegion r.1).toNat) hb
    exact (answers_wearLevellingErase_failed hr hb).answersWith ⟨hbad, hq (List.mem_append_right _ (List.mem_singleton_self _))⟩

end Sys2Proof.Machine
end

section
/-! The step of the machine (O1). -/

namespace Sys2Proof.Machine
open Sys2Proof

/-- Settles O1: `step` takes the front of the queue, and what it runs is `exec` on the rest. -/
theorem stepRunsFrontCommand : Obligations.StepRunsFrontCommand := by
  unfold Obligations.StepRunsFrontCommand
  exact fun _ _ => rfl

end Sys2Proof.Machine
end

section
/-!
The power cap and the software cap of the load arbiter stay in their legal range (O60). Nearly every function of the
device leaves the arbiter as it is (the `_pw` lemmas); the ones that write it keep the range (the `_legal` lemmas).
-/

namespace Sys2Proof.Machine
open Sys2Proof

/-- The power cap and the software cap of the load arbiter lie in their range (R472). -/
def Arbiter.Legal (a : Arbiter) : Prop := 120 ≤ a.budget ∧ a.budget ≤ 560 ∧ 120 ≤ a.scap ∧ a.scap ≤ 560

@[simp] theorem Arbiter.legal_mk (a : Arbiter) (e c : Bool) (l : Option Nat) :
    (Arbiter.mk e a.scap a.budget c l).Legal ↔ a.Legal := Iff.rfl

/-- The device that an access leaves, however it ended. -/
def CRes.dev {α : Type} : CRes α → Dev
  | .ok _ d => d
  | .held d => d
  | .exc _ _ d => d

@[simp] theorem CRes.dev_ok {α : Type} (v : α) (d : Dev) : (CRes.ok v d).dev = d := rfl
@[simp] theorem CRes.dev_held {α : Type} (d : Dev) : (CRes.held d : CRes α).dev = d := rfl
@[simp] theorem CRes.dev_exc {α : Type} (v : BitVec 7) (s : Option (Word × Word)) (d : Dev) :
    (CRes.exc v s d : CRes α).dev = d := rfl

/-- The device that a port's action leaves. -/
def Act.dev : Act → Dev
  | .next d => d
  | .branch _ d => d
  | .jump d => d
  | .trap _ d => d
  | .held d => d
  | .exc _ _ _ _ d => d

@[simp] theorem Act.dev_next (d : Dev) : (Act.next d).dev = d := rfl
@[simp] theorem Act.dev_branch (t : Word) (d : Dev) : (Act.branch t d).dev = d := rfl
@[simp] theorem Act.dev_jump (d : Dev) : (Act.jump d).dev = d := rfl
@[simp] theorem Act.dev_trap (t : BitVec 7) (d : Dev) : (Act.trap t d).dev = d := rfl
@[simp] theorem Act.dev_held (d : Dev) : (Act.held d).dev = d := rfl
@[simp] theorem Act.dev_exc (v : BitVec 7) (s : Option (Word × Word)) (o : Word) (r : Bool) (d : Dev) :
    (Act.exc v s o r d).dev = d := rfl

/-- The device that a drain of the store buffer leaves. -/
def Drained.dev : Drained → Dev
  | .done d => d
  | .held d => d

@[simp] theorem Drained.dev_done (d : Dev) : (Drained.done d).dev = d := rfl
@[simp] theorem Drained.dev_held (d : Dev) : (Drained.held d).dev = d := rfl

@[simp] theorem foldl_pw {α : Type} {f : Dev → α → Dev} (h : ∀ d x, (f d x).pw = d.pw) (l : List α) (d : Dev) :
    (l.foldl f d).pw = d.pw := by
  induction l generalizing d with
  | nil => rfl
  | cons x xs ih => exact (ih (f d x)).trans (h d x)

theorem foldl_legal {α : Type} {f : Dev → α → Dev} (h : ∀ d x, d.pw.Legal → (f d x).pw.Legal) (l : List α) {d : Dev}
    (hd : d.pw.Legal) : (l.foldl f d).pw.Legal := by
  induction l generalizing d with
  | nil => exact hd
  | cons x xs ih => exact ih (h d x hd)

@[simp] theorem ite_pw (c : Prop) [Decidable c] (a b : Dev) :
    (if c then a else b).pw = if c then a.pw else b.pw := apply_ite ..

variable {d e : Dev}

@[simp] theorem Dev.enterService_pw (d : Dev) : (d.enterService).pw = d.pw := by
  simp [Dev.enterService]

@[simp] theorem Dev.write_pw (d : Dev) (f : FnId) (kind : WriteKind) (addr : QW) (bytes : List Byte) (relaxed : Bool) : (d.write f kind addr bytes relaxed).pw = d.pw := by
  unfold Dev.write
  repeat' split
  all_goals simp_all

@[simp] theorem Dev.readHost_pw (d : Dev) (f : FnId) (a : QW) (n : Nat) : (d.readHost f a n).pw = d.pw := by
  unfold Dev.readHost
  split
  · rfl
  · exact foldl_pw (fun _ _ => Dev.send_pw ..) _ _

@[simp] theorem Dev.readSegs_pw (d : Dev) (f : FnId) (l : List (QW × Nat)) : (d.readSegs f l).pw = d.pw :=
  foldl_pw (fun _ _ => Dev.readHost_pw ..) l d

@[simp] theorem Dev.onMsix_pw (d : Dev) (f : FnId) (v : ℕ) (g : MsixEntry → MsixEntry) :
    (d.onMsix f v g).pw = d.pw := by
  unfold Dev.onMsix
  repeat' split
  all_goals simp_all

@[simp] theorem Dev.raiseMsix_pw (d : Dev) (f : FnId) (v : ℕ) : (d.raiseMsix f v).pw = d.pw := by
  unfold Dev.raiseMsix
  dsimp only
  repeat' split
  all_goals simp

@[simp] theorem Dev.signal_pw (d : Dev) (f : FnId) (r : Fin 64) : (d.signal f r).pw = d.pw := by
  unfold Dev.signal
  dsimp only
  repeat' split
  all_goals simp

@[simp] theorem Dev.eventEntry_pw (d : Dev) (r : Fin 64) (kind : WriteKind) (bytes : List Byte) :
    (d.eventEntry r kind bytes).pw = d.pw := by
  simp [Dev.eventEntry]

@[simp] theorem Dev.eventPut_pw (d : Dev) (r : Fin 64) (k : WriteKind) (l : List (List Byte)) :
    (d.eventPut r k l).pw = d.pw := by
  simp only [Dev.eventPut, Dev.signal_pw, Dev.write_pw]
  exact foldl_pw (fun _ _ => Dev.eventEntry_pw ..) l d

@[simp] theorem Dev.fcEntry_pw (d : Dev) (t : Nat) (l : List Byte) : (d.fcEntry t l).pw = d.pw := by
  simp [Dev.fcEntry]

@[simp] theorem Dev.pendWarden_pw (d : Dev) (k : ℕ) : (d.pendWarden k).pw = d.pw := by
  simp [Dev.pendWarden]

@[simp] theorem Dev.pendPier_pw (d : Dev) (p : Fin 16) (k : ℕ) : (d.pendPier p k).pw = d.pw := by
  simp [Dev.pendPier]

@[simp] theorem Dev.onItem_pw (d : Dev) (id : ℕ) (f : Item → Item) : (d.onItem id f).pw = d.pw := by
  simp [Dev.onItem]

@[simp] theorem Dev.dropItem_pw (d : Dev) (id : ℕ) : (d.dropItem id).pw = d.pw := by
  simp [Dev.dropItem]

@[simp] theorem Dev.accept_pw (d : Dev) (r : AuditRec) : (d.accept r).pw = d.pw := by
  simp [Dev.accept]

@[simp] theorem Dev.keyUse_pw (d : Dev) (w n : Nat) : (d.keyUse w n).pw = d.pw := by
  unfold Dev.keyUse
  exact foldl_pw (fun _ _ => Dev.detect_pw ..) _ _

@[simp] theorem Dev.persist_pw (d : Dev) : d.persist.pw = d.pw := by simp [Dev.persist]

@[simp] theorem Dev.writeLife_pw (d : Dev) : d.writeLife.pw = d.pw := by simp [Dev.writeLife]

@[simp] theorem Dev.setLife_pw (d : Dev) (l : Nat) : (d.setLife l).pw = d.pw := by simp [Dev.setLife]

@[simp] theorem Dev.enterRecovery_pw (d : Dev) : d.enterRecovery.pw = d.pw := by simp [Dev.enterRecovery]

@[simp] theorem Dev.exhaust16_pw (d : Dev) : d.exhaust16.pw = d.pw := by simp [Dev.exhaust16]

@[simp] theorem Dev.append16_pw (d : Dev) (f : RecFields) (i : Option Nat) :
    (d.append16 f i).pw = d.pw := by simp [Dev.append16]

@[simp] theorem Dev.recoveryEvent_pw (d : Dev) : d.recoveryEvent.pw = d.pw := by simp [Dev.recoveryEvent]

@[simp] theorem Dev.exhaust_pw (d : Dev) (p : Fin 16) : (d.exhaust p).pw = d.pw := by simp [Dev.exhaust]

@[simp] theorem Dev.record16_pw (d : Dev) (i : Item) : (d.record16 i).pw = d.pw := by simp [Dev.record16]

@[simp] theorem Dev.endItem16_pw (d : Dev) (i : Item) (a b : Nat) :
    (d.endItem16 i a b).pw = d.pw := by simp [Dev.endItem16]

@[simp] theorem Dev.formSeal_pw (d : Dev) (b : Bool) : (d.formSeal b).pw = d.pw := by simp [Dev.formSeal]

@[simp] theorem Dev.s2Restore_pw (d : Dev) (p : Fin 16) : (d.s2Restore p).pw = d.pw := by
  simp [Dev.s2Restore]

@[simp] theorem Dev.buildNew_pw (d : Dev) (q : Partition) (p : Fin 16) : (d.buildNew q p).pw = d.pw := by
  simp [Dev.buildNew]

theorem Dev.tryWake_legal {p : Fin 16} (h : d.pw.Legal) (he : d.tryWake p = some e) : e.pw.Legal := by
  simp only [Dev.tryWake] at he
  split at he
  · cases he
  · split at he
    · cases he
    · split at he
      · cases he
      · cases he
        exact h

theorem getD_legal {o : Option Dev} (ho : ∀ e, o = some e → e.pw.Legal) (h : d.pw.Legal) : (o.getD d).pw.Legal := by
  cases o with
  | none => exact h
  | some e => exact ho e rfl

theorem findSome?_legal {α : Type} {f : α → Option Dev} (hf : ∀ a e, f a = some e → e.pw.Legal) (l : List α) (h : d.pw.Legal) :
    ((l.findSome? f).getD d).pw.Legal :=
  getD_legal (fun e he => (List.exists_of_findSome?_eq_some he).elim fun a ha => hf a e ha.2) h

@[simp] theorem Dev.reclaim_pw (d : Dev) : d.reclaim.pw = d.pw := by
  unfold Dev.reclaim
  dsimp only
  split
  · rfl
  · exact foldl_pw (fun _ _ => by simp) _ _

@[simp] theorem Dev.applyCeiling_pw (d : Dev) : (d.applyCeiling).pw = d.pw := by
  simp [Dev.applyCeiling]

@[simp] theorem Dev.alertUp_pw (d : Dev) : (d.alertUp).pw = d.pw := by
  simp [Dev.alertUp]

theorem Dev.setCap_legal {b s : Nat} (hb : 120 ≤ b ∧ b ≤ 560) (hs : 120 ≤ s ∧ s ≤ 560) : (d.setCap b s).pw.Legal := by
  have h : (Dev.mk d.time d.piers d.warden d.host d.items d.nextItem d.sessions d.setter d.audit d.ks d.flash d.fc
    { d.pw with budget := b, scap := s } d.board d.life d.parts d.loaded d.changes d.fresh).pw.Legal := ⟨hb.1, hb.2, hs⟩
  unfold Dev.setCap
  dsimp only
  split <;> split <;> simpa using h

@[simp] theorem Dev.wakeDone_pw (d : Dev) (p : Fin 16) (f : ℕ) : (d.wakeDone p f).pw = d.pw := by
  unfold Dev.wakeDone
  dsimp only
  repeat' split
  all_goals simp

/-- CFG_ERR of the PW_ block (R473). -/
def Dev.pwError (d : Dev) : Dev := { d with pw := { d.pw with err := true } }

/-- PW_PIER's fields as a write leaves them: a reserved state and a frequency out of range set CFG_ERR instead (R473). -/
def Dev.retarget (d : Dev) (p : Fin 16) (t : BitVec 2) (f : BitVec 5) : Dev :=
  let e := if t = 3#2 then d.pwError else d.onPier p (fun P => { P with pw := { P.pw with tst := t } })
  if f.toNat < 2 || 16 < f.toNat then e.pwError else e.onPier p (fun P => { P with pw := { P.pw with tfreq := f } })

/-- What the arbiter does at once towards the state and the frequency that PW_PIER names (R466, R467, R470). -/
def Dev.steer (d : Dev) (p : Fin 16) : Dev :=
  let P := d.pier p
  if P.pw.tst = 2#2 then
    if P.awake then (if P.pw.tfreq.toNat < P.goal then d.onPier p (fun P => P.startFreq d.now P.pw.tfreq.toNat) else d)
    else (d.tryWake p).getD d
  else if d.holdsNoBatch p.val && P.pw.change = .none then
    if P.pw.tst = 1#2 then (if P.awake then d.onPier p (fun P => P.toSleep d.now) else d)
    else if P.pw.st = .off then d else d.onPier p (fun P => P.toOff d.now)
  else d

theorem Dev.writeTarget_eq (d : Dev) (p : Fin 16) (a : Agent) (v : DW) :
    d.writeTarget p a v =
      if v.extractLsb' 8 2 = (d.pier p).pw.tst && v.extractLsb' 0 5 = (d.pier p).pw.tfreq then d
      else if !d.targetWritable a then d.pwError
      else (d.retarget p (v.extractLsb' 8 2) (v.extractLsb' 0 5)).steer p := rfl

theorem Dev.pwError_legal (h : d.pw.Legal) : d.pwError.pw.Legal := h

theorem Dev.retarget_legal (h : d.pw.Legal) (p : Fin 16) (t : BitVec 2) (f : BitVec 5) :
    (d.retarget p t f).pw.Legal := by
  unfold Dev.retarget
  split <;> split <;> exact h

theorem Dev.steer_legal (h : d.pw.Legal) (p : Fin 16) : (d.steer p).pw.Legal := by
  unfold Dev.steer
  dsimp only
  repeat' split
  all_goals first
    | exact h
    | exact getD_legal (fun _ => Dev.tryWake_legal h) h

theorem Dev.writeTarget_legal (h : d.pw.Legal) (p : Fin 16) (a : Agent) (v : DW) :
    (d.writeTarget p a v).pw.Legal := by
  rw [Dev.writeTarget_eq]
  split
  · exact h
  · split
    · exact h
    · exact Dev.steer_legal (Dev.retarget_legal h ..) p

theorem Dev.writeBudget_legal (h : d.pw.Legal) (v : DW) : (d.writeBudget v).pw.Legal := by
  unfold Dev.writeBudget
  dsimp only
  split
  · exact h
  · split
    · exact h
    · next hb =>
      simp only [Bool.or_eq_true, decide_eq_true_eq, not_or, not_lt] at hb
      exact Dev.setCap_legal ⟨hb.1.2, hb.2⟩ h.2.2

/-! ### Batches, placement and preemption -/

@[simp] theorem Dev.onReg_pw (d : Dev) (p : Fin 16) (f : Pier → Pier) : (d.onReg p f).pw = d.pw := by
  unfold Dev.onReg
  repeat' split
  all_goals simp_all

@[simp] theorem Dev.checker_pw (d : Dev) (p : Fin 16) (by_ : Agent) (op : ℕ) : (d.checker p by_ op).pw = d.pw := by
  unfold Dev.checker
  repeat' split
  all_goals simp_all

@[simp] theorem Dev.retireSector_pw (d : Dev) (sec : ℕ) : (d.retireSector sec).pw = d.pw := by
  unfold Dev.retireSector
  dsimp only
  repeat' split
  all_goals simp

@[simp] theorem Dev.onBatch_pw (d : Dev) (b : ℕ) (f : Batch → Batch) : (d.onBatch b f).pw = d.pw := by
  simp [Dev.onBatch]

@[simp] theorem Dev.closeBatch_pw (d : Dev) (b : ℕ) : (d.closeBatch b).pw = d.pw := by
  simp [Dev.closeBatch]

@[simp] theorem Dev.leaveBatch_pw (d : Dev) (id : ℕ) : (d.leaveBatch id).pw = d.pw := by
  simp [Dev.leaveBatch]

@[simp] theorem Dev.kcSync_pw (d : Dev) (p : Fin 16) : (d.kcSync p).pw = d.pw := by
  unfold Dev.kcSync
  dsimp only
  repeat' split
  all_goals simp

@[simp] theorem Dev.s2Late_pw (d : Dev) (p : Fin 16) : (d.s2Late p).pw = d.pw := by
  simp [Dev.s2Late]

@[simp] theorem Dev.emptied_pw (d : Dev) (p : Fin 16) : (d.emptied p).pw = d.pw := by
  unfold Dev.emptied
  dsimp only
  repeat' split
  all_goals simp

@[simp] theorem Dev.announce_pw (d : Dev) (p : Fin 16) (b : Batch) : (d.announce p b).pw = d.pw := by
  simp [Dev.announce]

@[simp] theorem Dev.loseItems_pw (d : Dev) (p : Fin 16) : (d.loseItems p).pw = d.pw := by
  unfold Dev.loseItems
  simp only [Dev.emptied_pw]
  exact foldl_pw (fun _ _ => Dev.endItem16_pw ..) _ _

@[simp] theorem Dev.place_pw (d : Dev) (b : Batch) (p : Fin 16) : (d.place b p).pw = d.pw := by simp [Dev.place]

@[simp] theorem Dev.splitBatch_pw (d : Dev) (b : Batch) : (d.splitBatch b).pw = d.pw := by
  simp [Dev.splitBatch]

@[simp] theorem Dev.preempt_pw (d : Dev) (b : Batch) (v : Batch) (p : Fin 16) : (d.preempt b v p).pw = d.pw := by
  simp [Dev.preempt]

theorem Dev.rule2_legal {b : Batch} {p : Fin 16} (h : d.pw.Legal) (he : d.rule2 b = some (p, e)) : e.pw.Legal := by
  obtain ⟨q, -, hq⟩ := List.exists_of_findSome?_eq_some he
  split at hq
  · cases hq
  · obtain ⟨e', he', hp⟩ := Option.map_eq_some_iff.1 hq
    cases hp
    exact Dev.tryWake_legal h he'

theorem Dev.placeOne_legal {b : Batch} (h : d.pw.Legal) (he : d.placeOne b = some e) : e.pw.Legal := by
  unfold Dev.placeOne at he
  split at he
  · split at he
    · cases he
      simpa using h
    · cases he
  · split at he
    · cases he
      simpa using h
    · split at he
      · next hr =>
        cases he
        simpa using Dev.rule2_legal h hr
      · split at he
        · cases he
          simpa using h
        · cases he

theorem Dev.placeNext_legal (h : d.pw.Legal) : d.placeNext.pw.Legal := by
  unfold Dev.placeNext
  split
  · exact h
  · exact findSome?_legal (fun _ _ => Dev.placeOne_legal h) _ h

@[simp] theorem Dev.eagerAll_pw (d : Dev) : d.eagerAll.pw = d.pw := by
  obtain ⟨_, h⟩ := d.eagerAll_frame
  rw [h]

@[simp] theorem Dev.join_pw (d : Dev) (i : Item) : (d.join i).pw = d.pw := by
  unfold Dev.join
  dsimp only
  repeat' split
  all_goals simp

@[simp] theorem Dev.startPlaced_pw (d : Dev) (p : Fin 16) : (d.startPlaced p).pw = d.pw := by
  unfold Dev.startPlaced
  repeat' split
  all_goals simp_all

@[simp] theorem Dev.startBatch_pw (d : Dev) (p : Fin 16) : (d.startBatch p).pw = d.pw := by
  unfold Dev.startBatch
  dsimp only
  repeat' split
  all_goals simp

@[simp] theorem Dev.getWrite_pw (d : Dev) (p : Fin 16) (v : BitVec 4) : (d.getWrite p v).pw = d.pw := by
  unfold Dev.getWrite
  dsimp only
  repeat' split
  all_goals simp

theorem Dev.keepAwake_legal (h : d.pw.Legal) : d.keepAwake.pw.Legal := by
  unfold Dev.keepAwake
  dsimp only
  split
  · exact h
  · exact findSome?_legal (fun _ _ => Dev.tryWake_legal h) _ h

@[simp] theorem Dev.endBatch_pw (d : Dev) (p : Fin 16) : (d.endBatch p).pw = d.pw := by
  unfold Dev.endBatch
  dsimp only
  repeat' split
  all_goals simp

@[simp] theorem Dev.endRequest_pw (d : Dev) (p : Fin 16) : (d.endRequest p).pw = d.pw := by
  simp [Dev.endRequest]

@[simp] theorem Dev.placeFirst_pw (d : Dev) (b : Nat) (p : Fin 16) : (d.placeFirst b p).pw = d.pw := by
  unfold Dev.placeFirst
  split <;> simp

@[simp] theorem Dev.ackSuspended_pw (d : Dev) (p : Fin 16) : (d.ackSuspended p).pw = d.pw := by
  unfold Dev.ackSuspended
  split <;> simp

@[simp] theorem Dev.ackEnded_pw (d : Dev) (p : Fin 16) : (d.ackEnded p).pw = d.pw := by
  unfold Dev.ackEnded
  split <;> simp

@[simp] theorem Dev.hodSegment_pw (d : Dev) (p : Fin 16) (rd : HostRead) : (d.hodSegment p rd).pw = d.pw := by
  unfold Dev.hodSegment
  dsimp only
  repeat' split
  all_goals simp

@[simp] theorem Dev.suspendWork_pw (d : Dev) (p : Fin 16) : (d.suspendWork p).pw = d.pw := by
  unfold Dev.suspendWork
  dsimp only
  repeat' split
  all_goals simp

/-! ### The host interface -/

@[simp] theorem Dev.onSlot_pw (d : Dev) (f : FnId) (r : Fin 64) (g : Ring → Ring) : (d.onSlot f r g).pw = d.pw := by
  unfold Dev.onSlot
  repeat' split
  all_goals simp_all

@[simp] theorem Dev.writeEnable_pw (d : Dev) (f : FnId) (r : Fin 64) (v : DW) : (d.writeEnable f r v).pw = d.pw := by
  simp [Dev.writeEnable]

@[simp] theorem Dev.doorbell_pw (d : Dev) (f : FnId) (r : Fin 64) (g : Ring → Ring) :
    (d.doorbell f r g).pw = d.pw := by
  unfold Dev.doorbell
  repeat' split
  all_goals simp_all

@[simp] theorem Dev.writeSqTail_pw (d : Dev) (f : FnId) (r : Fin 64) (v : DW) : (d.writeSqTail f r v).pw = d.pw := by
  simp [Dev.writeSqTail]

@[simp] theorem Dev.writeCqHead_pw (d : Dev) (f : FnId) (r : Fin 64) (v : DW) : (d.writeCqHead f r v).pw = d.pw := by
  simp [Dev.writeCqHead]

@[simp] theorem Dev.fetchOne_pw (d : Dev) (f : FnId) (r : Fin 64) : (d.fetchOne f r).pw = d.pw := by
  unfold Dev.fetchOne
  dsimp only
  repeat' split
  all_goals simp

@[simp] theorem Dev.aer_pw (d : Dev) (f : FnId) (b : BitVec 8) : (d.aer f b).pw = d.pw := by
  simp [Dev.aer]

@[simp] theorem Dev.fetchError_pw (d : Dev) (f : FnId) (r : Fin 64) (b : BitVec 8) :
    (d.fetchError f r b).pw = d.pw := by
  unfold Dev.fetchError
  repeat' split
  all_goals simp_all

@[simp] theorem Dev.readList_pw (d : Dev) (f : FnId) (g : SegField) :
    (d.readList f g).pw = d.pw := by simp [Dev.readList]

@[simp] theorem Dev.arrive_pw (d : Dev) (f : FnId) (r : Fin 64) (a b c : HostRead) :
    (d.arrive f r a b c).pw = d.pw := by
  unfold Dev.arrive
  split
  · rfl
  · split
    · exact Dev.fetchError_pw ..
    · extract_lets dws gi go d1 res sess it d2
      have h2 : d2.pw = d.pw := by simp [d2, d1]
      clear_value d2 it sess res
      cases res with
      | fail st => exact (Dev.endItem16_pw ..).trans h2
      | pass s =>
        cases s
        all_goals
          dsimp only
          split
          · exact (Dev.join_pw ..).trans h2
          · exact h2

@[simp] theorem Dev.writeSegs_pw (d : Dev) (f : FnId) (id : Nat) (b : Bool) (l : List (QW × Nat)) (bs : List Byte) :
    (d.writeSegs f id b l bs).pw = d.pw := by
  induction l generalizing d bs with
  | nil => rfl
  | cons x xs ih =>
    cases bs with
    | nil => rfl
    | cons _ _ => exact (ih _ _).trans (Dev.write_pw ..)

@[simp] theorem Dev.writeResult_pw (d : Dev) (i : Item) : (d.writeResult i).pw = d.pw := by simp [Dev.writeResult]

@[simp] theorem Dev.passResults_pw (d : Dev) (i : Item) (c : Fin 17) :
    (d.passResults i c).pw = d.pw := by simp [Dev.passResults]

@[simp] theorem Dev.recordPier_pw (d : Dev) (p : Fin 16) (i : Item) :
    (d.recordPier p i).pw = d.pw := by simp [Dev.recordPier]

@[simp] theorem Dev.flrSettle_pw (d : Dev) (f : FnId) : (d.flrSettle f).pw = d.pw := by
  unfold Dev.flrSettle
  repeat' split
  all_goals simp_all

@[simp] theorem Dev.retire_pw (d : Dev) (i : Item) : (d.retire i).pw = d.pw := by
  simp [Dev.retire]

@[simp] theorem Dev.deliver_pw (d : Dev) (c : Fin 17) : (d.deliver c).pw = d.pw := by
  unfold Dev.deliver
  dsimp only
  repeat' split
  all_goals simp

@[simp] theorem Dev.complete_pw (d : Dev) (i : Item) (c : Fin 17) (cseq : ℕ) (time : ℕ) :
    (d.complete i c cseq time).pw = d.pw := by
  simp [Dev.complete]

@[simp] theorem Dev.msixFlush_pw (d : Dev) (f : FnId) : (d.msixFlush f).pw = d.pw := foldl_pw (fun _ _ => by simp) _ _

@[simp] theorem Dev.bar2Write_pw (d : Dev) (f : FnId) (n : Nat) (v : DW) :
    (d.bar2Write f n v).pw = d.pw := by simp [Dev.bar2Write]

@[simp] theorem Dev.readBack_pw (d : Dev) (v : Option (BitVec 64)) : (d.readBack v).pw = d.pw := rfl

@[simp] theorem Dev.endAny_pw (d : Dev) (i : Item) (a b : Nat) : (d.endAny i a b).pw = d.pw := by simp [Dev.endAny]

@[simp] theorem Dev.flrItem_pw (d : Dev) (i : Item) : (d.flrItem i).pw = d.pw := by
  unfold Dev.flrItem
  dsimp only
  split <;> simp

@[simp] theorem Dev.flrOne_pw (d : Dev) (f : FnId) : (d.flrOne f).pw = d.pw := by
  unfold Dev.flrOne
  dsimp only
  split
  · rfl
  · exact (Dev.flrSettle_pw ..).trans (foldl_pw (fun _ _ => Dev.flrItem_pw ..) _ _)

@[simp] theorem Dev.vfDisable_pw (d : Dev) : d.vfDisable.pw = d.pw := by
  unfold Dev.vfDisable
  generalize allVfs = l
  exact foldl_pw (fun _ _ => Dev.flrOne_pw ..) l d

@[simp] theorem Dev.flr_pw (d : Dev) (f : FnId) : (d.flr f).pw = d.pw := by simp [Dev.flr]

@[simp] theorem Dev.linkReset_pw (d : Dev) : d.linkReset.pw = d.pw := by simp [Dev.linkReset]

@[simp] theorem Dev.spdmAnswer_pw (d : Dev) (x : Spdm) (m : SpdmResp) : (d.spdmAnswer x m).pw = d.pw := by
  simp [Dev.spdmAnswer]

@[simp] theorem Dev.spdm_pw (d : Dev) (m : SpdmRequest) : (d.spdm m).pw = d.pw := by
  unfold Dev.spdm
  dsimp only
  repeat' split
  all_goals simp

@[simp] theorem Dev.configure_pw (d : Dev) (f : FnId) (q : CfgRequest) : (d.configure f q).pw = d.pw := by
  cases q <;> simp [Dev.configure]

/-! ### The fault collector -/

@[simp] theorem Dev.setFrec_pw (d : Dev) (k : Fin 64) (r : FRec) : (d.setFrec k r).pw = d.pw := by
  simp [Dev.setFrec]

@[simp] theorem Dev.entry1_pw (d : Dev) (r : FRec) : (d.entry1 r).pw = d.pw := by simp [Dev.entry1]

@[simp] theorem Dev.logFault_pw (d : Dev) (r : FRec) : (d.logFault r).pw = d.pw := by
  unfold Dev.logFault
  dsimp only
  repeat' split
  all_goals simp

@[simp] theorem Dev.newRec_pw (d : Dev) (x : Detection) (c : Nat) (o : Bool) : (d.newRec x c o).pw = d.pw := by
  unfold Dev.newRec
  split <;> simp

@[simp] theorem Dev.closeRec_pw (d : Dev) (k : Fin 64) : (d.closeRec k).pw = d.pw := by simp [Dev.closeRec]

@[simp] theorem Dev.contain_pw (d : Dev) (p : Fin 16) : (d.contain p).pw = d.pw := by simp [Dev.contain]

@[simp] theorem Dev.abandonFetches_pw (d : Dev) : (d.abandonFetches).pw = d.pw := by
  simp [Dev.abandonFetches]

@[simp] theorem Dev.dropAll_pw (d : Dev) : (d.dropAll).pw = d.pw := by
  simp [Dev.dropAll]

@[simp] theorem Dev.haltPiers_pw (d : Dev) : (d.haltPiers).pw = d.pw := by
  simp [Dev.haltPiers]

@[simp] theorem Dev.haltNow_pw (d : Dev) (c : Nat) : (d.haltNow c).pw = d.pw := by
  unfold Dev.haltNow
  dsimp only
  split
  · rfl
  · split
    · simp
    · refine (foldl_pw (fun _ _ => ?_) _ _).trans (by simp)
      simp

@[simp] theorem Dev.react_pw (d : Dev) (a b c : Nat) : (d.react a b c).pw = d.pw := by
  unfold Dev.react
  repeat' split
  all_goals simp

@[simp] theorem Dev.clogError_pw (d : Dev) (p : Fin 16) (qy : Bool) (ue : Bool) (addr : ℕ) :
    (d.clogError p qy ue addr).pw = d.pw := by
  unfold Dev.clogError
  dsimp only
  repeat' split
  all_goals simp

@[simp] theorem Dev.record_pw (d : Dev) (x : Detection) (c : Nat) : (d.record x c).pw = d.pw := by
  unfold Dev.record
  dsimp only
  repeat' split
  all_goals simp

@[simp] theorem Dev.sideEffects_pw (d : Dev) (x : Detection) : (d.sideEffects x).pw = d.pw := by
  unfold Dev.sideEffects
  dsimp only
  repeat' split
  all_goals simp

@[simp] theorem Dev.detected_pw (d : Dev) (x : Detection) : (d.detected x).pw = d.pw := by simp [Dev.detected]

@[simp] theorem Dev.take_pw (d : Dev) (x : DetectionSource) : (d.take x).pw = d.pw := by
  cases x with
  | queued r =>
    simp only [Dev.take]
    repeat' split
    all_goals simp
  | physical x => simp [Dev.take]
  | path x a b => simp [Dev.take]

@[simp] theorem Dev.fallOf_legal (d : Dev) (region : ℕ) (cause : ℕ) (h : d.pw.Legal) :
    (d.fallOf region cause).pw.Legal := by
  unfold Dev.fallOf
  dsimp only
  repeat' split
  all_goals simp [h]

@[simp] theorem Dev.leaveQuarantine_pw (d : Dev) (p : Fin 16) : (d.leaveQuarantine p).pw = d.pw := by
  unfold Dev.leaveQuarantine
  dsimp only
  repeat' split
  all_goals simp

@[simp] theorem Dev.leaveHold_pw (d : Dev) : d.leaveHold.pw = d.pw := by simp [Dev.leaveHold]

@[simp] theorem Dev.restore_pw (d : Dev) (v : DW) : (d.restore v).pw = d.pw := foldl_pw (fun _ _ => by simp) _ _

@[simp] theorem Dev.assertReset_pw (d : Dev) (p : Fin 16) : (d.assertReset p).pw = d.pw := by simp [Dev.assertReset]

theorem Dev.writeRst_legal (h : d.pw.Legal) (p : Fin 16) (a : Agent) (v : DW) : (d.writeRst p a v).pw.Legal := by
  have hw := Dev.writeTarget_legal h p a v
  unfold Dev.writeRst
  dsimp only
  split
  · simpa using hw
  · exact hw

@[simp] theorem Dev.clogWrite_pw (d : Dev) (p : Fin 16) (e : Fin 16) (v : DW) : (d.clogWrite p e v).pw = d.pw := by
  unfold Dev.clogWrite
  dsimp only
  repeat' split
  all_goals simp

@[simp] theorem Dev.retireFrame_pw (d : Dev) (p : Fin 16) (f : ℕ) : (d.retireFrame p f).pw = d.pw := by
  unfold Dev.retireFrame
  dsimp only
  repeat' split
  all_goals simp

@[simp] theorem Dev.retireFull_pw (d : Dev) (p : Fin 16) (b : Fin 16) : (d.retireFull p b).pw = d.pw := by
  unfold Dev.retireFull
  dsimp only
  repeat' split
  all_goals simp

@[simp] theorem Dev.retireBanks_pw (d : Dev) (p : Fin 16) : (d.retireBanks p).pw = d.pw := by
  simp [Dev.retireBanks]

@[simp] theorem Dev.rewriteTables_pw (d : Dev) (p : Fin 16) (l : ℕ) : (d.rewriteTables p l).pw = d.pw := by
  unfold Dev.rewriteTables
  dsimp only
  repeat' split
  all_goals simp

@[simp] theorem Dev.rewriteReserve_pw (d : Dev) (p : Fin 16) (l : ℕ) : (d.rewriteReserve p l).pw = d.pw := by
  simp only [Dev.rewriteReserve]
  repeat' split
  all_goals simp

@[simp] theorem Dev.raiseLevel_pw (d : Dev) (a b x y : Nat) : (d.raiseLevel a b x y).pw = d.pw := by
  unfold Dev.raiseLevel
  split <;> simp

/-! ### The steward, the audit chains, resets and start-up -/

@[simp] theorem Dev.kekArrive_pw (d : Dev) (a b c : Nat) (l : List Byte) (f : Bool) :
    (d.kekArrive a b c l f).2.pw = d.pw := by
  unfold Dev.kekArrive
  dsimp only
  repeat' split
  all_goals simp

@[simp] theorem Dev.expirePend_pw (d : Dev) (q : Nat) : (d.expirePend q).pw = d.pw := by
  unfold Dev.expirePend
  repeat' split
  all_goals simp

@[simp] theorem Dev.expireAll_pw (d : Dev) : d.expireAll.pw = d.pw := foldl_pw (fun _ _ => Dev.expirePend_pw ..) _ _

@[simp] theorem Dev.chooseBus_pw (d : Dev) (i3c : Bool) : (d.chooseBus i3c).pw = d.pw := by
  unfold Dev.chooseBus
  dsimp only
  repeat' split
  all_goals simp

theorem Dev.steward_legal {g : Dev → List Byte × Dev} (h : d.pw.Legal) (hg : ∀ e, e.pw.Legal → (g e).2.pw.Legal) (b : Bool) :
    (d.steward b g).pw.Legal := by
  have hb : ((d.chooseBus false).pendWarden 8).pw.Legal := by simpa using h
  unfold Dev.steward
  dsimp only
  split
  · exact h
  · split
    · exact hb
    · split
      · exact hb
      · exact hg _ hb

@[simp] theorem Dev.stewardRecord_pw (d : Dev) (c : Nat) (i : Byte) (a b e : List Byte) :
    (d.stewardRecord c i a b e).pw = d.pw := by
  simp [Dev.stewardRecord]

@[simp] theorem Dev.haltEnd_pw (d : Dev) : (d.haltEnd).pw = d.pw := by
  unfold Dev.haltEnd
  dsimp only
  repeat' split
  all_goals simp

@[simp] theorem Dev.sealNowForm_pw (d : Dev) : d.sealNowForm.pw = d.pw := by
  unfold Dev.sealNowForm
  dsimp only
  repeat' split
  all_goals simp

@[simp] theorem Dev.sealItems_pw (d : Dev) (e : Nat) : (d.sealItems e).pw = d.pw := by
  unfold Dev.sealItems
  split <;> simp

@[simp] theorem Dev.programSeal_pw (d : Dev) (good : Bool) (s : List Byte) : (d.programSeal good s).pw = d.pw := by
  unfold Dev.programSeal
  dsimp only
  repeat' split
  all_goals simp

@[simp] theorem Dev.stopPiers_pw (d : Dev) : (d.stopPiers).pw = d.pw := by
  simp [Dev.stopPiers]

@[simp] theorem Dev.zeroizeStart_pw (d : Dev) (b : Bool) : (d.zeroizeStart b).pw = d.pw := by simp [Dev.zeroizeStart]

theorem reset_legal : ({} : Arbiter).Legal := by
  unfold Arbiter.Legal
  decide

theorem Dev.por_legal (d : Dev) : d.por.pw.Legal := reset_legal

theorem Dev.bootStep_legal {g : Dev → Dev} (h : d.pw.Legal) (hg : (g d).pw.Legal) (n : Nat) (b : Bool) :
    (d.bootStep n b g).pw.Legal := by
  unfold Dev.bootStep
  split
  · exact hg
  · split <;> exact h

@[simp] theorem Dev.noImage_pw (d : Dev) : (d.noImage).pw = d.pw := by
  simp [Dev.noImage]

@[simp] theorem Dev.startRecord_pw (d : Dev) (l : List Byte) :
    (d.startRecord l).pw = d.pw := by simp [Dev.startRecord]

@[simp] theorem Dev.resumeChains_pw (d : Dev) : d.resumeChains.pw = d.pw := by
  unfold Dev.resumeChains
  dsimp only
  repeat' split
  all_goals simp

theorem Dev.warmReset_legal (h : d.pw.Legal) : d.warmReset.pw.Legal :=
  ⟨reset_legal.1, reset_legal.2.1, h.2.2⟩

theorem Dev.frResetWrite_legal (h : d.pw.Legal) (v : DW) : (d.frResetWrite v).pw.Legal := by
  unfold Dev.frResetWrite
  dsimp only
  split
  · exact h
  split
  · exact h
  split
  · exact h
  refine Dev.warmReset_legal ?_
  split
  · exact h
  · simpa using h

/-! ### Items and their operations -/

@[simp] theorem Dev.fetchInput_pw (d : Dev) (i : Item) : (d.fetchInput i).pw = d.pw := by simp [Dev.fetchInput]

@[simp] theorem Dev.pierKeys_pw (d : Dev) (p : Fin 16) (i : Item) (k : Nat) (l : List KeyNeed) :
    (d.pierKeys p i k l).2.pw = d.pw := by
  induction l generalizing d k with
  | nil => rfl
  | cons n ns ih =>
    unfold Dev.pierKeys
    dsimp only
    repeat' split
    all_goals first
      | rfl
      | next h => exact (congrArg (fun r => r.2.pw) h).symm.trans (ih ..)

theorem Dev.pierItem_pw {it opc : Nat} {x : Item} {p : Fin 16} (h : d.pierItem it opc = some (x, p, e)) :
    e.pw = d.pw := by
  unfold Dev.pierItem at h
  split at h
  · cases h
  · split at h
    · split at h
      · cases h
      · dsimp only at h
        split at h
        · cases h
          exact Dev.startBatch_pw ..
        · cases h
    · cases h

@[simp] theorem Dev.finishPier_pw (d : Dev) (i : Item) (p : Fin 16) (v : Verdict) (inBytes : List Byte) :
    (d.finishPier i p v inBytes).pw = d.pw := by
  simp [Dev.finishPier]

@[simp] theorem Dev.pierOp_pw (d : Dev) (it opc : Nat) (inp : Fetched) (o : OpDef) :
    (d.pierOp it opc inp o).pw = d.pw := by
  unfold Dev.pierOp
  split
  · rfl
  · next x p e hi =>
    have hk := Dev.pierKeys_pw e p x 0 (o.needs x)
    rw [← Dev.pierItem_pw hi]
    split
    · simp
    · split
      · next h =>
        rw [h] at hk
        simpa using hk
      · next h =>
        rw [h] at hk
        dsimp only
        repeat' split
        all_goals simpa using hk

@[simp] theorem Dev.finishWarden_pw (d : Dev) (i : Item) (v : Verdict) (l : List Byte) :
    (d.finishWarden i v l).pw = d.pw := by
  simp [Dev.finishWarden]

@[simp] theorem Dev.opKeys_pw (d : Dev) (n : Nat) : (d.opKeys n).pw = d.pw := by simp [Dev.opKeys]

theorem Dev.wardenOp_legal {g : Dev → Item → List Byte → Dev} (h : d.pw.Legal) (it opc : Nat) (inp : Fetched)
    (early : Dev → Item → Option Verdict) (hg : ∀ e i bs, e.pw.Legal → (g e i bs).pw.Legal) :
    (d.wardenOp it opc inp early g).pw.Legal := by
  unfold Dev.wardenOp
  dsimp only
  repeat' split
  · exact h
  · simpa using h
  · simpa using h
  · refine hg _ _ _ ?_
    simpa using h

@[simp] theorem Dev.selfCheckNotice_pw (d : Dev) (it : ℕ) : (d.selfCheckNotice it).pw = d.pw := by
  unfold Dev.selfCheckNotice
  repeat' split
  all_goals simp_all

@[simp] theorem Dev.writeImages_pw (d : Dev) (q : Fin 64) (g : Image) : (d.writeImages q g).pw = d.pw := by
  simp [Dev.writeImages]

@[simp] theorem Dev.startChange_pw (d : Dev) (i : Item) (v : Verdict) (inBytes : List Byte) (e : KeyEntry) :
    (d.startChange i v inBytes e).pw = d.pw := by
  simp [Dev.startChange]

@[simp] theorem Dev.writeReplicas_pw (d : Dev) (e : KeyEntry) : (d.writeReplicas e).pw = d.pw := by
  simp [Dev.writeReplicas]

@[simp] theorem Dev.endChange_pw (d : Dev) (it : Nat) (b : Bool) : (d.endChange it b).pw = d.pw := by
  unfold Dev.endChange
  split <;> simp

@[simp] theorem Dev.create_pw (d : Dev) (i : Item) (o : Fin 64) (u : Nat) (x : Word) (k : KbKey) (a b : List Byte) :
    (d.create i o u x k a b).pw = d.pw := by
  unfold Dev.create
  dsimp only
  repeat' split
  all_goals simp

theorem Dev.openSession_pw {g : Nat → Session} {n : Nat} (h : d.openSession g = some (n, e)) : e.pw = d.pw := by
  simp only [Dev.openSession] at h
  split at h
  · cases h
  · cases h
    rfl

@[simp] theorem Dev.partsChanged_pw (d : Dev) : (d.partsChanged).pw = d.pw := by
  simp [Dev.partsChanged]

@[simp] theorem Dev.buildAll_pw (d : Dev) (q : Partition) : (d.buildAll q).pw = d.pw := by
  unfold Dev.buildAll
  exact foldl_pw (fun _ _ => by simp) _ _

@[simp] theorem Dev.destroyPart_pw (d : Dev) (q : Partition) : (d.destroyPart q).pw = d.pw := by
  simp only [Dev.destroyPart, Dev.persist_pw, Dev.partsChanged_pw, Dev.allPiers_pw]
  refine (foldl_pw (fun _ _ => ?_) _ _).trans rfl
  simp

@[simp] theorem Dev.enterTest_pw (d : Dev) (i : Item) (l : List Byte) :
    (d.enterTest i l).pw = d.pw := by simp [Dev.enterTest]

@[simp] theorem Dev.stateMove_pw (d : Dev) (t : Nat) : (d.stateMove t).pw = d.pw := by
  unfold Dev.stateMove
  split
  · refine (foldl_pw (fun _ _ => ?_) _ _).trans (Dev.enterService_pw d)
    simp
  all_goals simp

@[simp] theorem Dev.provision_pw (d : Dev) : d.provision.pw = d.pw := by simp [Dev.provision]

/-! ### Register writes -/

@[simp] theorem Dev.blockError_legal (d : Dev) (a : RegAt) (h : d.pw.Legal) : (d.blockError a).pw.Legal := by
  unfold Dev.blockError
  dsimp only
  repeat' split
  all_goals simp [h]

@[simp] theorem Dev.s2cfgWrite_pw (d : Dev) (a : Agent) (p : Fin 16) (q : Fin 64) (v : DW) :
    (d.s2cfgWrite a p q v).pw = d.pw := by
  simp [Dev.s2cfgWrite]

@[simp] theorem Dev.preemptWrite_pw (d : Dev) (p : Fin 16) (v : DW) :
    (d.preemptWrite p v).pw = d.pw := by simp [Dev.preemptWrite]

@[simp] theorem Dev.chkWrite_pw (d : Dev) (a : Agent) (p : Fin 16) (k : ℕ) (v : DW) :
    (d.chkWrite a p k v).pw = d.pw := by
  unfold Dev.chkWrite
  dsimp only
  repeat' split
  all_goals simp

@[simp] theorem Dev.prWriteHigh_pw (d : Dev) (a : Agent) (p : Fin 16) (k : ℕ) (v : DW) :
    (d.prWriteHigh a p k v).pw = d.pw := by
  unfold Dev.prWriteHigh
  repeat' split
  all_goals simp_all

@[simp] theorem Dev.prWrite_pw (d : Dev) (a : Agent) (p : Fin 16) (k : Nat) (v : DW) :
    (d.prWrite a p k v).pw = d.pw := by
  unfold Dev.prWrite
  split <;> simp

@[simp] theorem Dev.qyWrite_pw (d : Dev) (a : Agent) (p : Fin 16) (k : ℕ) (v : DW) :
    (d.qyWrite a p k v).pw = d.pw := by
  unfold Dev.qyWrite
  dsimp only
  repeat' split
  all_goals simp

@[simp] theorem Dev.ptWrite_pw (d : Dev) (p : Fin 16) (k : ℕ) (v : DW) : (d.ptWrite p k v).pw = d.pw := by
  unfold Dev.ptWrite
  repeat' split
  all_goals simp_all

theorem Dev.vfcfgWrite_legal (h : d.pw.Legal) (q : Fin 64) (v : DW) : (d.vfcfgWrite q v).pw.Legal := by
  unfold Dev.vfcfgWrite
  dsimp only
  repeat' split
  all_goals exact h

@[simp] theorem Dev.bootWrite_legal (d : Dev) (v : DW) (h : d.pw.Legal) : (d.bootWrite v).pw.Legal := by
  unfold Dev.bootWrite
  dsimp only
  repeat' split
  all_goals simp [h]

theorem Dev.frWrite_legal (h : d.pw.Legal) (k : Nat) (v : DW) : (d.frWrite k v).pw.Legal := by
  unfold Dev.frWrite
  split
  · exact h
  · exact Dev.bootWrite_legal d v h
  · exact Dev.frResetWrite_legal h v
  · exact h
  · split
    · exact Dev.vfcfgWrite_legal h _ v
    · exact h

@[simp] theorem Dev.stCtlWrite_pw (d : Dev) (v : DW) : (d.stCtlWrite v).pw = d.pw := by
  simp [Dev.stCtlWrite]

theorem Dev.stPartWrite_legal (h : d.pw.Legal) (q : Fin 64) (v : DW) : (d.stPartWrite q v).pw.Legal := by
  unfold Dev.stPartWrite
  dsimp only
  split
  · exact h
  · split
    · exact h
    · rw [foldl_pw (fun e p => ?_)]
      · exact h
      · simp

theorem Dev.stPut_legal (h : d.pw.Legal) (k : Nat) (v : DW) : (d.stPut k v).pw.Legal := by
  have hb : ∀ {c : Prop} [Decidable c] {e x : Dev}, e.pw.Legal → x.pw.Legal →
      (if c then e.blockError (.st 0) else x).pw.Legal := by
    intro c _ e x he hx
    split
    · exact Dev.blockError_legal e _ he
    · exact hx
  unfold Dev.stPut
  split
  · simpa using h
  · exact hb h h
  · exact hb h h
  · exact hb h h
  · exact h
  · exact h
  · split
    · exact Dev.stPartWrite_legal h _ v
    · exact h

theorem Dev.stWrite_legal (h : d.pw.Legal) (k : Nat) (v : DW) : (d.stWrite k v).pw.Legal := by
  refine Dev.placeNext_legal ?_
  rw [Dev.eagerAll_pw]
  exact Dev.stPut_legal h k v

theorem Dev.fcWrite_legal (h : d.pw.Legal) (k : Nat) (v : DW) : (d.fcWrite k v).pw.Legal := by
  unfold Dev.fcWrite
  dsimp only
  repeat' split
  all_goals first
    | exact h
    | simpa using h

theorem Dev.pwWrite_legal (h : d.pw.Legal) (a : Agent) (k : Nat) (v : DW) : (d.pwWrite a k v).pw.Legal := by
  unfold Dev.pwWrite
  split
  · exact h
  · exact Dev.writeBudget_legal h v
  · split
    · exact Dev.writeRst_legal h _ a v
    · exact h

theorem Dev.regWrite_legal (h : d.pw.Legal) (a : Agent) (r : RegAt) (v : DW) : (d.regWrite a r v).pw.Legal := by
  cases r with
  | fr k => exact Dev.frWrite_legal h k v
  | st k => exact Dev.stWrite_legal h k v
  | fc k => exact Dev.fcWrite_legal h k v
  | pw k => exact Dev.pwWrite_legal h a k v
  | au k => simpa [Dev.regWrite] using h
  | sb k => simpa [Dev.regWrite] using h
  | pr p k => simpa [Dev.regWrite] using h
  | qy p k => simpa [Dev.regWrite] using h
  | pt p k => simpa [Dev.regWrite] using h

@[simp] theorem Dev.pageWrite_pw (d : Dev) (f : FnId) (off : ℕ) (v : DW) (be : BitVec 4) (dws : ℕ) :
    (d.pageWrite f off v be dws).pw = d.pw := by
  unfold Dev.pageWrite
  dsimp only
  repeat' split
  all_goals simp

theorem Dev.hostWrite_legal (h : d.pw.Legal) (f : FnId) (o : Nat) (v : DW) (be : BitVec 4) (n : Nat) :
    (d.hostWrite f o v be n).pw.Legal := by
  unfold Dev.hostWrite
  repeat' split
  all_goals first
    | exact h
    | exact Dev.regWrite_legal h ..
    | exact Dev.blockError_legal d _ h
    | simpa using h

@[simp] theorem Dev.hostRead_pw (d : Dev) (f : FnId) (o n : Nat) : (d.hostRead f o n).pw = d.pw := by
  unfold Dev.hostRead
  dsimp only
  repeat' split
  all_goals simp

@[simp] theorem Dev.sensorRead_pw (d : Dev) (n : Sensor) : (d.sensorRead n).pw = d.pw := by
  unfold Dev.sensorRead
  dsimp only
  repeat' split
  all_goals simp

theorem Dev.coreWrite_legal (h : d.pw.Legal) (c : CoreId) (a v : Word) : (d.coreWrite c a v).pw.Legal := by
  unfold Dev.coreWrite
  split
  · exact h
  · exact Dev.regWrite_legal h ..

/-! ### Accesses to memory -/

theorem CRes.bind_legal {α β : Type} {r : CRes α} {g : α → Dev → CRes β} (hr : r.dev.pw.Legal)
    (hg : ∀ v e, e.pw.Legal → (g v e).dev.pw.Legal) : (r.bind g).dev.pw.Legal := by
  cases r with
  | ok v e => exact hg v e hr
  | held e => exact hr
  | exc v s e => exact hr

@[simp] theorem Dev.dataExc_pw (α : Type) (d : Dev) (c : CoreId) (acc : Access) (va : Word) (kind : ℕ) :
    (d.dataExc c acc va kind : CRes α).dev.pw = d.pw := by
  simp [Dev.dataExc]

@[simp] theorem Dev.xlate_pw (d : Dev) (c : CoreId) (acc : Access) (va : Word) :
    (d.xlate c acc va).dev.pw = d.pw := by
  unfold Dev.xlate
  dsimp only
  repeat' split
  all_goals simp

@[simp] theorem Dev.sramRead_pw (d : Dev) (k : ℕ) : (d.sramRead k).2.pw = d.pw := by
  unfold Dev.sramRead
  dsimp only
  repeat' split
  all_goals simp

@[simp] theorem Dev.keyRead_pw (d : Dev) (k : ℕ) : (d.keyRead k).2.pw = d.pw := by
  unfold Dev.keyRead
  dsimp only
  repeat' split
  all_goals simp

@[simp] theorem Dev.decodeAddr_pw (d : Dev) (c : CoreId) (acc : Access) (whole : Bool) (pa : Word) :
    (d.decodeAddr c acc whole pa).2.pw = d.pw := by
  unfold Dev.decodeAddr
  dsimp only
  repeat' split
  all_goals simp

@[simp] theorem Dev.storeError_pw (d : Dev) (c : CoreId) (e : SbEntry) (kind : ℕ) :
    (d.storeError c e kind).pw = d.pw := by
  unfold Dev.storeError
  repeat' split
  all_goals simp_all

theorem Dev.drainPier_legal (h : d.pw.Legal) (p : Fin 16) (x : SbEntry) : (d.drainPier p x).dev.pw.Legal := by
  unfold Dev.drainPier
  split
  · exact Dev.coreWrite_legal h ..
  · split <;> simpa using h

theorem Dev.drainWarden_legal (h : d.pw.Legal) (x : SbEntry) : (d.drainWarden x).pw.Legal := by
  unfold Dev.drainWarden
  split
  · next k _ =>
    have hs : (if x.en = 0xF#4 then (some 0, d) else d.sramRead k).2.pw = d.pw := by
      split <;> simp
    split
    · next he =>
      rw [he] at hs
      exact hs ▸ h
    · next he =>
      rw [he] at hs
      rw [Dev.storeError_pw]
      exact hs ▸ h
  · exact h
  · exact Dev.coreWrite_legal h ..
  all_goals simpa using h

theorem Dev.drainHead_legal (h : d.pw.Legal) (c : CoreId) : (d.drainHead c).dev.pw.Legal := by
  unfold Dev.drainHead
  split
  · exact h
  · next x rest _ =>
    cases c with
    | pier p =>
      have hd := Dev.drainPier_legal (d := d.onCore (.pier p) (fun k => { k with sbuf := rest })) (by simpa using h) p x
      dsimp only
      split
      · next he => rwa [he] at hd
      · next he =>
        rw [he] at hd
        simpa using hd
    | warden => exact Dev.drainWarden_legal (by simpa using h) x

theorem Dev.drainTo_legal (h : d.pw.Legal) (c : CoreId) (n fuel : Nat) : (Dev.drainTo c n fuel d).dev.pw.Legal := by
  induction fuel generalizing d with
  | zero => exact h
  | succ k ih =>
    have hd := Dev.drainHead_legal h c
    unfold Dev.drainTo
    split
    · exact h
    · split
      · next he =>
        rw [he] at hd
        exact ih hd
      · next he => rwa [he] at hd

theorem Dev.drainAll_legal (h : d.pw.Legal) (c : CoreId) : (d.drainAll c).dev.pw.Legal := Dev.drainTo_legal h c 0 8

@[simp] theorem Dev.enqueue_pw (d : Dev) (c : CoreId) (pa : Word) (va : Word) (data : Word) (en : BitVec 4) :
    (d.enqueue c pa va data en).pw = d.pw := by
  simp [Dev.enqueue]

@[simp] theorem Dev.readPhys_pw (d : Dev) (c : CoreId) (acc : Access) (va pa : Word) :
    (d.readPhys c acc va pa).dev.pw = d.pw := by
  cases c with
  | pier p =>
    unfold Dev.readPhys
    dsimp only
    repeat' split
    all_goals simp
  | warden =>
    unfold Dev.readPhys
    dsimp only
    split
    · rfl
    · next k _ =>
      have hs := d.sramRead_pw k
      split
      · next he => rwa [he] at hs
      · next he =>
        rw [he] at hs
        simpa using hs
    all_goals simp

theorem Dev.probe_legal (h : d.pw.Legal) (c : CoreId) (acc : Access) (w : Bool) (va : Word) :
    (d.probe c acc w va).dev.pw.Legal := by
  refine CRes.bind_legal (by simpa using h) fun pa e he => ?_
  have hd := e.decodeAddr_pw c acc w pa
  split
  · next hk =>
    rw [hk] at hd
    rw [Dev.dataExc_pw]
    exact hd ▸ he
  · next hk =>
    rw [hk] at hd
    exact hd ▸ he

theorem Dev.readVia_legal (h : d.pw.Legal) (c : CoreId) (va pa : Word) : (d.readVia c va pa).dev.pw.Legal := by
  have hd : ((d.drainAll c).bind (fun _ d => d.readPhys c .read va pa)).dev.pw.Legal :=
    CRes.bind_legal (Dev.drainAll_legal h c) fun _ e he => by simpa using he
  unfold Dev.readVia
  dsimp only
  repeat' split
  all_goals first
    | exact h
    | exact hd
    | simpa using h

theorem Dev.load_legal (h : d.pw.Legal) (c : CoreId) (w : Bool) (va : Word) : (d.load c w va).dev.pw.Legal :=
  CRes.bind_legal (Dev.probe_legal h ..) fun _ _ he => Dev.readVia_legal he ..

theorem Dev.store_legal (h : d.pw.Legal) (c : CoreId) (w : Bool) (va data : Word) (en : BitVec 4) :
    (d.store c w va data en).dev.pw.Legal :=
  CRes.bind_legal (Dev.probe_legal h ..) fun _ _ he => CRes.bind_legal (Dev.drainTo_legal he ..) fun _ _ hx => by simpa using hx

theorem Dev.atomic_legal (h : d.pw.Legal) (c : CoreId) (va : Word) (g : Word → Word) :
    (d.atomic c va g).dev.pw.Legal := by
  refine CRes.bind_legal (Dev.drainAll_legal h c) fun _ _ h1 => CRes.bind_legal (Dev.probe_legal h1 ..) fun pa _ h2 => ?_
  split
  · simpa using h2
  · refine CRes.bind_legal (by simpa using h2) fun t _ h3 => ?_
    cases c with
    | pier p =>
      dsimp only
      split <;> exact h3
    | warden =>
      dsimp only
      split <;> exact h3

@[simp] theorem Dev.srRead_pw (d : Dev) (c : CoreId) : (d.srRead c).2.pw = d.pw := by
  unfold Dev.srRead
  dsimp only
  repeat' split
  all_goals simp

@[simp] theorem Dev.readPort_pw (d : Dev) (c : CoreId) (n : ℕ) : (d.readPort c n).dev.pw = d.pw := by
  unfold Dev.readPort
  dsimp only
  repeat' split
  all_goals simp

theorem Dev.operand_legal (h : d.pw.Legal) (c : CoreId) (f : Fld) : (d.operand c f).dev.pw.Legal := by
  unfold Dev.operand
  repeat' split
  · exact h
  · simpa using h
  · exact Dev.load_legal h ..

theorem CRes.act_legal {α : Type} {r : CRes α} {g : α → Dev → Act} (hr : r.dev.pw.Legal)
    (hg : ∀ v e, e.pw.Legal → (g v e).dev.pw.Legal) : (r.act g).dev.pw.Legal := by
  cases r with
  | ok v e => exact hg v e hr
  | held e => exact hr
  | exc v s e => exact hr

/-! ### The ports of a core -/

/-- The effect of an instruction keeps the caps legal. -/
def PortLegal (g : CoreId → Fld → Dev → Act) : Prop := ∀ ⦃c f d⦄, d.pw.Legal → (g c f d).dev.pw.Legal

theorem valueAct_legal (g : Core → Word → Core) : PortLegal (valueAct g) := fun _ _ _ h =>
  CRes.act_legal (Dev.operand_legal h ..) fun _ _ he => by simpa using he

theorem trapAct_legal (g : Core → Word → Core × Option (BitVec 7)) : PortLegal (trapAct g) := fun _ _ _ h =>
  CRes.act_legal (Dev.operand_legal h ..) fun _ _ he => by
    dsimp only
    split <;> simpa using he

@[simp] theorem Dev.complete1_pw (d : Dev) (c : CoreId) : (d.complete1 c).pw = d.pw := by
  simp [Dev.complete1]

@[simp] theorem Dev.fetchAt_pw (d : Dev) (c : CoreId) : (d.fetchAt c).pw = d.pw := by
  cases c with
  | pier p => rfl
  | warden =>
    unfold Dev.fetchAt
    dsimp only
    split
    · rfl
    · next a _ =>
      have hs := d.sramRead_pw a
      split
      · next he => rwa [he] at hs
      · next he =>
        rw [he] at hs
        simpa using hs
    · simp

theorem Dev.conclude_legal {a : Act} (h : a.dev.pw.Legal) (k : Core) (c : CoreId) (n : Nat) (f : Fld) :
    (Dev.conclude k c n f a).pw.Legal := by
  cases a with
  | next e =>
    unfold Dev.conclude
    dsimp only
    split <;> simpa using h
  | jump e => exact h
  | held e => exact h
  | branch t e => simpa [Dev.conclude] using h
  | trap v e => simpa [Dev.conclude] using h
  | exc v s o r e => simpa [Dev.conclude] using h

theorem Dev.instr_legal {g : CoreId → Fld → Dev → Act} (h : d.pw.Legal) (c : CoreId) (n : Nat) (f : Fld)
    (hg : ∀ e, e.pw.Legal → (g c f e).dev.pw.Legal) : (d.instr c n f g).pw.Legal := by
  unfold Dev.instr
  dsimp only
  repeat' split
  all_goals first
    | exact h
    | (refine Dev.conclude_legal (hg _ ?_) _ c n f
       simpa using h)
    | simpa using h

@[simp] theorem Dev.memDone_pw (d : Dev) (c : CoreId) (f : Fld) (by_ : Word) (g : Core → Core) :
    (d.memDone c f by_ g).dev.pw = d.pw := by
  simp [Dev.memDone]

theorem portStore_legal (r : Core → Word) : PortLegal (portStore r) := fun _ _ _ h =>
  CRes.act_legal (Dev.store_legal h ..) fun _ _ he => by simpa using he

theorem portLdd_legal : PortLegal portLdd := fun _ _ _ h =>
  CRes.act_legal (Dev.probe_legal (by simpa using h) ..) fun _ _ h1 => CRes.act_legal (Dev.probe_legal h1 ..) fun _ _ h2 =>
    CRes.act_legal (Dev.readVia_legal h2 ..) fun _ _ h3 => CRes.act_legal (Dev.readVia_legal h3 ..) fun _ _ h4 => by
      simpa using h4

theorem portStd_legal : PortLegal portStd := fun _ _ _ h =>
  CRes.act_legal (Dev.probe_legal (by simpa using h) ..) fun _ _ h1 => CRes.act_legal (Dev.probe_legal h1 ..) fun _ _ h2 =>
    CRes.act_legal (Dev.drainTo_legal h2 ..) fun _ _ h3 => by simpa using h3

theorem portAtomic_legal (g : Word → Word → Word) : PortLegal (portAtomic g) := fun _ _ _ h =>
  CRes.act_legal (Dev.atomic_legal h ..) fun _ _ he => by simpa using he

theorem portLdn_legal : PortLegal portLdn := fun _ _ _ h =>
  CRes.act_legal (Dev.load_legal h ..) fun _ _ he => by simpa using he

theorem portStn_legal : PortLegal portStn := fun _ _ _ h =>
  CRes.act_legal (Dev.store_legal h ..) fun _ _ he => by simpa using he

theorem portTlbi_legal : PortLegal portTlbi := by
  intro c f d h
  unfold portTlbi
  split
  · exact h
  · cases c with
    | warden => simpa using h
    | pier p => exact CRes.act_legal (Dev.drainAll_legal h _) fun _ _ he => by simpa using he

theorem portBranch_legal (rel link : Bool) : PortLegal (portBranch rel link) := by
  intro c f d h
  refine CRes.act_legal ?_ fun _ _ he => by simpa using he
  split
  · exact h
  · exact Dev.operand_legal h ..

@[simp] theorem portLoop_pw (c : CoreId) (f : Fld) (d : Dev) : (portLoop c f d).dev.pw = d.pw := by
  simp [portLoop]

@[simp] theorem portTrap_pw (c : CoreId) (f : Fld) (d : Dev) : (portTrap c f d).dev.pw = d.pw := by
  simp [portTrap]

@[simp] theorem Dev.lockWrite_pw (d : Dev) (p : Fin 16) (v : Word) : (d.lockWrite p v).dev.pw = d.pw := by
  unfold Dev.lockWrite
  dsimp only
  repeat' split
  all_goals simp

@[simp] theorem Dev.srWrite_pw (d : Dev) (c : CoreId) (v : Word) : (d.srWrite c v).dev.pw = d.pw := by
  unfold Dev.srWrite
  dsimp only
  repeat' split
  all_goals simp

theorem portSrv_legal : PortLegal portSrv := by
  intro c f d h
  unfold portSrv
  split
  · exact h
  · refine CRes.act_legal (Dev.operand_legal h ..) fun v e he => ?_
    have hw : ((e.onCore c (fun k => k.stepIdx (stepOf f) 1)).srWrite c v).dev.pw.Legal := by simpa using he
    dsimp only
    split
    · next hr => rwa [hr] at hw
    · split
      · exact he
      · exact he
    · next hr => rwa [hr] at hw

theorem Dev.vectorWord_legal (h : d.pw.Legal) (c : CoreId) (n : BitVec 7) : (d.vectorWord c n).dev.pw.Legal := by
  have hd := d.decodeAddr_pw c .read false ((d.core c).vbr + n.setWidth 36)
  unfold Dev.vectorWord
  dsimp only
  split
  · next hk =>
    rw [hk] at hd
    rw [Dev.dataExc_pw]
    exact hd ▸ h
  · next hk =>
    rw [hk] at hd
    exact Dev.readVia_legal (hd ▸ h) ..

@[simp] theorem Dev.heldFrom_pw (d : Dev) (x : Dev) (c : CoreId) : (d.heldFrom x c).pw = d.pw := by
  unfold Dev.heldFrom
  dsimp only
  repeat' split
  all_goals simp

@[simp] theorem Dev.entryFail_pw (d : Dev) (x : Dev) (c : CoreId) (n : BitVec 7) : (d.entryFail x c n).pw = d.pw := by
  unfold Dev.entryFail
  dsimp only
  repeat' split
  all_goals simp

theorem Dev.takeException_legal (h : d.pw.Legal) (c : CoreId) (x : Entry) : (d.takeException c x).pw.Legal := by
  unfold Dev.takeException
  extract_lets sp sw body
  have hb : body.dev.pw.Legal :=
    CRes.bind_legal (Dev.probe_legal (by simpa using h) ..) fun _ _ h1 =>
      CRes.bind_legal (Dev.probe_legal h1 ..) fun _ _ h2 => CRes.bind_legal (Dev.drainTo_legal h2 ..) fun _ _ h3 =>
        Dev.vectorWord_legal (by simpa using h3) ..
  clear_value body
  cases body with
  | ok v e => cases c <;> simpa using hb
  | held e => simpa using h
  | exc v s e => simpa using h

theorem portRtt_legal : PortLegal portRtt := by
  intro c f d h
  unfold portRtt
  split
  · exact h
  · refine CRes.act_legal (Dev.load_legal (by simpa using h) ..) fun w e he => ?_
    dsimp only
    split
    · next v _ =>
      have hv := Dev.vectorWord_legal (d := e.onCore c (fun k => { k.accept ((e.swHeld c w).getLsbD 7) with
        sw := entrySw (e.swHeld c w), icause := v, sriHold := false, fetchFaults := [] })) (by simpa using he) c v
      split
      · next hr =>
        rw [hr] at hv
        simpa using hv
      · simpa using he
      · simpa using he
    · exact CRes.act_legal (Dev.load_legal he ..) fun _ _ h2 => by simpa using h2

theorem Dev.scriptWords_legal (h : d.pw.Legal) (c : CoreId) (ea : Word) (n i : Nat) :
    (Dev.scriptWords c ea n i d).dev.pw.Legal := by
  induction n generalizing d i with
  | zero => exact h
  | succ k ih => exact CRes.bind_legal (Dev.load_legal h ..) fun _ _ h1 => CRes.bind_legal (ih h1 _) fun _ _ h2 => h2

@[simp] theorem Dev.runCourses_pw (d : Dev) (p : Fin 16) (s : Script) : (d.runCourses p s).2.pw = d.pw := by
  simp [Dev.runCourses]

@[simp] theorem Dev.launch_pw (d : Dev) (p : Fin 16) (r : Run) : (d.launch p r).pw = d.pw := by
  simp [Dev.launch]

theorem portBond_legal : PortLegal portBond := by
  intro c f d h
  unfold portBond
  cases c with
  | warden => exact h
  | pier p =>
    dsimp only
    split
    · exact h
    · refine CRes.act_legal (Dev.drainAll_legal h _) fun _ _ h1 => CRes.act_legal (Dev.load_legal h1 ..) fun hw _ h2 =>
        CRes.act_legal (Dev.scriptWords_legal h2 ..) fun ws e h3 => ?_
      have hc := e.runCourses_pw p (parseScript (hw :: ws))
      generalize e.runCourses p (parseScript (hw :: ws)) = r at hc ⊢
      obtain ⟨cs, x⟩ := r
      have hr : x.pw.Legal := hc ▸ h3
      dsimp only
      split
      · exact hr
      · split
        · exact hr
        · simpa using hr

@[simp] theorem portSync_pw (c : CoreId) (f : Fld) (d : Dev) : (portSync c f d).dev.pw = d.pw := by
  unfold portSync
  repeat' split
  all_goals simp_all

theorem Dev.strLoop_legal {g : Dev → CRes Unit} (hg : ∀ e, e.pw.Legal → (g e).dev.pw.Legal) (h : d.pw.Legal) (c : CoreId) (n : Nat) :
    (Dev.strLoop c g n d).dev.pw.Legal := by
  induction n generalizing d with
  | zero => exact h
  | succ k ih => exact CRes.bind_legal (hg d h) fun _ _ he => ih he

@[simp] theorem Dev.strEnd_pw (d : Dev) (c : CoreId) : (d.strEnd c).pw = d.pw := by
  simp [Dev.strEnd]

theorem CRes.strAct_legal {α : Type} {r : CRes α} {g : α → Dev → Act} (hr : r.dev.pw.Legal) (c : CoreId)
    (hg : ∀ v e, e.pw.Legal → (g v e).dev.pw.Legal) : (r.strAct c g).dev.pw.Legal := by
  cases r with
  | ok v e => exact hg v _ (by simpa using hr)
  | held e => simpa [CRes.strAct] using hr
  | exc v s e => simpa [CRes.strAct] using hr

theorem Dev.strRun_legal {g : Dev → CRes Unit} (hg : ∀ e, e.pw.Legal → (g e).dev.pw.Legal) (h : d.pw.Legal) (stop : Option Nat)
    (c : CoreId) : (d.strRun stop c g).dev.pw.Legal := by
  refine CRes.strAct_legal (CRes.bind_legal (Dev.strLoop_legal hg (by simpa using h) ..) fun _ _ he => ?_) c fun _ _ he => he
  split <;> exact he

theorem movsWord_legal (h : d.pw.Legal) (c : CoreId) : (movsWord c d).dev.pw.Legal :=
  CRes.bind_legal (Dev.load_legal h ..) fun _ _ h1 => CRes.bind_legal (Dev.store_legal h1 ..) fun _ _ h2 => by simpa using h2

theorem portMovs_legal (stop : Option Nat) : PortLegal (portMovs stop) := fun c _ _ h =>
  Dev.strRun_legal (fun _ he => movsWord_legal he c) h stop c

theorem fillsWord_legal (h : d.pw.Legal) (c : CoreId) : (fillsWord c d).dev.pw.Legal :=
  CRes.bind_legal (Dev.store_legal h ..) fun _ _ h2 => by simpa using h2

theorem portFills_legal (stop : Option Nat) : PortLegal (portFills stop) := fun c _ _ h =>
  Dev.strRun_legal (fun _ he => fillsWord_legal he c) (by simpa using h) stop c

theorem xltsNonets_legal (h : d.pw.Legal) (c : CoreId) (w a : Word) (n i : Nat) :
    (xltsNonets c w n i a d).dev.pw.Legal := by
  induction n generalizing d i a with
  | zero => exact h
  | succ k ih => exact CRes.bind_legal (Dev.load_legal h ..) fun _ _ h1 => ih h1 ..

theorem xltsWord_legal (h : d.pw.Legal) (c : CoreId) : (xltsWord c d).dev.pw.Legal :=
  CRes.bind_legal (Dev.load_legal h ..) fun _ _ h1 => CRes.bind_legal (xltsNonets_legal h1 ..) fun _ _ h2 =>
    CRes.bind_legal (Dev.store_legal h2 ..) fun _ _ h3 => by simpa using h3

theorem portXlts_legal (stop : Option Nat) : PortLegal (portXlts stop) := fun c _ _ h =>
  Dev.strRun_legal (fun _ he => xltsWord_legal he c) (by simpa using h) stop c

theorem cmpsLoop_legal (h : d.pw.Legal) (c : CoreId) (n : Nat) : (cmpsLoop c n d).dev.pw.Legal := by
  induction n generalizing d with
  | zero => exact h
  | succ k ih =>
    unfold cmpsLoop
    split
    · exact h
    · exact CRes.bind_legal (Dev.load_legal h ..) fun _ _ h1 => CRes.bind_legal (Dev.load_legal h1 ..) fun _ _ h2 =>
        ih (by simpa using h2)

theorem portCmps_legal (stop : Option Nat) : PortLegal (portCmps stop) := by
  intro c f d h
  unfold portCmps
  split
  · simpa using h
  · extract_lets d1 n m
    have hl : (cmpsLoop c m d1).dev.pw.Legal := cmpsLoop_legal (by simpa [d1] using h) c m
    split
    · next hr =>
      rw [hr] at hl
      split
      · refine CRes.strAct_legal (show (CRes.held _ : CRes Unit).dev.pw.Legal from hl) c fun _ _ he => ?_
        exact he
      · simpa using hl
    · refine CRes.strAct_legal hl c fun _ _ he => ?_
      exact he

theorem decRead_legal (h : d.pw.Legal) (c : CoreId) (lo n : Nat) (a : List (Word × Word)) :
    (decRead c lo n a d).dev.pw.Legal := by
  induction n generalizing d a with
  | zero => exact h
  | succ k ih =>
    exact CRes.bind_legal (Dev.load_legal h ..) fun _ _ h1 => CRes.bind_legal (Dev.load_legal h1 ..) fun _ _ h2 => ih h2 _

theorem decWrite_legal (h : d.pw.Legal) (c : CoreId) (code : BitVec 3) (n : Nat) (a : DecSt) :
    (decWrite c code n a d).dev.pw.Legal := by
  induction n generalizing d a with
  | zero => exact h
  | succ k ih =>
    exact CRes.bind_legal (Dev.load_legal h ..) fun _ _ h1 => CRes.bind_legal (Dev.load_legal h1 ..) fun _ _ h2 =>
      CRes.bind_legal (Dev.store_legal h2 ..) fun _ _ h3 => ih (by simpa using h3) _

@[simp] theorem Dev.decStrInvalid_pw (d : Dev) (c : CoreId) : (d.decStrInvalid c).dev.pw = d.pw := by
  unfold Dev.decStrInvalid
  dsimp only
  repeat' split
  all_goals simp

theorem Dev.decStrWrite_legal (h : d.pw.Legal) (code : BitVec 3) (c : CoreId) (m : Nat) (b : Bool) (a : DecSt) :
    (d.decStrWrite code c m b a).dev.pw.Legal := by
  unfold Dev.decStrWrite
  dsimp only
  refine CRes.strAct_legal (CRes.bind_legal (decWrite_legal ?_ ..) fun _ _ he => ?_) c fun r e he => ?_
  · simpa using h
  · split <;> exact he
  · split <;> simpa using he

theorem portDecStr_legal (code : BitVec 3) (stop : Option Nat) : PortLegal (portDecStr code stop) := by
  intro c f d h
  unfold portDecStr
  extract_lets d0 k write known d1 d2 n m
  have h0 : d0.pw.Legal := by simpa [d0] using h
  have h2 : d2.pw.Legal := by simpa [d2, d1] using h0
  clear_value d2
  split
  · simpa using h0
  · split
    · refine CRes.strAct_legal (CRes.bind_legal (decRead_legal h2 ..) fun _ _ he => ?_) c fun _ _ he => he
      exact he
    · have hr := decRead_legal h2 c 0 n []
      split
      · next he =>
        rw [he] at hr
        dsimp only
        split
        · simpa using hr
        · split
          · exact Dev.decStrWrite_legal hr ..
          · exact Dev.decStrWrite_legal hr ..
      · exact CRes.strAct_legal hr c fun _ _ he => he

@[simp] theorem Dev.fire_pw (d : Dev) (p : Fin 16) (f : ℕ → ℕ → Pier → Pier) : (d.fire p f).pw = d.pw := by
  simp [Dev.fire]

@[simp] theorem Dev.driveRun_pw (d : Dev) (p : Fin 16) : (d.driveRun p).pw = d.pw := by
  unfold Dev.driveRun
  dsimp only
  repeat' split
  all_goals simp

theorem portLoop_legal : PortLegal portLoop := fun c f d h => (portLoop_pw c f d).symm ▸ h

theorem portTrap_legal : PortLegal portTrap := fun c f d h => (portTrap_pw c f d).symm ▸ h

theorem portSync_legal : PortLegal portSync := fun c f d h => (portSync_pw c f d).symm ▸ h

theorem portBody_legal (n : Nat) (f : Fld) : PortLegal (portBody n f) := by
  unfold portBody
  repeat' split
  exacts [
    valueAct_legal _, valueAct_legal _, valueAct_legal _, valueAct_legal _, valueAct_legal _, valueAct_legal _,
    valueAct_legal _, valueAct_legal _, valueAct_legal _, valueAct_legal _, valueAct_legal _, trapAct_legal _,
    trapAct_legal _, trapAct_legal _, trapAct_legal _, trapAct_legal _, valueAct_legal _, valueAct_legal _,
    valueAct_legal _, portTlbi_legal, valueAct_legal _, valueAct_legal _, valueAct_legal _, valueAct_legal _,
    valueAct_legal _, valueAct_legal _, valueAct_legal _, valueAct_legal _, valueAct_legal _, valueAct_legal _,
    trapAct_legal _, trapAct_legal _, trapAct_legal _, trapAct_legal _, trapAct_legal _, trapAct_legal _,
    trapAct_legal _, trapAct_legal _, trapAct_legal _, trapAct_legal _, trapAct_legal _, trapAct_legal _,
    trapAct_legal _, trapAct_legal _, valueAct_legal _, portStore_legal _, portStore_legal _, portStore_legal _,
    portLdd_legal, portStd_legal, portAtomic_legal _, portAtomic_legal _, portLdn_legal, portStn_legal,
    portBranch_legal _ _, portBranch_legal _ _, portBranch_legal _ _, portBranch_legal _ _, portLoop_legal,
    portTrap_legal, portRtt_legal, valueAct_legal _, portSrv_legal, portMovs_legal none, portFills_legal none,
    portDecStr_legal _ none, portDecStr_legal _ none, portCmps_legal none, portXlts_legal none, portBond_legal,
    portSync_legal]

/-! ### RUN_PROGRAM and the ward -/

/-- The device that a program leaves. -/
def ProgEnd.dev : ProgEnd → Dev
  | .done d => d
  | .verdict _ d => d
  | .over d => d
  | .failed d => d
  | .waits d => d

/-- The device after a part of a program, whether it goes on or has ended. -/
def progDev : Prog ⊕ ProgEnd → Dev
  | .inl g => g.d
  | .inr e => e.dev

theorem Prog.trapped_legal {g : Prog} (h : g.d.pw.Legal) (p : Fin 16) (x : Entry) :
    (progDev (g.trapped p x)).pw.Legal := by
  have ht := Dev.takeException_legal h (.pier p) x
  unfold Prog.trapped
  dsimp only
  repeat' split
  all_goals exact ht

theorem Prog.instr_legal {g : Prog} (h : g.d.pw.Legal) (p : Fin 16) : (progDev (g.instr p)).pw.Legal := by
  have hi : ∀ (e : Dev) n f, e.pw.Legal → (e.instr (.pier p) n f (portBody n f)).pw.Legal := fun e n f he =>
    Dev.instr_legal he _ n f fun _ hx => portBody_legal n f hx
  unfold Prog.instr
  extract_lets c P run nop
  have hrun : ∀ (e : Dev) n f, e.pw.Legal → (progDev (run e n f)).pw.Legal := by
    intro e n f he
    simp only [run]
    repeat' split
    all_goals exact hi e n f he
  split
  · exact hrun _ _ _ h
  · split
    · exact h
    · exact hrun _ _ _ h
    · exact hrun _ _ _ h

theorem Dev.flush_legal (h : d.pw.Legal) (c : CoreId) : (d.flush c).pw.Legal := by
  have hd := Dev.drainAll_legal h c
  unfold Dev.flush
  split <;> (next he => rwa [he] at hd)

theorem Prog.round_legal {g : Prog} (h : g.d.pw.Legal) (p : Fin 16) : (progDev (g.round p)).pw.Legal := by
  unfold Prog.round
  extract_lets P0 d1 g1 P next
  have h1 : g1.d.pw.Legal := by
    have hd : d1.pw.Legal := by simpa [d1] using h
    simp only [g1]
    split
    · exact Dev.flush_legal hd _
    · exact hd
  have hn : (progDev next).pw.Legal := by
    simp only [next]
    repeat' split
    all_goals first
      | exact h1
      | exact Prog.trapped_legal h1 p _
      | exact Prog.instr_legal h1 p
  clear_value next
  cases next with
  | inr e => exact hn
  | inl g2 =>
    dsimp only
    split <;> exact hn

theorem Prog.loop_legal {g : Prog} (h : g.d.pw.Legal) (p : Fin 16) (n : Nat) : (Prog.loop p n g).dev.pw.Legal := by
  induction n generalizing g with
  | zero => exact h
  | succ k ih =>
    have hr := Prog.round_legal h p
    unfold Prog.loop
    split
    · next he =>
      rw [he] at hr
      exact ih hr
    · next he => rwa [he] at hr

theorem Dev.progLeave_legal (h : d.pw.Legal) (p : Fin 16) (k : Core) : (d.progLeave p k).pw.Legal := by
  have hf := Dev.flush_legal (d := d.onPier p (settleBanks d.now)) (by simpa using h) (.pier p)
  simpa [Dev.progLeave] using hf

@[simp] theorem Dev.progOutput_pw (d : Dev) (p : Fin 16) (q : Fin 64) (g : Image) (i : Item) :
    (d.progOutput p q g i).2.pw = d.pw := by
  unfold Dev.progOutput
  dsimp only
  repeat' split
  all_goals simp

theorem Dev.runProgram_legal (h : d.pw.Legal) (i : Item) (p : Fin 16) (q : Fin 64) (s : Session) (g : Image) (bs : List Byte) :
    (d.runProgram i p q s g bs).pw.Legal := by
  unfold Dev.runProgram
  extract_lets k0 d1
  have hl : (Prog.loop p progRounds ⟨d1, 0, 0, false⟩).dev.pw.Legal := Prog.loop_legal (by simpa [d1] using h) p progRounds
  split
  · next e he =>
    rw [he] at hl
    have ho : (e.progOutput p q g i).2.pw.Legal := by simpa [ProgEnd.dev] using hl
    simpa using Dev.progLeave_legal ho p k0
  · next e he =>
    rw [he] at hl
    have hv : (e.progLeave p k0).pw.Legal := Dev.progLeave_legal hl p k0
    simpa using hv
  · next e he =>
    rw [he] at hl
    have hv : (e.progLeave p k0).pw.Legal := Dev.progLeave_legal hl p k0
    simpa using hv
  · next he => rwa [he] at hl
  · next he => rwa [he] at hl

@[simp] theorem Dev.setWard_pw (d : Dev) (w i : List Byte) (n : Nat) (m : Bool) :
    (d.setWard w i n m).pw = d.pw := by simp [Dev.setWard]

@[simp] theorem Dev.joinWard_pw (d : Dev) (i : Item) (bs : List Byte) : (d.joinWard i bs).pw = d.pw := by
  unfold Dev.joinWard
  dsimp only
  repeat' split
  all_goals simp

@[simp] theorem Dev.exportBlob_pw (d : Dev) (i : Item) (k : Nat) (p bs : List Byte) :
    (d.exportBlob i k p bs).pw = d.pw := by
  simp [Dev.exportBlob]

@[simp] theorem Dev.importKeyBlob_pw (d : Dev) (i : Item) (p bs : List Byte) :
    (d.importKeyBlob i p bs).pw = d.pw := by
  unfold Dev.importKeyBlob
  extract_lets h e key kek e2
  repeat' split
  all_goals simp

@[simp] theorem Dev.importSession_pw (d : Dev) (i : Item) (p bs : List Byte) :
    (d.importSession i p bs).pw = d.pw := by
  unfold Dev.importSession
  extract_lets q x
  split
  · simp
  · split
    · simp
    · next hs => simpa using Dev.openSession_pw hs

/-- Where a command goes on, it leaves the caps in their range. -/
def KeepsCaps (o : Host.Outcome State Fault Refusal) : Prop := ∀ t, o = .next t → t.dev.pw.Legal

theorem keepsCaps_answer {s : State} (h : d.pw.Legal) : KeepsCaps (s.answer d) := by
  intro t ht
  cases ht
  exact h

theorem keepsCaps_instr {s : State} {g : CoreId → Fld → Dev → Act} (h : s.dev.pw.Legal) (hg : PortLegal g) (c : CoreId) (n : Nat)
    (f : Fld) : KeepsCaps (s.instr c n f g) :=
  keepsCaps_answer (Dev.instr_legal h c n f fun _ he => hg he)

@[simp] theorem Dev.tick_pw (d : Dev) : (d.tick).pw = d.pw := by
  unfold Dev.tick
  dsimp only
  repeat' split
  all_goals simp
end Sys2Proof.Machine
end

section
/-! What each command leaves of the caps, and the settlement of O60. -/

namespace Sys2Proof.Machine
open Sys2Proof

variable {s : State} {d e : Dev}

theorem execStoreBufferDrain_keepsCaps (h : s.dev.pw.Legal) (c : CoreId) : KeepsCaps (execStoreBufferDrain c s) := by
  have hd := Dev.drainHead_legal h c
  refine keepsCaps_answer ?_
  split <;> (next he => rwa [he] at hd)

theorem execExceptionEntry_keepsCaps (h : s.dev.pw.Legal) (c : CoreId) : KeepsCaps (execExceptionEntry c s) := by
  refine keepsCaps_answer ?_
  split
  · exact h
  · split
    · exact Dev.takeException_legal h c _
    · exact h

theorem execCoreTimerWrite_keepsCaps (h : s.dev.pw.Legal) (c : CoreId) (v : DW) :
    KeepsCaps (execCoreTimerWrite c v s) := by
  cases c <;> exact keepsCaps_answer (by simpa using h)

theorem State.runCtl_keepsCaps (h : s.dev.pw.Legal) (p : Fin 16) (v : DW) : KeepsCaps (s.runCtl p v) := by
  unfold State.runCtl
  split <;> exact keepsCaps_answer h

theorem execGetState_keepsCaps (h : s.dev.pw.Legal) (i : Byte) (l : List Byte) : KeepsCaps (execGetState i l s) :=
  keepsCaps_answer (Dev.steward_legal h (fun e he => by dsimp only; split <;> exact he) true)

theorem execLowerCap_keepsCaps (h : s.dev.pw.Legal) (i : Byte) (l : List Byte) : KeepsCaps (execLowerCap i l s) := by
  refine keepsCaps_answer (Dev.steward_legal h (fun e he => ?_) false)
  dsimp only
  split
  · exact he
  · split
    · next hn =>
      simp only [Bool.and_eq_true, decide_eq_true_eq] at hn
      exact Dev.setCap_legal ⟨he.1, he.2.1⟩ ⟨hn.1, (hn.2.trans (Nat.min_le_left _ _)).trans he.2.1⟩
    · exact he

theorem execStewardKekComponent_keepsCaps (h : s.dev.pw.Legal) (i : Byte) (l : List Byte) :
    KeepsCaps (execStewardKekComponent i l s) := by
  refine keepsCaps_answer (Dev.steward_legal h (fun e he => ?_) false)
  have hk := Dev.kekArrive_pw e.expireAll (l.getD 0 0).toNat (l.getD 1 0).toNat (leNat ((l.drop 2).take 3)) (l.drop 5) false
  rw [Dev.expireAll_pw] at hk
  rw [← hk] at he
  dsimp only
  rw [Dev.stewardRecord_pw]
  split
  · rwa [hk] at he
  · split
    · rwa [hk] at he
    · split <;> (next hr => rwa [hr] at he)

theorem execStewardHalt_keepsCaps (h : s.dev.pw.Legal) (i : Byte) (l : List Byte) :
    KeepsCaps (execStewardHalt i l s) :=
  keepsCaps_answer (Dev.steward_legal h (fun e he => by simpa using he) false)

theorem execUnknownCommand_keepsCaps (h : s.dev.pw.Legal) (c i : Byte) (l : List Byte) :
    KeepsCaps (execUnknownCommand c i l s) := by
  refine keepsCaps_answer ?_
  split
  · exact h
  · exact Dev.steward_legal h (fun e he => he) false

theorem execBatchEnd_keepsCaps (h : s.dev.pw.Legal) (p : Fin 16) : KeepsCaps (execBatchEnd p s) := by
  have hb : (s.dev.endBatch p).pw.Legal := by simpa using h
  refine keepsCaps_answer ?_
  split
  · exact hb
  · exact Dev.placeNext_legal (by simpa using hb)

theorem execEcho_keepsCaps (h : s.dev.pw.Legal) (it : Nat) (inp : Fetched) : KeepsCaps (execEcho it inp s) := by
  refine keepsCaps_answer ?_
  split
  · exact Dev.wardenOp_legal h _ _ _ _ fun e i bs he => by simpa using he
  · simpa using h

theorem execSignRsa_keepsCaps (h : s.dev.pw.Legal) (it : Nat) (inp : Fetched) : KeepsCaps (execSignRsa it inp s) := by
  unfold execSignRsa
  split <;> exact keepsCaps_answer (by simpa using h)

/-- An operation on the warden that waits for its turn keeps the caps where it does so in its turn. -/
theorem keepsCaps_inTurn {i : Option Item} {w : Item → Bool} (h : s.dev.pw.Legal) (he : e.pw.Legal) :
    KeepsCaps (s.answer (match i with
      | none => s.dev
      | some i => if w i then s.dev else e)) := by
  refine keepsCaps_answer ?_
  split
  · exact h
  · split
    · exact h
    · exact he

theorem execKeyImport_keepsCaps (h : s.dev.pw.Legal) (it : Nat) (inp : Fetched) :
    KeepsCaps (execKeyImport it inp s) := by
  refine keepsCaps_inTurn h (Dev.wardenOp_legal h _ _ _ _ fun e i bs he => ?_)
  repeat' split
  all_goals simpa using he

theorem execKeyGenerate_keepsCaps (h : s.dev.pw.Legal) (it : Nat) (inp : Fetched) :
    KeepsCaps (execKeyGenerate it inp s) := by
  refine keepsCaps_inTurn h (Dev.wardenOp_legal h _ _ _ _ fun e i bs he => ?_)
  repeat' split
  all_goals simpa using he

theorem execKeyDerive_keepsCaps (h : s.dev.pw.Legal) (it : Nat) (inp : Fetched) :
    KeepsCaps (execKeyDerive it inp s) := by
  refine keepsCaps_inTurn h (Dev.wardenOp_legal h _ _ _ _ fun e i bs he => ?_)
  repeat' split
  all_goals simpa using he

theorem execKeyDestroy_keepsCaps (h : s.dev.pw.Legal) (it : Nat) (inp : Fetched) :
    KeepsCaps (execKeyDestroy it inp s) := by
  refine keepsCaps_inTurn h (Dev.wardenOp_legal h _ _ _ _ fun e i bs he => ?_)
  repeat' split
  all_goals simpa using he

theorem execWardImport_keepsCaps (h : s.dev.pw.Legal) (it : Nat) (inp : Fetched) :
    KeepsCaps (execWardImport it inp s) := by
  refine keepsCaps_inTurn (w := fun i => decide (i.bits 12 0 0 = 0) && !s.dev.keyTurn i) h
    (Dev.wardenOp_legal h _ _ _ _ fun e i bs he => ?_)
  repeat' split
  all_goals simpa using he

theorem execSessionOpen_keepsCaps (h : s.dev.pw.Legal) (it : Nat) (inp : Fetched) :
    KeepsCaps (execSessionOpen it inp s) := by
  refine keepsCaps_answer (Dev.wardenOp_legal h _ _ _ _ fun e i bs he => ?_)
  split
  · simpa using he
  · next ho =>
    rw [Dev.finishWarden_pw, Dev.openSession_pw ho]
    exact he

theorem execKekComponent_keepsCaps (h : s.dev.pw.Legal) (it : Nat) (inp : Fetched) :
    KeepsCaps (execKekComponent it inp s) := by
  refine keepsCaps_answer (Dev.wardenOp_legal h _ _ _ _ fun e i bs he => ?_)
  have hk := Dev.kekArrive_pw e.expireAll (i.bits 12 5 0) (i.bits 12 9 8) (i.bits 13 23 0) bs true
  rw [Dev.expireAll_pw] at hk
  rw [← hk] at he
  dsimp only
  split <;> (next hr => rw [hr] at he; simpa using he)

theorem execWardLeave_keepsCaps (h : s.dev.pw.Legal) (it : Nat) (inp : Fetched) :
    KeepsCaps (execWardLeave it inp s) :=
  keepsCaps_answer (Dev.wardenOp_legal h _ _ _ _ fun e i bs he => by simpa using he)

theorem execRunProgram_keepsCaps (h : s.dev.pw.Legal) (it : Nat) (inp : Fetched) :
    KeepsCaps (execRunProgram it inp s) := by
  refine keepsCaps_answer ?_
  dsimp only
  split
  · exact h
  · next i p e hi =>
    have he : e.pw.Legal := Dev.pierItem_pw hi ▸ h
    split
    · split
      · simpa using he
      · split
        · simpa using he
        · exact Dev.runProgram_legal (by simpa using he) ..
    · simpa using he

theorem execPorNAssert_keepsCaps (h : s.dev.pw.Legal) (n : Nat) : KeepsCaps (execPorNAssert n s) := by
  refine keepsCaps_answer ?_
  repeat' split
  all_goals first
    | exact h
    | exact Dev.por_legal _

theorem execRailOutOfTolerance_keepsCaps (r : RailEvent) : KeepsCaps (execRailOutOfTolerance r s) := by
  unfold execRailOutOfTolerance
  split
  · intro t ht
    cases ht
  · exact keepsCaps_answer (Dev.por_legal _)

/-! ### Start-up -/

theorem execFirmwareImageVerify_keepsCaps (h : s.dev.pw.Legal) : KeepsCaps (execFirmwareImageVerify s) := by
  refine keepsCaps_answer (Dev.bootStep_legal h ?_ _ _)
  split <;> exact h

theorem execKeystoneLoad_keepsCaps (h : s.dev.pw.Legal) : KeepsCaps (execKeystoneLoad s) := by
  refine keepsCaps_answer (Dev.bootStep_legal h ?_ _ _)
  extract_lets life e
  have he : e.pw.Legal := h
  clear_value e
  repeat' split
  all_goals simpa using he

theorem Dev.fillPier_legal (h : d.pw.Legal) (p : Fin 16) (b : Bool) : (d.fillPier p b).pw.Legal := by
  unfold Dev.fillPier
  extract_lets P base f Q train
  clear_value f Q train
  split
  · simpa using h
  · extract_lets pw Q filled e
    have he : e.pw.Legal := h
    clear_value e
    split
    · exact he
    · rw [Dev.detected_pw]
      exact he

theorem execPierMemoryFill_keepsCaps (h : s.dev.pw.Legal) (p : Fin 16) (b : Bool) :
    KeepsCaps (execPierMemoryFill p b s) :=
  keepsCaps_answer (Dev.bootStep_legal (g := Dev.fillPier p b) h (Dev.fillPier_legal h p b) _ _)

theorem execDeviceTablesWritten_keepsCaps (h : s.dev.pw.Legal) : KeepsCaps (execDeviceTablesWritten s) := by
  refine keepsCaps_answer (Dev.bootStep_legal h ?_ _ _)
  dsimp only
  rw [foldl_pw fun e p => ?_]
  · simpa using h
  · rw [Dev.s2Restore_pw]
    split
    · rfl
    · rw [Dev.onPier_pw]
      exact foldl_pw (fun _ _ => by simp) _ _

theorem execSealsProcessed_keepsCaps (h : s.dev.pw.Legal) : KeepsCaps (execSealsProcessed s) :=
  keepsCaps_answer (Dev.bootStep_legal h (by simpa using h) _ _)

theorem Dev.readyPier_pw (d : Dev) (p : Fin 16) : (d.readyPier p).pw = d.pw := by
  simp [Dev.readyPier]

theorem Dev.readied_pw (d : Dev) : d.readied.pw = d.pw := by
  simp [Dev.readied]

theorem execReadyAssert_keepsCaps (h : s.dev.pw.Legal) : KeepsCaps (exec .readyAssert s) := by
  rw [execReadyAssert_eq]
  refine keepsCaps_answer (Dev.bootStep_legal h ?_ _ _)
  rw [Dev.readied_pw, foldl_pw Dev.readyPier_pw]
  exact h

/-! ### Power -/

theorem Dev.warnDie_legal (h : d.pw.Legal) (t : Nat × Int) (n : Nat) : (d.warnDie t n).pw.Legal := by
  unfold Dev.warnDie
  dsimp only
  split
  · split
    · simpa using h
    · simpa using h
  · split
    · exact Dev.fallOf_legal _ _ _ h
    · exact h

theorem Dev.warnStack_legal (h : d.pw.Legal) (r : Nat) (t : Int) : (d.warnStack r t).pw.Legal := by
  unfold Dev.warnStack
  split
  · simpa using h
  · split
    · exact Dev.fallOf_legal _ _ _ h
    · exact h

theorem Dev.warnCurrent_legal (h : d.pw.Legal) (sm : Sample) (n c : Nat) : (d.warnCurrent sm n c).pw.Legal := by
  unfold Dev.warnCurrent
  split
  · simpa using h
  · split
    · exact Dev.fallOf_legal _ _ _ h
    · exact h

theorem execTemperatureSample_keepsCaps (h : s.dev.pw.Legal) (sm : Sample) :
    KeepsCaps (execTemperatureSample sm s) := by
  have ha := answers_temperatureSample sm s
  refine (show KeepsCaps (exec (.temperatureSample sm) s) from ?_)
  rw [ha]
  refine keepsCaps_answer (Dev.warnCurrent_legal (Dev.warnStack_legal (Dev.warnStack_legal ?_ _ _) _ _) ..)
  have hw := Dev.warnDie_legal (d := s.dev.noteSample sm) h (hottest sm) (s.dev.hotRuns (hottest sm).2)
  unfold Dev.tripDie
  split
  · simpa using hw
  · exact hw

theorem execPierWakeComplete_keepsCaps (h : s.dev.pw.Legal) (p : Fin 16) : KeepsCaps (execPierWakeComplete p s) := by
  unfold execPierWakeComplete
  split
  · split
    · exact keepsCaps_answer h
    · refine keepsCaps_answer (Dev.placeNext_legal ?_)
      rw [Dev.eagerAll_pw, Dev.reclaim_pw, foldl_pw fun _ _ => by simp]
      simpa using h
  · exact keepsCaps_answer h

theorem execRegisterWrite_keepsCaps (h : s.dev.pw.Legal) (w : RegWrite) : KeepsCaps (execRegisterWrite w s) := by
  cases w with
  | host f o v be n => exact keepsCaps_answer (Dev.hostWrite_legal h ..)
  | core c a v => exact keepsCaps_answer (Dev.coreWrite_legal h ..)
  | hostRead f o n => exact keepsCaps_answer (by simpa using h)
  | sensor n => exact keepsCaps_answer (by simpa using h)

theorem execCompletionTimeout_keepsCaps (h : s.dev.pw.Legal) (w : TimeoutOf) :
    KeepsCaps (execCompletionTimeout w s) := by
  cases w <;> exact keepsCaps_answer (by simpa using h)
theorem execBatchPlacement_keepsCaps (h : s.dev.pw.Legal) : KeepsCaps (execBatchPlacement s) :=
  keepsCaps_answer (Dev.keepAwake_legal (Dev.placeNext_legal h))

theorem execFrontagePllLock_keepsCaps (h : s.dev.pw.Legal) : KeepsCaps (execFrontagePllLock s) :=
  keepsCaps_answer (Dev.bootStep_legal h h _ _)

theorem execEvoariStart_keepsCaps (h : s.dev.pw.Legal) : KeepsCaps (execEvoariStart s) :=
  keepsCaps_answer (Dev.bootStep_legal h h _ _)

/-! ### Commands by cases of their outcome -/

theorem execTableWalk_keepsCaps (h : s.dev.pw.Legal) (p : Fin 16) (hod : Bool) (acc : Access) (va : Word) :
    KeepsCaps (execTableWalk p hod acc va s) := by
  unfold execTableWalk
  dsimp only
  repeat' split
  all_goals exact keepsCaps_answer (by simpa using h)

theorem execAu0Record_keepsCaps (h : s.dev.pw.Legal) (p : Fin 16) (source : RecordSource) :
    KeepsCaps (execAu0Record p source s) := by
  unfold execAu0Record
  dsimp only
  repeat' split
  all_goals exact keepsCaps_answer (by simpa using h)

theorem execWearLevellingErase_keepsCaps (h : s.dev.pw.Legal) (sector : Nat) (good : Bool) :
    KeepsCaps (execWearLevellingErase sector good s) := by
  unfold execWearLevellingErase
  dsimp only
  repeat' split
  all_goals exact keepsCaps_answer (by simpa using h)

theorem execEntryFetch_keepsCaps (h : s.dev.pw.Legal) : KeepsCaps (execEntryFetch s) := by
  unfold execEntryFetch
  dsimp only
  repeat' split
  all_goals exact keepsCaps_answer (by simpa using h)

theorem execItemResultWrite_keepsCaps (h : s.dev.pw.Legal) (it : Nat) : KeepsCaps (execItemResultWrite it s) := by
  unfold execItemResultWrite
  dsimp only
  repeat' split
  all_goals exact keepsCaps_answer (by simpa using h)

theorem execAuditRingFullNotice_keepsCaps (h : s.dev.pw.Legal) : KeepsCaps (execAuditRingFullNotice s) := by
  unfold execAuditRingFullNotice
  dsimp only
  repeat' split
  all_goals exact keepsCaps_answer (by simpa using h)

theorem execCompletionWrite_keepsCaps (h : s.dev.pw.Legal) (it : Nat) : KeepsCaps (execCompletionWrite it s) := by
  unfold execCompletionWrite
  dsimp only
  repeat' split
  all_goals exact keepsCaps_answer (by simpa using h)

theorem execMsixTableAccess_keepsCaps (h : s.dev.pw.Legal) (fn : FnId) (acc : Bar2Access) :
    KeepsCaps (execMsixTableAccess fn acc s) := by
  unfold execMsixTableAccess
  dsimp only
  repeat' split
  all_goals exact keepsCaps_answer (by simpa using h)

theorem execFlrItemStop_keepsCaps (h : s.dev.pw.Legal) (it : Nat) : KeepsCaps (execFlrItemStop it s) := by
  unfold execFlrItemStop
  dsimp only
  repeat' split
  all_goals exact keepsCaps_answer (by simpa using h)

theorem execIdeIntegrityFailure_keepsCaps (h : s.dev.pw.Legal) (ring : Option (FnId × Fin 64)) :
    KeepsCaps (execIdeIntegrityFailure ring s) := by
  unfold execIdeIntegrityFailure
  dsimp only
  repeat' split
  all_goals exact keepsCaps_answer (by simpa using h)

theorem execBatchWindowExpiry_keepsCaps (h : s.dev.pw.Legal) (b : Nat) : KeepsCaps (execBatchWindowExpiry b s) := by
  unfold execBatchWindowExpiry
  dsimp only
  repeat' split
  all_goals exact keepsCaps_answer (by simpa using h)

theorem execDeadlineHintExpiry_keepsCaps (h : s.dev.pw.Legal) (it : Nat) :
    KeepsCaps (execDeadlineHintExpiry it s) := by
  unfold execDeadlineHintExpiry
  dsimp only
  repeat' split
  all_goals exact keepsCaps_answer (by simpa using h)

theorem execMigrationLeafMove_keepsCaps (h : s.dev.pw.Legal) (p : Fin 16) (q : Fin 64) (ipa : BitVec 30) (dest : Word) : KeepsCaps (execMigrationLeafMove p q ipa dest s) := by
  unfold execMigrationLeafMove
  dsimp only
  repeat' split
  all_goals exact keepsCaps_answer (by simpa using h)

theorem execMsgTranslate_keepsCaps (h : s.dev.pw.Legal) (it : Nat) (inp : Fetched) :
    KeepsCaps (execMsgTranslate it inp s) := by
  unfold execMsgTranslate
  dsimp only
  repeat' split
  all_goals exact keepsCaps_answer (by simpa using h)

theorem execKeyExport_keepsCaps (h : s.dev.pw.Legal) (it : Nat) (inp : Fetched) :
    KeepsCaps (execKeyExport it inp s) := by
  refine keepsCaps_answer (Dev.wardenOp_legal h _ _ _ _ fun e i bs he => ?_)
  dsimp only
  repeat' split
  all_goals simpa using he

theorem execKeyInfo_keepsCaps (h : s.dev.pw.Legal) (it : Nat) (inp : Fetched) : KeepsCaps (execKeyInfo it inp s) := by
  refine keepsCaps_answer (Dev.wardenOp_legal h _ _ _ _ fun e i bs he => ?_)
  dsimp only
  repeat' split
  all_goals simpa using he

theorem execKeyStoreLogProgram_keepsCaps (h : s.dev.pw.Legal) (good : Bool) :
    KeepsCaps (execKeyStoreLogProgram good s) := by
  unfold execKeyStoreLogProgram
  dsimp only
  repeat' split
  all_goals exact keepsCaps_answer (by simpa using h)

theorem execSessionClose_keepsCaps (h : s.dev.pw.Legal) (it : Nat) (inp : Fetched) :
    KeepsCaps (execSessionClose it inp s) := by
  refine keepsCaps_answer (Dev.wardenOp_legal h _ _ _ _ fun e i bs he => ?_)
  dsimp only
  simpa using he

theorem execProgramStepLimit_keepsCaps (h : s.dev.pw.Legal) (it : Nat) : KeepsCaps (execProgramStepLimit it s) := by
  unfold execProgramStepLimit
  dsimp only
  repeat' split
  all_goals exact keepsCaps_answer (by simpa using h)

theorem execLoadProgram_keepsCaps (h : s.dev.pw.Legal) (it : Nat) (inp : Fetched) :
    KeepsCaps (execLoadProgram it inp s) := by
  refine keepsCaps_answer (Dev.wardenOp_legal h _ _ _ _ fun e i bs he => ?_)
  dsimp only
  repeat' split
  all_goals simpa using he

theorem execDefineCourse_keepsCaps (h : s.dev.pw.Legal) (it : Nat) (inp : Fetched) :
    KeepsCaps (execDefineCourse it inp s) := by
  refine keepsCaps_answer (Dev.wardenOp_legal h _ _ _ _ fun e i bs he => ?_)
  dsimp only
  repeat' split
  all_goals simpa using he

theorem execAuditAttest_keepsCaps (h : s.dev.pw.Legal) (it : Nat) (inp : Fetched) :
    KeepsCaps (execAuditAttest it inp s) := by
  refine keepsCaps_answer (Dev.wardenOp_legal h _ _ _ _ fun e i bs he => ?_)
  dsimp only
  repeat' split
  all_goals simpa using he

theorem execSealNow_keepsCaps (h : s.dev.pw.Legal) (it : Nat) (inp : Fetched) : KeepsCaps (execSealNow it inp s) := by
  refine keepsCaps_answer (Dev.wardenOp_legal h _ _ _ _ fun e i bs he => ?_)
  dsimp only
  simpa using he

theorem execPartCreate_keepsCaps (h : s.dev.pw.Legal) (it : Nat) (inp : Fetched) :
    KeepsCaps (execPartCreate it inp s) := by
  refine keepsCaps_answer (Dev.wardenOp_legal h _ _ _ _ fun e i bs he => ?_)
  dsimp only
  repeat' split
  all_goals simpa using he

theorem execPartDestroy_keepsCaps (h : s.dev.pw.Legal) (it : Nat) (inp : Fetched) :
    KeepsCaps (execPartDestroy it inp s) := by
  refine keepsCaps_answer (Dev.wardenOp_legal h _ _ _ _ fun e i bs he => ?_)
  dsimp only
  repeat' split
  all_goals simpa using he

theorem execSetTime_keepsCaps (h : s.dev.pw.Legal) (it : Nat) (inp : Fetched) : KeepsCaps (execSetTime it inp s) := by
  refine keepsCaps_answer (Dev.wardenOp_legal h _ _ _ _ fun e i bs he => ?_)
  dsimp only
  simpa using he

theorem execSetState_keepsCaps (h : s.dev.pw.Legal) (it : Nat) (inp : Fetched) :
    KeepsCaps (execSetState it inp s) := by
  refine keepsCaps_answer (Dev.wardenOp_legal h _ _ _ _ fun e i bs he => ?_)
  dsimp only
  repeat' split
  all_goals simpa using he

theorem execProvision_keepsCaps (h : s.dev.pw.Legal) (it : Nat) (inp : Fetched) :
    KeepsCaps (execProvision it inp s) := by
  refine keepsCaps_answer (Dev.wardenOp_legal h _ _ _ _ fun e i bs he => ?_)
  dsimp only
  simpa using he

theorem execSetCert_keepsCaps (h : s.dev.pw.Legal) (it : Nat) (inp : Fetched) : KeepsCaps (execSetCert it inp s) := by
  refine keepsCaps_answer (Dev.wardenOp_legal h _ _ _ _ fun e i bs he => ?_)
  dsimp only
  repeat' split
  all_goals simpa using he

theorem execSetReentry_keepsCaps (h : s.dev.pw.Legal) (it : Nat) (inp : Fetched) :
    KeepsCaps (execSetReentry it inp s) := by
  refine keepsCaps_answer (Dev.wardenOp_legal h _ _ _ _ fun e i bs he => ?_)
  dsimp only
  simpa using he

theorem execWardRequest_keepsCaps (h : s.dev.pw.Legal) (it : Nat) (inp : Fetched) :
    KeepsCaps (execWardRequest it inp s) := by
  refine keepsCaps_answer (Dev.wardenOp_legal h _ _ _ _ fun e i bs he => ?_)
  dsimp only
  simpa using he

theorem execWardAdmit_keepsCaps (h : s.dev.pw.Legal) (it : Nat) (inp : Fetched) :
    KeepsCaps (execWardAdmit it inp s) := by
  refine keepsCaps_answer (Dev.wardenOp_legal h _ _ _ _ fun e i bs he => ?_)
  dsimp only
  repeat' split
  all_goals simpa using he

theorem execWardJoin_keepsCaps (h : s.dev.pw.Legal) (it : Nat) (inp : Fetched) :
    KeepsCaps (execWardJoin it inp s) := by
  refine keepsCaps_answer (Dev.wardenOp_legal h _ _ _ _ fun e i bs he => ?_)
  dsimp only
  repeat' split
  all_goals simpa using he

theorem execWardExport_keepsCaps (h : s.dev.pw.Legal) (it : Nat) (inp : Fetched) :
    KeepsCaps (execWardExport it inp s) := by
  refine keepsCaps_answer (Dev.wardenOp_legal h _ _ _ _ fun e i bs he => ?_)
  dsimp only
  repeat' split
  all_goals simpa using he

theorem execSealWrite_keepsCaps (h : s.dev.pw.Legal) : KeepsCaps (execSealWrite s) := by
  unfold execSealWrite
  dsimp only
  repeat' split
  all_goals exact keepsCaps_answer (by simpa using h)

theorem execSealPersist_keepsCaps (h : s.dev.pw.Legal) (good : Bool) : KeepsCaps (execSealPersist good s) := by
  unfold execSealPersist
  dsimp only
  repeat' split
  all_goals exact keepsCaps_answer (by simpa using h)

theorem execFinalSealProgram_keepsCaps (h : s.dev.pw.Legal) (good : Bool) :
    KeepsCaps (execFinalSealProgram good s) := by
  unfold execFinalSealProgram
  dsimp only
  repeat' split
  all_goals exact keepsCaps_answer (by simpa using h)

theorem execPerPierReset_keepsCaps (h : s.dev.pw.Legal) (p : Fin 16) : KeepsCaps (execPerPierReset p s) := by
  unfold execPerPierReset
  dsimp only
  repeat' split
  all_goals exact keepsCaps_answer (by simpa using h)

theorem execPerPierResetComplete_keepsCaps (h : s.dev.pw.Legal) (p : Fin 16) :
    KeepsCaps (execPerPierResetComplete p s) := by
  unfold execPerPierResetComplete
  dsimp only
  repeat' split
  all_goals exact keepsCaps_answer (by simpa using h)

theorem execReactionShadowEnd_keepsCaps (h : s.dev.pw.Legal) (p : Fin 16) :
    KeepsCaps (execReactionShadowEnd p s) := by
  unfold execReactionShadowEnd
  dsimp only
  repeat' split
  all_goals exact keepsCaps_answer (by simpa using h)

theorem execContainQuietPeriodExpiry_keepsCaps (h : s.dev.pw.Legal) (p : Fin 16) :
    KeepsCaps (execContainQuietPeriodExpiry p s) := by
  unfold execContainQuietPeriodExpiry
  dsimp only
  repeat' split
  all_goals exact keepsCaps_answer (by simpa using h)

theorem execRetirementAction_keepsCaps (h : s.dev.pw.Legal) (p : Fin 16) (e : Fin 16) :
    KeepsCaps (execRetirementAction p e s) := by
  unfold execRetirementAction
  dsimp only
  repeat' split
  all_goals exact keepsCaps_answer (by simpa using h)

theorem execPierRaise_keepsCaps (h : s.dev.pw.Legal) : KeepsCaps (execPierRaise s) := by
  unfold execPierRaise
  dsimp only
  repeat' split
  all_goals exact keepsCaps_answer (by simpa using h)

theorem execFrequencyChangeEnd_keepsCaps (h : s.dev.pw.Legal) (p : Fin 16) :
    KeepsCaps (execFrequencyChangeEnd p s) := by
  unfold execFrequencyChangeEnd
  dsimp only
  repeat' split
  all_goals exact keepsCaps_answer (by simpa using h)

theorem execFallOfNow_keepsCaps (h : s.dev.pw.Legal) (slot : Fin 64) (cause : BitVec 8) :
    KeepsCaps (execFallOfNow slot cause s) := by
  unfold execFallOfNow
  dsimp only
  repeat' split
  all_goals exact keepsCaps_answer (by simpa using h)

theorem execMinrunExpiry_keepsCaps (h : s.dev.pw.Legal) (p : Fin 16) : KeepsCaps (execMinrunExpiry p s) := by
  unfold execMinrunExpiry
  dsimp only
  repeat' split
  all_goals exact keepsCaps_answer (by simpa using h)

/-- A command whose run leaves the arbiter as it is keeps the caps. -/
theorem keepsCaps_of_pw (h : s.dev.pw.Legal) (he : e.pw = s.dev.pw) : KeepsCaps (s.answer e) :=
  keepsCaps_answer (he ▸ h)

/-- Every command keeps the caps. -/
theorem exec_keepsCaps (h : s.dev.pw.Legal) : ∀ i, KeepsCaps (exec i s)
  | .null _ _ => keepsCaps_instr h (valueAct_legal _) _ _ _
  | .a _ _ => keepsCaps_instr h (valueAct_legal _) _ _ _
  | .x1 _ _ => keepsCaps_instr h (valueAct_legal _) _ _ _
  | .x2 _ _ => keepsCaps_instr h (valueAct_legal _) _ _ _
  | .sp _ _ => keepsCaps_instr h (valueAct_legal _) _ _ _
  | .lk _ _ => keepsCaps_instr h (valueAct_legal _) _ _ _
  | .c1 _ _ => keepsCaps_instr h (valueAct_legal _) _ _ _
  | .c2 _ _ => keepsCaps_instr h (valueAct_legal _) _ _ _
  | .c3 _ _ => keepsCaps_instr h (valueAct_legal _) _ _ _
  | .mq _ _ => keepsCaps_instr h (valueAct_legal _) _ _ _
  | .mh _ _ => keepsCaps_instr h (valueAct_legal _) _ _ _
  | .ldhi _ _ => keepsCaps_instr h (valueAct_legal _) _ _ _
  | .add _ _ => keepsCaps_instr h (trapAct_legal _) _ _ _
  | .adc _ _ => keepsCaps_instr h (trapAct_legal _) _ _ _
  | .sub _ _ => keepsCaps_instr h (trapAct_legal _) _ _ _
  | .sbb _ _ => keepsCaps_instr h (trapAct_legal _) _ _ _
  | .neg _ _ => keepsCaps_instr h (trapAct_legal _) _ _ _
  | .and _ _ => keepsCaps_instr h (valueAct_legal _) _ _ _
  | .or _ _ => keepsCaps_instr h (valueAct_legal _) _ _ _
  | .xor _ _ => keepsCaps_instr h (valueAct_legal _) _ _ _
  | .shl _ _ => keepsCaps_instr h (valueAct_legal _) _ _ _
  | .shr _ _ => keepsCaps_instr h (valueAct_legal _) _ _ _
  | .sar _ _ => keepsCaps_instr h (valueAct_legal _) _ _ _
  | .rol _ _ => keepsCaps_instr h (valueAct_legal _) _ _ _
  | .cmp _ _ => keepsCaps_instr h (valueAct_legal _) _ _ _
  | .seq _ _ => keepsCaps_instr h (valueAct_legal _) _ _ _
  | .slt _ _ => keepsCaps_instr h (valueAct_legal _) _ _ _
  | .sltu _ _ => keepsCaps_instr h (valueAct_legal _) _ _ _
  | .tlbiMemory _ _ => keepsCaps_instr h portTlbi_legal _ _ _
  | .tlbiAll _ _ _ => keepsCaps_instr h portTlbi_legal _ _ _
  | .tlbiTag _ _ _ _ => keepsCaps_instr h portTlbi_legal _ _ _
  | .mul _ _ => keepsCaps_instr h (valueAct_legal _) _ _ _
  | .mulu _ _ => keepsCaps_instr h (valueAct_legal _) _ _ _
  | .div _ _ => keepsCaps_instr h (trapAct_legal _) _ _ _
  | .divu _ _ => keepsCaps_instr h (trapAct_legal _) _ _ _
  | .dadd _ _ => keepsCaps_instr h (trapAct_legal _) _ _ _
  | .dsub _ _ => keepsCaps_instr h (trapAct_legal _) _ _ _
  | .dchk _ _ => keepsCaps_instr h (trapAct_legal _) _ _ _
  | .fadd _ _ => keepsCaps_instr h (trapAct_legal _) _ _ _
  | .fsub _ _ => keepsCaps_instr h (trapAct_legal _) _ _ _
  | .fmul _ _ => keepsCaps_instr h (trapAct_legal _) _ _ _
  | .fdiv _ _ => keepsCaps_instr h (trapAct_legal _) _ _ _
  | .fcmp _ _ => keepsCaps_instr h (trapAct_legal _) _ _ _
  | .ftoi _ _ => keepsCaps_instr h (trapAct_legal _) _ _ _
  | .itof _ _ => keepsCaps_instr h (trapAct_legal _) _ _ _
  | .utof _ _ => keepsCaps_instr h (trapAct_legal _) _ _ _
  | .fint _ _ => keepsCaps_instr h (trapAct_legal _) _ _ _
  | .sta _ _ => keepsCaps_instr h (portStore_legal _) _ _ _
  | .stx1 _ _ => keepsCaps_instr h (portStore_legal _) _ _ _
  | .stx2 _ _ => keepsCaps_instr h (portStore_legal _) _ _ _
  | .ldd _ _ => keepsCaps_instr h portLdd_legal _ _ _
  | .std _ _ => keepsCaps_instr h portStd_legal _ _ _
  | .xadd _ _ => keepsCaps_instr h (portAtomic_legal _) _ _ _
  | .xswp _ _ => keepsCaps_instr h (portAtomic_legal _) _ _ _
  | .ldn _ _ => keepsCaps_instr h portLdn_legal _ _ _
  | .stn _ _ => keepsCaps_instr h portStn_legal _ _ _
  | .jmp _ _ => keepsCaps_instr h (portBranch_legal _ _) _ _ _
  | .jmpr _ _ => keepsCaps_instr h (portBranch_legal _ _) _ _ _
  | .call _ _ => keepsCaps_instr h (portBranch_legal _ _) _ _ _
  | .callr _ _ => keepsCaps_instr h (portBranch_legal _ _) _ _ _
  | .loop _ _ => keepsCaps_instr h portLoop_legal _ _ _
  | .trap _ _ => keepsCaps_instr h portTrap_legal _ _ _
  | .rtt _ _ => keepsCaps_instr h portRtt_legal _ _ _
  | .sri _ _ => keepsCaps_instr h (valueAct_legal _) _ _ _
  | .srv _ _ => keepsCaps_instr h portSrv_legal _ _ _
  | .movs _ _ => keepsCaps_instr h (portMovs_legal _) _ _ _
  | .fills _ _ => keepsCaps_instr h (portFills_legal _) _ _ _
  | .dadds _ _ => keepsCaps_instr h (portDecStr_legal _ _) _ _ _
  | .dsubs _ _ => keepsCaps_instr h (portDecStr_legal _ _) _ _ _
  | .cmps _ _ => keepsCaps_instr h (portCmps_legal _) _ _ _
  | .xlts _ _ => keepsCaps_instr h (portXlts_legal _) _ _ _
  | .bond _ _ => keepsCaps_instr h portBond_legal _ _ _
  | .sync _ _ => keepsCaps_instr h portSync_legal _ _ _
  | .longOperationDelivery _ => keepsCaps_of_pw h (by simp)
  | .storeBufferDrain _ => execStoreBufferDrain_keepsCaps h _
  | .exceptionEntry _ => execExceptionEntry_keepsCaps h _
  | .coreTimerWrite _ _ => execCoreTimerWrite_keepsCaps h _ _
  | .coreTimerExpiry _ => keepsCaps_of_pw h (by simp)
  | .instructionCacheFill _ _ => keepsCaps_of_pw h (by simp)
  | .prIcCtlInv _ => keepsCaps_of_pw h (by simp)
  | .tableWalk _ _ _ _ => execTableWalk_keepsCaps h _ _ _ _
  | .coreRelease _ => keepsCaps_of_pw h (by simp)
  | .runStart _ => keepsCaps_of_pw h (by simp)
  | .loadStreamerFire _ _ => keepsCaps_of_pw h (by simp)
  | .jointGroupAdvance _ _ => keepsCaps_of_pw h (by simp)
  | .storeCommit _ _ => keepsCaps_of_pw h (by simp)
  | .iaFire _ _ => keepsCaps_of_pw h (by simp)
  | .mcFire _ _ => keepsCaps_of_pw h (by simp)
  | .dcFire _ => keepsCaps_of_pw h (by simp)
  | .fpFire _ => keepsCaps_of_pw h (by simp)
  | .rdFire _ => keepsCaps_of_pw h (by simp)
  | .cyFire _ => keepsCaps_of_pw h (by simp)
  | .ixFire _ => keepsCaps_of_pw h (by simp)
  | .slFire _ => keepsCaps_of_pw h (by simp)
  | .kf0Lookup _ => keepsCaps_of_pw h (by simp)
  | .au0Record _ _ => execAu0Record_keepsCaps h _ _
  | .montTile _ => keepsCaps_of_pw h (by simp)
  | .ecpTile _ => keepsCaps_of_pw h (by simp)
  | .aesFire _ => keepsCaps_of_pw h (by simp)
  | .tdesFire _ => keepsCaps_of_pw h (by simp)
  | .hashSegment _ => keepsCaps_of_pw h (by simp)
  | .xlatFire _ => keepsCaps_of_pw h (by simp)
  | .prRunCtlAbort _ _ => State.runCtl_keepsCaps h _ _
  | .prRunCtlAckr _ _ => State.runCtl_keepsCaps h _ _
  | .prRunCtlAckf _ _ => State.runCtl_keepsCaps h _ _
  | .prRunCtlClrovf _ _ => State.runCtl_keepsCaps h _ _
  | .prBankOwnWrite _ _ _ => keepsCaps_of_pw h (by simp)
  | .bankScourEnd _ _ => keepsCaps_of_pw h (by simp)
  | .prBankRetireWrite _ _ => keepsCaps_of_pw h (by simp)
  | .bankRetentionEntry _ _ => keepsCaps_of_pw h (by simp)
  | .bankWake _ _ => keepsCaps_of_pw h (by simp)
  | .bankLockStart _ => keepsCaps_of_pw h (by simp)
  | .bankLockTimeout _ => keepsCaps_of_pw h (by simp)
  | .correctionWriteBack _ _ => keepsCaps_of_pw h (by simp)
  | .quarryReadCompletion _ _ _ => keepsCaps_of_pw h (by simp)
  | .mergeBufferWriteOut _ _ => keepsCaps_of_pw h (by simp)
  | .rawWrite _ _ => keepsCaps_of_pw h (by simp)
  | .rawRead _ _ => keepsCaps_of_pw h (by simp)
  | .decodedRead _ _ => keepsCaps_of_pw h (by simp)
  | .pointingRead _ _ => keepsCaps_of_pw h (by simp)
  | .pointingLapOverdue _ _ => keepsCaps_of_pw h (by simp)
  | .hbmRefresh _ => keepsCaps_of_pw h (by simp)
  | .phyRetraining _ => keepsCaps_of_pw h (by simp)
  | .sensorCalibration => keepsCaps_of_pw h (by simp)
  | .wearLevellingErase _ _ => execWearLevellingErase_keepsCaps h _ _
  | .prTlbiAll _ _ => keepsCaps_of_pw h (by simp)
  | .prTlbiTag _ _ => keepsCaps_of_pw h (by simp)
  | .prHodPost _ _ => keepsCaps_of_pw h (by simp)
  | .prHodCtlSusp _ _ => keepsCaps_of_pw h (by simp)
  | .prHodCtlResume _ _ => keepsCaps_of_pw h (by simp)
  | .hodTicketStart _ => keepsCaps_of_pw h (by simp)
  | .hodSegmentDone _ _ => keepsCaps_of_pw h (by simp)
  | .sqtailWrite _ _ _ => keepsCaps_of_pw h (by simp)
  | .cqheadWrite _ _ _ => keepsCaps_of_pw h (by simp)
  | .ringEnableWrite _ _ _ => keepsCaps_of_pw h (by simp)
  | .ferrClear _ _ _ => keepsCaps_of_pw h (by simp)
  | .entryFetch => execEntryFetch_keepsCaps h
  | .entryArrival _ _ _ _ _ => keepsCaps_of_pw h (by simp)
  | .itemResultWrite _ => execItemResultWrite_keepsCaps h _
  | .auditRecordWrite _ => keepsCaps_of_pw h (by simp)
  | .auditRingFullNotice => execAuditRingFullNotice_keepsCaps h
  | .completionWrite _ => execCompletionWrite_keepsCaps h _
  | .coalescingTimerExpiry _ _ => keepsCaps_of_pw h (by simp)
  | .msixTableAccess _ _ => execMsixTableAccess_keepsCaps h _ _
  | .flr _ => keepsCaps_of_pw h (by simp)
  | .flrItemStop _ => execFlrItemStop_keepsCaps h _
  | .vfEnableClear => keepsCaps_of_pw h (by simp)
  | .perstNAssert => keepsCaps_of_pw h (by simp)
  | .perstNRelease => keepsCaps_of_pw h (by simp)
  | .hotReset => keepsCaps_of_pw h (by simp)
  | .linkDown => keepsCaps_of_pw h (by simp)
  | .d3hotEntry _ => keepsCaps_of_pw h (by simp)
  | .d0Entry _ => keepsCaps_of_pw h (by simp)
  | .spdmRequest _ => keepsCaps_of_pw h (by simp)
  | .ideIntegrityFailure _ => execIdeIntegrityFailure_keepsCaps h _
  | .ptmTimingUpdate _ => keepsCaps_of_pw h (by simp)
  | .getState inst payload => execGetState_keepsCaps h inst payload
  | .lowerCap inst payload => execLowerCap_keepsCaps h inst payload
  | .stewardKekComponent inst payload => execStewardKekComponent_keepsCaps h inst payload
  | .stewardHalt inst payload => execStewardHalt_keepsCaps h inst payload
  | .setdasa _ _ => keepsCaps_of_pw h (by simp)
  | .entdaa _ => keepsCaps_of_pw h (by simp)
  | .bypass => keepsCaps_of_pw h (by simp)
  | .idcode => keepsCaps_of_pw h (by simp)
  | .samplePreload _ => keepsCaps_of_pw h (by simp)
  | .extest => keepsCaps_of_pw h (by simp)
  | .memoryBist => keepsCaps_of_pw h (by simp)
  | .trstNAssert => keepsCaps_of_pw h (by simp)
  | .batchWindowExpiry _ => execBatchWindowExpiry_keepsCaps h _
  | .deadlineHintExpiry _ => execDeadlineHintExpiry_keepsCaps h _
  | .batchAging _ => keepsCaps_of_pw h (by simp)
  | .batchPlacement => execBatchPlacement_keepsCaps h
  | .batchEnd _ => execBatchEnd_keepsCaps h _
  | .pierSleepTimer _ => keepsCaps_of_pw h (by simp)
  | .pierOffTimer _ => keepsCaps_of_pw h (by simp)
  | .pierThinDelayExpiry _ => keepsCaps_of_pw h (by simp)
  | .preemptAckSuspended _ => keepsCaps_of_pw h (by simp)
  | .preemptAckEnded _ => keepsCaps_of_pw h (by simp)
  | .preemptTimeout _ => keepsCaps_of_pw h (by simp)
  | .migrationLeafMove _ _ _ _ => execMigrationLeafMove_keepsCaps h _ _ _ _
  | .echo _ _ => execEcho_keepsCaps h _ _
  | .signEcdsa _ _ => keepsCaps_of_pw h (by simp)
  | .verifyEcdsa _ _ => keepsCaps_of_pw h (by simp)
  | .signEddsa _ _ => keepsCaps_of_pw h (by simp)
  | .verifyEddsa _ _ => keepsCaps_of_pw h (by simp)
  | .signRsa _ _ => execSignRsa_keepsCaps h _ _
  | .verifyRsa _ _ => keepsCaps_of_pw h (by simp)
  | .pinTranslate _ _ => keepsCaps_of_pw h (by simp)
  | .macGenerate _ _ => keepsCaps_of_pw h (by simp)
  | .macVerify _ _ => keepsCaps_of_pw h (by simp)
  | .arqcVerify _ _ => keepsCaps_of_pw h (by simp)
  | .hash _ _ => keepsCaps_of_pw h (by simp)
  | .msgTranslate _ _ => execMsgTranslate_keepsCaps h _ _
  | .keyImport _ _ => execKeyImport_keepsCaps h _ _
  | .keyExport _ _ => execKeyExport_keepsCaps h _ _
  | .keyGenerate _ _ => execKeyGenerate_keepsCaps h _ _
  | .keyDerive _ _ => execKeyDerive_keepsCaps h _ _
  | .keyDestroy _ _ => execKeyDestroy_keepsCaps h _ _
  | .keyInfo _ _ => execKeyInfo_keepsCaps h _ _
  | .keyStoreLogProgram _ => execKeyStoreLogProgram_keepsCaps h _
  | .sessionOpen _ _ => execSessionOpen_keepsCaps h _ _
  | .sessionClose _ _ => execSessionClose_keepsCaps h _ _
  | .runProgram _ _ => execRunProgram_keepsCaps h _ _
  | .programStepLimit _ => execProgramStepLimit_keepsCaps h _
  | .loadProgram _ _ => execLoadProgram_keepsCaps h _ _
  | .defineCourse _ _ => execDefineCourse_keepsCaps h _ _
  | .auditAttest _ _ => execAuditAttest_keepsCaps h _ _
  | .sealNow _ _ => execSealNow_keepsCaps h _ _
  | .partCreate _ _ => execPartCreate_keepsCaps h _ _
  | .partDestroy _ _ => execPartDestroy_keepsCaps h _ _
  | .kekComponent _ _ => execKekComponent_keepsCaps h _ _
  | .componentExpired _ => keepsCaps_of_pw h (by simp)
  | .setTime _ _ => execSetTime_keepsCaps h _ _
  | .setState _ _ => execSetState_keepsCaps h _ _
  | .provision _ _ => execProvision_keepsCaps h _ _
  | .setCert _ _ => execSetCert_keepsCaps h _ _
  | .setReentry _ _ => execSetReentry_keepsCaps h _ _
  | .wardRequest _ _ => execWardRequest_keepsCaps h _ _
  | .wardAdmit _ _ => execWardAdmit_keepsCaps h _ _
  | .wardJoin _ _ => execWardJoin_keepsCaps h _ _
  | .wardLeave _ _ => execWardLeave_keepsCaps h _ _
  | .wardExport _ _ => execWardExport_keepsCaps h _ _
  | .wardImport _ _ => execWardImport_keepsCaps h _ _
  | .sealDue => keepsCaps_of_pw h (by simp)
  | .sealForm => keepsCaps_of_pw h (by simp)
  | .sealWrite => execSealWrite_keepsCaps h
  | .sealPersist _ => execSealPersist_keepsCaps h _
  | .pwrfailNAssert _ => keepsCaps_of_pw h (by simp)
  | .headsFreeze => keepsCaps_of_pw h (by simp)
  | .finalSealForm => keepsCaps_of_pw h (by simp)
  | .finalSealProgram _ => execFinalSealProgram_keepsCaps h _
  | .zeroizeNAssert _ => keepsCaps_of_pw h (by simp)
  | .zcntFuseProgram => keepsCaps_of_pw h (by simp)
  | .zeroizeMemoryClear => keepsCaps_of_pw h (by simp)
  | .keyStoreErase => keepsCaps_of_pw h (by simp)
  | .thermtrip => keepsCaps_of_pw h (by simp)
  | .porNAssert _ => execPorNAssert_keepsCaps h _
  | .porNRelease _ => keepsCaps_of_pw h (by simp)
  | .frontagePllLock => execFrontagePllLock_keepsCaps h
  | .firmwareImageVerify => execFirmwareImageVerify_keepsCaps h
  | .keystoneLoad => execKeystoneLoad_keepsCaps h
  | .pierMemoryFill _ _ => execPierMemoryFill_keepsCaps h _ _
  | .evoariStart => execEvoariStart_keepsCaps h
  | .deviceTablesWritten => execDeviceTablesWritten_keepsCaps h
  | .sealsProcessed => execSealsProcessed_keepsCaps h
  | .readyAssert => execReadyAssert_keepsCaps h
  | .frResetWarm _ => keepsCaps_answer (Dev.frResetWrite_legal h ..)
  | .faultDetection _ => keepsCaps_of_pw h (by simp)
  | .perPierReset _ => execPerPierReset_keepsCaps h _
  | .perPierResetComplete _ => execPerPierResetComplete_keepsCaps h _
  | .reactionShadowEnd _ => execReactionShadowEnd_keepsCaps h _
  | .containQuietPeriodExpiry _ => execContainQuietPeriodExpiry_keepsCaps h _
  | .holdQuietPeriodExpiry _ => keepsCaps_of_pw h (by simp)
  | .recordCloseTimer _ => keepsCaps_of_pw h (by simp)
  | .fcRestoreWrite _ => keepsCaps_of_pw h (by simp)
  | .clogEntryFree _ _ _ => keepsCaps_of_pw h (by simp)
  | .retirementAction _ _ => execRetirementAction_keepsCaps h _ _
  | .telemetryPeriod => keepsCaps_of_pw h (by simp)
  | .temperatureSample _ => execTemperatureSample_keepsCaps h _
  | .pwBudgetWrite _ _ => keepsCaps_answer (Dev.writeBudget_legal h ..)
  | .pwPierRst _ _ _ => keepsCaps_answer (Dev.writeRst_legal h ..)
  | .pwPierTargetWrite _ _ _ => keepsCaps_answer (Dev.writeTarget_legal h ..)
  | .pierRaise => execPierRaise_keepsCaps h
  | .frequencyChangeEnd _ => execFrequencyChangeEnd_keepsCaps h _
  | .pierWakeComplete _ => execPierWakeComplete_keepsCaps h _
  | .laneRampEnd _ => keepsCaps_of_pw h (by simp)
  | .idleDrop _ => keepsCaps_of_pw h (by simp)
  | .registerWrite _ => execRegisterWrite_keepsCaps h _
  | .completionTimeout _ => execCompletionTimeout_keepsCaps h _
  | .configurationRequest _ _ => keepsCaps_of_pw h (by simp)
  | .linkUp => keepsCaps_of_pw h (by simp)
  | .railOutOfTolerance _ => execRailOutOfTolerance_keepsCaps _
  | .fallOfNow _ _ => execFallOfNow_keepsCaps h _ _
  | .minrunExpiry _ => execMinrunExpiry_keepsCaps h _
  | .unknownCommand code inst payload => execUnknownCommand_keepsCaps h code inst payload

/-- Settles O60: every command, and the tick that an empty queue runs, keeps both caps in their range. -/
theorem capsStayLegal : Obligations.CapsStayLegal := by
  unfold Obligations.CapsStayLegal
  intro s t h ht
  have hl : s.dev.pw.Legal := h
  unfold step at ht
  split at ht
  · cases ht
    show s.dev.tick.pw.Legal
    rwa [Dev.tick_pw]
  · next i rest _ => exact exec_keepsCaps (s := { s with pending := rest }) hl i t ht

end Sys2Proof.Machine
end

section
/-! The anti-replay window of a session (O35): when a sequence number moves the window, fills a place of it, or is refused. -/

namespace Sys2Proof.Machine
open Sys2Proof

variable {x : Session} {n : Nat}

/-- What the window keeps of the numbers below, once it stands `j` places higher (R343). -/
def windowShift (w : BitVec 256) (j : Nat) : BitVec 256 := if j < 256 then w <<< j else 0

theorem replayJudge_max (h : x.h.toNat = 2 ^ 48 - 1) : replayJudge x n = none := if_pos h

theorem replayJudge_above (hm : x.h.toNat ≠ 2 ^ 48 - 1) (h : x.h.toNat < n) :
    replayJudge x n = some { x with h := BitVec.ofNat 48 n, w := windowShift x.w (n - x.h.toNat) ||| 1 } :=
  (if_neg hm).trans (if_pos h)

theorem replayJudge_within (hm : x.h.toNat ≠ 2 ^ 48 - 1) (h : n ≤ x.h.toNat) (hw : x.h.toNat - n ≤ 255)
    (hb : x.w.getLsbD (x.h.toNat - n) = false) :
    replayJudge x n = some { x with w := x.w ||| (1 <<< (x.h.toNat - n)) } :=
  (if_neg hm).trans ((if_neg (Nat.not_lt.2 h)).trans (if_pos (by simp [hw, hb])))

theorem replayJudge_refused (h : n ≤ x.h.toNat) (hb : 255 < x.h.toNat - n ∨ x.w.getLsbD (x.h.toNat - n) = true) :
    replayJudge x n = none := by
  by_cases hm : x.h.toNat = 2 ^ 48 - 1
  · exact replayJudge_max hm
  · refine (if_neg hm).trans ((if_neg (Nat.not_lt.2 h)).trans (if_neg ?_))
    rcases hb with hb | hb
    · simp [Nat.not_le.2 hb]
    · simp [hb]

theorem getLsbD_windowShift (w : BitVec 256) (j k : Nat) (hk : k < 256) :
    (windowShift w j ||| 1).getLsbD k = (decide (k = 0) || (decide (j ≤ k) && w.getLsbD (k - j))) := by
  unfold windowShift
  rcases Nat.lt_or_ge j 256 with hj | hj
  · rw [if_pos hj]
    by_cases hjk : j ≤ k
    · simp [hk, hjk, Nat.not_lt.2 hjk, Nat.lt_of_le_of_lt (Nat.sub_le k j) hk, Bool.or_comm]
    · simp [hjk, BitVec.getLsbD_one, Nat.lt_of_not_le hjk]
  · simp [BitVec.getLsbD_one, Nat.not_lt.2 hj, Nat.not_le.2 (Nat.lt_of_lt_of_le hk hj)]

theorem getLsbD_or_place (w : BitVec 256) (j k : Nat) (hk : k < 256) :
    (w ||| ((1 <<< j : Nat) : BitVec 256)).getLsbD k = (w.getLsbD k || decide (k = j)) := by
  rw [BitVec.getLsbD_or, BitVec.natCast_eq_ofNat, BitVec.getLsbD_ofNat, Nat.one_shiftLeft, Nat.testBit_two_pow]
  simp [hk, eq_comm]

/-- A number that the window accepted is refused from then on (R343). -/
theorem replayJudge_accepted {y : Session} (hn : n < 2 ^ 48) (h : replayJudge x n = some y) : replayJudge y n = none := by
  by_cases hm : x.h.toNat = 2 ^ 48 - 1
  · cases (replayJudge_max hm).symm.trans h
  · rcases Nat.lt_or_ge x.h.toNat n with hlt | hle
    · cases (replayJudge_above hm hlt).symm.trans h
      have hy : (BitVec.ofNat 48 n).toNat = n := Nat.mod_eq_of_lt hn
      refine replayJudge_refused (Nat.le_of_eq hy.symm) (Or.inr ?_)
      rw [hy, Nat.sub_self, getLsbD_windowShift _ _ 0 (by decide)]
      rfl
    · by_cases hw : 255 < x.h.toNat - n ∨ x.w.getLsbD (x.h.toNat - n) = true
      · cases (replayJudge_refused hle hw).symm.trans h
      · rw [not_or, Nat.not_lt, Bool.not_eq_true] at hw
        cases (replayJudge_within hm hle hw.1 hw.2).symm.trans h
        refine replayJudge_refused hle (Or.inr ?_)
        rw [getLsbD_or_place _ _ _ (Nat.lt_succ_of_le hw.1)]
        simp

/-- Settles O35: by where `n` lies, above the window, in a free place of it, or in a taken place or below. -/
theorem sequenceNumbersAreJudged : Obligations.SequenceNumbersAreJudged := by
  unfold Obligations.SequenceNumbersAreJudged
  refine ⟨fun x n hn => ⟨replayJudge_max, fun hm h => ?_, fun hm h hw hb => ?_, replayJudge_refused,
    fun y => replayJudge_accepted hn⟩, fun i q m => ⟨rfl, rfl, ?_⟩⟩
  · exact ⟨_, replayJudge_above hm h, Nat.mod_eq_of_lt hn, rfl, getLsbD_windowShift _ _⟩
  · exact ⟨_, replayJudge_within hm h hw hb, rfl, rfl, getLsbD_or_place _ _⟩
  · exact replayJudge_refused (Nat.zero_le _) (Or.inr (show (1#256).getLsbD 0 = true from rfl))

end Sys2Proof.Machine
end

section
/-! The checker's window (O31): its commands in TEST on a bank that it owns, and what refuses it elsewhere (R459). -/

namespace Sys2Proof.Machine
open Sys2Proof

/-! ### A bank settled for the checker -/

theorem unlockBank_kept (P : Pier) (b : Fin 16) :
    (unlockBank P b).regs = P.regs ∧ (unlockBank P b).mem.banks = P.mem.banks := by
  unfold unlockBank
  extract_lets core mem Q
  have hQ : Q.regs = P.regs ∧ Q.mem.banks = P.mem.banks := by
    unfold Q
    split <;> exact ⟨rfl, rfl⟩
  clear_value Q
  split <;> exact hQ

theorem scourEnd_regs (P : Pier) (b : Fin 16) : (scourEnd P b).regs = P.regs := rfl

theorem settleBank_regs (P : Pier) (now : Nat) (b : Fin 16) : (settleBank P now b).regs = P.regs := by
  unfold settleBank
  extract_lets Q R
  have hR : R.regs = Q.regs := by
    unfold R
    split
    · exact (unlockBank_kept Q b).1
    · rfl
  have hQ : Q.regs = P.regs := by
    unfold Q
    split <;> rfl
  exact hR.trans hQ

theorem settleBank_banks {P : Pier} {b : Fin 16} (h : P.mem.bank[b].scour = false) (now : Nat) :
    (settleBank P now b).mem.banks = P.mem.banks := by
  unfold settleBank
  rw [h]
  extract_lets Q R
  show R.mem.banks = P.mem.banks
  unfold R
  split
  · exact (unlockBank_kept Q b).2
  · rfl

/-! ### The commands on a pier -/

/-- The code of PR_CHK_D1.RES for a word as it decodes (R459). -/
def chkResult : EccRead → BitVec 3
  | .clean => 0
  | .corrected => 1
  | .poison => 2
  | .uncorrectable => 3

/-- The pier with the word of a decoded read in the data registers, where the read gives one. -/
def chkRead (fr : Nat) : MemRes Word → Pier
  | .ok w P => chkLoad P w
  | .held P => P
  | .bus _ P => P
  | .rubble P => chkLoad P (Config.free 36 fr)

variable {P : Pier} {now fr : Nat}

theorem chkCommand_refused (h : P.mem.bank[bankOf P.regs.chkAddr.toNat].owner ≠ 65#7) (op : Nat) :
    chkCommand P now fr op = chkRefuse P := if_pos h

theorem bankFetch_of_clean {m : Master} {a : Nat} {w : Word} (h : eccDecode (P.mem.banks.get a) = (.clean, w)) :
    bankFetch P m a = .ok w P := by
  simp [bankFetch, h]

section Owned

variable (h : P.mem.bank[bankOf P.regs.chkAddr.toNat].owner = 65#7)
include h

theorem chkCommand_rawWrite : chkCommand P now fr 1 =
    let S := settleBank P now (bankOf P.regs.chkAddr.toNat)
    chkDoneP (bankStore S P.regs.chkAddr.toNat (S.regs.chkChk ++ S.regs.chkD1 ++ S.regs.chkD0)) :=
  if_neg (not_not_intro h)

theorem chkCommand_rawRead : chkCommand P now fr 2 =
    let S := settleBank P now (bankOf P.regs.chkAddr.toNat)
    let c := S.mem.banks.get P.regs.chkAddr.toNat
    chkDoneP (chkLoad { S with regs := { S.regs with chkChk := c.extractLsb' 36 7 } } (c.extractLsb' 0 36)) :=
  if_neg (not_not_intro h)

theorem chkCommand_decodedRead : chkCommand P now fr 3 =
    let S := settleBank P now (bankOf P.regs.chkAddr.toNat)
    let Q := chkRead fr (bankFetch S .checker P.regs.chkAddr.toNat)
    chkDoneP { Q with regs := { Q.regs with chkRes := chkResult (eccDecode (S.mem.banks.get P.regs.chkAddr.toNat)).1 } } :=
  if_neg (not_not_intro h)

end Owned

/-! ### The commands of the device -/

variable {d : Dev} {p : Fin 16}

theorem Dev.checker_of_test (hr : d.reachable p = true) (ht : d.life.op = .test) (op : Nat) :
    d.checker p .host op = (d.onPier p fun P => chkCommand P d.now d.fresh op).used := by
  unfold Dev.checker
  rw [if_neg (by simp), if_neg (by simp [ht])]
  exact congrArg Dev.used (Dev.onReg_of_reachable _ hr)

theorem Dev.checker_of_not_test (ht : d.life.op ≠ .test) (op : Nat) : d.checker p .host op = d.onReg p chkRefuse := by
  unfold Dev.checker
  rw [if_neg (by simp), if_pos ht]

theorem Dev.checker_of_other {a : Agent} (ha : a ≠ .host) (op : Nat) : d.checker p a op = d := if_pos ha

/-- The three commands of the window are the accesses 1, 2 and 3 of an agent. -/
theorem exec_checker {i : Instr} {a : Agent} (h : i = .rawWrite p a ∨ i = .rawRead p a ∨ i = .decodedRead p a) (s : State) :
    ∃ op, exec i s = s.answer (s.dev.checker p a op) := by
  rcases h with rfl | rfl | rfl
  exacts [⟨1, rfl⟩, ⟨2, rfl⟩, ⟨3, rfl⟩]

theorem pier_checker (hr : d.reachable p = true) (ht : d.life.op = .test) (op : Nat) :
    (d.checker p .host op).pier p = chkCommand (d.pier p) d.now d.fresh op := by
  rw [Dev.checker_of_test hr ht]
  exact (Dev.pier_used ..).trans (Dev.pier_onPier_self d p _)

theorem answersWith_checker {i : Instr} {s : State} {op : Nat} {Q : Dev → Prop}
    (hx : exec i s = s.answer (s.dev.checker p .host op)) (h : Q (s.dev.checker p .host op)) : AnswersWith i s Q :=
  ⟨_, hx, rfl, h⟩

/-- Settles O31: each command by its equation, and the two refusals and the other agents by theirs. -/
theorem checkerWindow : Obligations.CheckerWindow := by
  unfold Obligations.CheckerWindow
  intro p s P a hr
  refine ⟨fun ht ho hs hw => ⟨?_, ?_, fun w he => ?_⟩, fun i hi ht => ?_, fun i hi ht ho => ?_, fun r w he ht ho hs => ?_,
    fun i by_ ha hi => ?_⟩
  · refine answersWith_checker rfl ?_
    rw [pier_checker hr ht, chkCommand_rawWrite ho]
    refine ⟨?_, fun x hx => ?_, ?_⟩
    · exact (SMem.get_set_self _ _ (by rwa [settleBank_banks hs])).trans (by rw [settleBank_regs])
    · exact (SMem.get_set_of_ne _ _ hx).trans (by rw [settleBank_banks hs])
    · simp [chkDoneP, bankStore, settleBank_regs, P]
  · refine answersWith_checker rfl ?_
    rw [pier_checker hr ht, chkCommand_rawRead ho]
    exact ⟨by simp [chkDoneP, chkLoad, settleBank_regs, settleBank_banks hs, P, a], settleBank_banks hs _⟩
  · refine answersWith_checker rfl ?_
    rw [pier_checker hr ht, chkCommand_decodedRead ho]
    have hb : eccDecode ((settleBank P s.dev.now (bankOf a)).mem.banks.get a) = (.clean, w) := by rw [settleBank_banks hs, he]
    have hf := bankFetch_of_clean (m := .checker) hb
    dsimp only [a, P] at hb hf ⊢
    rw [hf, hb]
    simp [chkRead, chkDoneP, chkLoad, chkResult, settleBank_regs]
  · obtain ⟨op, hx⟩ := exec_checker hi s
    rw [Dev.checker_of_not_test ht] at hx
    exact answers_onReg hx hr
  · obtain ⟨op, hx⟩ := exec_checker hi s
    refine answersWith_checker hx ⟨?_, fun q hq => ?_⟩
    · rw [pier_checker hr ht, chkCommand_refused ho]
      rfl
    · rw [Dev.checker_of_test hr ht]
      exact (Dev.pier_used ..).trans (Dev.pier_onPier_of_ne s.dev _ hq)
  · refine answersWith_checker rfl ?_
    rw [pier_checker hr ht, chkCommand_decodedRead ho]
    refine ⟨rfl, rfl, ?_⟩
    show chkResult (eccDecode ((settleBank P s.dev.now (bankOf a)).mem.banks.get a)).1 = _
    rw [settleBank_banks hs, he]
    rfl
  · obtain ⟨op, hx⟩ := exec_checker hi s
    rw [Dev.checker_of_other ha] at hx
    exact hx

end Sys2Proof.Machine
end

section
/-! The zeroize sequence (O51). -/

namespace Sys2Proof.Machine
open Sys2Proof

variable {d : Dev} {s : State}

/-! ### Zeroize (R439) -/

/-- The device that has seen ZEROIZE_N low. -/
def Dev.zeroLowered (d : Dev) : Dev := { d with life := { d.life with zeroLow := true } }

/-- The device that a zeroize leaves at once, before its entry in the fault stream. -/
def Dev.zeroized (d : Dev) (decom : Bool) : Dev :=
  { d.abandonFetches.dropAll.allPiers (fun P => { P with runs := P.runs.zeroize }) with
    ks := { zeroized := true }
    board := { d.board with ready := false, alert := true }
    life := { d.life with life := 4#3, zero := .cleared, decom := decom, testWait := none, destroying := none } }

theorem Dev.zeroizeStart_eq (h : d.life.zero = .none) (b : Bool) :
    d.zeroizeStart b = (d.zeroized b).fcEntry 4 (bytesOf [min 8 (d.life.zcnt + 1)]) :=
  if_neg (not_not_intro h)

theorem Dev.zeroizeStart_of_running (h : d.life.zero ≠ .none) (b : Bool) : d.zeroizeStart b = d := if_pos h

theorem zeroizeNAssert_short {n : Nat} (h : n < 2 ∨ s.dev.board.porLow = true) : Answers (.zeroizeNAssert n) s s.dev :=
  congrArg s.answer (if_pos (by simpa using h))

theorem zeroizeNAssert_low {n : Nat} (hn : 2 ≤ n) (hp : s.dev.board.porLow = false) :
    Answers (.zeroizeNAssert n) s (s.dev.zeroLowered.zeroizeStart false) :=
  congrArg s.answer (if_neg (by simp [Nat.not_lt.2 hn, hp]))

theorem Dev.pier_zeroized (d : Dev) (b : Bool) (p : Fin 16) :
    (d.zeroized b).pier p = { d.pier p with runs := (d.pier p).runs.zeroize } :=
  Dev.pier_allPiers d.abandonFetches.dropAll p fun P => { P with runs := P.runs.zeroize }

/-- What a step of start-up that counts the fuse of a low ZEROIZE_N waits for (R480). -/
def Dev.CountsFuse (d : Dev) : Prop :=
  d.life.zero = .none ∧ d.life.boot = .pll ∧ d.life.zeroLow = true ∧ d.life.warm = false ∧ d.life.pf = .none

theorem answers_zcntFuseProgram (s : State) : Answers .zcntFuseProgram s
    (if s.dev.life.zero = .cleared then
      { s.dev with life := { s.dev.life.fuse with zero := .fused, terminal := s.dev.life.terminal || s.dev.life.decom } }
    else if s.dev.life.zero = .none && s.dev.life.boot = .pll && s.dev.life.zeroLow && !s.dev.life.warm &&
        s.dev.life.pf = .none then
      { s.dev with life := { s.dev.life.fuse with zeroLow := false } }
    else s.dev) := rfl

theorem Dev.countsFuse_iff : (d.life.zero = .none && d.life.boot = .pll && d.life.zeroLow && !d.life.warm &&
    d.life.pf = .none) = true ↔ d.CountsFuse := by
  simp [Dev.CountsFuse, and_assoc]

/-- Settles O51: the four commands of the sequence, each in its turn and out of it. -/
theorem zeroizeSequence : Obligations.ZeroizeSequence := by
  unfold Obligations.ZeroizeSequence
  refine ⟨fun n s => zeroizeNAssert_short, fun n s hn hp hz => ?_, fun n s hn hp hz => ?_, fun s hz => ?_, fun s h3 => ?_,
    fun s hz h3 => ?_, fun s hz => ?_, fun s hz => ?_, fun s hz => ?_, fun s hz => ?_⟩
  · have ha := zeroizeNAssert_low hn hp
    rwa [Dev.zeroizeStart_of_running (d := s.dev.zeroLowered) hz] at ha
  · have ha := zeroizeNAssert_low hn hp
    rw [Dev.zeroizeStart_eq (d := s.dev.zeroLowered) hz] at ha
    obtain ⟨h, k, he, -⟩ := Dev.fcEntry_frame (s.dev.zeroLowered.zeroized false) 4
      (bytesOf [min 8 (s.dev.zeroLowered.life.zcnt + 1)])
    refine ⟨_, ha, rfl, ?_⟩
    rw [he]
    refine ⟨rfl, rfl, rfl, rfl, rfl, rfl, rfl, fun p => ?_, rfl⟩
    have hp := Dev.pier_zeroized s.dev.zeroLowered false p
    have hr := congrArg Pier.runs hp
    exact ⟨congrArg RunSt.keySlots hr, congrArg RunSt.stag hr, congrArg RunSt.exec hr, congrArg RunSt.acc hr,
      congrArg RunSt.au0 hr⟩
  · have ha := answers_zcntFuseProgram s
    rwa [if_pos hz] at ha
  · have ha := answers_zcntFuseProgram s
    rwa [if_neg (by simp [h3.1]), if_pos (Dev.countsFuse_iff.2 h3)] at ha
  · have ha := answers_zcntFuseProgram s
    rwa [if_neg hz, if_neg (mt Dev.countsFuse_iff.1 h3)] at ha
  · refine ⟨_, congrArg s.answer (if_pos hz), rfl, rfl, fun p => ?_⟩
    have hp := Dev.pier_allPiers { s.dev with life := { s.dev.life with zero := .zeroed } } p fun P =>
      { P with mem := { P.mem with banks := [], wback := [], quarry := [], merge := [] } }
    have hm := congrArg Pier.mem hp
    have hr := congrArg Pier.regs hp
    exact ⟨congrArg PierMem.banks hm, congrArg PierMem.quarry hm, congrArg PierMem.merge hm, hr⟩
  · exact congrArg s.answer (if_neg hz)
  · exact congrArg s.answer (if_pos hz)
  · exact congrArg s.answer (if_neg hz)

end Sys2Proof.Machine
end

section
/-! POR, supply violations and the warm reset (O52). -/

namespace Sys2Proof.Machine
open Sys2Proof

variable {d : Dev} {s : State}

theorem Dev.afterPor_por (d : Dev) : AfterPor d d.por := rfl

theorem Dev.afterPor_used_por (d : Dev) : AfterPor d d.used.por := rfl

/-! ### The warm reset (R478) -/

/-- A warm reset goes ahead: no power failure and no zeroize runs, and Evoari runs. -/
def Dev.MayWarm (d : Dev) : Prop := d.life.pf = .none ∧ d.life.zero = .none ∧ d.evoariRuns = true

/-- A warm reset seals first: no hard HALT, and the identity and every chain are there. -/
def Dev.SealsFirst (d : Dev) : Prop := d.fc.haltHard = false ∧ d.hasIdentity = true ∧ d.chainsUp = true

/-- The device that has persisted the newest of its seals. -/
def Dev.persistLast (d : Dev) : Dev :=
  { d with flash := (d.audit.seals.getLast?.map fun x => d.flash.putSeal x.bytes).getD d.flash }

/-- The device that has formed and persisted the seal of a warm reset, where it seals. -/
def Dev.warmSealed (d : Dev) : Dev :=
  if d.fc.haltHard || !d.hasIdentity || !d.chainsUp then d
  else (d.formSeal true).persistLast

theorem answers_frResetWarm (v : DW) (s : State) : Answers (.frResetWarm v) s
    (if !v.getLsbD 0 then s.dev
    else if v.extractLsb' 16 16 ≠ 0xA55A#16 then { s.dev with life := { s.dev.life with frErr := true } }
    else if s.dev.life.pf ≠ .none || s.dev.life.zero ≠ .none || !s.dev.evoariRuns then s.dev
    else s.dev.warmSealed.warmReset) := rfl

theorem Dev.notWarm_iff : (d.life.pf ≠ .none || d.life.zero ≠ .none || !d.evoariRuns) = true ↔ ¬ d.MayWarm := by
  simp only [Dev.MayWarm, Bool.or_eq_true, decide_eq_true_eq, Bool.not_eq_true', or_assoc, ← Bool.not_eq_true]
  tauto

theorem answers_frResetWarm_may {v : DW} (h0 : v.getLsbD 0 = true) (h1 : v.extractLsb' 16 16 = 0xA55A#16)
    (hm : s.dev.MayWarm) : Answers (.frResetWarm v) s s.dev.warmSealed.warmReset := by
  have ha := answers_frResetWarm v s
  rwa [if_neg (by simp [h0]), if_neg (not_not_intro h1), if_neg (mt Dev.notWarm_iff.1 (not_not_intro hm))] at ha

/-- What the seal of a warm reset leaves of the device. -/
theorem Dev.warmSealed_frame (d : Dev) : ∃ q ks a fl, d.warmSealed =
    { d with fc := { d.fc with detq := q }, ks := ks, audit := a, flash := fl } ∧ fl.keys = d.flash.keys ∧
    (d.SealsFirst → ∃ slot, (slot, d.sealBytes 1 (d.ks.epoch + 1) 0 d.heads) ∈ fl.seals) := by
  unfold Dev.warmSealed
  split
  · next h => exact ⟨d.fc.detq, d.ks, d.audit, d.flash, rfl, rfl, fun ⟨h1, h2, h3⟩ => by simp [h1, h2, h3] at h⟩
  · obtain ⟨q, he⟩ := d.formSeal_eq true
    refine ⟨q, (d.formSeal true).ks, (d.formSeal true).audit, d.flash.putSeal (d.sealBytes 1 (d.ks.epoch + 1) 0 d.heads), ?_,
      rfl, fun _ => ⟨_, Flash.mem_putSeal ..⟩⟩
    rw [Dev.persistLast, he]
    simp [Dev.sealsFormed]

theorem Dev.pier_warmReset (d : Dev) (p : Fin 16) : d.warmReset.pier p = (d.pier p).warmReset d.now := by
  simp [Dev.warmReset, Dev.pier]

/-- What the warm reset keeps and clears of a pier (R478). -/
theorem Dev.warmReset_pier_kept (d : Dev) (p : Fin 16) :
    (d.warmReset.pier p).mem.quarry = (d.pier p).mem.quarry ∧ (d.warmReset.pier p).mem.banks = [] ∧
    (d.warmReset.pier p).regs.retire = (d.pier p).regs.retire ∧ (d.warmReset.core (.pier p)).run = .reset := by
  show _ ∧ _ ∧ _ ∧ (d.warmReset.pier p).core.run = .reset
  rw [Dev.pier_warmReset]
  exact ⟨rfl, rfl, rfl, rfl⟩

/-- Settles O52: each reset by its equation; what the warm reset keeps is read off `warmReset` of the sealed device. -/
theorem resetsOfTheDevice : Obligations.ResetsOfTheDevice := by
  unfold Obligations.ResetsOfTheDevice
  refine ⟨fun n s hn => congrArg s.answer (if_pos hn), fun n s hn => ?_, fun n s h1 h2 => ?_, fun e s he => ?_,
    fun e s he => if_pos he, fun s => rfl, fun v s h0 => ?_, fun v s h0 h1 => ?_, fun v s hw hm => ?_, fun v s hw hm => ?_⟩
  · exact ⟨_, congrArg s.answer ((if_neg (Nat.not_lt.2 (by omega))).trans (if_pos hn)), rfl, s.dev.afterPor_por⟩
  · refine ⟨_, congrArg s.answer ((if_neg (Nat.not_lt.2 h1)).trans (if_neg (Nat.not_le.2 h2))), rfl, ?_⟩
    by_cases hf : (s.dev.free 1).getLsbD 0 = true
    · exact .inl (by rw [if_pos hf]; exact s.dev.afterPor_used_por)
    · exact .inr (if_neg hf)
  · exact ⟨_, if_neg (by simp [he]), rfl, s.dev.afterPor_por⟩
  · have ha := answers_frResetWarm v s
    rwa [if_pos (by rw [h0]; rfl)] at ha
  · have ha := answers_frResetWarm v s
    rwa [if_neg (by simp [h0]), if_pos h1] at ha
  · have ha := answers_frResetWarm v s
    rwa [if_neg (by simp [hw.1]), if_neg (not_not_intro hw.2),
      if_pos (Dev.notWarm_iff.2 hm)] at ha
  · obtain ⟨q, ks, a, fl, he, hk, hs⟩ := s.dev.warmSealed_frame
    refine ⟨_, answers_frResetWarm_may hw.1 hw.2 hm, rfl, ?_⟩
    rw [he]
    refine ⟨rfl, rfl, rfl, rfl, rfl, rfl, rfl, rfl, rfl, rfl, rfl, rfl, hk, rfl, fun p => Dev.warmReset_pier_kept _ p, fun h1 h2 h3 => hs ⟨h1, h2, h3⟩⟩

end Sys2Proof.Machine
end

section
/-! Function level resets and resets of the link (O37): what an FLR keeps and clears of a device's functions (R353, R354). -/

namespace Sys2Proof.Machine
open Sys2Proof

variable {d e : Dev} {f g : FnId} {s : State}

/-! ### What ending the items of a function keeps -/

/-- `e` is `d` as the end of items of function `f` leaves its sessions and functions: only the FLR flag of `f` may have
changed. -/
structure FlrKeeps (f : FnId) (d e : Dev) : Prop where
  sessions : e.sessions = d.sessions
  vfEn : e.host.vfEn = d.host.vfEn
  numVfs : e.host.numVfs = d.host.numVfs
  own : ∃ b, e.fn f = { d.fn f with flr := b }
  other : ∀ g, g ≠ f → e.fn g = d.fn g

theorem FlrKeeps.of_host (hs : e.sessions = d.sessions) (hh : e.host = d.host) : FlrKeeps f d e where
  sessions := hs
  vfEn := by rw [hh]
  numVfs := by rw [hh]
  own := ⟨(d.fn f).flr, by rw [Dev.fn, hh]; rfl⟩
  other g _ := by rw [Dev.fn, hh]; rfl

theorem FlrKeeps.refl (f : FnId) (d : Dev) : FlrKeeps f d d := .of_host rfl rfl

theorem FlrKeeps.trans {c : Dev} (h : FlrKeeps f c d) (k : FlrKeeps f d e) : FlrKeeps f c e := by
  obtain ⟨b, hb⟩ := h.own
  obtain ⟨b', hb'⟩ := k.own
  exact ⟨k.sessions.trans h.sessions, k.vfEn.trans h.vfEn, k.numVfs.trans h.numVfs, ⟨b', by rw [hb', hb]⟩,
    fun g hg => (k.other g hg).trans (h.other g hg)⟩

theorem Dev.flrSettle_keeps (d : Dev) (f : FnId) : FlrKeeps f d (d.flrSettle f) := by
  rcases d.flrSettle_cases f with h | h <;> rw [h]
  · exact .refl f d
  · exact ⟨rfl, rfl, rfl, ⟨false, d.fn_onFn_self f _⟩, fun g hg => d.fn_onFn_of_ne _ hg⟩

theorem Dev.endItem16_keeps (d : Dev) (i : Item) (a b : Nat) : FlrKeeps f d (d.endItem16 i a b) := by
  obtain ⟨_, _, _, _, _, _, _, h, -⟩ := d.record16_frame { i with
    status := BitVec.ofNat 8 a, result := BitVec.ofNat 8 b, outLen := 0, output := [], rdata6 := 0, rdata7 := 0 }
  refine .of_host ?_ ?_ <;> rw [Dev.endItem16, h]

theorem Dev.endAny_keeps (d : Dev) (i : Item) (a b : Nat) : FlrKeeps f d (d.endAny i a b) :=
  FlrKeeps.trans (d := d.leaveBatch i.id) (.of_host rfl rfl) (Dev.endItem16_keeps _ i a b)

theorem Dev.retire_keeps (d : Dev) (i : Item) : FlrKeeps i.fn d (d.retire i) :=
  FlrKeeps.trans (d := (d.dropItem i.id).leaveBatch i.id) (.of_host rfl rfl) (Dev.flrSettle_keeps _ i.fn)

theorem Dev.flrItem_keeps (d : Dev) (i : Item) : FlrKeeps i.fn d (d.flrItem i) := by
  unfold Dev.flrItem
  extract_lets j e
  have he : FlrKeeps i.fn d e := .of_host rfl rfl
  clear_value e
  split
  · exact he.trans (e.endAny_keeps j 0x20 0x01)
  · exact he.trans (e.endAny_keeps j 0x20 0x01)
  · exact he.trans (e.retire_keeps j)
  · exact he

theorem Dev.foldl_flrItem_keeps (l : List Item) (h : ∀ i ∈ l, i.fn = f) (d : Dev) :
    FlrKeeps f d (l.foldl (fun d i => d.flrItem i) d) := by
  induction l generalizing d with
  | nil => exact .refl f d
  | cons i l ih =>
    have hi := d.flrItem_keeps i
    rw [h i (List.mem_cons_self ..)] at hi
    exact hi.trans (ih (fun j hj => h j (List.mem_cons_of_mem i hj)) _)

/-! ### The FLR of one function -/

/-- A function at the start of its FLR, with its sessions closed. -/
def Dev.flrBegun (d : Dev) (f : FnId) : Dev :=
  { d.onFn f (fun F => F.flrReset d.now) with sessions := d.sessions.filter (fun s => s.fn ≠ f) }

theorem Dev.fn_flrBegun (d : Dev) (f : FnId) : (d.flrBegun f).fn f = (d.fn f).flrReset d.now :=
  d.fn_onFn_self f fun F => F.flrReset d.now

theorem Dev.fn_flrBegun_of_ne (d : Dev) (hg : g ≠ f) : (d.flrBegun f).fn g = d.fn g :=
  d.fn_onFn_of_ne (fun F => F.flrReset d.now) hg

theorem Dev.flrOne_of_absent (h : d.fnExists f = false) : d.flrOne f = d := by
  rw [Dev.flrOne, if_pos (by simp [h])]

theorem Dev.flrOne_keeps (h : d.fnExists f = true) : FlrKeeps f (d.flrBegun f) (d.flrOne f) := by
  rw [Dev.flrOne, if_neg (by simp [h])]
  exact (Dev.foldl_flrItem_keeps _ (fun i hi => by simpa using (List.mem_filter.1 hi).2) (d.flrBegun f)).trans
    (Dev.flrSettle_keeps _ f)

/-- Every ring of the function stands at its reset value. -/
def Dev.Blank (d : Dev) (f : FnId) : Prop := ∀ r : Fin 64, d.ring f r = {}

theorem Func.rings_cleared (F : Func) (r : Fin 64) : F.cleared.rings[r] = {} := by
  simp [Func.cleared]

/-- A function that an FLR has reached (R353). -/
theorem Dev.fn_flrOne (h : d.fnExists f = true) : ∃ b, (d.flrOne f).fn f = { (d.fn f).cleared with flr := b, flrAt := d.now } := by
  obtain ⟨b, hb⟩ := (Dev.flrOne_keeps h).own
  exact ⟨b, by rw [hb, Dev.fn_flrBegun]; rfl⟩

theorem Dev.fn_flrOne_of_ne (d : Dev) (hg : g ≠ f) : (d.flrOne f).fn g = d.fn g := by
  cases h : d.fnExists f with
  | false => rw [Dev.flrOne_of_absent h]
  | true => exact ((Dev.flrOne_keeps h).other g hg).trans (d.fn_flrBegun_of_ne hg)

theorem Dev.flrOne_blank (h : d.fnExists f = true) : (d.flrOne f).Blank f := by
  obtain ⟨b, hb⟩ := d.fn_flrOne h
  intro r
  rw [Dev.ring, hb]
  exact Func.rings_cleared (d.fn f) r

theorem Dev.sessions_flrOne (h : d.fnExists f = true) : (d.flrOne f).sessions = d.sessions.filter (fun s => s.fn ≠ f) :=
  (Dev.flrOne_keeps h).sessions

theorem Dev.flrOne_keeps_vfs (d : Dev) (f : FnId) :
    (d.flrOne f).host.vfEn = d.host.vfEn ∧ (d.flrOne f).host.numVfs = d.host.numVfs := by
  cases h : d.fnExists f with
  | false => rw [Dev.flrOne_of_absent h]; exact ⟨rfl, rfl⟩
  | true => exact ⟨(Dev.flrOne_keeps h).vfEn, (Dev.flrOne_keeps h).numVfs⟩

theorem Dev.flrOne_keeps_blank (h : d.Blank g) (f : FnId) : (d.flrOne f).Blank g := by
  by_cases hg : g = f
  · subst hg
    cases hf : d.fnExists g with
    | false => rwa [Dev.flrOne_of_absent hf]
    | true => exact Dev.flrOne_blank hf
  · intro r
    rw [Dev.ring, Dev.fn_flrOne_of_ne d hg]
    exact h r

theorem Dev.fnExists_congr (h1 : e.host.vfEn = d.host.vfEn) (h2 : e.host.numVfs = d.host.numVfs) (f : FnId) :
    e.fnExists f = d.fnExists f := by
  cases f with
  | pf0 => rfl
  | pf1 => rfl
  | vf v => simp only [Dev.fnExists, h1, h2]

/-! ### VF Enable and the FLR of PF0 -/

theorem Dev.foldl_flrOne_keeps_blank (h : d.Blank g) (l : List FnId) : (l.foldl (fun d f => d.flrOne f) d).Blank g := by
  induction l generalizing d with
  | nil => exact h
  | cons f l ih => exact ih (Dev.flrOne_keeps_blank h f)

theorem Dev.foldl_flrOne_blank (l : List FnId) (hg : g ∈ l) (h : d.fnExists g = true) :
    (l.foldl (fun d f => d.flrOne f) d).Blank g := by
  induction l generalizing d with
  | nil => cases hg
  | cons f l ih =>
    rcases List.mem_cons.1 hg with rfl | hg
    · exact Dev.foldl_flrOne_keeps_blank (Dev.flrOne_blank h) l
    · obtain ⟨h1, h2⟩ := d.flrOne_keeps_vfs f
      exact ih hg ((Dev.fnExists_congr h1 h2 g).trans h)

theorem Dev.Blank.of_fns (h : d.Blank f) (he : e.host.fns = d.host.fns) : e.Blank f := by
  intro r
  rw [Dev.ring, Dev.fn, he]
  exact h r

theorem mem_allVfs (v : Fin 64) : FnId.vf v ∈ allVfs := List.mem_map.2 ⟨v, List.mem_finRange v, rfl⟩

theorem Dev.vfDisable_fns (d : Dev) : d.vfDisable.host.fns = (allVfs.foldl (fun d f => d.flrOne f) d).host.fns := by
  unfold Dev.vfDisable
  generalize allVfs = l
  rfl

theorem Dev.vfDisable_blank (v : Fin 64) (h : d.fnExists (.vf v) = true) : d.vfDisable.Blank (.vf v) :=
  (Dev.foldl_flrOne_blank allVfs (mem_allVfs v) h).of_fns d.vfDisable_fns

theorem Dev.flr_of_ne (h : f ≠ .pf0) : d.flr f = d.flrOne f := if_neg h

theorem Dev.flr_pf0 (d : Dev) : d.flr .pf0 = d.vfDisable.flrOne .pf0 := if_pos rfl

theorem Dev.flr_pf0_blank_vf (v : Fin 64) (h : d.fnExists (.vf v) = true) : (d.flr .pf0).Blank (.vf v) := by
  rw [Dev.flr_pf0]
  exact Dev.flrOne_keeps_blank (Dev.vfDisable_blank v h) .pf0

theorem Dev.flr_pf0_vfEn (d : Dev) : (d.flr .pf0).host.vfEn = false := by
  rw [Dev.flr_pf0, (Dev.flrOne_keeps_vfs _ _).1]
  rfl

/-- The FLR of a function is an FLR of it alone, of the device or of the one without VFs. -/
theorem Dev.flr_cases (h : d.fnExists f = true) : ∃ c : Dev, c.fnExists f = true ∧ d.flr f = c.flrOne f := by
  by_cases hf : f = .pf0
  · subst hf
    exact ⟨_, rfl, d.flr_pf0⟩
  · exact ⟨d, h, Dev.flr_of_ne hf⟩

theorem Dev.fnExists_of_reached (h : d.cfgReached f = true) : d.fnExists f = true := by
  simp only [Dev.cfgReached, Bool.and_eq_true] at h
  exact h.1

/-! ### The commands of R353 and R355 -/

theorem answers_flr (h : s.dev.cfgReached f = true) : Answers (.flr f) s (s.dev.flr f) := congrArg s.answer (if_pos h)

theorem answers_d3hotEntry (h : s.dev.cfgReached f = true) (hd : (s.dev.fn f).d3 = false) :
    Answers (.d3hotEntry f) s ((s.dev.flr f).onFn f (fun F => { F with d3 := true })) :=
  congrArg s.answer (if_neg (by simp [h, hd]))

/-- A function as D0_ENTRY leaves it: out of D3hot in its reset state, else as it was. -/
def Func.inD0 (F : Func) : Func := if F.d3 then { F.cleared with d3 := false } else F

theorem Func.inD0_of_d3 {F : Func} (h : F.d3 = true) : F.inD0 = { F.cleared with d3 := false } := if_pos h

theorem Func.inD0_of_d0 {F : Func} (h : F.d3 = false) : F.inD0 = F := if_neg (by simp [h])

theorem answers_d0Entry (f : FnId) (s : State) : Answers (.d0Entry f) s (s.dev.onFn f Func.inD0) := rfl

/-- A change of a function that leaves it as it is changes nothing. -/
theorem Dev.onFn_eq_self {h : Func → Func} (hh : h (d.fn f) = d.fn f) : d.onFn f h = d := by
  have hs : d.host.fns.set (fnNum f) (d.fn f) = d.host.fns := Vector.set_getElem_self _
  rw [Dev.onFn, hh, hs]

theorem Dev.sessions_flr_of_ne (h : f ≠ .pf0) (hf : d.fnExists f = true) (x : Session) :
    x ∈ (d.flr f).sessions ↔ x ∈ d.sessions ∧ x.fn ≠ f := by
  rw [Dev.flr_of_ne h, Dev.sessions_flrOne hf]
  simp

/-- Where FLR_ITEM_STOP finds the item, at each stage (R353). -/
theorem answers_flrItemStop {id : Nat} {i : Item} (hi : s.dev.item? id = some i) (hf : i.flr = true) :
    Answers (.flrItemStop id) s
      (let onPier (p : Fin 16) : Dev := (s.dev.leaveBatch id).recordPier p i
      let onChain (c : Fin 17) : Dev := if h : c.val < 16 then onPier ⟨c.val, h⟩ else s.dev.endAny i 0x20 0x01
      match i.stage with
      | .pier p => onPier p
      | .overLimit p => onPier p
      | .result c => onChain c
      | .record c => onChain c
      | .recorded _ _ => s.dev
      | .posted _ _ _ => s.dev.retire i
      | _ => s.dev.endAny i 0x20 0x01) := by
  show execFlrItemStop id s = _
  rw [execFlrItemStop, hi]
  simp only [hf, Bool.not_true, Bool.false_eq_true, if_false]
  cases i.stage <;> rfl

theorem answers_flrItemStop_nothing {id : Nat}
    (h : ∀ i, s.dev.item? id = some i → i.flr = false ∨ ∃ c n, i.stage = .recorded c n) :
    Answers (.flrItemStop id) s s.dev := by
  cases hi : s.dev.item? id with
  | none =>
    show execFlrItemStop id s = _
    rw [execFlrItemStop, hi]
    rfl
  | some i =>
    cases hf : i.flr with
    | false =>
      show execFlrItemStop id s = _
      rw [execFlrItemStop, hi]
      exact if_pos (by rw [hf]; rfl)
    | true =>
      rcases h i hi with h | ⟨c, n, hs⟩
      · cases h.symm.trans hf
      · have ha := answers_flrItemStop hi hf
        rwa [hs] at ha

/-- The item of a reset function ends with HOST_FAULT and RESULT 0x01, whatever it was to end with. -/
theorem Dev.endItem16_of_flr {i : Item} (h : i.flr = true) (a b a' b' : Nat) : d.endItem16 i a b = d.endItem16 i a' b' := by
  unfold Dev.endItem16 Dev.record16
  rw [Item.settled_of_flr (by exact h), Item.settled_of_flr (by exact h)]

/-- The record of an item on its pier's chain, while that chain lasts. -/
theorem Dev.recordPier_recorded (p : Fin 16) (i : Item) (ha : d.recordsAllowed = true)
    (hc : (d.pier p).runs.au0.cseq < cseqMax) : ∃ mark bytes,
    d.recordPier p i =
      ((d.onPier p (·.putAu0 { (d.pier p).runs.au0 with cseq := (d.pier p).runs.au0.cseq + 1, mark := mark })).accept
        ⟨⟨p.val, by omega⟩, (d.pier p).runs.au0.cseq + 1, mark, bytes, some i.id⟩).onItem i.id
          (fun _ => { i.settled with stage := .recorded ⟨p.val, by omega⟩ ((d.pier p).runs.au0.cseq + 1) }) := by
  simp only [Dev.recordPier, Item.settled_id, ha, Bool.not_true, Bool.false_eq_true, if_false, if_neg (Nat.not_le.2 hc)]
  exact ⟨_, _, rfl⟩

/-- An item of a reset function that stops on its pier (R353). -/
theorem Dev.recordPier_flr_spec (p : Fin 16) {i : Item} (hf : i.flr = true) (ha : d.recordsAllowed = true)
    (hc : (d.pier p).runs.au0.cseq < cseqMax) :
    ((d.recordPier p i).pier p).runs.au0.cseq = (d.pier p).runs.au0.cseq + 1 ∧
    (d.recordPier p i).audit.recs.length = d.audit.recs.length + 1 ∧
    ∀ x ∈ (d.recordPier p i).items, x.id = i.id → x.status = 0x20 ∧ x.result = 0x01 ∧ x.outLen = 0 ∧
      x.stage = .recorded ⟨p.val, by omega⟩ ((d.pier p).runs.au0.cseq + 1) := by
  obtain ⟨mark, bytes, h⟩ := d.recordPier_recorded p i ha hc
  rw [h]
  refine ⟨?_, by simp [Dev.onItem, Dev.accept], fun x hx hid => ?_⟩
  · rw [Dev.pier_onItem, Dev.pier_accept, Dev.pier_onPier_self]
    rfl
  · rcases (Dev.mem_onItem_const (by exact i.settled_id)).1 hx with ⟨hne, -⟩ | ⟨rfl, -⟩
    · exact absurd hid hne
    · rw [Item.settled_of_flr hf]
      exact ⟨rfl, rfl, rfl, rfl⟩

/-- An item of a reset function that stops with the warden (R353). -/
theorem Dev.endItem16_flr_spec {i : Item} (hf : i.flr = true) (a b : Nat) (ha : d.recordsAllowed = true)
    (hc : (d.acceptedHead 16).1 < cseqMax) : ∀ x ∈ (d.endItem16 i a b).items, x.id = i.id →
      x.status = 0x20 ∧ x.result = 0x01 ∧ x.outLen = 0 ∧ x.stage = .recorded 16 ((d.acceptedHead 16).1 + 1) := by
  intro x hx hid
  rw [(Dev.record16_of_lt _ ha hc).1 x hx hid, Item.settled_of_flr (by exact hf)]
  exact ⟨rfl, rfl, rfl, rfl⟩

/-! ### Resets of the link (R354) -/

/-- The device with every function in D0 and SR-IOV, PTM and SPDM at their reset values. -/
def Dev.unlink (d : Dev) : Dev :=
  { d with host := { d.host with
      fns := d.host.fns.map (fun F => { F with d3 := false, mps := 0 }), numVfs := 0, vfEn := false, ptmEn := false, spdm := {} } }

theorem Dev.ring_unlink (d : Dev) (f : FnId) (r : Fin 64) : d.unlink.ring f r = d.ring f r := by
  simp [Dev.unlink, Dev.ring, Dev.fn]

theorem Dev.unlinked_unlink (h0 : d.Blank .pf0) (h1 : d.Blank .pf1) (hs : ∀ x ∈ d.sessions, x.fn ≠ .pf0 ∧ x.fn ≠ .pf1) :
    Unlinked d.unlink := by
  refine ⟨rfl, rfl, rfl, rfl, fun r => ?_, hs⟩
  rw [Dev.ring_unlink, Dev.ring_unlink, h0 r, h1 r]
  exact ⟨rfl, rfl⟩

theorem Dev.linkReset_eq (d : Dev) : d.linkReset = ((d.flr .pf0).flr .pf1).unlink := rfl

theorem Dev.unlinked_linkReset (d : Dev) : Unlinked d.linkReset := by
  rw [Dev.linkReset_eq, Dev.flr_of_ne (f := .pf1) (by decide), Dev.flr_pf0]
  refine Dev.unlinked_unlink (Dev.flrOne_keeps_blank (Dev.flrOne_blank rfl) .pf1) (Dev.flrOne_blank rfl) fun x hx => ?_
  rw [Dev.sessions_flrOne rfl, Dev.sessions_flrOne rfl] at hx
  obtain ⟨h, h1⟩ := List.mem_filter.1 hx
  obtain ⟨-, h0⟩ := List.mem_filter.1 h
  exact ⟨by simpa using h0, by simpa using h1⟩

/-- The state of the link is no part of what a reset of it leaves. -/
theorem unlinked_setLink (h : Unlinked d) (b : Bool) (l : Link) :
    Unlinked { d with host := { d.host with perst := b, link := l } } := h

/-! ### Functions -/

theorem flr_other (s : State) (hf : f ≠ .pf0) (h : s.dev.cfgReached f = true) : AnswersWith (.flr f) s (fun d =>
    (∀ r : Fin 64, d.ring f r = {}) ∧ (d.fn f).msixEn = false ∧ (d.fn f).busMaster = false ∧ (d.fn f).memSpace = false ∧
    (d.fn f).ringCnt = (s.dev.fn f).ringCnt ∧ (d.fn f).infl = (s.dev.fn f).infl ∧ (d.fn f).d3 = (s.dev.fn f).d3 ∧
    (∀ x, x ∈ d.sessions ↔ x ∈ s.dev.sessions ∧ x.fn ≠ f) ∧ ∀ g, g ≠ f → d.fn g = s.dev.fn g) := by
  have he := Dev.fnExists_of_reached h
  refine (answers_flr h).answersWith ?_
  refine ⟨?_, ?_⟩
  · rw [Dev.flr_of_ne hf]
    exact Dev.flrOne_blank he
  · have hs := Dev.sessions_flr_of_ne hf he
    rw [Dev.flr_of_ne hf] at hs ⊢
    obtain ⟨b, hb⟩ := s.dev.fn_flrOne he
    rw [hb]
    exact ⟨rfl, rfl, rfl, rfl, rfl, rfl, hs, fun g => Dev.fn_flrOne_of_ne s.dev⟩

theorem flr_pf0 (s : State) (h : s.dev.cfgReached .pf0 = true) : AnswersWith (.flr .pf0) s (fun d =>
    (∀ r : Fin 64, d.ring .pf0 r = {}) ∧ (d.fn .pf0).msixEn = false ∧ (d.fn .pf0).busMaster = false ∧
    d.host.vfEn = false ∧ ∀ (v : Fin 64) (r : Fin 64), s.dev.fnExists (.vf v) = true → d.ring (.vf v) r = {}) := by
  refine (answers_flr h).answersWith ?_
  have hv := s.dev.flr_pf0_vfEn
  have hb := fun v (hv : s.dev.fnExists (.vf v) = true) => Dev.flr_pf0_blank_vf v hv
  obtain ⟨c, hc, he⟩ := s.dev.flr_cases (f := .pf0) rfl
  obtain ⟨b, hf⟩ := c.fn_flrOne hc
  rw [he] at hv hb ⊢
  rw [hf]
  exact ⟨Dev.flrOne_blank hc, rfl, rfl, hv, fun v r hx => hb v hx r⟩

theorem d3hotEntry_enters (s : State) (h : s.dev.cfgReached f = true) (hd : (s.dev.fn f).d3 = false) :
    AnswersWith (.d3hotEntry f) s (fun d => (∀ r : Fin 64, d.ring f r = {}) ∧ (d.fn f).d3 = true ∧ (d.fn f).busMaster = false) := by
  obtain ⟨c, hc, he⟩ := Dev.flr_cases (Dev.fnExists_of_reached h)
  refine (answers_d3hotEntry h hd).answersWith ?_
  obtain ⟨b, hf⟩ := c.fn_flrOne hc
  rw [he, Dev.fn_onFn_self, hf]
  refine ⟨fun r => ?_, rfl, rfl⟩
  rw [Dev.ring_onFn _ (by exact fun _ => rfl)]
  exact Dev.flrOne_blank hc r

theorem d0Entry_leaves (s : State) (hd : (s.dev.fn f).d3 = true) : AnswersWith (.d0Entry f) s (fun d =>
    (d.fn f).d3 = false ∧ (∀ r : Fin 64, d.ring f r = {}) ∧ (d.fn f).msixEn = false ∧ (d.fn f).busMaster = false ∧
    (d.fn f).memSpace = false ∧ ∀ g, g ≠ f → d.fn g = s.dev.fn g) := by
  refine (answers_d0Entry f s).answersWith ?_
  simp only [Dev.ring, Dev.fn_onFn_self, Func.inD0_of_d3 hd]
  exact ⟨trivial, Func.rings_cleared _, rfl, rfl, rfl, fun g hg => Dev.fn_onFn_of_ne s.dev _ hg⟩

theorem vfEnableClear_clears (s : State) (h : s.dev.host.vfEn = true) : AnswersWith .vfEnableClear s (fun d =>
    d.host.vfEn = false ∧ ∀ (v : Fin 64) (r : Fin 64), s.dev.fnExists (.vf v) = true → d.ring (.vf v) r = {}) := by
  have ha : Answers .vfEnableClear s s.dev.vfDisable := congrArg s.answer (if_pos h)
  exact ha.answersWith ⟨rfl, fun v r hv => Dev.vfDisable_blank v hv r⟩

/-! ### Items that stop -/

section Stop

variable {id : Nat} {i : Item} (hi : s.dev.item? id = some i) (hf : i.flr = true)
include hi hf

theorem flrItemStop_posted {c : Fin 17} {n t : Nat} (hs : i.stage = .posted c n t) :
    AnswersWith (.flrItemStop id) s (fun d =>
      d.audit = s.dev.audit ∧ d.host.out = s.dev.host.out ∧ ∀ x ∈ d.items, x.id ≠ id) := by
  have ha := answers_flrItemStop hi hf
  rw [hs] at ha
  obtain ⟨st, h, he, ho, -⟩ := s.dev.retire_frame i
  refine ha.answersWith ?_
  rw [← (Dev.item?_eq_some hi).1]
  refine ⟨?_, ?_, fun x => Dev.id_ne_of_mem_retire⟩ <;> rw [he]
  exact ho

theorem flrItemStop_pier (p : Fin 16) (hs : i.stage = .pier p ∨ i.stage = .overLimit p ∨
      i.stage = .result ⟨p.val, by omega⟩ ∨ i.stage = .record ⟨p.val, by omega⟩) :
    Answers (.flrItemStop id) s ((s.dev.leaveBatch id).recordPier p i) := by
  have ha := answers_flrItemStop hi hf
  rcases hs with hs | hs | hs | hs <;> rw [hs] at ha
  · exact ha
  · exact ha
  · dsimp only at ha
    rwa [dif_pos p.isLt] at ha
  · dsimp only at ha
    rwa [dif_pos p.isLt] at ha

theorem flrItemStop_warden (hs : i.stage = .setter ∨ i.stage = .warden ∨ i.stage = .keyChange ∨ (∃ e k, i.stage = .sealWait e k) ∨
      i.stage = .stateWait ∨ i.stage = .destroyWait ∨ i.stage = .result 16 ∨ i.stage = .record 16) :
    Answers (.flrItemStop id) s ((s.dev.leaveBatch id).endItem16 i 0x20 0) := by
  rw [Dev.endItem16_of_flr hf 0x20 0 0x20 0x01]
  have ha := answers_flrItemStop hi hf
  obtain ⟨rfl, -⟩ := Dev.item?_eq_some hi
  rcases hs with hs | hs | hs | ⟨e, k, hs⟩ | hs | hs | hs | hs <;> rw [hs] at ha <;> exact ha

end Stop

/-- Settles O37: a function by what `Dev.flrOne` leaves of it, an item by the stage that it has reached, the link by
`Dev.linkReset`. -/
theorem functionAndLinkResets : Obligations.FunctionAndLinkResets := by
  unfold Obligations.FunctionAndLinkResets
  refine ⟨⟨fun f s h => ⟨?_, ?_⟩, fun f s hf h => flr_other s hf h, flr_pf0, fun f s h hd => ?_,
    fun f s h hd => d3hotEntry_enters s h hd, fun f s hd => ?_, fun f s hd => d0Entry_leaves s hd, fun s h => ?_,
    vfEnableClear_clears, fun id s => answers_flrItemStop_nothing, fun id s i hi hf => ⟨fun c n t => flrItemStop_posted hi hf,
      fun p hs => ⟨flrItemStop_pier hi hf p hs, fun ha hc => ?_⟩, fun hs => ⟨flrItemStop_warden hi hf hs, fun ha hc => ?_⟩⟩⟩,
    fun s => ?_, fun s h => ?_, fun s h => ?_, fun s h => ?_, fun s h => ?_, fun s h => ?_, fun s h => ?_, fun s h1 h2 => ?_,
    fun s h => ?_⟩
  · exact congrArg s.answer (if_neg (by simp [h]))
  · exact congrArg s.answer (if_pos (by simp [h]))
  · exact congrArg s.answer (if_pos (by simp [hd]))
  · have ha := answers_d0Entry f s
    rwa [Dev.onFn_eq_self (Func.inD0_of_d0 hd)] at ha
  · exact congrArg s.answer (if_neg (by simp [h]))
  · refine (flrItemStop_pier hi hf p hs).answersWith ?_
    rw [← (Dev.item?_eq_some hi).1]
    exact Dev.recordPier_flr_spec (d := s.dev.leaveBatch i.id) p hf ha hc
  · refine (flrItemStop_warden hi hf hs).answersWith ?_
    rw [← (Dev.item?_eq_some hi).1]
    exact Dev.endItem16_flr_spec (d := s.dev.leaveBatch i.id) hf 0x20 0 ha hc
  · have hx : Answers .perstNAssert s { s.dev.linkReset with host := { s.dev.linkReset.host with perst := true, link := .down } } :=
      rfl
    exact hx.answersWith ⟨rfl, rfl, unlinked_setLink s.dev.unlinked_linkReset _ _⟩
  · have hx : Answers .hotReset s _ := congrArg s.answer (if_pos h)
    exact hx.answersWith ⟨rfl, unlinked_setLink s.dev.unlinked_linkReset _ _⟩
  · exact congrArg s.answer (if_neg h)
  · have hx : Answers .linkDown s _ := congrArg s.answer (if_neg h)
    exact hx.answersWith ⟨rfl, unlinked_setLink s.dev.unlinked_linkReset _ _⟩
  · exact congrArg s.answer (if_pos h)
  · exact congrArg s.answer (if_pos h)
  · exact congrArg s.answer (if_neg (by simp [h]))
  · exact congrArg s.answer (if_neg (by simp [h1, h2]))
  · exact congrArg s.answer (if_pos (by simpa [or_comm] using h))

end Sys2Proof.Machine
end

section
/-! Doorbell pages and entry fetches (O33): what a word of a slot does to its ring, and how fetches advance and fail
(R330 to R333). -/

namespace Sys2Proof.Machine
open Sys2Proof

variable {d : Dev} {f : FnId} {r : Fin 64} {s : State} {v : DW} {R : Ring}

/-! ### The words of a slot -/

theorem toNat_setWidth_low (v : DW) : (v.setWidth 16).toNat = v.toNat % 65536 := BitVec.toNat_setWidth 16 v

theorem extractLsb'_low_eq_setWidth (v : DW) : v.extractLsb' 0 16 = v.setWidth 16 := by
  apply BitVec.eq_of_toNat_eq
  simp

theorem Ring.writeSqTail_eq (R : Ring) (v : DW) : R.writeSqTail v =
    if v.toNat % 65536 < 2 ^ R.log2sq.toNat then { R with sqTail := v.setWidth 16 } else { R with dberr := true } := by
  simp only [Ring.writeSqTail, Ring.sqDepth, extractLsb'_low_eq_setWidth, toNat_setWidth_low]

theorem Ring.writeCqHead_eq (R : Ring) (event : Bool) (v : DW) : R.writeCqHead event v =
    if v.toNat % 65536 < 2 ^ (if event then R.log2sq.toNat else R.log2cq.toNat) then { R with cqHead := v.setWidth 16 }
    else { R with dberr := true } := by
  cases event <;>
    simp [Ring.writeCqHead, Ring.sqDepth, Ring.cqDepth, extractLsb'_low_eq_setWidth]

/-- The fields of word 0x18 in the ring, before EN (R330). -/
def Ring.sized (R : Ring) (v : DW) : Ring :=
  { R with log2sq := v.extractLsb' 20 5, log2cq := v.extractLsb' 15 5, vec := v.extractLsb' 0 6 }

theorem Ring.writeEnable_off (event slot1 : Bool) (n : Nat) (h : R.en = false) (hv : v.getLsbD 31 = false) :
    R.writeEnable event slot1 n v = R.sized v :=
  (if_neg (by simp [h])).trans (if_pos (by rw [hv]; rfl))

theorem Ring.writeEnable_starts {event slot1 : Bool} {n : Nat} (h : R.en = false) (hv : v.getLsbD 31 = true)
    (hs : ringStarts event slot1 n (R.sized v) = true) : R.writeEnable event slot1 n v =
      { R.sized v with en := true, sqTail := 0, sqHead := 0, cqHead := 0, cqTail := 0, phase := true, unsig := 0 } :=
  (if_neg (by simp [h])).trans ((if_neg (by rw [hv]; simp)).trans (if_pos hs))

theorem Ring.writeEnable_refused {event slot1 : Bool} {n : Nat} (h : R.en = false) (hv : v.getLsbD 31 = true)
    (hs : ringStarts event slot1 n (R.sized v) = false) : R.writeEnable event slot1 n v = { R.sized v with cfge := true } :=
  (if_neg (by simp [h])).trans ((if_neg (by rw [hv]; simp)).trans (if_neg (Bool.not_eq_true _ ▸ hs)))

theorem Ring.writeEnable_on (event slot1 : Bool) (n : Nat) (h : R.en = true) : R.writeEnable event slot1 n v =
    { R with
      en := v.getLsbD 31
      cfge := R.cfge || decide (v.extractLsb' 20 5 ≠ R.log2sq) || decide (v.extractLsb' 15 5 ≠ R.log2cq) ||
        decide (v.extractLsb' 0 6 ≠ R.vec) } := by
  refine (if_pos h).trans ?_
  split
  · next hs =>
    simp only [Bool.and_eq_true, decide_eq_true_eq, and_assoc] at hs
    obtain ⟨h1, h2, h3⟩ := hs
    simp [h1, h2, h3]
  · next hs =>
    have hd : (R.cfge || decide (v.extractLsb' 20 5 ≠ R.log2sq) || decide (v.extractLsb' 15 5 ≠ R.log2cq) ||
        decide (v.extractLsb' 0 6 ≠ R.vec)) = true := by
      simp only [Bool.and_eq_true, decide_eq_true_eq, and_assoc] at hs
      simp only [Bool.or_eq_true, decide_eq_true_eq]
      tauto
    rw [hd]

/-! ### The slot of a doorbell write -/

theorem Dev.onRing_congr {g h : Ring → Ring} (hg : g (d.ring f r) = h (d.ring f r)) : d.onRing f r g = d.onRing f r h := by
  show { d with host := { d.host with fns := d.host.fns.set _ { d.fn f with rings := (d.fn f).rings.set r (g (d.ring f r)) } } } = _
  rw [hg]
  rfl

theorem Dev.onSlot_taken (h : d.doorbellTaken f = true) (hr : r.val < d.ringCount f) (g : Ring → Ring) :
    d.onSlot f r g = d.onRing f r g := if_pos (by simp [h, hr])

theorem Dev.onSlot_ignored (h : d.doorbellTaken f = false ∨ d.ringCount f ≤ r.val) (g : Ring → Ring) : d.onSlot f r g = d :=
  if_neg (by rcases h with h | h <;> simp [h])

theorem Dev.doorbell_taken (h : d.doorbellTaken f = true) (hr : r.val < d.ringCount f) (g : Ring → Ring) :
    d.doorbell f r g = (d.onRing f r g).onCore .warden (fun k => { k with ipend := k.ipend ||| 0x40#9 }) :=
  if_pos (by simp [h, hr])

theorem Dev.doorbell_ignored (h : d.doorbellTaken f = false ∨ d.ringCount f ≤ r.val) (g : Ring → Ring) : d.doorbell f r g = d :=
  if_neg (by rcases h with h | h <;> simp [h])

theorem answers_ringEnableWrite {Q : Ring} (h : s.dev.doorbellTaken f = true) (hr : r.val < s.dev.ringCount f)
    (hQ : (s.dev.ring f r).writeEnable (isEvent f r.val) ((f = .pf1 && r.val = 1) || (s.dev.ring .pf1 1).en) (vectorCount f) v = Q) :
    Answers (.ringEnableWrite f r v) s (s.dev.onRing f r (fun _ => Q)) :=
  congrArg s.answer ((Dev.onSlot_taken h hr _).trans (Dev.onRing_congr hQ))

theorem ringStarts_iff : ringStarts (isEvent f r.val) ((f = .pf1 && r.val = 1) || (d.ring .pf1 1).en) (vectorCount f)
    (R.sized v) = true ↔
      4 ≤ (v.extractLsb' 20 5).toNat ∧ (v.extractLsb' 20 5).toNat ≤ 16 ∧
      (isEvent f r.val = true ∨ (4 ≤ (v.extractLsb' 15 5).toNat ∧ (v.extractLsb' 15 5).toNat ≤ 16)) ∧
      (v.extractLsb' 0 6).toNat < vectorCount f ∧ ((f = .pf1 ∧ r.val = 1) ∨ (d.ring .pf1 1).en = true) := by
  simp only [ringStarts, Bool.and_eq_true, Bool.or_eq_true, decide_eq_true_eq, and_assoc]
  rfl

/-! ### Fetches -/

theorem mod_two_pow_mod_two_pow (x k m : Nat) : x % 2 ^ k % 2 ^ m = x % 2 ^ min k m := by
  rcases Nat.le_total k m with h | h
  · rw [Nat.min_eq_left h]
    exact Nat.mod_eq_of_lt ((Nat.mod_lt _ (Nat.two_pow_pos k)).trans_le (Nat.pow_le_pow_right (by decide) h))
  · rw [Nat.min_eq_right h]
    exact Nat.mod_mod_of_dvd x (Nat.pow_dvd_pow 2 h)

/-- A ring index of 16 bits that moves by one more place (R331, R332). -/
theorem ringIndex_succ (h n k : Nat) : ((h + n) % 2 ^ k % 65536 + 1) % 2 ^ k % 65536 = (h + (n + 1)) % 2 ^ k % 65536 := by
  have e := fun x => mod_two_pow_mod_two_pow x k 16
  rw [show (65536 : Nat) = 2 ^ 16 from rfl, e, e, e, Nat.mod_add_mod, Nat.add_assoc]

/-- `e` is `d` after `n` more fetches of entries of slot `r` (R332). -/
structure FetchedMore (f : FnId) (r : Fin 64) (n : Nat) (d e : Dev) : Prop where
  depth : (e.ring f r).log2sq = (d.ring f r).log2sq
  head : (e.ring f r).sqHead.toNat = ((d.ring f r).sqHead.toNat + n) % (d.ring f r).sqDepth % 65536
  fetching : (e.ring f r).fetching.length = (d.ring f r).fetching.length + n
  out : e.host.out.length = d.host.out.length + n
  items : e.items = d.items

/-- The ring once its next entry is on its way. -/
def Ring.fetchNext (R : Ring) : Ring :=
  { R with fetching := R.fetching ++ [R.sqHead], sqHead := BitVec.ofNat 16 ((R.sqHead.toNat + 1) % R.sqDepth) }

theorem Dev.fetchOne_of_can (h : d.canFetch f r = true) :
    d.fetchOne f r = (d.onRing f r Ring.fetchNext).send (.fetch f r.val (d.ring f r).sqHead) :=
  if_neg (by simp [h])

theorem Dev.fetchOne_of_cannot (h : d.canFetch f r = false) : d.fetchOne f r = d := if_pos (by simp [h])

theorem Dev.ring_fetchOne (h : d.canFetch f r = true) : (d.fetchOne f r).ring f r = (d.ring f r).fetchNext := by
  rw [Dev.fetchOne_of_can h]
  exact d.ring_onRing_self f r Ring.fetchNext

theorem Dev.fetchOne_out (h : d.canFetch f r = true) : (d.fetchOne f r).host.out.length = d.host.out.length + 1 := by
  rw [Dev.fetchOne_of_can h, Dev.send_out, List.length_append]
  rfl

theorem Dev.fetchOne_items (d : Dev) (f : FnId) (r : Fin 64) : (d.fetchOne f r).items = d.items := by
  unfold Dev.fetchOne
  split <;> rfl

theorem Dev.fetchOne_first (h : d.canFetch f r = true) : FetchedMore f r 1 d (d.fetchOne f r) where
  depth := by rw [Dev.ring_fetchOne h]; rfl
  head := by rw [Dev.ring_fetchOne h]; rfl
  fetching := by simp [Dev.ring_fetchOne h, Ring.fetchNext]
  out := Dev.fetchOne_out h
  items := d.fetchOne_items f r

theorem FetchedMore.next {n : Nat} {e : Dev} (h : FetchedMore f r n d e) (hc : e.canFetch f r = true) :
    FetchedMore f r (n + 1) d (e.fetchOne f r) where
  depth := by rw [Dev.ring_fetchOne hc]; exact h.depth
  head := by
    rw [Dev.ring_fetchOne hc]
    show ((e.ring f r).sqHead.toNat + 1) % 2 ^ (e.ring f r).log2sq.toNat % 65536 = _
    rw [h.head, h.depth]
    exact ringIndex_succ _ n _
  fetching := by
    rw [Dev.ring_fetchOne hc]
    simp [Ring.fetchNext, h.fetching, Nat.add_assoc]
  out := by rw [Dev.fetchOne_out hc, h.out, Nat.add_assoc]
  items := (e.fetchOne_items f r).trans h.items

/-- Turns at fetching fetch at most one entry each. -/
theorem FetchedMore.foldl {n : Nat} {e : Dev} (h : FetchedMore f r n d e) (l : List Nat) :
    ∃ m ≤ l.length, FetchedMore f r (n + m) d (l.foldl (fun d _ => d.fetchOne f r) e) := by
  induction l generalizing n e with
  | nil => exact ⟨0, Nat.le_refl _, h⟩
  | cons x l ih =>
    cases hc : e.canFetch f r with
    | false =>
      obtain ⟨m, hm, hk⟩ := ih h
      rw [List.foldl_cons, Dev.fetchOne_of_cannot hc]
      exact ⟨m, Nat.le_succ_of_le hm, hk⟩
    | true =>
      obtain ⟨m, hm, hk⟩ := ih (h.next hc)
      exact ⟨m + 1, Nat.succ_le_succ hm, by rwa [Nat.add_assoc, Nat.add_comm 1 m] at hk⟩

theorem Dev.canFetch_of_nextRing (h : d.nextRing = some (f, r)) : d.canFetch f r = true := by
  obtain ⟨k, -, hk⟩ := List.exists_of_findSome?_eq_some h
  obtain ⟨q, -, hq⟩ := List.exists_of_findSome?_eq_some hk
  split at hq
  · next hc =>
    cases hq
    exact hc
  · cases hq

/-- The device whose ring engine turns to the function and the slot after those served. -/
def Dev.turned (d : Dev) (f : FnId) (r : Fin 64) : Dev :=
  { d with host := { d.host with
      rrFn := ((fnNum f).val + 1) % 66
      rrSlot := assocSet d.host.rrSlot (fnNum f).val ((r.val + 1) % 64) } }

theorem answers_entryFetch (h : s.dev.nextRing = some (f, r)) :
    Answers .entryFetch s (((List.range 4).foldl (fun d _ => d.fetchOne f r) s.dev).turned f r) := by
  unfold Answers
  show execEntryFetch s = _
  unfold execEntryFetch
  simp only [h]
  rfl

theorem answers_entryFetch_none (h : s.dev.nextRing = none) : Answers .entryFetch s s.dev := by
  unfold Answers
  show execEntryFetch s = _
  unfold execEntryFetch
  simp only [h]
  rfl

/-- A turn of the ring engine fetches one to four entries (R332). -/
theorem entryFetch_fetches (h : s.dev.nextRing = some (f, r)) : ∃ n, 1 ≤ n ∧ n ≤ 4 ∧
    FetchedMore f r n s.dev ((List.range 4).foldl (fun d _ => d.fetchOne f r) s.dev) := by
  obtain ⟨m, hm, hk⟩ := (Dev.fetchOne_first (Dev.canFetch_of_nextRing h)).foldl [1, 2, 3]
  exact ⟨1 + m, Nat.le_add_right 1 m, Nat.add_le_add_left hm 1, hk⟩

/-! ### A fetch that an error ends (R333) -/

theorem Dev.arrive_of_idle (h : (d.ring f r).fetching = []) (e l1 l2 : HostRead) : d.arrive f r e l1 l2 = d := by
  rw [Dev.arrive, h]

theorem Dev.arrive_err {i : BitVec 16} {is : List (BitVec 16)} (h : (d.ring f r).fetching = i :: is) (e : HostErr)
    (l1 l2 : HostRead) : d.arrive f r (.err e) l1 l2 =
      (d.onRing f r (fun R => { R with ferr := true, sqHead := i, fetching := [] })).aer f (aerBit e) := by
  rw [Dev.arrive, h]
  show d.fetchError f r (aerBit e) = _
  rw [Dev.fetchError, h]

/-- What an error leaves of the slot whose oldest fetch named entry `i` (R333). -/
def Dev.FetchFailed (d e : Dev) (f : FnId) (r : Fin 64) (i : BitVec 16) : Prop :=
  (e.ring f r).ferr = true ∧ (e.ring f r).sqHead = i ∧ (e.ring f r).fetching = [] ∧ e.items = d.items

theorem Dev.arrive_err_spec {i : BitVec 16} {is : List (BitVec 16)} (h : (d.ring f r).fetching = i :: is) (e : HostErr)
    (l1 l2 : HostRead) :
    d.FetchFailed (d.arrive f r (.err e) l1 l2) f r i := by
  rw [Dev.FetchFailed, Dev.arrive_err h, Dev.aer, Dev.ring_onFn _ (by exact fun _ => rfl), Dev.ring_onRing_self]
  exact ⟨rfl, rfl, rfl, rfl⟩

theorem entry_err {i : BitVec 16} {is : List (BitVec 16)} (h : (s.dev.ring f r).fetching = i :: is) (e : HostErr)
    (l1 l2 : HostRead) : AnswersWith (.entryArrival f r (.err e) l1 l2) s (fun d => s.dev.FetchFailed d f r i) :=
  ⟨_, rfl, rfl, Dev.arrive_err_spec h e l1 l2⟩

theorem timeout_err {i : BitVec 16} {is : List (BitVec 16)} (h : (s.dev.ring f r).fetching = i :: is) :
    AnswersWith (.completionTimeout (.entry f r)) s (fun d => s.dev.FetchFailed d f r i) :=
  ⟨_, rfl, rfl, Dev.arrive_err_spec h .timeout (.err .timeout) (.err .timeout)⟩

theorem completionTimeout_list (f : FnId) (r : Fin 64) (bs : List Byte) (s : State) :
    exec (.completionTimeout (.list f r bs false)) s = exec (.entryArrival f r (.data bs) (.err .timeout) (.data [])) s ∧
    exec (.completionTimeout (.list f r bs true)) s = exec (.entryArrival f r (.data bs) (.data []) (.err .timeout)) s :=
  ⟨congrArg s.answer (if_neg Bool.false_ne_true), congrArg s.answer (if_pos rfl)⟩

/-- A doorbell page's word that a slot takes (R330, R331, R333). -/
theorem doorbell_words (h : s.dev.doorbellTaken f = true) (hr : r.val < s.dev.ringCount f) (v : DW) :
    Answers (.sqtailWrite f r v) s ((s.dev.onRing f r (fun R =>
      if v.toNat % 65536 < 2 ^ R.log2sq.toNat then { R with sqTail := v.setWidth 16 }
      else { R with dberr := true })).onCore .warden (fun k => { k with ipend := k.ipend ||| 0x40#9 })) ∧
    Answers (.cqheadWrite f r v) s ((s.dev.onRing f r (fun R =>
      if v.toNat % 65536 < 2 ^ (if isEvent f r.val then R.log2sq.toNat else R.log2cq.toNat) then { R with cqHead := v.setWidth 16 }
      else { R with dberr := true })).onCore .warden (fun k => { k with ipend := k.ipend ||| 0x40#9 })) := by
  simp only [← Ring.writeSqTail_eq, ← Ring.writeCqHead_eq]
  exact ⟨congrArg s.answer (Dev.doorbell_taken h hr _), congrArg s.answer (Dev.doorbell_taken h hr _)⟩

theorem doorbell_ignored (h : s.dev.doorbellTaken f = false ∨ s.dev.ringCount f ≤ r.val) (v : DW) :
    Answers (.sqtailWrite f r v) s s.dev ∧ Answers (.cqheadWrite f r v) s s.dev ∧ Answers (.ferrClear f r v) s s.dev ∧
    Answers (.ringEnableWrite f r v) s s.dev :=
  ⟨congrArg s.answer (Dev.doorbell_ignored h _), congrArg s.answer (Dev.doorbell_ignored h _),
    congrArg s.answer (Dev.onSlot_ignored h _), congrArg s.answer (Dev.onSlot_ignored h _)⟩

/-- Settles O33: a word of a slot by the equation of its write, a fetch by `FetchedMore`, an error by `Dev.arrive_err`. -/
theorem doorbellsAndFetches : Obligations.DoorbellsAndFetches := by
  unfold Obligations.DoorbellsAndFetches
  refine ⟨⟨fun f r v s h => ?_, fun f r v s h hr => ?_⟩, fun s => answers_entryFetch_none, fun s f r h => ?_,
    fun f r e l1 l2 s h => ?_, fun f r e l1 l2 s i is h => ?_, completionTimeout_list, fun p s => rfl⟩
  · exact doorbell_ignored h v
  · intro R rings
    obtain ⟨hsq, hcq⟩ := doorbell_words h hr v
    refine ⟨hsq, fun he => ?_, fun he => ?_, congrArg s.answer (Dev.onSlot_taken h hr _), fun he hv => ?_,
      fun he hv => ⟨fun hs => ?_, fun hs => ?_⟩, fun he => ?_⟩
    · rw [he] at hcq
      exact hcq
    · rw [he] at hcq
      exact hcq
    · exact answers_ringEnableWrite h hr (Ring.writeEnable_off _ _ _ he hv)
    · exact answers_ringEnableWrite h hr (Ring.writeEnable_starts he hv (ringStarts_iff.2 hs))
    · exact answers_ringEnableWrite h hr (Ring.writeEnable_refused he hv (Bool.not_eq_true _ ▸ mt ringStarts_iff.1 hs))
    · exact congrArg s.answer ((Dev.onSlot_taken h hr _).trans (Dev.onRing_congr (Ring.writeEnable_on _ _ _ he)))
  · obtain ⟨n, h1, h4, hf⟩ := entryFetch_fetches h
    have ha := answers_entryFetch h
    generalize (List.range 4).foldl (fun d _ => d.fetchOne f r) s.dev = e at ha hf
    exact ha.answersWith ⟨n, h1, h4, hf.head, hf.fetching, hf.out, hf.items⟩
  · exact ⟨congrArg s.answer (Dev.arrive_of_idle h e l1 l2), congrArg s.answer (Dev.arrive_of_idle h _ _ _)⟩
  · exact ⟨entry_err h e l1 l2, timeout_err h⟩

end Sys2Proof.Machine
end

section
/-! Arriving entries (O34): an entry that passes its checks becomes an item, one that fails an item with its status and a
record on chain 16 (R336 to R343, R361). -/

namespace Sys2Proof.Machine
open Sys2Proof

variable {d : Dev} {f : FnId} {r : Fin 64} {s : State}

/-! ### What reading the lists and joining a batch change -/

/-- `e` is `d` with other words sent over the port. -/
def Dev.SentOnly (d e : Dev) : Prop := ∃ o, e = { d with host := { d.host with out := o } }

theorem Dev.SentOnly.refl (d : Dev) : d.SentOnly d := ⟨d.host.out, rfl⟩

theorem Dev.SentOnly.trans {e c : Dev} (h : d.SentOnly e) (k : e.SentOnly c) : d.SentOnly c := by
  obtain ⟨o, rfl⟩ := h
  obtain ⟨o', rfl⟩ := k
  exact ⟨o', rfl⟩

theorem Dev.SentOnly.ring {e : Dev} (h : d.SentOnly e) (f : FnId) (r : Fin 64) : e.ring f r = d.ring f r := by
  obtain ⟨o, rfl⟩ := h
  rfl

theorem Dev.foldl_send_sentOnly {α : Type} (g : α → Out) (l : List α) (d : Dev) :
    d.SentOnly (l.foldl (fun d k => d.send (g k)) d) := by
  induction l generalizing d with
  | nil => exact .refl d
  | cons k l ih => exact .trans ⟨_, rfl⟩ (ih (d.send (g k)))

theorem Dev.readList_sentOnly (d : Dev) (f : FnId) (g : SegField) : d.SentOnly (d.readList f g) := by
  unfold Dev.readList
  split
  · unfold Dev.readHost
    split
    · exact .refl d
    · exact Dev.foldl_send_sentOnly _ _ d
  · exact .refl d

/-- An item that joins a batch changes the setter alone. -/
theorem Dev.join_frame (d : Dev) (i : Item) : ∃ st, d.join i = { d with setter := st } := by
  unfold Dev.join
  dsimp only
  repeat' split
  all_goals exact ⟨_, rfl⟩

/-! ### An entry with its lists -/

/-- The device that has taken an entry's fetch off its ring and has read the entry's lists. -/
def Dev.listed (d : Dev) (f : FnId) (r : Fin 64) (is : List (BitVec 16)) (gi go : SegField) : Dev :=
  ((d.onRing f r (fun R => { R with fetching := is })).readList f gi).readList f go

/-- The item of an entry (R361). -/
def Dev.entryItem (d : Dev) (f : FnId) (r : Fin 64) (dws : List DW) (gi go : SegField) (sess : Option Session) : Item :=
  { id := d.nextItem, fn := f, slot := r.val, dws := dws, inSegs := gi.segs, outSegs := go.segs, stage := .warden,
    part := d.itemPart f sess, qos := itemQos dws sess, joined := d.now }

/-- The session whose window and count have moved takes its place (R343). -/
def Dev.putSession (d : Dev) : Option Session → Dev
  | some s => { d with sessions := d.sessions.map (fun (x : Session) => if x.num = s.num then s else x) }
  | none => d

/-- The device that has taken an item that is to run: with the setter, or on the warden. -/
def Dev.takeItem (d : Dev) (it : Item) : Dev :=
  if d.runsOnPier it.fn it.opc then
    ({ d with items := d.items ++ [{ it with stage := .setter }] }).join { it with stage := .setter }
  else { d with items := d.items ++ [it] }

/-- The session of an entry that fails, for its record. -/
def Dev.failedSession (d : Dev) (f : FnId) (dws : List DW) : Option Session :=
  if d.takesSession f ((dws.getD 0 0).toNat % 256) then
    (d.session? ((dws.getD 1 0).toNat % 65536)).filter (fun s => s.opened && s.fn = f) else none

/-- What an entry becomes once checks 1 to 7 have judged it: an item that is to run, or one that fails. -/
def Dev.judged (d : Dev) (f : FnId) (r : Fin 64) (dws : List DW) (gi go : SegField) : EntryCheck → Dev
  | .pass sess =>
    (({ d with nextItem := d.nextItem + 1 } : Dev).putSession sess).takeItem (d.entryItem f r dws gi go sess)
  | .fail st =>
    Dev.endItem16 { d with
      nextItem := d.nextItem + 1
      items := d.items ++ [d.entryItem f r dws gi go (d.failedSession f dws)] }
      (d.entryItem f r dws gi go (d.failedSession f dws)) st 0

theorem Dev.arrive_data {i : BitVec 16} {is : List (BitVec 16)} (h : (d.ring f r).fetching = i :: is) (bs : List Byte)
    (l1 l2 : HostRead) :
    let dws := entryDws (fitBytes 64 bs)
    let gi := inField dws l1
    let go := outField dws l2
    let d0 := d.listed f r is gi go
    d.arrive f r (.data bs) l1 l2 = d0.judged f r dws gi go (entryCheck7 d0 f dws gi go) := by
  intro dws gi go d0
  unfold Dev.arrive
  split
  · next hn => cases hn.symm.trans h
  · next hn =>
    cases hn.symm.trans h
    dsimp -zeta only
    extract_lets e res sess it c _
    show _ = e.judged f r dws gi go res
    clear_value e
    clear_value res
    cases res with
    | fail st => rfl
    | pass x => cases x <;> rfl

/-! ### An entry that passes -/

theorem Dev.takeItem_cases (d : Dev) (it : Item) :
    ∃ st, d.takeItem it = { d with
      items := d.items ++ [{ it with stage := if d.runsOnPier it.fn it.opc then .setter else it.stage }], setter := st } := by
  cases h : d.runsOnPier it.fn it.opc with
  | true =>
    obtain ⟨st, e⟩ := Dev.join_frame { d with items := d.items ++ [{ it with stage := .setter }] } { it with stage := .setter }
    exact ⟨st, (if_pos h).trans e⟩
  | false => exact ⟨d.setter, if_neg (by simp [h])⟩

theorem Dev.putSession_frame (d : Dev) (x : Option Session) : ∃ l, d.putSession x = { d with sessions := l } ∧
    ∀ y, x = some y → ∀ z ∈ l, z.num = y.num → z = y := by
  cases x with
  | none => exact ⟨d.sessions, rfl, fun y h => by cases h⟩
  | some y =>
    refine ⟨_, rfl, fun y' h z hz hn => ?_⟩
    cases h
    obtain ⟨w, -, rfl⟩ := List.mem_map.1 hz
    by_cases hw : w.num = y.num
    · exact if_pos hw
    · rw [if_neg hw] at hn
      exact absurd hn hw

/-- The function, the port and the items of the device that has read an entry's lists. -/
theorem Dev.listed_frame (d : Dev) (f : FnId) (r : Fin 64) (is : List (BitVec 16)) (gi go : SegField) :
    ∃ h, d.listed f r is gi go = { d with host := h } ∧ ((d.listed f r is gi go).ring f r).fetching = is := by
  have hs : (d.onRing f r (fun R => { R with fetching := is })).SentOnly (d.listed f r is gi go) :=
    (Dev.readList_sentOnly _ f gi).trans (Dev.readList_sentOnly _ f go)
  have hr := congrArg Ring.fetching (d.ring_onRing_self f r fun R => { R with fetching := is })
  rw [← hs.ring] at hr
  obtain ⟨o, e⟩ := hs
  exact ⟨_, e.trans rfl, hr⟩

theorem answersWith_entryArrival {i : BitVec 16} {is : List (BitVec 16)} (h : (s.dev.ring f r).fetching = i :: is) (bs : List Byte)
    (l1 l2 : HostRead) {Q : Dev → Prop} :
    let dws := entryDws (fitBytes 64 bs)
    let gi := inField dws l1
    let go := outField dws l2
    let d0 := s.dev.listed f r is gi go
    Q (d0.judged f r dws gi go (entryCheck7 d0 f dws gi go)) → AnswersWith (.entryArrival f r (.data bs) l1 l2) s Q := by
  intro dws gi go d0 hQ
  exact ⟨_, rfl, rfl, (Dev.arrive_data h bs l1 l2).symm ▸ hQ⟩

/-! ### An entry that fails -/

theorem map_last_item {l : List Item} {it : Item} (h : ∀ x ∈ l, x.id ≠ it.id) (j : Item) :
    (l ++ [it]).map (fun x => if x.id = it.id then j else x) = l ++ [j] := by
  have hl : l.map (fun x => if x.id = it.id then j else x) = l :=
    (List.map_congr_left fun x hx => if_neg (h x hx)).trans (List.map_id l)
  rw [List.map_append, hl]
  simp

theorem filter_last_item {l : List Item} {it : Item} (h : ∀ x ∈ l, x.id ≠ it.id) :
    (l ++ [it]).filter (fun x => x.id ≠ it.id) = l := by
  rw [List.filter_append, List.filter_eq_self.2 fun x hx => by simpa using h x hx]
  simp

theorem Dev.record16_of_refused (h : d.recordsAllowed = false) (it : Item) : d.record16 it = d.dropItem it.id := by
  simp [Dev.record16, h]

theorem Dev.record16_of_exhausted (h : d.recordsAllowed = true) (hc : cseqMax ≤ (d.acceptedHead 16).1) (it : Item) :
    d.record16 it = d.exhaust16.dropItem it.id := by
  simp [Dev.record16, h, hc]

theorem Dev.record16_of_allowed (h : d.recordsAllowed = true) (hc : (d.acceptedHead 16).1 < cseqMax) (it : Item) :
    d.record16 it = (d.append16 (d.itemFields it.settled) (some it.id)).onItem it.id
      (fun _ => { it.settled with stage := .recorded 16 ((d.acceptedHead 16).1 + 1) }) := by
  simp only [Dev.record16, h, if_neg (Nat.not_le.2 hc), Item.settled_id, Bool.not_true, Bool.false_eq_true, if_false]

theorem Dev.exhaust16_known (h : d.audit.full.contains 16 = true) : d.exhaust16 = d := if_pos h

theorem Dev.exhaust16_new (h : d.audit.full.contains 16 = false) : ∃ q fl ks, d.exhaust16 = { d with
    fc := { d.fc with detq := q }, flash := fl, ks := ks, audit := { d.audit with full := d.audit.full ++ [16] }
    board := { d.board with alert := true }, life := { d.life with life := 3#3, op := .recovery } } := by
  obtain ⟨q, fl, ks, e⟩ := Dev.enterRecovery_frame { d with audit := { d.audit with full := d.audit.full ++ [16] } }
  exact ⟨q, fl, ks, (if_neg (by rw [h]; exact Bool.false_ne_true)).trans e⟩

/-- The device with one more item in its tracker. -/
def Dev.tracking (d : Dev) (it : Item) : Dev := { d with items := d.items ++ [it] }

/-- An item that has failed, with its status. -/
def Item.failed (it : Item) (st : Nat) : Item :=
  { it with status := BitVec.ofNat 8 st, result := 0, outLen := 0, output := [], rdata6 := 0, rdata7 := 0 }

section Last

variable {it : Item} (st : Nat) (hid : ∀ x ∈ d.items, x.id ≠ it.id)
include hid

theorem Dev.endItem16_tracking_recorded (hf : it.flr = false) (h : d.recordsAllowed = true)
    (hc : (d.acceptedHead 16).1 < cseqMax) :
    ((d.tracking it).endItem16 it st 0).items =
      d.items ++ [{ it.failed st with stage := .recorded 16 ((d.acceptedHead 16).1 + 1) }] ∧
    ((d.tracking it).endItem16 it st 0).audit.recs.length = d.audit.recs.length + 1 := by
  have hr : (d.tracking it).endItem16 it st 0 = _ := Dev.record16_of_allowed (d := d.tracking it) h hc (it.failed st)
  obtain ⟨q, m, b, w, e⟩ :=
    Dev.append16_of_lt (d := d.tracking it) ((d.tracking it).itemFields (it.failed st).settled) (some it.id) hc
  rw [hr, show (it.failed st).id = it.id from rfl, e, Item.settled_of_not_flr (by exact hf)]
  exact ⟨map_last_item hid _, by simp [Dev.onItem, Dev.tracking]⟩

theorem Dev.endItem16_tracking_refused (h : d.recordsAllowed = false) :
    ((d.tracking it).endItem16 it st 0).items = d.items ∧ ((d.tracking it).endItem16 it st 0).audit = d.audit := by
  have hr : (d.tracking it).endItem16 it st 0 = _ := Dev.record16_of_refused (d := d.tracking it) h (it.failed st)
  rw [hr]
  exact ⟨filter_last_item hid, rfl⟩

/-- The item's entry leaves the tracker again where chain 16 is exhausted. -/
theorem Dev.endItem16_tracking_exhausted (h : d.recordsAllowed = true) (hc : cseqMax ≤ (d.acceptedHead 16).1) :
    (d.audit.full.contains 16 = false → ((d.tracking it).endItem16 it st 0).items = d.items ∧
      ((d.tracking it).endItem16 it st 0).audit.recs = d.audit.recs ∧
      ((d.tracking it).endItem16 it st 0).life.op = .recovery) ∧
    (d.audit.full.contains 16 = true → ((d.tracking it).endItem16 it st 0).items = d.items ∧
      ((d.tracking it).endItem16 it st 0).audit = d.audit) := by
  have hr : (d.tracking it).endItem16 it st 0 = _ := Dev.record16_of_exhausted (d := d.tracking it) h hc (it.failed st)
  rw [hr]
  refine ⟨fun hn => ?_, fun hy => ?_⟩
  · obtain ⟨q, fl, ks, e⟩ := Dev.exhaust16_new (d := d.tracking it) hn
    rw [e]
    exact ⟨filter_last_item hid, rfl, rfl⟩
  · rw [Dev.exhaust16_known (d := d.tracking it) hy]
    exact ⟨filter_last_item hid, rfl⟩

end Last

/-- What an entry that passes leaves of the device that has read its lists. -/
theorem Dev.judged_pass {d e : Dev} {h : HostPort} {is : List (BitVec 16)} (he : e = { d with host := h })
    (hf : (e.ring f r).fetching = is) (dws : List DW) (gi go : SegField) (sess : Option Session) :
    (∃ it, (e.judged f r dws gi go (.pass sess)).items = d.items ++ [it] ∧ it.id = d.nextItem ∧ it.fn = f ∧ it.slot = r.val ∧
      it.dws = dws ∧ it.inSegs = gi.segs ∧ it.outSegs = go.segs ∧
      it.stage = (if d.runsOnPier f ((dws.getD 0 0).toNat % 256) then .setter else .warden)) ∧
    (e.judged f r dws gi go (.pass sess)).nextItem = d.nextItem + 1 ∧
    (∀ x, sess = some x → ∀ y ∈ (e.judged f r dws gi go (.pass sess)).sessions, y.num = x.num → y = x) ∧
    ((e.judged f r dws gi go (.pass sess)).ring f r).fetching = is ∧
    (e.judged f r dws gi go (.pass sess)).host.out = e.host.out := by
  obtain ⟨l, hl, hs⟩ := Dev.putSession_frame { e with nextItem := e.nextItem + 1 } sess
  obtain ⟨st, ht⟩ := Dev.takeItem_cases (({ e with nextItem := e.nextItem + 1 } : Dev).putSession sess)
    (e.entryItem f r dws gi go sess)
  rw [hl] at ht
  have hj : e.judged f r dws gi go (.pass sess) = _ := (congrArg (fun c : Dev => c.takeItem _) hl).trans ht
  rw [hj]
  subst he
  exact ⟨⟨_, rfl, rfl, rfl, rfl, rfl, rfl, rfl, rfl⟩, rfl, hs, hf, rfl⟩

/-- What an entry that fails leaves of the device that has read its lists (R339, R416). -/
theorem Dev.judged_fail {d e : Dev} {h : HostPort} (he : e = { d with host := h }) (f : FnId) (r : Fin 64) (dws : List DW)
    (gi go : SegField) (st : Nat) (hid : ∀ x ∈ d.items, x.id < d.nextItem) :
    let c := e.judged f r dws gi go (.fail st)
    (d.recordsAllowed = true → (d.acceptedHead 16).1 < cseqMax →
      ∃ it, c.items = d.items ++ [it] ∧ it.id = d.nextItem ∧ it.status = BitVec.ofNat 8 st ∧ it.result = 0 ∧
        it.stage = .recorded 16 ((d.acceptedHead 16).1 + 1) ∧ c.audit.recs.length = d.audit.recs.length + 1) ∧
    (d.recordsAllowed = false → c.items = d.items ∧ c.audit = d.audit) ∧
    (d.recordsAllowed = true → cseqMax ≤ (d.acceptedHead 16).1 → d.audit.full.contains 16 = false →
      c.items = d.items ∧ c.audit.recs = d.audit.recs ∧ c.life.op = .recovery) ∧
    (d.recordsAllowed = true → cseqMax ≤ (d.acceptedHead 16).1 → d.audit.full.contains 16 = true →
      c.items = d.items ∧ c.audit = d.audit) := by
  subst he
  intro c
  have hne : ∀ x ∈ d.items, x.id ≠ d.nextItem := fun x hx => Nat.ne_of_lt (hid x hx)
  refine ⟨fun h1 h2 => ?_, fun h1 => ?_, fun h1 h2 => ?_, fun h1 h2 => ?_⟩
  · obtain ⟨hi, hr⟩ := Dev.endItem16_tracking_recorded
      (d := { d with host := h, nextItem := d.nextItem + 1 }) (it := Dev.entryItem { d with host := h } f r dws gi go
        (Dev.failedSession { d with host := h } f dws)) st hne rfl h1 h2
    exact ⟨_, hi, rfl, rfl, rfl, rfl, hr⟩
  · exact Dev.endItem16_tracking_refused (d := { d with host := h, nextItem := d.nextItem + 1 }) st hne h1
  · exact (Dev.endItem16_tracking_exhausted (d := { d with host := h, nextItem := d.nextItem + 1 }) st hne h1 h2).1
  · exact (Dev.endItem16_tracking_exhausted (d := { d with host := h, nextItem := d.nextItem + 1 }) st hne h1 h2).2

/-- Settles O34: an entry is what `Dev.judged` makes of it, an item of the setter or the warden, or one that ends on chain 16. -/
theorem entryArrivals : Obligations.EntryArrivals := by
  unfold Obligations.EntryArrivals
  intro f r bs l1 l2 s i is h dws d0 res
  obtain ⟨hh, he, hfet⟩ := s.dev.listed_frame f r is (inField dws l1) (outField dws l2)
  have ha := fun {Q} => answersWith_entryArrival h bs l1 l2 (Q := Q)
  have hd : s.dev.listed f r is (inField dws l1) (outField dws l2) = d0 := rfl
  have hc : entryCheck7 d0 f dws (inField dws l1) (outField dws l2) = res := rfl
  simp only [show entryDws (fitBytes 64 bs) = dws from rfl, hd, hc] at ha
  rw [hd] at he hfet
  clear_value d0 res dws
  refine ⟨fun sess hr => ha ?_, fun st hr hid => ?_⟩
  · subst hr
    exact Dev.judged_pass he hfet _ _ _ _
  · subst hr
    obtain ⟨h1, h2, h3, h4⟩ := Dev.judged_fail he f r dws (inField dws l1) (outField dws l2) st hid
    exact ⟨fun ha1 hc => ha (h1 ha1 hc), fun ha1 => ha (h2 ha1), fun ha1 hc hf => ha (h3 ha1 hc hf),
      fun ha1 hc hf => ha (h4 ha1 hc hf)⟩

end Sys2Proof.Machine
end

section
/-!
Operations on the warden, as the claims state them: an operation whose command is `Dev.wardenOp` is `OnWarden`, and what it does
under the checks that it passes follows (`Serves`, `Refuses`).
-/

namespace Sys2Proof.Machine
open Sys2Proof

variable {d e : Dev} {s : State} {opc : Nat} {i : Nat → Fetched → Instr}

/-! ### The device that has read an item's input and the keystone words of its operation -/

/-- `e` is `d` with more sent over the port and more detections on their way. -/
def Dev.Prepared (d e : Dev) : Prop :=
  ∃ o q, e = { d with host := { d.host with out := o }, fc := { d.fc with detq := q } }

theorem Dev.Prepared.trans {c : Dev} (h : d.Prepared e) (k : e.Prepared c) : d.Prepared c := by
  obtain ⟨o, q, rfl⟩ := h
  obtain ⟨o', q', rfl⟩ := k
  exact ⟨o', q', rfl⟩

theorem Dev.SentOnly.prepared (h : d.SentOnly e) : d.Prepared e := by
  obtain ⟨o, rfl⟩ := h
  exact ⟨o, d.fc.detq, rfl⟩

theorem Dev.readHost_sentOnly (d : Dev) (f : FnId) (a : QW) (n : Nat) : d.SentOnly (d.readHost f a n) := by
  unfold Dev.readHost
  split
  · exact .refl d
  · exact Dev.foldl_send_sentOnly _ _ d

theorem Dev.readSegs_sentOnly (d : Dev) (f : FnId) (l : List (QW × Nat)) : d.SentOnly (d.readSegs f l) := by
  show d.SentOnly (l.foldl (fun d x => d.readHost f x.1 x.2) d)
  induction l generalizing d with
  | nil => exact .refl d
  | cons x l ih => exact (d.readHost_sentOnly f x.1 x.2).trans (ih _)

theorem Dev.fetchInput_sentOnly (d : Dev) (x : Item) : d.SentOnly (d.fetchInput x) := by
  unfold Dev.fetchInput
  split
  · exact .refl d
  · exact d.readSegs_sentOnly _ _

theorem Dev.keyUse_prepared (d : Dev) (w n : Nat) : d.Prepared (d.keyUse w n) := by
  obtain ⟨q, h⟩ := d.keyUse_frame w n
  exact ⟨d.host.out, q, h⟩

theorem Dev.Prepared.refl (d : Dev) : d.Prepared d := (Dev.SentOnly.refl d).prepared

theorem Dev.opKeys_prepared (d : Dev) (opc : Nat) : d.Prepared (d.opKeys opc) := by
  unfold Dev.opKeys
  extract_lets d1 d2
  have h1 : d.Prepared d1 := by
    unfold d1
    split
    · exact d.keyUse_prepared 0 8
    · exact .refl d
  have h2 : d1.Prepared d2 := by
    unfold d2
    split
    · exact d1.keyUse_prepared 8 0x14
    · exact .refl d1
  clear_value d1 d2
  split
  · exact (h1.trans h2).trans ((d2.keyUse_prepared _ _).trans (Dev.keyUse_prepared _ _ _))
  · exact h1.trans h2

theorem Dev.prepared_input (d : Dev) (x : Item) (opc : Nat) : d.Prepared ((d.fetchInput x).opKeys opc) :=
  (d.fetchInput_sentOnly x).prepared.trans (Dev.opKeys_prepared _ opc)

/-! ### The cases of `Dev.wardenOp` -/

theorem Dev.id_of_wardenItem {it : Nat} {x : Item} (h : d.wardenItem it opc = some x) : x.id = it :=
  (Dev.item?_eq_some (Option.filter_eq_some_iff.1 h).1).1

section WardenOp

variable {it : Nat} {inp : Fetched} {x : Item} {early : Dev → Item → Option Verdict} {g : Dev → Item → List Byte → Dev}

theorem Dev.wardenOp_none (h : d.wardenItem it opc = none) : d.wardenOp it opc inp early g = d := by
  rw [Dev.wardenOp, h]

variable (h : d.wardenItem it opc = some x)
include h

theorem Dev.wardenOp_refused {v : Verdict} (he : early d x = some v) :
    d.wardenOp it opc inp early g = d.finishWarden x v [] := by
  simp only [Dev.wardenOp, h, he]

theorem Dev.wardenOp_failed {c : Nat} (he : early d x = none) (hf : x.fetch inp = .error c) :
    d.wardenOp it opc inp early g = (d.fetchInput x).finishWarden x { status := c } [] := by
  simp only [Dev.wardenOp, h, he, hf]

theorem Dev.wardenOp_served {bs : List Byte} (he : early d x = none) (hf : x.fetch inp = .ok bs) :
    d.wardenOp it opc inp early g = g ((d.fetchInput x).opKeys opc) x bs := by
  simp only [Dev.wardenOp, h, he, hf]

end WardenOp

/-- An operation of the warden that waits while `waits` holds it. -/
def Dev.heldOp (d : Dev) (it opc : Nat) (inp : Fetched) (waits : Dev → Item → Bool) (early : Dev → Item → Option Verdict)
    (g : Dev → Item → List Byte → Dev) : Dev :=
  match d.wardenItem it opc with
  | none => d
  | some x => if waits d x then d else d.wardenOp it opc inp early g

theorem onWarden_of_held {waits : Dev → Item → Bool} {early : Dev → Item → Option Verdict} {g : Dev → Item → List Byte → Dev}
    (hx : ∀ it inp s, exec (i it inp) s = s.answer (s.dev.heldOp it opc inp waits early g)) : OnWarden i opc waits early g := by
  intro it inp s
  have ha : Answers (i it inp) s (s.dev.heldOp it opc inp waits early g) := hx it inp s
  refine ⟨fun hn => ?_, fun x hi => ⟨fun hw => ?_, fun hw => ?_⟩⟩
  · simp only [Dev.heldOp, hn] at ha
    exact ha
  · simp only [Dev.heldOp, hi, hw, if_true] at ha
    exact ha
  · simp only [Dev.heldOp, hi, hw, Bool.false_eq_true, if_false] at ha
    refine ⟨fun v he => ?_, fun c he hf => ?_, fun bs he hf => ?_⟩
    · rwa [Dev.wardenOp_refused hi he] at ha
    · rwa [Dev.wardenOp_failed hi he hf] at ha
    · rwa [Dev.wardenOp_served hi he hf] at ha

/-- An operation that waits for no other item; its effect may name the item by its number. -/
theorem onWarden_of_op {early : Dev → Item → Option Verdict} {g : Nat → Dev → Item → List Byte → Dev}
    {g' : Dev → Item → List Byte → Dev}
    (hx : ∀ it inp s, exec (i it inp) s = s.answer (s.dev.wardenOp it opc inp early (g it)))
    (hg : ∀ d x bs, g x.id d x bs = g' d x bs) : OnWarden i opc atOnce early g' := by
  refine onWarden_of_held fun it inp s => (hx it inp s).trans (congrArg s.answer ?_)
  cases hi : s.dev.wardenItem it opc with
  | none =>
    rw [Dev.wardenOp_none hi]
    simp only [Dev.heldOp, hi]
  | some x =>
    obtain rfl := Dev.id_of_wardenItem hi
    simp only [Dev.heldOp, Dev.wardenOp, hi, hg, atOnce, Bool.false_eq_true, if_false]

theorem OnWarden.congr {waits waits' : Dev → Item → Bool} {early early' : Dev → Item → Option Verdict}
    {g g' : Dev → Item → List Byte → Dev} (h : OnWarden i opc waits early g) (hw : ∀ d x, waits d x = waits' d x)
    (he : ∀ d x, early d x = early' d x) (hg : ∀ d x bs, g d x bs = g' d x bs) : OnWarden i opc waits' early' g' := by
  obtain rfl : waits = waits' := funext fun d => funext (hw d)
  obtain rfl : early = early' := funext fun d => funext (he d)
  obtain rfl : g = g' := funext fun d => funext fun x => funext (hg d x)
  exact h

theorem OnWarden.serves {waits : Dev → Item → Bool} {early : Dev → Item → Option Verdict} {g g' : Dev → Item → List Byte → Dev}
    {H : Dev → Item → List Byte → Prop} (h : OnWarden i opc waits early g)
    (hH : ∀ d e x bs, H d x bs → d.Prepared e → waits d x = false ∧ early d x = none ∧ g e x bs = g' e x bs) :
    Serves i opc H g' := by
  intro it inp s x bs hi hf hx
  obtain ⟨hw, he, hg⟩ := hH s.dev _ x bs hx (s.dev.prepared_input x opc)
  have ha := (((h it inp s).2 x hi).2 hw).2.2 bs he hf
  rwa [hg] at ha

theorem OnWarden.refuses {waits : Dev → Item → Bool} {early : Dev → Item → Option Verdict} {g : Dev → Item → List Byte → Dev}
    {H : Dev → Item → Prop} {v : Verdict} (h : OnWarden i opc waits early g)
    (hH : ∀ d x, H d x → waits d x = false ∧ early d x = some v) : Refuses i opc H v := by
  intro it inp s x hi hx
  obtain ⟨hw, he⟩ := hH s.dev x hx
  exact (((h it inp s).2 x hi).2 hw).1 v he

end Sys2Proof.Machine
end

section
/-! Sessions, AUDIT_ATTEST and SEAL_NOW (O47): R404, R405, R422 and R426. -/

namespace Sys2Proof.Machine
open Sys2Proof

variable {d e : Dev}

/-! ### The number of a new session (R404) -/

/-- The search from `n` passes taken numbers alone, and stops on a free one or after `k` numbers. -/
theorem Dev.lowestSession_spec (d : Dev) (k n : Nat) :
    (∀ m, n ≤ m → m < d.lowestSession k n → d.sessionTaken m = true) ∧
    (d.sessionTaken (d.lowestSession k n) = false ∨ d.lowestSession k n = n + k) := by
  induction k generalizing n with
  | zero => exact ⟨fun m h1 h2 => absurd h1 (Nat.not_le.2 h2), .inr rfl⟩
  | succ k ih =>
    cases ht : d.sessionTaken n with
    | false =>
      rw [show d.lowestSession (k + 1) n = n from if_neg (by simp [ht])]
      exact ⟨fun m h1 h2 => absurd h1 (Nat.not_le.2 h2), .inl ht⟩
    | true =>
      rw [show d.lowestSession (k + 1) n = d.lowestSession k (n + 1) from if_pos ht]
      obtain ⟨h1, h2⟩ := ih (n + 1)
      refine ⟨fun m hn hm => ?_, h2.imp_right fun h => by omega⟩
      rcases Nat.eq_or_lt_of_le hn with rfl | hlt
      · exact ht
      · exact h1 m hlt hm

theorem Dev.mem_nums_of_taken {n : Nat} (h : d.sessionTaken n = true) : n ∈ d.sessions.map Session.num := by
  obtain ⟨s, hs, hn⟩ := List.any_eq_true.1 h
  rw [Bool.and_eq_true, decide_eq_true_eq] at hn
  exact List.mem_map.2 ⟨s, hs, hn.1⟩

/-- As many numbers as there are sessions are tried, and one more is free: not all can be taken. -/
theorem Dev.lowestSession_free (d : Dev) : d.sessionTaken (d.lowestSession d.sessions.length 0) = false := by
  obtain ⟨hall, h | h⟩ := d.lowestSession_spec d.sessions.length 0
  · exact h
  · by_contra ht
    rw [Bool.not_eq_false] at ht
    rw [Nat.zero_add] at h
    rw [h] at hall ht
    have hsub : List.range (d.sessions.length + 1) ⊆ d.sessions.map Session.num := by
      intro m hm
      rcases Nat.lt_succ_iff_lt_or_eq.1 (List.mem_range.1 hm) with hm | rfl
      · exact Dev.mem_nums_of_taken (hall m (Nat.zero_le m) hm)
      · exact Dev.mem_nums_of_taken ht
    have hle := (List.subperm_of_subset List.nodup_range hsub).length_le
    simp at hle

theorem find?_addSession (x : Session) (l : List Session) : (addSession x l).find? (fun s => s.num = x.num) = some x := by
  unfold addSession
  have h : (l.filter fun s => s.num < x.num).find? (fun s => s.num = x.num) = none := by
    refine List.find?_eq_none.2 fun s hs => ?_
    have hlt : s.num < x.num := by simpa using (List.mem_filter.1 hs).2
    simpa using Nat.ne_of_lt hlt
  simp [List.find?_append, h]

theorem Dev.openSession_spec {f : Nat → Session} {n : Nat} (hf : ∀ k, (f k).num = k) (h : d.openSession f = some (n, e)) :
    n ≤ 65535 ∧ d.sessionTaken n = false ∧ e.session? n = some (f n) := by
  unfold Dev.openSession at h
  dsimp only at h
  split at h
  · cases h
  · next hn =>
    cases h
    refine ⟨Nat.not_lt.1 hn, d.lowestSession_free, ?_⟩
    have hx := find?_addSession (f (d.lowestSession d.sessions.length 0)) d.sessions
    rwa [hf] at hx

theorem Dev.lowestSession_congr (h : ∀ n, e.sessionTaken n = d.sessionTaken n) (k n : Nat) :
    e.lowestSession k n = d.lowestSession k n := by
  induction k generalizing n with
  | zero => rfl
  | succ k ih => simp only [Dev.lowestSession, h, ih]

theorem Dev.openSession_eq_none {f : Nat → Session} :
    d.openSession f = none ↔ 65535 < d.lowestSession d.sessions.length 0 := by
  unfold Dev.openSession
  dsimp only
  split
  · next h => simp [h]
  · next h => simp [h]

theorem Dev.Prepared.openSession_none {f : Nat → Session} (h : d.Prepared e) (hn : d.openSession f = none) :
    e.openSession f = none := by
  have ht : ∀ n, e.sessionTaken n = d.sessionTaken n := by
    obtain ⟨o, q, rfl⟩ := h
    exact fun _ => rfl
  have hs : e.sessions = d.sessions := by
    obtain ⟨o, q, rfl⟩ := h
    rfl
  rw [Dev.openSession_eq_none] at hn ⊢
  rwa [hs, Dev.lowestSession_congr ht]

/-! ### The operations -/

/-- The partition of a SESSION_OPEN: the VF's, or the one that PARAM names. -/
def Item.openPart (x : Item) : Fin 64 :=
  match x.fn with
  | .vf v => v
  | _ => partOf (x.bits 12 13 8)

theorem onWarden_sessionOpen : OnWarden .sessionOpen 0x60 atOnce
    (fun d x => if d.partExists x.openPart = true then none else some (.bad 0x01))
    (fun d x bs => match d.openSession (paramSession x x.openPart) with
      | none => d.finishWarden x { status := 0x13, result := 0x01 } bs
      | some o => o.2.finishWarden x { status := 0, d6 := o.1 } bs) :=
  onWarden_of_op (g := fun _ d x bs => match d.openSession (paramSession x x.openPart) with
      | none => d.finishWarden x .noSession bs
      | some (n, d) => d.finishWarden x { status := 0, d6 := n } bs) (fun _ _ _ => rfl) fun d x bs => by
    cases d.openSession (paramSession x x.openPart) <;> rfl

theorem Item.openPart_of_vf {x : Item} {q : Fin 64} (h : x.fn = .vf q) : x.openPart = q := by
  rw [Item.openPart, h]

/-- The device in which the session of a number is closed (R405). -/
def Dev.closeSession (d : Dev) (n : Nat) : Dev :=
  { d with sessions := d.sessions.map (fun (z : Session) => if z.num = n then { z with opened := false } else z) }

theorem onWarden_sessionClose : OnWarden .sessionClose 0x61 atOnce (fun _ _ => none) (fun d x bs =>
    (d.closeSession x.session).finishWarden x
      { status := 0, d6 := ((d.session? x.session).map (fun (y : Session) => y.items.toNat % 2 ^ 32)).getD 0 } bs) :=
  onWarden_of_op (fun _ _ _ => rfl) fun _ _ _ => rfl

theorem Dev.Prepared.session? (h : d.Prepared e) (n : Nat) : e.session? n = d.session? n := by
  obtain ⟨o, q, rfl⟩ := h
  rfl

/-- What an AUDIT_ATTEST refuses before it reads (R426). -/
def Dev.attestEarly (d : Dev) (x : Item) : Option Verdict :=
  if 16 < x.bits 12 4 0 then some (.bad 0x01) else if 1 < x.bits 12 9 8 then some (.bad 0x02)
  else if x.bits 12 9 8 = 1 ∧ x.room < d.flash.cert.length then some .length else none

/-- What an AUDIT_ATTEST answers over its input (R426). -/
def Dev.attest (d : Dev) (x : Item) (bs : List Byte) : Dev :=
  let c := x.bits 12 4 0
  let anchor := bs.take 576
  if x.bits 12 9 8 = 1 then d.finishWarden x (.ok d.flash.cert) bs
  else if anchorOk d.identityPub c anchor = false then d.finishWarden x (.verifyFail 0x02) bs
  else match attestRecords (d.ks.chainKey c) c 0 (sealHead anchor c) (chunksOf 64 (bs.drop 576)) with
    | .inl k => d.finishWarden x { status := 0x01, result := 0x01, d6 := k } bs
    | .inr h => d.finishWarden x
      { status := 0
        out := d.sealBytes 4 d.ks.epoch (sealEpoch anchor)
          ((List.range 17).map (fun k => if k = c then h else (0, List.replicate 16 0#8)))
        d6 := (bs.length - 576) / 64 } bs

theorem onWarden_auditAttest : OnWarden .auditAttest 0x7E atOnce Dev.attestEarly Dev.attest := by
  refine OnWarden.congr (onWarden_of_op (fun _ _ _ => rfl) fun _ _ _ => rfl) (fun _ _ => rfl) (fun d x => ?_) fun d x bs => ?_
  · simp only [Dev.attestEarly, Bool.and_eq_true, decide_eq_true_eq]
  · simp only [Dev.attest, Bool.not_eq_true'] <;> rfl

/-- Settles O47: each operation by its command, the verdicts under given checks from the operation. -/
theorem sessionsAttestationAndSeals : Obligations.SessionsAttestationAndSeals := by
  unfold Obligations.SessionsAttestationAndSeals
  refine ⟨fun part hp => ?_, fun q => ?_, fun q => ?_, fun d f n e => Dev.openSession_spec, onWarden_sessionClose, fun y => ?_,
    onWarden_auditAttest, ?_, ?_, ?_⟩
  · obtain rfl : part = Item.openPart := hp
    exact onWarden_sessionOpen
  · refine OnWarden.serves onWarden_sessionOpen fun d e x bs ⟨hf, hq, hn⟩ he => ?_
    rw [Item.openPart_of_vf hf, he.openSession_none hn, hq]
    exact ⟨rfl, rfl, rfl⟩
  · refine OnWarden.refuses onWarden_sessionOpen fun d x ⟨hf, hq⟩ => ?_
    rw [Item.openPart_of_vf hf, hq]
    exact ⟨rfl, rfl⟩
  · refine OnWarden.serves onWarden_sessionClose fun d e x bs hy he => ⟨rfl, rfl, ?_⟩
    rw [he.session?, hy]
    rfl
  · refine OnWarden.serves onWarden_auditAttest fun d e x bs ⟨h1, h2, h3⟩ he => ⟨rfl, ?_, if_pos h2⟩
    simp [Dev.attestEarly, Nat.not_lt.2 h1, h2, Nat.not_lt.2 h3]
  · refine OnWarden.serves onWarden_auditAttest fun d e x bs ⟨h1, h2, h3⟩ he => ⟨rfl, ?_, ?_⟩
    · simp [Dev.attestEarly, Nat.not_lt.2 h1, h2]
    · obtain ⟨o, q, rfl⟩ := he
      exact (if_neg (by simp [h2])).trans (if_pos h3)
  · exact onWarden_of_op (g := fun it d x bs =>
      Dev.onItem { d with audit := { d.audit with sealNow := d.audit.sealNow ++ [(it, decide (x.bits 12 0 0 = 1))] } } it
        (fun i => { i with inBytes := bs, stage := .sealWait 0 (decide (x.bits 12 0 0 = 1)) })) (fun _ _ _ => rfl) fun _ _ _ => rfl

end Sys2Proof.Machine
end

section
/-! The ward (O49): R442 to R444. -/

namespace Sys2Proof.Machine
open Sys2Proof

theorem onWarden_wardRequest : OnWarden .wardRequest 0x88 atOnce (fun _ x => if x.room < 194 then some .length else none)
    (fun d x bs =>
      let k := 1 + (d.free 384).toNat % (p384.n - 1)
      let body := leBytes 2 (x.bits 12 25 16) ++ ecPublic p384 k
      (Dev.used { d with ks := { d.ks.putBytes 0x380 (leBytes 48 k) with wardReq := some (x.bits 12 25 16) } }).finishWarden x
        (.ok (body ++ identitySign d.ks.identity body)) bs) :=
  onWarden_of_op (fun _ _ _ => rfl) fun _ _ _ => rfl

/-- What a WARD_ADMIT refuses before it reads (R443). -/
def Dev.admitEarly (d : Dev) (x : Item) : Option Verdict :=
  if d.ks.ward = false then some (.bad 0x03) else if x.inLen ≠ 290 ∨ x.room < 242 then some .length else none

/-- What a WARD_ADMIT answers over its input (R443). -/
def Dev.admitWard (d : Dev) (x : Item) (bs : List Byte) : Dev :=
  let body := bs.take 98
  if wardSigned (bs.drop 194) body ((bs.drop 98).take 96) = true ∧
      onCurve p384 (beNat ((body.drop 2).take 48)) (beNat ((body.drop 2).drop 48)) = true then
    let k := 1 + (d.free 384).toNat % (p384.n - 1)
    let adm := ecPublic p384 k ++ d.ks.wardId ++ body.take 2 ++ aesKw (wardShared k (body.drop 2)) d.ks.wtk
    d.used.finishWarden x (.ok (adm ++ identitySign d.ks.identity adm)) bs
  else d.finishWarden x (.verifyFail 0x01) bs

/-- A check that two conditions hold reads as its refusal where one of them fails. -/
theorem ite_of_not_or {α : Type} (p q : Bool) (a b : α) :
    (if !p || !q then a else b) = if p = true ∧ q = true then b else a := by
  cases p <;> cases q <;> rfl

theorem onWarden_wardAdmit : OnWarden .wardAdmit 0x89 atOnce Dev.admitEarly Dev.admitWard := by
  refine OnWarden.congr (onWarden_of_op (fun _ _ _ => rfl) fun _ _ _ => rfl) (fun _ _ => rfl) (fun d x => ?_)
    fun d x bs => ite_of_not_or _ _ _ _
  simp only [Dev.admitEarly, Bool.not_eq_true', Bool.or_eq_true, decide_eq_true_eq]
  rfl

/-- What a WARD_JOIN refuses before it reads (R443). -/
def Dev.joinEarly (d : Dev) (x : Item) : Option Verdict :=
  if d.ks.ward = true then some (.bad 0x03) else if x.bits 12 0 0 ≠ 1 ∧ x.inLen ≠ 338 then some .length else none

theorem onWarden_wardJoin : OnWarden .wardJoin 0x8A atOnce Dev.joinEarly (fun d x bs =>
      if x.bits 12 0 0 = 1 then
        let e := d.used.used.setWard (freshBytes d 32) (freshBytes d.used 8) (x.bits 12 25 16) true
        ({ e with ks := e.ks.dropReq }).finishWarden x (.ok []) bs
      else d.joinWard x bs) := by
  refine OnWarden.congr (onWarden_of_op (fun _ _ _ => rfl) fun _ _ _ => rfl) (fun _ _ => rfl) (fun d x => ?_) fun d x bs => ?_
  · simp only [Dev.joinEarly, Bool.and_eq_true, Bool.not_eq_true', decide_eq_true_eq, decide_eq_false_iff_not]
    rfl
  · simp only [decide_eq_true_eq]
    rfl

theorem onWarden_wardLeave : OnWarden .wardLeave 0x8B atOnce (fun d _ => if d.ks.ward = true then none else some (.bad 0x03))
    (fun d x bs => (d.setWard [] [] 0 false).finishWarden x (.ok []) bs) :=
  onWarden_of_op (fun _ _ _ => rfl) fun _ _ _ => rfl

/-- What a WARD_EXPORT refuses before it reads (R444). -/
def Dev.exportEarly (d : Dev) (x : Item) : Option Verdict :=
  if x.stage = .stateWait then none
  else if d.ks.ward = false then some (.bad 0x03)
  else if x.bits 12 0 0 = 1 then
    match d.session? (x.bits 13 15 0) with
    | some y => if y.opened = false then some { status := 0x13 } else if x.room < blobLen 52 then some .length else none
    | none => some { status := 0x13 }
  else match d.activeEntry x with
    | .error v => some v
    | .ok e => if x.room < blobLen (31 + kbKeyLen e) then some .length else none

/-- What a WARD_EXPORT does: a closed session waits until no item names it, a key leaves at once (R444). -/
def Dev.exportOp (d : Dev) (x : Item) (bs : List Byte) : Dev :=
  let n := x.bits 13 15 0
  if x.bits 12 0 0 = 1 then
    match d.session? n with
    | none => d.finishWarden x { status := 0x13 } bs
    | some y =>
      let e := d.closeSession n
      if e.items.any (e.sessionItem n) then e.onItem x.id (fun i => { i with stage := .stateWait })
      else e.exportBlob x 1 (sessionPayload y) bs
  else match d.activeEntry x with
    | .error v => d.finishWarden x v bs
    | .ok e => d.exportBlob x 0 (keyPayload ((d.ks.kek).getD []) e) bs

theorem onWarden_wardExport : OnWarden .wardExport 0x8C atOnce Dev.exportEarly Dev.exportOp := by
  refine OnWarden.congr (onWarden_of_op (fun _ _ _ => rfl) fun _ _ _ => rfl) (fun _ _ => rfl) (fun d x => ?_) fun d x bs => ?_
  · simp only [Dev.exportEarly, Bool.not_eq_true', decide_eq_true_eq]
    rfl
  · simp only [Dev.exportOp, decide_eq_true_eq]
    rfl

/-- What a WARD_IMPORT does with a blob that opens, and with one that does not (R444). -/
def Dev.importOp (d : Dev) (x : Item) (bs : List Byte) : Dev :=
  match d.openBlob (x.bits 12 0 0) bs with
  | .error r => d.finishWarden x (.verifyFail r) bs
  | .ok b =>
    let e := { d with flash := { d.flash with tseqIn := assocSet d.flash.tseqIn b.1 b.2.1 } }
    if x.bits 12 0 0 = 0 then e.importKeyBlob x b.2.2 bs else e.importSession x b.2.2 bs

theorem onWarden_wardImport : OnWarden .wardImport 0x8D (fun d x => decide (x.bits 12 0 0 = 0) && notItsTurn d x)
    (fun d _ => if d.ks.ward = true then none else some (.bad 0x03)) Dev.importOp :=
  OnWarden.congr (onWarden_of_held fun _ _ _ => rfl) (fun _ _ => rfl) (fun _ _ => rfl) fun d x bs => by
    cases h : d.openBlob (x.bits 12 0 0) bs <;> simp only [Dev.importOp, h]

theorem Dev.Prepared.openBlob {d e : Dev} (h : d.Prepared e) (kind : Nat) (bs : List Byte) :
    e.openBlob kind bs = d.openBlob kind bs := by
  obtain ⟨o, q, rfl⟩ := h
  rfl

/-- A blob that opens is newer than the last of its source, and is meant for this device in its ward (R444). -/
theorem Dev.openBlob_ok {d : Dev} {kind : Nat} {b p : List Byte} {source tseq : Nat}
    (h : d.openBlob kind b = .ok (source, tseq, p)) :
    assocGet d.flash.tseqIn source 0 < tseq ∧ (b.drop 8).take 8 = d.ks.wardId ∧ leNat ((b.drop 4).take 2) = d.ks.node := by
  unfold Dev.openBlob at h
  dsimp only at h
  split at h
  · cases h
  · split at h
    · cases h
    · next hid =>
      split at h
      · cases h
      · next hseq =>
        split at h
        · cases h
        · cases h
          simp only [Bool.or_eq_true, decide_eq_true_eq, not_or, ne_eq, not_not] at hid
          exact ⟨Nat.lt_of_not_le hseq, hid.1⟩

/-- A blob of a key waits for its turn alone. -/
theorem importWait_eq_false {d : Dev} {x : Item} (h : x.bits 12 0 0 = 0 → d.keyTurn x = true) :
    (decide (x.bits 12 0 0 = 0) && notItsTurn d x) = false := by
  rw [Bool.and_eq_false_iff, decide_eq_false_iff_not, notItsTurn, Bool.not_eq_false']
  exact Decidable.not_or_of_imp h

/-- Settles O49: each operation by its command, the verdicts under given checks from the operation. -/
theorem wardOperations : Obligations.WardOperations := by
  unfold Obligations.WardOperations
  refine ⟨onWarden_wardRequest, ?_, ?_, ?_, onWarden_wardAdmit, onWarden_wardJoin, onWarden_wardLeave, onWarden_wardExport,
    fun k => ?_, onWarden_wardImport, fun r => ?_, fun source tseq p => ?_, fun d kind b source tseq p => Dev.openBlob_ok⟩
  · exact OnWarden.refuses onWarden_wardAdmit fun d x h => ⟨rfl, if_pos h⟩
  · refine OnWarden.refuses onWarden_wardLeave fun d x h => ⟨rfl, ?_⟩
    rw [h]
    rfl
  · exact OnWarden.refuses onWarden_wardJoin fun d x h => ⟨rfl, if_pos h⟩
  · refine OnWarden.serves onWarden_wardExport fun d e x bs ⟨hs, hw, hb, hk, hr⟩ he => ⟨rfl, ?_, ?_⟩
    · simp only [Dev.exportEarly, hs, hw, hb, hk, Nat.not_lt.2 hr, if_false, reduceCtorEq, Bool.true_eq_false, zero_ne_one]
    · obtain ⟨o, q, rfl⟩ := he
      have hk' : ({ d with host := { d.host with out := o }, fc := { d.fc with detq := q } } : Dev).activeEntry x = .ok k := hk
      simp only [Dev.exportOp, hb, hk', if_false, zero_ne_one]
      rfl
  · refine OnWarden.serves onWarden_wardImport fun d e x bs ⟨ht, hw, hb⟩ he => ⟨importWait_eq_false ht, if_pos hw, ?_⟩
    simp only [Dev.importOp, he.openBlob, hb]
  · refine OnWarden.serves onWarden_wardImport fun d e x bs ⟨ht, hw, hb⟩ he => ⟨importWait_eq_false ht, if_pos hw, ?_⟩
    simp only [Dev.importOp, he.openBlob, hb]

end Sys2Proof.Machine
end

section
/-! The administration items (O48): R415, R432 to R436 and R440. -/

namespace Sys2Proof.Machine
open Sys2Proof

/-! ### The operations -/

theorem onWarden_partCreate : OnWarden .partCreate 0x80 atOnce (fun _ _ => none) (fun d x bs =>
      match d.createRefused (partOf (x.bits 12 5 0)) (x.bits 13 12 0) (x.bits 14 21 0) with
      | some r => d.finishWarden x (.bad r) bs
      | none =>
        let q : Partition := ⟨partOf (x.bits 12 5 0), x.bits 13 12 0, x.bits 14 21 0, d.freeUnits (x.bits 13 12 0)⟩
        ((Dev.buildAll { d with parts := d.parts ++ [q] } q).partsChanged).finishWarden x (.ok []) bs) :=
  onWarden_of_op (fun _ _ _ => rfl) fun _ _ _ => rfl

/-- What a PART_DESTROY does: it waits for another one, and until nothing of the partition is left (R434). -/
def Dev.destroyOp (d : Dev) (x : Item) (bs : List Byte) : Dev :=
  let q := partOf (x.bits 12 5 0)
  if d.life.destroying.any (fun e => e.1 ≠ x.id) then d
  else match d.parts.find? (fun p => p.part = q) with
    | none => d.finishWarden x (.bad 0x01) bs
    | some y =>
      let e := { d with life := { d.life with destroying := some (x.id, q) } }
      if e.partBusy q x.id then e.onItem x.id (fun i => { i with stage := .destroyWait })
      else (e.destroyPart y).finishWarden x (.ok []) bs

theorem onWarden_partDestroy : OnWarden .partDestroy 0x81 atOnce (fun _ _ => none) Dev.destroyOp :=
  onWarden_of_op (fun _ _ _ => rfl) fun _ _ _ => rfl

theorem onWarden_kekComponent : OnWarden .kekComponent 0x82 atOnce (fun d x =>
        if d.partExists (partOf (x.bits 12 5 0)) = true ∧
          ((x.bits 12 9 8 = 1 ∧ x.inLen = 24) ∨ (x.bits 12 9 8 = 2 ∧ x.inLen = 32)) then none else some (.bad 0x01))
      (fun d x bs =>
        let r := d.expireAll.kekArrive (x.bits 12 5 0) (x.bits 12 9 8) (x.bits 13 23 0) bs true
        match r.1 with
        | .refused c => r.2.finishWarden x (if c = 0x52 ∨ c = 0x55 then .verifyFail c else .bad c) []
        | .pending => r.2.finishWarden x (.ok []) []
        | .pair v => r.2.finishWarden x { status := 0, d7 := v } []) := by
  refine OnWarden.congr (onWarden_of_op (fun _ _ _ => rfl) fun _ _ _ => rfl) (fun _ _ => rfl) (fun d x => ?_) fun d x bs => ?_
  · cases d.partExists (partOf (x.bits 12 5 0)) with
    | false => rfl
    | true =>
      by_cases h1 : x.bits 12 9 8 = 1
      · simp [h1]
      · by_cases h2 : x.bits 12 9 8 = 2 <;> simp [h1, h2]
  · generalize d.expireAll.kekArrive _ _ _ bs true = r
    obtain ⟨r, e⟩ := r
    cases r with
    | refused c => simp only [Bool.or_eq_true, decide_eq_true_eq]
    | pending => rfl
    | pair v => rfl

/-- A time of a 36-bit item field is its two words' value (R432). -/
theorem Item.toNat_expiry (x : Item) (k : Nat) : (x.expiry k).toNat = (x.dw k).toNat + x.bits (k + 1) 3 0 * 2 ^ 32 := by
  have hw : (x.dw k).toNat < 2 ^ 32 := (x.dw k).isLt
  have hb : x.bits (k + 1) 3 0 < 2 ^ 4 := Nat.mod_lt _ (by decide)
  rw [Item.expiry, BitVec.toNat_ofNat]
  exact Nat.mod_eq_of_lt (by omega)

theorem onWarden_setTime : OnWarden .setTime 0x83 atOnce (fun _ _ => none) (fun d x bs =>
      ({ d with audit := { d.audit with cal := some ((x.dw 12).toNat + x.bits 13 3 0 * 2 ^ 32, d.now) } }).finishWarden x (.ok []) bs) :=
  onWarden_of_op (fun _ _ _ => rfl) fun d x bs => by rw [x.toNat_expiry]

/-- What a SET_STATE refuses before it reads (R433). -/
def Dev.stateEarly (d : Dev) (x : Item) : Option Verdict :=
  if x.stage = .stateWait then none
  else if d.stateMay (x.bits 12 3 0) = false then some (.bad 0x01)
  else if x.bits 12 3 0 = 6 ∧ x.dw 13 ≠ 0xDEC00DED#32 then some (.bad 0x02) else none

/-- What a SET_STATE does for its target (R433). -/
def Dev.stateOp (d : Dev) (x : Item) (bs : List Byte) : Dev :=
  let t := x.bits 12 3 0
  if t = 1 then d.enterTest x bs
  else if t = 6 then (d.finishWarden x (.ok []) bs).zeroizeStart true
  else (d.finishWarden x (.ok []) bs).stateMove t

theorem onWarden_setState : OnWarden .setState 0x84 atOnce Dev.stateEarly Dev.stateOp := by
  refine OnWarden.congr (onWarden_of_op (fun _ _ _ => rfl) fun _ _ _ => rfl) (fun _ _ => rfl) (fun d x => ?_) fun _ _ _ => rfl
  simp only [Dev.stateEarly, Bool.not_eq_true', Bool.and_eq_true, decide_eq_true_eq]

theorem onWarden_provision : OnWarden .provision 0x85 atOnce (fun _ _ => none)
    (fun d x bs => d.provision.finishWarden x (.ok d.provision.identityPub) bs) :=
  onWarden_of_op (fun _ _ _ => rfl) fun _ _ _ => rfl

theorem onWarden_setCert : OnWarden .setCert 0x86 atOnce (fun _ _ => none) (fun d x bs =>
      if Config.certLeaf bs = d.identityPub then ({ d with flash := { d.flash with cert := bs } }).finishWarden x (.ok []) bs
      else d.finishWarden x (.verifyFail 0x01) bs) :=
  onWarden_of_op (fun _ _ _ => rfl) fun _ _ _ => rfl

theorem onWarden_setReentry : OnWarden .setReentry 0x87 atOnce (fun _ _ => none) (fun d x bs =>
      (Dev.writeLife { d with life := { d.life with reentry := x.bits 12 0 0 = 1 } }).finishWarden x (.ok []) bs) :=
  onWarden_of_op (fun _ _ _ => rfl) fun _ _ _ => rfl

/-! ### The lifecycle code and its copies (R440) -/

theorem Dev.persist_eq (d : Dev) : ∃ q, d.persist = { d with
    fc := { d.fc with detq := q }, flash := { d.flash with image := some ⟨d.life.zcnt, d.ks.imageWords⟩ } } := by
  obtain ⟨_, h⟩ := d.keyUse_frame 0 0x1C
  obtain ⟨_, h2⟩ := (d.keyUse 0 0x1C).keyUse_frame 0x20 0x1D
  obtain ⟨_, h3⟩ := ((d.keyUse 0 0x1C).keyUse 0x20 0x1D).keyUse_frame 0x100 0x240
  unfold Dev.persist
  rw [h3, h2, h]
  exact ⟨_, rfl⟩

theorem Dev.setLife_eq (d : Dev) (l : Nat) : ∃ q k im, d.setLife l = { d with
    life := { d.life with life := BitVec.ofNat 3 l }, board := { d.board with alert := true }, ks := k
    fc := { d.fc with detq := q }
    flash := { d.flash with life := some (BitVec.ofNat 3 l, d.life.reentry), image := im } } := by
  obtain ⟨q, h⟩ := Dev.persist_eq { d with
    life := { d.life with life := BitVec.ofNat 3 l }, board := { d.board with alert := true }
    ks := d.ks.put 0x3C (BitVec.ofNat 32 ((BitVec.ofNat 3 l).toNat + (if d.life.reentry then 8 else 0)))
    flash := { d.flash with life := some (BitVec.ofNat 3 l, d.life.reentry) } }
  exact ⟨q, _, _, h⟩

theorem Dev.foldl_s2Restore_tabled (d : Dev) (l : List (Fin 16)) : d.Tabled (l.foldl (fun d p => d.s2Restore p) d) := by
  induction l generalizing d with
  | nil => exact .refl d
  | cons p l ih => exact (d.s2Restore_tabled p).trans (ih _)

/-- The transition from TEST to SERVICE leaves every stage-2 configuration as the setter's tables say (R433). -/
theorem Dev.stateMove_two (d : Dev) : d.enterService.Tabled (d.stateMove 2) := by
  rw [Dev.stateMove]
  exact Dev.foldl_s2Restore_tabled _ _

theorem Dev.enterService_life (d : Dev) : d.enterService.life = { d.life with op := .service } := rfl

/-- What a transition leaves (R415, R433, R436). -/
theorem Dev.stateMove_leaves (d : Dev) :
    (d.stateMove 3).life.op = .service ∧ (d.stateMove 3).life.life = 2#3 ∧ (d.stateMove 3).fc.drec = [] ∧
      (d.stateMove 4).life.op = .recovery ∧ (d.stateMove 4).life.life = 3#3 ∧ (d.stateMove 5).life.life = 2#3 ∧
      (d.stateMove 2).life.op = .service ∧ (d.stateMove 2).life.life = d.life.life := by
  obtain ⟨q, k, im, h⟩ := d.setLife_eq 2
  obtain ⟨q', fl, k', h'⟩ := d.enterRecovery_frame
  obtain ⟨ps, st, h2, -⟩ := d.stateMove_two
  have h3 : d.stateMove 3 = { (d.setLife 2).enterService with fc := { (d.setLife 2).enterService.fc with drec := [] } } := by
    rw [Dev.stateMove]
  refine ⟨by rw [h3, Dev.enterService_life], by rw [h3, Dev.enterService_life, h], by rw [h3], ?_, ?_, ?_, ?_, ?_⟩
  · show d.enterRecovery.life.op = .recovery
    rw [h']
  · show d.enterRecovery.life.life = 3#3
    rw [h']
  · show (d.setLife 2).life.life = 2#3
    rw [h]
  · rw [h2]
    rfl
  · rw [h2]
    rfl

/-- What PROVISION leaves (R415, R436). -/
theorem Dev.provision_leaves (d : Dev) :
    d.provision.life.life = 1#3 ∧ d.provision.flash.life = some (1#3, d.life.reentry) ∧
      d.provision.audit.full = [] ∧ d.provision.audit.recs = d.audit.recs ∧ d.provision.audit.older = d.audit.recs.length ∧
      d.provision.fresh = d.fresh + 3 ∧ d.provision.parts = d.parts := by
  unfold Dev.provision
  extract_lets d1 d2 kek root x k d3 au d4 d5
  obtain ⟨q, k', im, h⟩ := d4.setLife_eq 1
  have hd : d5 = _ := h
  clear_value d5
  subst hd
  exact ⟨rfl, rfl, rfl, rfl, rfl, rfl, rfl⟩

/-! ### A destroyed partition (R434) -/

theorem Dev.partsChanged_tabled (d : Dev) : Dev.Tabled { d with flash := { d.flash with parts := d.parts } } d.partsChanged :=
  Dev.foldl_s2Restore_tabled _ _

/-- A destroyed entry stands for its handle; entries of other handles stand as before. -/
theorem Flash.mem_putKey {f : Flash} {e x : KeyEntry} : x ∈ (f.putKey e).keys ↔ (x ∈ f.keys ∧ x.handle ≠ e.handle) ∨ x = e := by
  simp [Flash.putKey]

/-- Entries destroyed one after the other: the pier memories and the key store alone change. -/
def Dev.destroyKeys (d : Dev) (l : List KeyEntry) : Dev :=
  l.foldl (fun d e => Dev.writeReplicas { d with flash := d.flash.putKey e.destroyed } e.destroyed) d

theorem Dev.destroyKeys_frame (d : Dev) (l : List KeyEntry) :
    ∃ ps ks, d.destroyKeys l = { d with piers := ps, flash := { d.flash with keys := ks } } ∧
      ∀ e ∈ ks, e.state = 1#3 → e ∈ d.flash.keys ∧ ∀ x ∈ l, e.handle ≠ x.handle := by
  induction l generalizing d with
  | nil => exact ⟨d.piers, d.flash.keys, rfl, fun e he _ => ⟨he, fun x hx => absurd hx List.not_mem_nil⟩⟩
  | cons y l ih =>
    obtain ⟨ps, ks, h, hks⟩ := ih (Dev.writeReplicas { d with flash := d.flash.putKey y.destroyed } y.destroyed)
    refine ⟨ps, ks, h, fun e he hs => ?_⟩
    obtain ⟨hm, hl⟩ := hks e he hs
    rcases Flash.mem_putKey.1 hm with ⟨hm, hh⟩ | rfl
    · exact ⟨hm, List.forall_mem_cons.2 ⟨hh, hl⟩⟩
    · exact absurd hs (by decide : (2#3 : BitVec 3) ≠ 1#3)

/-- What a destroyed partition leaves (R434, R436). -/
theorem Dev.destroyPart_leaves (d : Dev) (x : Partition) :
    let r := d.destroyPart x
    r.partExists x.part = false ∧ (∀ q, q ≠ x.part → r.partExists q = d.partExists q) ∧
      (∀ s, s ∈ r.sessions ↔ s ∈ d.sessions ∧ s.part ≠ x.part) ∧ (∀ l, l ∈ r.loaded ↔ l ∈ d.loaded ∧ l.part ≠ x.part) ∧
      r.life.destroying = none ∧ r.flash.parts = r.parts ∧
      ∀ e ∈ r.flash.keys, e.owner.toNat = x.part.val → e.state ≠ 1#3 := by
  have hpart : ∀ q, (d.parts.filter fun p => p.part ≠ x.part).any (fun p => p.part = q) =
      (decide (q ≠ x.part) && d.partExists q) := by
    intro q
    rw [Dev.partExists, List.any_filter, Bool.eq_iff_iff]
    simp only [List.any_eq_true, Bool.and_eq_true, decide_eq_true_eq]
    exact ⟨fun ⟨p, hp, hx, hq⟩ => ⟨hq ▸ hx, p, hp, hq⟩, fun ⟨hx, p, hp, hq⟩ => ⟨p, hp, hq ▸ hx, hq⟩⟩
  unfold Dev.destroyPart
  extract_lets d0 keys d1 k d2 d3 st lf d4 r
  obtain ⟨ps, ks, h1, hks⟩ : ∃ ps ks, d1 = { d0 with piers := ps, flash := { d0.flash with keys := ks } } ∧ _ :=
    d0.destroyKeys_frame keys
  obtain ⟨ps', st', h5, -⟩ := d4.partsChanged_tabled
  obtain ⟨q, h6⟩ := d4.partsChanged.persist_eq
  have hr : r = _ := h6
  rw [h5] at hr
  have hx : d1.parts = d.parts ∧ d1.sessions = d0.sessions ∧ d1.loaded = d.loaded ∧ d1.flash.keys = ks := by
    rw [h1]
    exact ⟨rfl, rfl, rfl, rfl⟩
  obtain ⟨hp, hs, hl, hk⟩ := hx
  clear_value d1 r
  subst hr
  refine ⟨?_, fun p hpx => ?_, fun s => ?_, fun l => ?_, rfl, rfl, fun e he ho hst => ?_⟩
  · show (d1.parts.filter fun p => p.part ≠ x.part).any (fun p => p.part = x.part) = false
    rw [hp, hpart, decide_eq_false (fun h => h rfl), Bool.false_and]
  · show (d1.parts.filter fun p => p.part ≠ x.part).any (fun y => y.part = p) = d.partExists p
    rw [hp, hpart, decide_eq_true hpx, Bool.true_and]
  · show s ∈ d1.sessions ↔ _
    rw [hs]
    simp [d0]
  · show l ∈ d1.loaded.filter _ ↔ _
    rw [hl]
    simp
  · have he' : e ∈ ks := hk ▸ he
    obtain ⟨hm, hne⟩ := hks e he' hst
    refine hne e (List.mem_filter.2 ⟨hm, ?_⟩) rfl
    simp [ho, hst]

/-- Settles O48: each operation by its command, the verdicts under given checks from the operation. -/
theorem administrationItems : Obligations.AdministrationItems := by
  unfold Obligations.AdministrationItems
  refine ⟨⟨onWarden_partCreate, fun r => ?_, onWarden_partDestroy, ?_, onWarden_kekComponent, onWarden_setTime, onWarden_setState,
    ?_, ?_, ?_, ?_, onWarden_provision, onWarden_setCert, onWarden_setReentry⟩, Dev.stateMove_leaves, Dev.destroyPart_leaves,
    Dev.provision_leaves⟩
  · refine OnWarden.serves onWarden_partCreate fun d e x bs h he => ⟨rfl, rfl, ?_⟩
    obtain ⟨o, q, rfl⟩ := he
    have h' : ({ d with host := { d.host with out := o }, fc := { d.fc with detq := q } } : Dev).createRefused
      (partOf (x.bits 12 5 0)) (x.bits 13 12 0) (x.bits 14 21 0) = some r := h
    simp only [h']
  · refine OnWarden.serves onWarden_partDestroy fun d e x bs ⟨hd, hp⟩ he => ⟨rfl, rfl, ?_⟩
    obtain ⟨o, q, rfl⟩ := he
    have hf : d.parts.find? (fun p => p.part = partOf (x.bits 12 5 0)) = none := by
      rw [List.find?_eq_none]
      intro p hpp
      simpa using List.any_eq_false.1 hp p hpp
    simp only [Dev.destroyOp, hd, hf]
    rfl
  · refine OnWarden.serves onWarden_setState fun d e x bs ⟨hs, ht, ho, hw, hb⟩ he => ⟨rfl, ?_, ?_⟩
    · simp only [Dev.stateEarly, Dev.stateMay, hs, ht, ho, hw]
      rfl
    · obtain ⟨o, q, rfl⟩ := he
      have hb' : ({ d with host := { d.host with out := o }, fc := { d.fc with detq := q } } : Dev).vfBusy = false := hb
      simp only [Dev.stateOp, ht, if_true, Dev.enterTest, ho, hb']
      rfl
  · refine OnWarden.serves onWarden_setState fun d e x bs ⟨hs, ht, hc, h0, h4⟩ he => ⟨rfl, ?_, ?_⟩
    · simp [Dev.stateEarly, Dev.stateMay, hs, ht, hc, h0, h4]
    · simp only [Dev.stateOp, ht]
      rfl
  · refine OnWarden.serves onWarden_setState fun d e x bs ⟨hs, h2, h5, hm⟩ he => ⟨rfl, ?_, ?_⟩
    · simp [Dev.stateEarly, hs, hm, show x.bits 12 3 0 ≠ 6 by omega]
    · simp [Dev.stateOp, show x.bits 12 3 0 ≠ 6 by omega, show x.bits 12 3 0 ≠ 1 by omega]
  · refine OnWarden.refuses onWarden_setState fun d x ⟨hs, hm⟩ => ⟨rfl, ?_⟩
    simp only [Dev.stateEarly, hs, hm]
    rfl

end Sys2Proof.Machine
end

section
/-! The key operations and the key store log (O46): R383, R396, R400 to R403 and R505. -/

namespace Sys2Proof.Machine
open Sys2Proof

variable {d e : Dev}

/-! ### What waits for the log, and what stands in it -/

/-- The changes that wait and the entries of the log are those of `d`. -/
def Dev.LogKept (d e : Dev) : Prop := e.changes = d.changes ∧ e.flash.keys = d.flash.keys

theorem Dev.LogKept.trans {c : Dev} (h : d.LogKept e) (k : e.LogKept c) : d.LogKept c := ⟨k.1.trans h.1, k.2.trans h.2⟩

theorem Dev.keyUse_logKept (d : Dev) (w n : Nat) : d.LogKept (d.keyUse w n) := by
  obtain ⟨q, h⟩ := d.keyUse_frame w n
  rw [h]
  exact ⟨rfl, rfl⟩

/-- RECOVERY leaves the entries of the log: it writes the lifecycle code and the keystone image alone (R440). -/
theorem Dev.enterRecovery_log (d : Dev) : ∃ q k bd lf l im, d.enterRecovery = { d with
    fc := { d.fc with detq := q }, ks := k, board := bd, life := lf, flash := { d.flash with life := l, image := im } } := by
  obtain ⟨q, k, im, h⟩ := d.setLife_eq 3
  rw [Dev.enterRecovery, h]
  exact ⟨q, k, _, _, _, im, rfl⟩

theorem Dev.exhaust16_logKept (d : Dev) : d.LogKept d.exhaust16 := by
  rcases d.exhaust16_cases with h | ⟨full, h⟩
  · rw [h]
    exact ⟨rfl, rfl⟩
  · obtain ⟨q, k, bd, lf, l, im, h2⟩ := Dev.enterRecovery_log { d with audit := { d.audit with full := full } }
    rw [h, h2]
    exact ⟨rfl, rfl⟩

theorem Dev.append16_logKept (d : Dev) (f : RecFields) (item : Option Nat) : d.LogKept (d.append16 f item) := by
  rcases Nat.lt_or_ge (d.acceptedHead 16).1 cseqMax with h | h
  · obtain ⟨q, mark, bytes, w, e⟩ := Dev.append16_of_lt f item h
    rw [e]
    exact ⟨rfl, rfl⟩
  · rw [Dev.append16_of_le f item h]
    exact d.exhaust16_logKept

theorem Dev.record16_logKept (d : Dev) (i : Item) : d.LogKept (d.record16 i) := by
  unfold Dev.record16
  dsimp only
  split
  · exact ⟨rfl, rfl⟩
  · split
    · exact d.exhaust16_logKept
    · exact d.append16_logKept _ _

theorem Dev.passResults_logKept (d : Dev) (i : Item) (c : Fin 17) : d.LogKept (d.passResults i c) := by
  cases hg : d.resultsGo i with
  | false =>
    rw [Dev.passResults_of_waiting c hg]
    exact ⟨rfl, rfl⟩
  | true =>
    have hw : d.LogKept (d.writeResult i) := by
      rw [Dev.writeResult_of_resultsGo hg]
      exact ⟨rfl, rfl⟩
    rcases Nat.lt_or_ge c.val 16 with hc | hc
    · rw [Dev.passResults_of_pier hg hc]
      exact hw
    · rw [Dev.passResults_of_warden hg (by omega)]
      exact hw.trans (Dev.record16_logKept _ i)

theorem Dev.endChange_logKept (d : Dev) (it : Nat) (good : Bool) : d.LogKept (d.endChange it good) := by
  unfold Dev.endChange
  split
  · exact ⟨rfl, rfl⟩
  · split
    · exact d.passResults_logKept _ _
    · exact d.record16_logKept _

theorem Dev.retireSector_logKept (d : Dev) (sec : Nat) : d.LogKept (d.retireSector sec) := by
  unfold Dev.retireSector
  split
  · exact ⟨rfl, rfl⟩
  · dsimp only
    split
    · split <;> exact ⟨rfl, rfl⟩
    · exact ⟨rfl, rfl⟩

/-- An entry that is programmed stands for its handle, every other entry as before (R401). -/
theorem Flash.find?_putKey_self (f : Flash) (e : KeyEntry) : (f.putKey e).keys.find? (fun x => x.handle = e.handle) = some e := by
  have h : (f.keys.filter fun x => x.handle ≠ e.handle).find? (fun x => x.handle = e.handle) = none := by
    rw [List.find?_eq_none]
    intro x hx
    simpa using (List.mem_filter.1 hx).2
  rw [Flash.putKey, List.find?_append, h]
  simp

theorem Flash.find?_putKey_of_ne (f : Flash) {e : KeyEntry} {h : Nat} (hne : h ≠ e.handle) :
    (f.putKey e).keys.find? (fun x => x.handle = h) = f.keys.find? (fun x => x.handle = h) := by
  have hp : ∀ x : KeyEntry, (!decide (x.handle = e.handle) && decide (x.handle = h)) = decide (x.handle = h) := by
    intro x
    by_cases hx : x.handle = h
    · simp [hx, hne]
    · simp [hx]
  simp [Flash.putKey, List.find?_append, List.find?_filter, hp, Ne.symm hne]

/-! ### New and destroyed entries (R403, R505) -/

theorem Dev.placeEntry_spec {h : Nat} {e x : KeyEntry} (hx : d.placeEntry h e = some x) :
    h ≤ 4194303 ∧ x.handle = h ∧ x.state = 1#3 ∧ x.version = (((d.entryOf h).map KeyEntry.version).getD 0) + 1 ∧
      x.owner = e.owner ∧ x.alg = e.alg ∧ x.usage = e.usage ∧ x.wrap = e.wrap ∧ x.bline + x.blen ≤ 1048576 := by
  unfold Dev.placeEntry at hx
  extract_lets old others e' bl active quota at hx
  split at hx
  · cases hx
  · next hn =>
    obtain rfl := Option.some.inj hx
    simp only [Bool.or_eq_true, decide_eq_true_eq, not_or, Nat.not_lt] at hn
    obtain ⟨⟨⟨hh, -⟩, hb⟩, -⟩ := hn
    exact ⟨hh, rfl, rfl, rfl, rfl, rfl, rfl, rfl, hb⟩

theorem KeyEntry.destroyed_spec (e : KeyEntry) : e.destroyed.state = 2#3 ∧ e.destroyed.version = e.version + 1 ∧
    (∀ b ∈ e.destroyed.wrap, b = 0) ∧ (∀ b ∈ e.destroyed.pub, b = 0) ∧ (∀ b ∈ e.destroyed.blob, b = 0) ∧
    e.destroyed.handle = e.handle :=
  ⟨rfl, rfl, fun _ h => List.eq_of_mem_replicate h, fun _ h => List.eq_of_mem_replicate h,
    fun _ h => List.eq_of_mem_replicate h, rfl⟩

/-! ### The operations -/

theorem Dev.Prepared.importKey (h : d.Prepared e) (x : Item) (q : Fin 64) : e.importKey x q = d.importKey x q := by
  obtain ⟨o, p, rfl⟩ := h
  rfl

theorem Dev.Prepared.exportKeys (h : d.Prepared e) (x : Item) (aes : Bool) : e.exportKeys x aes = d.exportKeys x aes := by
  obtain ⟨o, p, rfl⟩ := h
  rfl

theorem Dev.Prepared.wardenKey (h : d.Prepared e) (x : Item) (n : Nat) (k : KeyNeed) : e.wardenKey x n k = d.wardenKey x n k := by
  obtain ⟨o, p, rfl⟩ := h
  rfl

theorem Dev.Prepared.anyEntry (h : d.Prepared e) (x : Item) : e.anyEntry x = d.anyEntry x := by
  obtain ⟨o, p, rfl⟩ := h
  rfl

theorem notItsTurn_eq_false {x : Item} (h : d.keyTurn x = true) : notItsTurn d x = false := by
  rw [notItsTurn, h]
  rfl

/-- What a KEY_IMPORT refuses before it reads (R400, R403). -/
def Dev.keyImportEarly (d : Dev) (x : Item) : Option Verdict :=
  match x.part with
  | none => some (.bad 0x01)
  | some q => match d.importKey x q with
    | .error v => some v
    | .ok _ => none

/-- What a KEY_IMPORT makes of its key block (R403). -/
def Dev.keyImportOp (d : Dev) (x : Item) (bs : List Byte) : Dev :=
  match x.part with
  | none => d.finishWarden x (.bad 0x01) bs
  | some q => match d.importKey x q with
    | .error v => d.finishWarden x v bs
    | .ok k => match kbOpen k.1 k.2 (x.bits 12 15 0) bs with
      | .error r => d.finishWarden x (.verifyFail r) bs
      | .ok k => d.create x q (x.bits 12 15 0) (x.expiry 13) k [] bs

theorem onWarden_keyImport : OnWarden .keyImport 0x50 notItsTurn Dev.keyImportEarly Dev.keyImportOp :=
  OnWarden.congr (onWarden_of_held fun _ _ _ => rfl) (fun _ _ => rfl) (fun _ _ => rfl) fun d x bs => by
    cases hp : x.part with
    | none => simp only [Dev.keyImportOp, hp]
    | some q =>
      cases hk : d.importKey x q with
      | error v => simp only [Dev.keyImportOp, hp, hk]
      | ok k =>
        simp only [Dev.keyImportOp, hp, hk] <;> rfl

/-- What a KEY_EXPORT refuses before it reads (R400, R403). -/
def Dev.keyExportEarly (d : Dev) (x : Item) : Option Verdict :=
  let aes : Bool := x.bits 12 7 0 = 0x44
  if x.bits 12 7 0 ≠ 0x42 ∧ x.bits 12 7 0 ≠ 0x44 then some (.bad 0x01)
  else match d.exportKeys x aes with
    | .error v => some v
    | .ok e => if x.room < kbTotal aes (kbKeyLen e.1) then some .length else none

/-- The key block that a KEY_EXPORT answers (R403). -/
def Dev.keyExportOp (d : Dev) (x : Item) (bs : List Byte) : Dev :=
  let aes : Bool := x.bits 12 7 0 = 0x44
  match d.exportKeys x aes with
  | .error v => d.finishWarden x v bs
  | .ok e =>
    let kek := (d.ks.kek).getD []
    let df := dfBytes kek ((x.part.map (·.val)).getD 64) (dfMessage x [e.1.version.toNat, e.2.version.toNat] bs) 16
    d.finishWarden x (.ok (kbMake aes (symKey kek e.2) e.1.alg.toNat e.1.usage.toNat (kbKeyBytes kek e.1) df)) bs

theorem onWarden_keyExport : OnWarden .keyExport 0x51 atOnce Dev.keyExportEarly Dev.keyExportOp := by
  refine OnWarden.congr (onWarden_of_op (fun _ _ _ => rfl) fun _ _ _ => rfl) (fun _ _ => rfl) (fun d x => ?_) fun d x bs => ?_
  · simp only [Dev.keyExportEarly, Bool.and_eq_true, decide_eq_true_eq]
    cases d.exportKeys x (decide (x.bits 12 7 0 = 0x44)) <;> rfl
  · dsimp only [Dev.keyExportOp]
    cases d.exportKeys x (decide (x.bits 12 7 0 = 0x44)) <;> rfl

/-- What a KEY_GENERATE refuses before it reads (R403). -/
def keyGenerateEarly (_ : Dev) (x : Item) : Option Verdict :=
  if algSym (x.bits 12 7 0) = false ∧ algPair (x.bits 12 7 0) = false then some (.bad 0x01)
  else if sizeOk (x.bits 12 7 0) (x.bits 13 11 0) = false then some (.bad 0x02)
  else if x.room < generatedLen (x.bits 12 7 0) (x.bits 13 11 0) then some .length else none

theorem onWarden_keyGenerate : OnWarden .keyGenerate 0x52 notItsTurn keyGenerateEarly (fun d x bs =>
    match x.part with
    | none => d.finishWarden x (.bad 0x01) bs
    | some q =>
      let k := generateKey d (x.bits 12 7 0) (x.bits 13 11 0)
      d.used.used.create x q (x.bits 12 31 16) (x.expiry 14) k k.pub bs) := by
  refine OnWarden.congr (onWarden_of_held fun _ _ _ => rfl) (fun _ _ => rfl) (fun d x => ?_) fun _ _ _ => rfl
  simp only [keyGenerateEarly, Bool.not_eq_true', Bool.or_eq_false_iff]

/-- What a KEY_DERIVE refuses before it reads (R400, R403). -/
def Dev.keyDeriveEarly (d : Dev) (x : Item) : Option Verdict :=
  match deriveParam x with
  | some v => some v
  | none => match d.wardenKey x 0 (deriveNeed x) with
    | .error v => some v
    | .ok _ => none

/-- The entry that a KEY_DERIVE makes (R403). -/
def Dev.keyDeriveOp (d : Dev) (x : Item) (bs : List Byte) : Dev :=
  match d.wardenKey x 0 (deriveNeed x) with
  | .error v => d.finishWarden x v bs
  | .ok e => match x.part with
    | none => d.finishWarden x (.bad 0x01) bs
    | some q =>
      let k := derivedKey x e.alg.toNat (symKey ((d.ks.kek).getD []) e) bs
      d.create x q (x.bits 12 31 16) (x.expiry 13) ⟨x.newAlg, k.length / 4, [], k⟩ [] bs

theorem onWarden_keyDerive : OnWarden .keyDerive 0x53 notItsTurn Dev.keyDeriveEarly Dev.keyDeriveOp :=
  OnWarden.congr (onWarden_of_held fun _ _ _ => rfl) (fun _ _ => rfl) (fun _ _ => rfl) fun d x bs => by
    cases hk : d.wardenKey x 0 (deriveNeed x) <;> cases hp : x.part <;> simp only [Dev.keyDeriveOp, hp, hk]

/-- What a KEY_DESTROY refuses before it reads (R400). -/
def Dev.keyDestroyEarly (d : Dev) (x : Item) : Option Verdict :=
  match d.anyEntry x with
  | .error v => some v
  | .ok _ => none

/-- What a KEY_DESTROY starts (R403). -/
def Dev.keyDestroyOp (d : Dev) (x : Item) (bs : List Byte) : Dev :=
  match d.anyEntry x with
  | .error v => d.finishWarden x v bs
  | .ok e => if e.state = 2#3 then d.finishWarden x (.ok []) bs else d.startChange x (.ok []) bs e.destroyed

theorem onWarden_keyDestroy : OnWarden .keyDestroy 0x54 notItsTurn Dev.keyDestroyEarly Dev.keyDestroyOp :=
  onWarden_of_held fun _ _ _ => rfl

/-- What a KEY_INFO refuses before it reads (R403). -/
def Dev.keyInfoEarly (d : Dev) (x : Item) : Option Verdict :=
  if x.bits 12 0 0 = 1 then none
  else match d.anyEntry x with
    | .error v => some v
    | .ok _ => if x.room < 32 then some .length else none

/-- What a KEY_INFO answers (R403). -/
def Dev.keyInfoOp (d : Dev) (x : Item) (bs : List Byte) : Dev :=
  if x.bits 12 0 0 = 1 then d.finishWarden x (.ok ((d.enumKeys x).flatMap KeyEntry.info)) bs
  else match d.anyEntry x with
    | .error v => d.finishWarden x v bs
    | .ok e => d.finishWarden x (.ok e.info) bs

theorem onWarden_keyInfo : OnWarden .keyInfo 0x55 atOnce Dev.keyInfoEarly Dev.keyInfoOp := by
  refine OnWarden.congr (onWarden_of_op (fun _ _ _ => rfl) fun _ _ _ => rfl) (fun _ _ => rfl) (fun d x => ?_) fun d x bs => ?_
  · simp only [Dev.keyInfoEarly, decide_eq_true_eq] <;> rfl
  · simp only [Dev.keyInfoOp, decide_eq_true_eq] <;> rfl

/-! ### The key store log (R401, R463) -/

theorem answers_keyStoreLogProgram_idle (good : Bool) (s : State) (h : s.dev.changes = [] ∨ s.dev.wardenServes = false) :
    Answers (.keyStoreLogProgram good) s s.dev := by
  unfold Answers
  show execKeyStoreLogProgram good s = _
  unfold execKeyStoreLogProgram
  cases hc : s.dev.changes with
  | nil =>
    simp only [hc]
    rfl
  | cons c rest =>
    have hw := h.resolve_left (by simp [hc])
    simp only [hc, hw, Bool.not_false, if_true]
    rfl

/-- What a change that is programmed leaves (R401). -/
theorem keyStoreLogProgram_good (s : State) {c : KeyChange} {rest : List KeyChange} (hc : s.dev.changes = c :: rest)
    (hw : s.dev.wardenServes = true) : AnswersWith (.keyStoreLogProgram true) s (fun d =>
      d.changes = rest ∧ d.entryOf c.entry.handle = some c.entry ∧
      ∀ h, h ≠ c.entry.handle → d.entryOf h = s.dev.entryOf h) := by
  have ha : Answers (.keyStoreLogProgram true) s
      ((Dev.writeReplicas { s.dev with changes := rest, flash := s.dev.flash.putKey c.entry } c.entry).endChange c.item true) := by
    unfold Answers
    show execKeyStoreLogProgram true s = _
    unfold execKeyStoreLogProgram
    simp only [hc, hw]
    rfl
  obtain ⟨h1, h2⟩ := Dev.endChange_logKept
    (Dev.writeReplicas { s.dev with changes := rest, flash := s.dev.flash.putKey c.entry } c.entry) c.item true
  refine Answers.answersWith ha ⟨h1, ?_, fun h hne => ?_⟩
  · rw [Dev.entryOf, h2]
    exact s.dev.flash.find?_putKey_self c.entry
  · rw [Dev.entryOf, h2]
    exact s.dev.flash.find?_putKey_of_ne hne

/-- What a change leaves that fails after its retries (R401, R463). -/
theorem keyStoreLogProgram_failed (s : State) {c : KeyChange} {rest : List KeyChange} (hc : s.dev.changes = c :: rest)
    (hw : s.dev.wardenServes = true) :
    AnswersWith (.keyStoreLogProgram false) s (fun d => d.changes = rest ∧ d.flash.keys = s.dev.flash.keys) := by
  let sec := 0x1600 + (s.dev.free 32).toNat % (1024 * (s.dev.flash.size0.toNat + s.dev.flash.size1.toNat) - 0x1600)
  have ha : Answers (.keyStoreLogProgram false) s
      ((((Dev.used { s.dev with changes := rest }).detect 0x21 22 sec (Config.flashRegion 5).toNat).retireSector sec).endChange
        c.item false) := by
    unfold Answers
    show execKeyStoreLogProgram false s = _
    unfold execKeyStoreLogProgram
    simp only [hc, hw]
    rfl
  exact Answers.answersWith ha ((Dev.retireSector_logKept _ sec).trans (Dev.endChange_logKept _ c.item false))

/-- Settles O46: each operation by its command, the verdicts under given checks from the operation. -/
theorem keyOperations : Obligations.KeyOperations := by
  unfold Obligations.KeyOperations
  refine ⟨⟨onWarden_keyImport, fun q aes kbpk k => ?_, fun q aes kbpk r => ?_, onWarden_keyExport, fun aes k w => ?_, ?_,
    onWarden_keyGenerate, fun q => ?_, onWarden_keyDerive, fun q k => ?_, onWarden_keyDestroy, fun k => ?_, onWarden_keyInfo,
    fun k => ?_, ?_, answers_keyStoreLogProgram_idle, fun s c rest hc hw =>
      ⟨keyStoreLogProgram_good s hc hw, keyStoreLogProgram_failed s hc hw⟩⟩, fun d h e x => Dev.placeEntry_spec,
    KeyEntry.destroyed_spec⟩
  · refine OnWarden.serves onWarden_keyImport fun d e x bs ⟨ht, hp, hk, ho⟩ he => ⟨notItsTurn_eq_false ht, ?_, ?_⟩
    · simp only [Dev.keyImportEarly, hp, hk]
    · simp only [Dev.keyImportOp, hp, he.importKey, hk, ho]
  · refine OnWarden.serves onWarden_keyImport fun d e x bs ⟨ht, hp, hk, ho⟩ he => ⟨notItsTurn_eq_false ht, ?_, ?_⟩
    · simp only [Dev.keyImportEarly, hp, hk]
    · simp only [Dev.keyImportOp, hp, he.importKey, hk, ho]
  · refine OnWarden.serves onWarden_keyExport fun d e x bs ⟨hv, hk, hr⟩ he => ⟨rfl, ?_, ?_⟩
    · cases aes <;> simp [Dev.keyExportEarly, hv, hk, Nat.not_lt.2 hr]
    · cases aes <;> simp [Dev.keyExportOp, hv, he.exportKeys, hk]
  · exact OnWarden.refuses onWarden_keyExport fun d x h => ⟨rfl, if_pos h⟩
  · refine OnWarden.serves onWarden_keyGenerate fun d e x bs ⟨ht, hp, ha, hz, hr⟩ he => ⟨notItsTurn_eq_false ht, ?_, ?_⟩
    · rcases ha with ha | ha <;> simp [keyGenerateEarly, ha, hz, Nat.not_lt.2 hr]
    · simp only [hp]
  · refine OnWarden.serves onWarden_keyDerive fun d e x bs ⟨ht, hp, hv, hk⟩ he => ⟨notItsTurn_eq_false ht, ?_, ?_⟩
    · simp only [Dev.keyDeriveEarly, hv, hk]
    · simp only [Dev.keyDeriveOp, hp, he.wardenKey, hk]
  · refine OnWarden.serves onWarden_keyDestroy fun d e x bs ⟨ht, hk⟩ he => ⟨notItsTurn_eq_false ht, ?_, ?_⟩
    · simp only [Dev.keyDestroyEarly, hk]
    · simp only [Dev.keyDestroyOp, he.anyEntry, hk]
  · refine OnWarden.serves onWarden_keyInfo fun d e x bs ⟨hb, hk, hr⟩ he => ⟨rfl, ?_, ?_⟩
    · simp [Dev.keyInfoEarly, hb, hk, hr]
    · simp [Dev.keyInfoOp, hb, he.anyEntry, hk]
  · exact OnWarden.serves onWarden_keyInfo fun d e x bs hb he => ⟨rfl, if_pos hb, if_pos hb⟩

end Sys2Proof.Machine
end

section
/-! Operations on a pier, and the payment, signature and digest operations (O43): R378 to R392. -/

namespace Sys2Proof.Machine
open Sys2Proof

variable {d e : Dev} {it opc : Nat} {inp : Fetched} {x : Item} {p : Fin 16} {o : OpDef} {s : State}

/-! ### The cases of `Dev.pierOp` (R380) -/

theorem Dev.id_of_pierItem (h : d.pierItem it opc = some (x, p, e)) : x.id = it ∧ x.stage = .pier p := by
  unfold Dev.pierItem at h
  split at h
  · cases h
  · next i hi =>
    split at h
    · next hs =>
      split at h
      · cases h
      · dsimp only at h
        split at h
        · cases h
          exact ⟨(Dev.item?_eq_some hi).1, hs⟩
        · cases h
    · cases h

theorem Dev.pierOp_none (h : d.pierItem it opc = none) : d.pierOp it opc inp o = d := by
  rw [Dev.pierOp, h]

section PierOp

variable (h : d.pierItem it opc = some (x, p, e))
include h

theorem Dev.pierOp_refused {r : Nat} (hp : o.param x = some r) : d.pierOp it opc inp o = e.finishPier x p (.bad r) [] := by
  simp only [Dev.pierOp, h, hp]

variable (hp : o.param x = none)
include hp

theorem Dev.pierOp_keyless {v : Verdict} {d1 : Dev} (hk : e.pierKeys p x 0 (o.needs x) = (.error v, d1)) :
    d.pierOp it opc inp o = d1.finishPier x p v [] := by
  simp only [Dev.pierOp, h, hp, hk]

variable {es : List KeyEntry} {d1 : Dev} (hk : e.pierKeys p x 0 (o.needs x) = (.ok es, d1))
include hk

theorem Dev.pierOp_length (hl : o.lens x es = false) : d.pierOp it opc inp o = d1.finishPier x p .length [] := by
  simp only [Dev.pierOp, h, hp, hk, hl, Bool.not_false, if_true]

variable (hl : o.lens x es = true)
include hl

theorem Dev.pierOp_failed {c : Nat} (hf : x.fetch inp = .error c) :
    d.pierOp it opc inp o = (d1.fetchInput x).finishPier x p { status := c } [] := by
  simp only [Dev.pierOp, h, hp, hk, hl, hf, Bool.not_true, Bool.false_eq_true, if_false]

theorem Dev.pierOp_run {bs : List Byte} (hf : x.fetch inp = .ok bs) :
    d.pierOp it opc inp o = (d1.fetchInput x).finishPier x p (o.run ⟨x, es, (d1.ks.kek).getD [], bs⟩) bs := by
  have hkek : (d1.fetchInput x).ks = d1.ks := by
    obtain ⟨_, hs⟩ := d1.fetchInput_sentOnly x
    rw [hs]
  simp only [Dev.pierOp, h, hp, hk, hl, hf, hkek, Bool.not_true, Bool.false_eq_true, if_false]

end PierOp

theorem onPierThen_of {i : Nat → Fetched → Instr} {n : Dev → Item → Dev}
    (hx : ∀ it inp s x p d, s.dev.pierItem it opc = some (x, p, d) →
      exec (i it inp) s = s.answer (n (s.dev.pierOp it opc inp o) x)) : OnPierThen i opc o n := by
  intro it inp s x p d hi
  have ha : Answers (i it inp) s (n (s.dev.pierOp it opc inp o) x) := hx it inp s x p d hi
  refine ⟨fun r hp => ?_, fun hp => ⟨fun v d1 hk => ?_, fun es d1 hk => ⟨fun hl => ?_, fun c hl hf => ?_, fun bs hl hf => ?_⟩⟩⟩
  · rwa [Dev.pierOp_refused hi hp] at ha
  · rwa [Dev.pierOp_keyless hi hp hk] at ha
  · rwa [Dev.pierOp_length hi hp hk hl] at ha
  · rwa [Dev.pierOp_failed hi hp hk hl hf] at ha
  · rwa [Dev.pierOp_run hi hp hk hl hf] at ha

theorem onPier_of {i : Nat → Fetched → Instr}
    (hx : ∀ it inp s, exec (i it inp) s = s.answer (s.dev.pierOp it opc inp o)) : OnPier i opc o :=
  onPierThen_of fun it inp s _ _ _ _ => hx it inp s

theorem offPier_of {i : Nat → Fetched → Instr}
    (hx : ∀ it inp s, exec (i it inp) s = s.answer (s.dev.pierOp it opc inp o)) : OffPier i opc := by
  intro it inp s hi
  have ha : Answers (i it inp) s (s.dev.pierOp it opc inp o) := hx it inp s
  rwa [Dev.pierOp_none hi] at ha

/-! ### RSA signatures and their self-check (R385) -/

theorem exec_signRsa_some (hi : s.dev.pierItem it 0x14 = some (x, p, e)) :
    exec (.signRsa it inp) s = s.answer ((s.dev.pierOp it 0x14 inp signDef).selfCheckNotice x.id) := by
  rw [(Dev.id_of_pierItem hi).1]
  show execSignRsa it inp s = _
  simp only [execSignRsa, hi]

theorem onPierThen_signRsa : OnPierThen .signRsa 0x14 signDef (fun d x => d.selfCheckNotice x.id) :=
  onPierThen_of fun _ _ _ _ _ _ hi => exec_signRsa_some hi

theorem offPier_signRsa : OffPier .signRsa 0x14 := by
  intro it inp s hi
  show execSignRsa it inp s = _
  rw [execSignRsa, hi]
  rfl

/-- An item that its pier has finished has its verdict. -/
theorem Dev.mem_finishPier {v : Verdict} {bs : List Byte} {y : Item} (h : y ∈ (d.finishPier x p v bs).items) (hy : y.id = x.id) :
    y = { x.withVerdict v bs with stage := .result ⟨p.val, by omega⟩ } := by
  have hid : ({ x.withVerdict v bs with stage := .result ⟨p.val, by omega⟩ } : Item).id = x.id := rfl
  rcases (Dev.mem_onItem_const hid).1 h with ⟨hne, -⟩ | ⟨hj, -⟩
  · exact absurd hy hne
  · exact hj

/-- The notice of a failed self-check leaves the items as they are. -/
theorem Dev.selfCheckNotice_items (d : Dev) (it : Nat) : (d.selfCheckNotice it).items = d.items := by
  unfold Dev.selfCheckNotice
  split
  · split
    · split
      · split <;> rfl
      · rfl
    · rfl
  · rfl

theorem signRun_rsa {x : OpIn} (ha : x.item.algv = 4 ∨ x.item.algv = 5) (hv : (rsaSign x).2 = true) :
    signRun x = .ok (rsaSign x).1 := by
  rcases ha with ha | ha <;> simp only [signRun, ha, hv, if_true]

theorem signRsa_verified {es : List KeyEntry} {d1 : Dev} {bs : List Byte} (hi : s.dev.pierItem it 0x14 = some (x, p, d))
    (hp : signParam x = none) (hk : d.pierKeys p x 0 (signNeed false x) = (.ok es, d1)) (hl : signLens x es = true)
    (hf : x.fetch inp = .ok bs) :
    let r := rsaSign ⟨x, es, (d1.ks.kek).getD [], bs⟩
    x.algv = 4 ∨ x.algv = 5 → r.2 = true →
    AnswersWith (.signRsa it inp) s (fun e => ∀ y ∈ e.items, y.id = x.id → y.status = 0 ∧ y.output = r.1 ∧
      y.stage = .result ⟨p.val, by omega⟩) := by
  intro r ha hv
  have hrun := Dev.pierOp_run (o := signDef) hi hp hk hl hf
  refine Answers.answersWith (exec_signRsa_some hi) fun y hy hid => ?_
  rw [Dev.selfCheckNotice_items, hrun] at hy
  have hr : signDef.run ⟨x, es, (d1.ks.kek).getD [], bs⟩ = .ok r.1 := signRun_rsa ha hv
  rw [Dev.mem_finishPier hy hid, hr]
  exact ⟨rfl, rfl, rfl⟩

/-! ### ECHO (R378, R392) -/

/-- An item on a pier is not with the warden. -/
theorem Dev.wardenItem_of_pierItem {opc' : Nat} (h : d.pierItem it opc = some (x, p, e)) : d.wardenItem it opc' = none := by
  cases hw : d.wardenItem it opc' with
  | none => rfl
  | some y =>
    obtain ⟨hy, hat⟩ := Option.filter_eq_some_iff.1 hw
    have hs : ∃ q, y.stage = .pier q := by
      unfold Dev.pierItem at h
      rw [hy] at h
      dsimp only at h
      split at h
      · next q hq => exact ⟨q, hq⟩
      · cases h
    obtain ⟨q, hq⟩ := hs
    simp [Item.atWarden, hq] at hat

theorem exec_echo_pier (h : s.dev.wardenItem it 0x01 = none) :
    exec (.echo it inp) s = s.answer (s.dev.pierOp it 0x01 inp echoDef) := by
  show execEcho it inp s = _
  rw [execEcho, h]

/-- What an ECHO on the warden refuses (R392). -/
def echoEarly (x : Item) : Option Verdict :=
  (echoParam x).map Verdict.bad <|> if x.room < x.inLen then some .length else none

theorem exec_echo_warden (h : s.dev.wardenItem it 0x01 = some x) :
    exec (.echo it inp) s = s.answer (s.dev.wardenOp it 0x01 inp (fun _ x => echoEarly x) (fun d i bs => d.finishWarden i (.ok bs) bs)) := by
  show execEcho it inp s = _
  rw [execEcho, h]
  rfl

theorem echoEarly_eq_none (hp : x.pki = x.pko) (hl : x.inLen ≤ x.room) : echoEarly x = none := by
  simp [echoEarly, echoParam, hp, hl]

theorem echo_pier {bs : List Byte} (hw : s.dev.wardenItem it 0x01 = none) (hi : s.dev.pierItem it 0x01 = some (x, p, d))
    (hp : x.pki = x.pko) (hl : x.inLen ≤ x.room) (hf : x.fetch inp = .ok bs) :
    Answers (.echo it inp) s ((d.fetchInput x).finishPier x p (.ok bs) bs) := by
  have ha : Answers (.echo it inp) s (s.dev.pierOp it 0x01 inp echoDef) := exec_echo_pier hw
  rwa [Dev.pierOp_run (o := echoDef) hi (if_pos hp) rfl (decide_eq_true hl) hf] at ha

theorem echo_warden (h : s.dev.wardenItem it 0x01 = some x) :
    (x.pki ≠ x.pko → Answers (.echo it inp) s (s.dev.finishWarden x (.bad 0x02) [])) ∧
    (x.pki = x.pko → x.room < x.inLen → Answers (.echo it inp) s (s.dev.finishWarden x .length [])) ∧
    (∀ c, x.pki = x.pko → x.inLen ≤ x.room → x.fetch inp = .error c →
      Answers (.echo it inp) s ((s.dev.fetchInput x).finishWarden x { status := c } [])) ∧
    (∀ bs, x.pki = x.pko → x.inLen ≤ x.room → x.fetch inp = .ok bs →
      Answers (.echo it inp) s ((s.dev.fetchInput x).finishWarden x (.ok bs) bs)) := by
  have ha : Answers (.echo it inp) s _ := exec_echo_warden h
  refine ⟨fun hp => ?_, fun hp hl => ?_, fun c hp hl hf => ?_, fun bs hp hl hf => ?_⟩
  · rwa [Dev.wardenOp_refused (v := .bad 0x02) h (by simp [echoEarly, echoParam, hp])] at ha
  · rwa [Dev.wardenOp_refused (v := .length) h (by simp [echoEarly, echoParam, hp, hl])] at ha
  · rwa [Dev.wardenOp_failed h (echoEarly_eq_none hp hl) hf] at ha
  · rwa [Dev.wardenOp_served h (echoEarly_eq_none hp hl) hf] at ha

/-! ### Verifications (R386, R389) -/

/-- A MAC behind its message verifies. -/
theorem macOf_append {x : OpIn} {m : List Byte} (h : (macOf x m).length = x.item.mlen) :
    let y := m ++ macOf x m
    macOf x (y.take (y.length - x.item.mlen)) = y.drop (y.length - x.item.mlen) := by
  intro y
  have hy : y.length - x.item.mlen = m.length := by
    rw [List.length_append, h, Nat.add_sub_cancel]
  rw [hy, List.take_left, List.drop_left]

/-- Settles O43: each operation by its command, through the cases of `Dev.pierOp`. -/
theorem pierOperations : Obligations.PierOperations := by
  unfold Obligations.PierOperations
  refine ⟨⟨fun o ho => ?_, fun o ho => ?_, onPier_of fun _ _ _ => rfl, onPier_of fun _ _ _ => rfl, onPier_of fun _ _ _ => rfl,
    onPier_of fun _ _ _ => rfl, onPier_of fun _ _ _ => rfl, offPier_of fun _ _ _ => rfl, offPier_of fun _ _ _ => rfl,
    offPier_of fun _ _ _ => rfl, offPier_of fun _ _ _ => rfl, offPier_signRsa, offPier_of fun _ _ _ => rfl,
    offPier_of fun _ _ _ => rfl, offPier_of fun _ _ _ => rfl, offPier_of fun _ _ _ => rfl, offPier_of fun _ _ _ => rfl,
    offPier_of fun _ _ _ => rfl, fun it inp s x p d es d1 bs hi hp hk hl hf => signRsa_verified hi hp hk hl hf⟩,
    ⟨?_, fun it inp s hw hi => ?_, fun it inp s x => echo_warden, fun it inp s x p d bs => echo_pier⟩,
    rfl, fun r hr => if_neg hr, fun x m => macOf_append⟩
  · subst ho
    exact ⟨onPier_of fun _ _ _ => rfl, onPier_of fun _ _ _ => rfl, onPierThen_signRsa⟩
  · subst ho
    exact ⟨onPier_of fun _ _ _ => rfl, onPier_of fun _ _ _ => rfl, onPier_of fun _ _ _ => rfl⟩
  · exact onPierThen_of fun it inp s x p d hi => exec_echo_pier (Dev.wardenItem_of_pierItem hi)
  · have ha : Answers (.echo it inp) s (s.dev.pierOp it 0x01 inp echoDef) := exec_echo_pier hw
    rwa [Dev.pierOp_none hi] at ha

end Sys2Proof.Machine
end

section
/-! MSG_TRANSLATE, RUN_PROGRAM, LOAD_PROGRAM and DEFINE_COURSE (O44): R393, R395, R406 to R411. -/

namespace Sys2Proof.Machine
open Sys2Proof

variable {d e : Dev} {it : Nat} {inp : Fetched} {x : Item} {p : Fin 16} {s : State}

/-! ### MSG_TRANSLATE (R393, R395) -/

/-- MSG_TRANSLATE with the maps of its batch. -/
def msgDef (ls : List Loaded) : OpDef where
  param := fun i => paramChecks i [((findLoaded ls i.part true (i.bits 12 9 0)).isNone, 0x30)]
  needs := fun _ => []
  lens := fun _ _ => true
  run := fun x => (match findLoaded ls x.item.part true (x.item.bits 12 9 0) with
    | some l => translateMsg (parseMap l.bytes) x.item.room x.input
    | none => .bad 0x30)

/-- The device in which the tables of an item's map stand, where they are loaded. -/
def Dev.mapLoaded (d : Dev) (it : Nat) : Dev :=
  match d.pierItem it 0x48 with
  | some (i, p, _) =>
    (match findLoaded (d.snapOf it) i.part true (i.bits 12 9 0), i.part with
     | some l, some q => if (plainOnly i).isSome then d else d.onPier p (loadTables q (parseMap l.bytes).tabs)
     | _, _ => d)
  | none => d

theorem answers_msgTranslate (it : Nat) (inp : Fetched) (s : State) :
    Answers (.msgTranslate it inp) s ((s.dev.mapLoaded it).pierOp it 0x48 inp (msgDef (s.dev.snapOf it))) := rfl

theorem offPier_msgTranslate : OffPier .msgTranslate 0x48 := by
  intro it inp s hi
  have ha := answers_msgTranslate it inp s
  rwa [show s.dev.mapLoaded it = s.dev by simp only [Dev.mapLoaded, hi], Dev.pierOp_none hi] at ha

theorem plainOnly_ne_none (h : plainOnly x ≠ none) : plainOnly x = some 0x02 := by
  unfold plainOnly at h ⊢
  split at h
  · exact absurd rfl h
  · next hc => exact if_neg hc

theorem msgTranslate_unloaded (hi : s.dev.pierItem it 0x48 = some (x, p, d))
    (hl : findLoaded (s.dev.snapOf it) x.part true (x.bits 12 9 0) = none) :
    Answers (.msgTranslate it inp) s (d.finishPier x p (.bad 0x30) []) := by
  have ha := answers_msgTranslate it inp s
  have hp : (msgDef (s.dev.snapOf it)).param x = some 0x30 := by simp [msgDef, paramChecks, hl]
  rwa [show s.dev.mapLoaded it = s.dev by simp only [Dev.mapLoaded, hi, hl], Dev.pierOp_refused hi hp] at ha

theorem msgTranslate_packed {l : Loaded} (hi : s.dev.pierItem it 0x48 = some (x, p, d))
    (hl : findLoaded (s.dev.snapOf it) x.part true (x.bits 12 9 0) = some l) (hx : plainOnly x ≠ none) :
    Answers (.msgTranslate it inp) s (d.finishPier x p (.bad 0x02) []) := by
  have ha := answers_msgTranslate it inp s
  have hm : s.dev.mapLoaded it = s.dev := by
    simp only [Dev.mapLoaded, hi, hl, plainOnly_ne_none hx, Option.isSome_some, if_true]
    split <;> rfl
  have hp : (msgDef (s.dev.snapOf it)).param x = some 0x02 := by simp [msgDef, paramChecks, hl, plainOnly_ne_none hx]
  rwa [hm, Dev.pierOp_refused hi hp] at ha

theorem Dev.mapLoaded_eq {l : Loaded} {q : Fin 64} (hi : d.pierItem it 0x48 = some (x, p, e))
    (hl : findLoaded (d.snapOf it) x.part true (x.bits 12 9 0) = some l) (hq : x.part = some q) (hx : plainOnly x = none) :
    d.mapLoaded it = d.onPier p (loadTables q (parseMap l.bytes).tabs) := by
  rw [hq] at hl
  simp [Dev.mapLoaded, hi, hl, hq, hx]

theorem msgDef_param {ls : List Loaded} {l : Loaded} (hl : findLoaded ls x.part true (x.bits 12 9 0) = some l)
    (hx : plainOnly x = none) : (msgDef ls).param x = none := by
  simp [msgDef, paramChecks, hl, hx]

theorem msgTranslate_served {d0 : Dev} {l : Loaded} {q : Fin 64} (hi : s.dev.pierItem it 0x48 = some (x, p, d0))
    (hl : findLoaded (s.dev.snapOf it) x.part true (x.bits 12 9 0) = some l) (hq : x.part = some q) (hx : plainOnly x = none)
    (h2 : (s.dev.onPier p (loadTables q (parseMap l.bytes).tabs)).pierItem it 0x48 = some (x, p, d)) :
    (∀ c, x.fetch inp = .error c →
      Answers (.msgTranslate it inp) s ((d.fetchInput x).finishPier x p { status := c } [])) ∧
    (∀ bs, x.fetch inp = .ok bs →
      Answers (.msgTranslate it inp) s ((d.fetchInput x).finishPier x p (translateMsg (parseMap l.bytes) x.room bs) bs)) := by
  have ha := answers_msgTranslate it inp s
  rw [Dev.mapLoaded_eq hi hl hq hx] at ha
  have hp := msgDef_param hl hx
  refine ⟨fun c hf => ?_, fun bs hf => ?_⟩
  · rwa [Dev.pierOp_failed h2 hp rfl rfl hf] at ha
  · rw [Dev.pierOp_run h2 hp rfl rfl hf] at ha
    simp only [msgDef, hl] at ha
    exact ha

/-! ### RUN_PROGRAM (R408, R409) -/

/-- What a RUN_PROGRAM does with its item on its pier (R408). -/
def Dev.runOp (d0 : Dev) (it : Nat) (inp : Fetched) (i : Item) (p : Fin 16) (d : Dev) : Dev :=
  match findLoaded (d0.snapOf it) i.part false (i.bits 12 5 0), i.part, d.session? i.session with
  | some l, some q, some ss =>
    let g := parseImage l.words
    if g.inCap < packWords i.pki i.inLen then d.finishPier i p .length []
    else
      (match i.fetch inp with
       | .error c => (d.fetchInput i).finishPier i p { status := c } []
       | .ok bs => (d.fetchInput i).runProgram i p q ss g bs)
  | _, _, _ => d.finishPier i p (.bad 0x40) []

theorem answers_runProgram (hi : s.dev.pierItem it 0x70 = some (x, p, d)) :
    Answers (.runProgram it inp) s (s.dev.runOp it inp x p d) := by
  show execRunProgram it inp s = _
  simp only [execRunProgram, hi]
  rfl

theorem offPier_runProgram : OffPier .runProgram 0x70 := by
  intro it inp s hi
  show execRunProgram it inp s = _
  simp only [execRunProgram, hi]
  rfl

theorem runProgram_refused (hi : s.dev.pierItem it 0x70 = some (x, p, d))
    (h : findLoaded (s.dev.snapOf it) x.part false (x.bits 12 5 0) = none ∨ x.part = none ∨ d.session? x.session = none) :
    Answers (.runProgram it inp) s (d.finishPier x p (.bad 0x40) []) := by
  have ha := answers_runProgram (inp := inp) hi
  have hr : s.dev.runOp it inp x p d = d.finishPier x p (.bad 0x40) [] := by
    unfold Dev.runOp
    split
    · next hl hq hs =>
      rw [hl, hq, hs] at h
      simp at h
    · rfl
  rwa [hr] at ha

theorem runProgram_served {q : Fin 64} {ss : Session} {l : Loaded} (hi : s.dev.pierItem it 0x70 = some (x, p, d))
    (hq : x.part = some q) (hs : d.session? x.session = some ss)
    (hl : findLoaded (s.dev.snapOf it) (some q) false (x.bits 12 5 0) = some l) :
    let g := parseImage l.words
    (g.inCap < packWords x.pki x.inLen → Answers (.runProgram it inp) s (d.finishPier x p .length [])) ∧
    (∀ c, packWords x.pki x.inLen ≤ g.inCap → x.fetch inp = .error c →
      Answers (.runProgram it inp) s ((d.fetchInput x).finishPier x p { status := c } [])) ∧
    (∀ bs, packWords x.pki x.inLen ≤ g.inCap → x.fetch inp = .ok bs →
      Answers (.runProgram it inp) s ((d.fetchInput x).runProgram x p q ss g bs)) := by
  intro g
  have ha := answers_runProgram (inp := inp) hi
  simp only [Dev.runOp, hq, hs, hl] at ha
  refine ⟨fun h => ?_, fun c h hf => ?_, fun bs h hf => ?_⟩
  · rwa [if_pos h] at ha
  · rwa [if_neg (Nat.not_lt.2 h), hf] at ha
  · rwa [if_neg (Nat.not_lt.2 h), hf] at ha

theorem programStepLimit_over (hx : s.dev.item? it = some x) (hs : x.stage = .overLimit p) :
    Answers (.programStepLimit it) s (s.dev.finishPier x p (.bad 0x7E) x.inBytes) := by
  show execProgramStepLimit it s = _
  simp only [execProgramStepLimit, hx, hs]
  rfl

theorem programStepLimit_idle (h : ∀ x p, s.dev.item? it = some x → x.stage ≠ .overLimit p) :
    Answers (.programStepLimit it) s s.dev := by
  show execProgramStepLimit it s = _
  unfold execProgramStepLimit
  cases hx : s.dev.item? it with
  | none =>
    simp only [hx]
    rfl
  | some x =>
    simp only [hx]
    split
    · next p hs => exact absurd hs (h x p hx)
    · rfl

/-! ### LOAD_PROGRAM and DEFINE_COURSE (R89 to R91, R406, R407, R410, R411) -/

/-- What a LOAD_PROGRAM does with its image or map (R406, R407, R410). -/
def Dev.loadOp (d : Dev) (x : Item) (bs : List Byte) : Dev :=
  let map : Bool := x.bits 12 0 0 = 1
  let slot := x.bits 12 25 16
  match x.part with
  | none => d.finishWarden x (.bad 0x01) bs
  | some q =>
    let others := d.loaded.filter (fun (l : Loaded) => !(l.part = q && l.isMap = map && l.slot = slot))
    if x.inLen = 0 then ({ d with loaded := others }).finishWarden x (.ok []) bs
    else if map then
      if mapOk bs then ({ d with loaded := others ++ [Loaded.mk q true slot bs []] }).finishWarden x (.ok []) bs
      else d.finishWarden x (.bad 0x43) bs
    else match imageRefused (d.ipaWords q) (denseIn bs) with
      | some r => d.finishWarden x (.bad r) bs
      | none => ({ d.writeImages q (parseImage (denseIn bs)) with
          loaded := others ++ [Loaded.mk q false slot [] ((denseIn bs).take (9 + imageCode (denseIn bs)))] }).finishWarden x (.ok []) bs

theorem loadParam_eq (x : Item) : (loadParam x).map Verdict.bad =
    if x.bits 12 0 0 ≠ 1 ∧ 63 < x.bits 12 25 16 then some (.bad 0x01)
      else if x.inLen ≠ 0 ∧ x.pki ≠ (if x.bits 12 0 0 = 1 then 0 else 1) then some (.bad 0x02) else none := by
  simp only [loadParam, Bool.and_eq_true, Bool.not_eq_true', decide_eq_true_eq, decide_eq_false_iff_not]
  split
  · rfl
  · rw [apply_ite (Option.map Verdict.bad)]
    rfl

/-- A flag compared with a statement is the flag compared with whether the statement holds. -/
theorem decide_flag_eq (b : Bool) (P : Prop) [Decidable P] [Decidable ((b = true) = P)] :
    decide ((b = true) = P) = decide (b = decide P) := by
  by_cases h : P <;> simp [h]

theorem onWarden_loadProgram : OnWarden .loadProgram 0x71 atOnce (fun _ x => (loadParam x).map Verdict.bad) Dev.loadOp := by
  refine OnWarden.congr (onWarden_of_op (fun _ _ _ => rfl) fun _ _ _ => rfl) (fun _ _ => rfl) (fun d x => rfl) fun d x bs => ?_
  simp only [Dev.loadOp, decide_eq_true_eq, decide_flag_eq] <;> rfl

theorem onWarden_defineCourse : OnWarden .defineCourse 0x72 atOnce (fun _ x => if x.pki = 1 then none else some (.bad 0x02))
    (fun d x bs =>
      let ws := denseIn bs
      match x.part with
      | none => d.finishWarden x (.bad 0x01) bs
      | some q =>
        if ws ≠ [] ∧ defReserved ws = true then d.finishWarden x { status := 0x11 } bs
        else if ws = [] ∨ 128 < ws.length ∨ ws.length < defWords ws then d.finishWarden x .length bs
        else
          let cs := wholeSet q.val (d.pier 0)
          let e := d.onPier 0 (fun _ => cs.2)
          match courseCheck cs.1 (x.bits 12 5 0) (ws.take (defWords ws)) with
          | some r => e.finishWarden x (.bad r) bs
          | none => (e.allPiers (putCourse q.val (x.bits 12 5 0) (ws.take (defWords ws)))).finishWarden x (.ok []) bs) := by
  refine OnWarden.congr (onWarden_of_op (fun _ _ _ => rfl) fun _ _ _ => rfl) (fun _ _ => rfl) (fun d x => rfl) fun d x bs => ?_
  simp only [Bool.and_eq_true, Bool.or_eq_true, decide_eq_true_eq, or_assoc] <;> rfl

/-- Settles O44: each operation by its command, the verdicts under given checks from the operation. -/
theorem programsMapsAndCourses : Obligations.ProgramsMapsAndCourses := by
  unfold Obligations.ProgramsMapsAndCourses
  refine ⟨offPier_msgTranslate, fun it inp s x p d => msgTranslate_unloaded, fun it inp s x p d l => msgTranslate_packed,
    fun it inp s x p d0 d2 l q hi hl hq hx h2 => msgTranslate_served hi hl hq hx h2,
    offPier_runProgram, fun it inp s x p d => runProgram_refused, fun it inp s x p d q ss l => runProgram_served,
    fun it s x p => programStepLimit_over, fun it s => programStepLimit_idle,
    OnWarden.congr onWarden_loadProgram (fun _ _ => rfl) (fun _ x => loadParam_eq x) fun _ _ _ => rfl,
    fun q => ?_, fun q => ?_, fun q => ?_, onWarden_defineCourse⟩
  · refine OnWarden.serves onWarden_loadProgram fun d e x bs ⟨hv, hp, hm, hl, ho⟩ he => ⟨rfl, by rw [hv]; rfl, ?_⟩
    simp only [Dev.loadOp, hp, hm, hl, ho, if_false, decide_true, if_true]
  · refine OnWarden.serves onWarden_loadProgram fun d e x bs ⟨hv, hp, hm, hl, ho⟩ he => ⟨rfl, by rw [hv]; rfl, ?_⟩
    have hi : e.ipaWords q = d.ipaWords q := by
      obtain ⟨o, p, rfl⟩ := he
      rfl
    simp only [Dev.loadOp, hp, hm, hl, hi, ho, if_false]
    rfl
  · refine OnWarden.serves onWarden_loadProgram fun d e x bs ⟨hv, hp, hl⟩ he => ⟨rfl, by rw [hv]; rfl, ?_⟩
    simp only [Dev.loadOp, hp, hl, if_true]

end Sys2Proof.Machine
end

section
/-! Configuration requests, SPDM, IDE and PTM (O38): R324, R325, R333, R346, R353, R355 to R357 and R483. -/

namespace Sys2Proof.Machine
open Sys2Proof

variable {d e : Dev} {f : FnId} {s : State}

/-- A choice reads the same from its condition and from what it excludes. -/
theorem ite_swap {α : Type} {P Q : Prop} [Decidable P] [Decidable Q] (h : Q ↔ ¬P) (a b : α) :
    (if P then b else a) = if Q then a else b := by
  by_cases hp : P
  · rw [if_pos hp, if_neg (fun hq => h.1 hq hp)]
  · rw [if_neg hp, if_pos (h.2 hp)]

/-! ### Configuration requests (R324, R325, R346, R353, R483) -/

theorem exec_configurationRequest (hl : s.dev.host.link = .up) (he : s.dev.fnExists f = true)
    (hr : s.dev.host.cfgReady = true) (q : CfgRequest) :
    exec (.configurationRequest f q) s = s.answer (s.dev.configure f q) := by
  show execConfigurationRequest f q s = _
  simp [execConfigurationRequest, hl, he, hr]

theorem configurationRequest_unanswered (h : s.dev.host.link ≠ .up ∨ s.dev.fnExists f = false) (q : CfgRequest) :
    Answers (.configurationRequest f q) s s.dev := by
  have hc : (decide (s.dev.host.link ≠ .up) || !s.dev.fnExists f) = true := by
    rcases h with h | h <;> simp [h]
  show execConfigurationRequest f q s = _
  simp only [execConfigurationRequest, hc, if_true]
  rfl

theorem configurationRequest_retried (hl : s.dev.host.link = .up) (he : s.dev.fnExists f = true)
    (hr : s.dev.host.cfgReady = false) (q : CfgRequest) :
    Answers (.configurationRequest f q) s { s.dev with host := { s.dev.host with lastRead := none } } := by
  have hc : (decide (s.dev.host.link ≠ .up) || !s.dev.fnExists f) = false := by simp [hl, he]
  have hx : exec (.configurationRequest f q) s = s.answer (s.dev.readBack none) := by
    show execConfigurationRequest f q s = _
    simp only [execConfigurationRequest, hc, hr, Bool.false_eq_true, if_false, Bool.not_false, if_true]
  exact hx

theorem Dev.configure_numVfs (d : Dev) (f : FnId) (n : BitVec 16) : d.configure f (.numVfs n) =
    if f = .pf0 ∧ d.host.vfEn = false then { d with host := { d.host with numVfs := n } } else d := by
  simp only [Dev.configure, Bool.and_eq_true, decide_eq_true_eq, Bool.not_eq_true']

theorem Dev.configure_vfEnable_true (d : Dev) (f : FnId) : d.configure f (.vfEnable true) =
    if f = .pf0 then { d with host := { d.host with vfEn := true } } else d := by
  simp only [Dev.configure, if_true]
  exact ite_not _ _ _

theorem exec_vfEnable_false (hl : s.dev.host.link = .up) (he : s.dev.fnExists f = true) (hr : s.dev.host.cfgReady = true) :
    exec (.configurationRequest f (.vfEnable false)) s = (if f = .pf0 then exec .vfEnableClear s else .next s) := by
  rw [exec_configurationRequest hl he hr]
  by_cases h : f = .pf0
  · rw [if_pos h]
    show s.answer (s.dev.configure f (.vfEnable false)) = execVfEnableClear s
    simp [Dev.configure, execVfEnableClear, h]
  · rw [if_neg h, Dev.configure, if_pos h]
    rfl

theorem Dev.cfgRead_fields (d : Dev) :
    d.cfgRead .pf0 .totalVfs = 64 ∧ d.cfgRead .pf0 .vfStride = 1 ∧ d.cfgRead .pf0 .numVfs = d.host.numVfs.setWidth 64 ∧
    ∀ f, d.cfgRead f .noSoftReset = 0 ∧ d.cfgRead f .pmeSupport = 0 ∧ d.cfgRead f .maxRead = (d.fn f).mrrs.setWidth 64 ∧
      d.cfgRead f .maxPayload = (d.fn f).mps.setWidth 64 ∧ d.cfgRead f .busMaster = (if (d.fn f).busMaster then 1 else 0) ∧
      d.cfgRead f .memSpace = (if (d.fn f).memSpace then 1 else 0) :=
  ⟨rfl, rfl, rfl, fun _ => ⟨rfl, rfl, rfl, rfl, rfl, rfl⟩⟩

/-! ### SPDM and IDE (R333, R356) -/

theorem answers_spdmRequest_idle (h : s.dev.host.link ≠ .up ∨ s.dev.host.cfgReady = false) (m : SpdmRequest) :
    Answers (.spdmRequest m) s s.dev := by
  have hc : (decide (s.dev.host.link = .up) && s.dev.host.cfgReady) = false := by
    rcases h with h | h <;> simp [h]
  show execSpdmRequest m s = _
  simp only [execSpdmRequest, hc, Bool.false_eq_true, if_false]
  rfl

theorem answers_spdmRequest (hl : s.dev.host.link = .up) (hr : s.dev.host.cfgReady = true) {m : SpdmRequest}
    (h : s.dev.spdm m = e) : Answers (.spdmRequest m) s e := by
  show execSpdmRequest m s = _
  simp only [execSpdmRequest, hl, hr, decide_true, Bool.and_self, if_true, h]
  rfl

theorem answers_ideIntegrityFailure_idle (r : Option (FnId × Fin 64)) (h : s.dev.host.spdm.ide = []) :
    Answers (.ideIntegrityFailure r) s s.dev := by
  show execIdeIntegrityFailure r s = _
  simp only [execIdeIntegrityFailure, h, List.isEmpty_nil, if_true]
  rfl

theorem answers_ideIntegrityFailure_none (h : s.dev.host.spdm.ide ≠ []) :
    Answers (.ideIntegrityFailure none) s (s.dev.onFn .pf0 (fun F => { F with aer := F.aer ++ [27] })) := by
  show execIdeIntegrityFailure none s = _
  simp only [execIdeIntegrityFailure, List.isEmpty_eq_false_iff.2 h, Bool.false_eq_true, if_false]
  rfl

/-- What an IDE failure leaves of a ring: it stops, and names the oldest entry that was being fetched (R333). -/
def Ring.ideStopped (R : Ring) : Ring :=
  match R.fetching with
  | i :: _ => { R with ferr := true, sqHead := i, fetching := [] }
  | [] => { R with ferr := true }

theorem Ring.ideStopped_spec (R : Ring) :
    R.ideStopped.ferr = true ∧ R.ideStopped.fetching = [] ∧ R.ideStopped.sqHead = R.fetching.headD R.sqHead := by
  unfold Ring.ideStopped
  split
  · next h => exact ⟨rfl, rfl, by rw [h]; rfl⟩
  · next h => exact ⟨rfl, h, by rw [h]; rfl⟩

theorem ideIntegrityFailure_ring (r : Fin 64) (h : s.dev.host.spdm.ide ≠ []) :
    AnswersWith (.ideIntegrityFailure (some (f, r))) s (fun d =>
      (d.ring f r).ferr = true ∧ (d.ring f r).fetching = [] ∧
      (d.ring f r).sqHead = (s.dev.ring f r).fetching.headD (s.dev.ring f r).sqHead ∧
      (d.fn f).aer = (s.dev.fn f).aer ++ [27] ∧ d.items = s.dev.items) := by
  have ha : Answers (.ideIntegrityFailure (some (f, r))) s ((s.dev.onRing f r Ring.ideStopped).aer f 27) := by
    show execIdeIntegrityFailure (some (f, r)) s = _
    simp only [execIdeIntegrityFailure, List.isEmpty_eq_false_iff.2 h, Bool.false_eq_true, if_false]
    rfl
  refine Answers.answersWith ha ?_
  obtain ⟨h1, h2, h3⟩ := (s.dev.ring f r).ideStopped_spec
  rw [Dev.aer, Dev.ring_onFn _ (by exact fun _ => rfl), Dev.ring_onRing_self]
  refine ⟨h1, h2, h3, ?_, rfl⟩
  rw [Dev.fn_onFn_self, Dev.fn_onRing_self]

/-! ### PTM (R357) -/

section PtmAt

@[simp] theorem Dev.send_ptmAt (d : Dev) (o : Out) : (d.send o).host.ptmAt = d.host.ptmAt := rfl

@[simp] theorem Dev.onFn_ptmAt (d : Dev) (f : FnId) (g : Func → Func) : (d.onFn f g).host.ptmAt = d.host.ptmAt := rfl

@[simp] theorem Dev.onRing_ptmAt (d : Dev) (f : FnId) (r : Fin 64) (g : Ring → Ring) :
    (d.onRing f r g).host.ptmAt = d.host.ptmAt := rfl

@[simp] theorem Dev.write_ptmAt (d : Dev) (f : FnId) (k : WriteKind) (a : QW) (bs : List Byte) (r : Bool) :
    (d.write f k a bs r).host.ptmAt = d.host.ptmAt := by
  unfold Dev.write
  split <;> rfl

@[simp] theorem Dev.raiseMsix_ptmAt (d : Dev) (f : FnId) (v : Nat) : (d.raiseMsix f v).host.ptmAt = d.host.ptmAt := by
  rcases d.raiseMsix_cases f v with h | ⟨g, h⟩ | ⟨o, h⟩ <;> rw [h]
  · unfold Dev.onMsix
    split <;> rfl
  · rfl

@[simp] theorem Dev.signal_ptmAt (d : Dev) (f : FnId) (r : Fin 64) : (d.signal f r).host.ptmAt = d.host.ptmAt := by
  unfold Dev.signal
  dsimp only
  split <;> simp

@[simp] theorem Dev.eventEntry_ptmAt (d : Dev) (r : Fin 64) (k : WriteKind) (bs : List Byte) :
    (d.eventEntry r k bs).host.ptmAt = d.host.ptmAt := by
  simp [Dev.eventEntry]

@[simp] theorem Dev.eventPut_ptmAt (d : Dev) (r : Fin 64) (k : WriteKind) (es : List (List Byte)) :
    (d.eventPut r k es).host.ptmAt = d.host.ptmAt := by
  have hl : ∀ (l : List (List Byte)) (e : Dev), (l.foldl (fun d b => d.eventEntry r k b) e).host.ptmAt = e.host.ptmAt := by
    intro l
    induction l with
    | nil => exact fun e => rfl
    | cons b l ih => exact fun e => (ih _).trans (e.eventEntry_ptmAt r k b)
  simp [Dev.eventPut, hl]

theorem Dev.fcEntry_ptmAt (d : Dev) (t : Nat) (body : List Byte) : (d.fcEntry t body).host.ptmAt = d.host.ptmAt := by
  unfold Dev.fcEntry
  dsimp only
  split <;> simp

end PtmAt

theorem answers_ptmTimingUpdate_idle (m : QW)
    (h : s.dev.host.ptmEn = false ∨ s.dev.host.link ≠ .up ∨ s.dev.now < s.dev.host.ptmAt + 250000) :
    Answers (.ptmTimingUpdate m) s s.dev := by
  have hc : (s.dev.host.ptmEn && s.dev.host.link = .up && s.dev.host.ptmAt + 250000 ≤ s.dev.now) = false := by
    rcases h with h | h | h
    · simp [h]
    · simp [h]
    · simp [Nat.not_le.2 h]
  show execPtmTimingUpdate m s = _
  simp only [execPtmTimingUpdate, hc, Bool.false_eq_true, if_false]
  rfl

theorem ptmTimingUpdate_due (m : QW) (h1 : s.dev.host.ptmEn = true) (h2 : s.dev.host.link = .up)
    (h3 : s.dev.host.ptmAt + 250000 ≤ s.dev.now) : AnswersWith (.ptmTimingUpdate m) s (fun d =>
      d.host.ptmAt = s.dev.now ∧ d.audit.eseq = s.dev.audit.eseq + 1) := by
  have ha : Answers (.ptmTimingUpdate m) s
      (Dev.fcEntry { s.dev with host := { s.dev.host with ptmAt := s.dev.now } } 3
        (leBytes 8 m.toNat ++ leBytes 8 s.dev.now)) := by
    show execPtmTimingUpdate m s = _
    simp only [execPtmTimingUpdate, h1, h2, h3, decide_true, Bool.and_self, if_true]
    rfl
  obtain ⟨h, n, he, -⟩ := Dev.fcEntry_frame { s.dev with host := { s.dev.host with ptmAt := s.dev.now } } 3
    (leBytes 8 m.toNat ++ leBytes 8 s.dev.now)
  refine Answers.answersWith ha ⟨Dev.fcEntry_ptmAt _ _ _, ?_⟩
  rw [he]

/-- Settles O38: a configuration request by `Dev.configure`, an SPDM request by `Dev.spdm`, read from what each excludes. -/
theorem configurationAndSecurity : Obligations.ConfigurationAndSecurity := by
  unfold Obligations.ConfigurationAndSecurity
  refine ⟨fun f s q h => configurationRequest_unanswered h q, fun f s q hl he hr => configurationRequest_retried hl he hr q,
    fun f s hl he hr => ?_, Dev.cfgRead_fields, fun s m h => answers_spdmRequest_idle h m, fun s hl hr => ?_,
    fun r s => answers_ideIntegrityFailure_idle r, fun s => answers_ideIntegrityFailure_none,
    fun f r s => ideIntegrityFailure_ring r, fun m s => answers_ptmTimingUpdate_idle m, fun m s => ptmTimingUpdate_due m⟩
  · intro fn
    have ha (q : CfgRequest) : Answers (.configurationRequest f q) s (s.dev.configure f q) := exec_configurationRequest hl he hr q
    refine ⟨fun r => ha _, fun on => ha _, fun on => ha _, fun on => ha _, fun k v => ha _, fun c => ?_, fun c => ?_,
      fun on => ha _, fun on => ha _, fun n => ?_, fun on => ha _, ?_, exec_vfEnable_false hl he hr⟩
    · rw [← ite_swap (Nat.not_lt (a := 2)).symm]
      exact ha _
    · rw [← ite_swap (Nat.not_lt (a := 5)).symm]
      exact ha _
    · rw [← Dev.configure_numVfs]
      exact ha _
    · rw [← Dev.configure_vfEnable_true]
      exact ha _
  · intro x n said sign late
    have hlate : ∀ (P : Prop) [Decidable P] (ok : Bool) (D : Dev), (ok = true ↔ ¬P) →
        (if P then s.dev.spdmAnswer x (.error 0x04) else D) = late ok D := fun P _ ok D h => ite_swap h _ _
    have ha {m : SpdmRequest} {e : Dev} (h : s.dev.spdm m = e) : Answers (.spdmRequest m) s e := answers_spdmRequest hl hr h
    have h3 : ∀ D : Dev, (if x.phase < 3 then s.dev.spdmAnswer x (.error 0x04) else D) = late (3 ≤ x.phase) D :=
      fun D => hlate _ _ _ (decide_eq_true_iff.trans Nat.not_lt.symm)
    refine ⟨ha rfl, ha (hlate (x.phase = 0) _ _ (by simp)), fun ok => ha (hlate (x.phase < 2) _ _ (decide_eq_true_iff.trans Nat.not_lt.symm)), ha (h3 _),
      fun off len => ha (h3 _), fun nonce => ha (h3 _), fun nonce => ha (h3 _), fun pub => ha (h3 _), fun v => ha rfl, ha rfl,
      fun k key => ha rfl, fun c => ha rfl⟩

end Sys2Proof.Machine
end

section
/-! Detections and reactions (O54): R445 to R455. -/

namespace Sys2Proof.Machine
open Sys2Proof

variable {d e : Dev} {x : Detection} {s : State} {k : Fin 64} {p : Fin 16}

/-! ### What reaches the collector (R445 to R447) -/

theorem answers_faultDetection (h : s.dev.board.porLow = false) {src : DetectionSource} (ht : s.dev.take src = e) :
    Answers (.faultDetection src) s e := by
  subst ht
  show execFaultDetection src s = _
  rw [execFaultDetection, h]
  rfl

theorem answers_faultDetection_por (h : s.dev.board.porLow = true) (src : DetectionSource) :
    Answers (.faultDetection src) s s.dev := by
  show execFaultDetection src s = _
  rw [execFaultDetection, h]
  rfl

theorem toNat_pierRegion (p : Fin 16) : (BitVec.ofNat 5 p.val).toNat = p.val := by
  have := p.isLt
  rw [BitVec.toNat_ofNat]
  omega

theorem Dev.take_queued_pier (d : Dev) (p : Fin 16) :
    (∀ x rest, (d.pier p).detq = x :: rest → d.take (.queued (BitVec.ofNat 5 p.val)) =
      (d.onPier p (fun P => { P with detq := rest })).detected { x with region := BitVec.ofNat 5 p.val }) ∧
    ((d.pier p).detq = [] → d.take (.queued (BitVec.ofNat 5 p.val)) = d) := by
  have hlt : (BitVec.ofNat 5 p.val).toNat < 16 := by
    rw [toNat_pierRegion]
    exact p.isLt
  have hp : (⟨(BitVec.ofNat 5 p.val).toNat, hlt⟩ : Fin 16) = p := Fin.ext (toNat_pierRegion p)
  refine ⟨fun x rest h => ?_, fun h => ?_⟩
  · simp only [Dev.take, hlt, dite_true, hp, h]
  · simp only [Dev.take, hlt, dite_true, hp, h]

theorem Dev.take_queued_some {r : BitVec 5} (hr : 16 ≤ r.toNat) (h : d.fc.detq.find? (fun y => y.region = r) = some x) :
    d.take (.queued r) = Dev.detected { d with fc := { d.fc with detq := d.fc.detq.erase x } } x := by
  simp only [Dev.take, Nat.not_lt.2 hr, dite_false, h, eraseRegion]

theorem Dev.take_queued_none {r : BitVec 5} (hr : 16 ≤ r.toNat) (h : ∀ x ∈ d.fc.detq, x.region ≠ r) : d.take (.queued r) = d := by
  have hf : d.fc.detq.find? (fun y => y.region = r) = none := by
    rw [List.find?_eq_none]
    intro y hy
    simpa using h y hy
  simp only [Dev.take, Nat.not_lt.2 hr, dite_false, hf]

theorem toNat_eq_zero_iff (c : BitVec 8) : c.toNat = 0 ↔ c = 0#8 := by
  rw [← BitVec.toNat_inj]
  rfl

/-- What two samples of a dual-rail pair say (R445, R447). -/
theorem Dev.take_path (d : Dev) (x : Detection) (a b : BitVec 2) :
    let broken := fun (v : BitVec 2) => v = 0#2 ∨ v = 3#2
    let here := x.region.toNat ≤ 22 ∧ (x.cause = 0#8 ∨ causeIn x.cause.toNat x.region.toNat = true)
    let error := x.cause ≠ 0#8 ∧ (a = 2#2 ∨ b = 2#2)
    (here → broken a → broken b → d.take (.path x a b) =
      d.record { x with cause := 0x01#8, detail2 := 0, level := true } (pathClass x.cause.toNat x.region.toNat)) ∧
    (here → error → d.take (.path x a b) = d.detected { x with level := x.level || causeLevel x.cause.toNat }) ∧
    (¬ here ∨ (¬ (broken a ∧ broken b) ∧ ¬ error) → d.take (.path x a b) = d) := by
  intro broken here error
  have hhere : (decide (22 < x.region.toNat) || (decide (x.cause.toNat ≠ 0) && !causeIn x.cause.toNat x.region.toNat)) = true ↔
      ¬ here := by
    simp only [Bool.or_eq_true, Bool.and_eq_true, decide_eq_true_eq, Bool.not_eq_true', ne_eq, toNat_eq_zero_iff, here]
    rw [not_and_or, not_or, Nat.not_le, Bool.not_eq_true]
  have hbroken : ∀ v : BitVec 2, (decide (v = 0#2) || decide (v = 3#2)) = true ↔ broken v := by simp [broken]
  have herror : decide (x.cause.toNat ≠ 0) = true ∧ (decide (a = 2#2) || decide (b = 2#2)) = true ↔ error := by
    simp [error, ne_eq, toNat_eq_zero_iff]
  have hexcl : ∀ v, broken v → v ≠ 2#2 := by
    rintro v (rfl | rfl) <;> decide
  simp only [Dev.take, hhere, Bool.and_eq_true, hbroken]
  refine ⟨fun hh ha hb => ?_, fun hh he => ?_, fun h => ?_⟩
  · rw [if_neg (not_not.2 hh), if_pos ⟨ha, hb⟩]
    rfl
  · have hn : ¬ (broken a ∧ broken b) := fun hb => he.2.elim (hexcl a hb.1) (hexcl b hb.2)
    rw [if_neg (not_not.2 hh), if_neg hn, if_pos (herror.2 he)]
  · rcases h with hn | ⟨hb, he⟩
    · rw [if_pos hn]
    · by_cases hh : here
      · rw [if_neg (not_not.2 hh), if_neg hb, if_neg (mt herror.1 he)]
      · rw [if_pos hh]

/-! ### What the reaction of a class leaves (R447, R451, R452) -/

theorem causeClass_lt (c g : Nat) : causeClass c g < 5 := by
  unfold causeClass
  split <;> (try split) <;> decide

/-- A repair beside a record: the correction log, pier memories and keystone copies alone change (R396, R438, R457). -/
theorem Dev.sideEffects_frame (d : Dev) (x : Detection) :
    ∃ c ps ks, d.sideEffects x = { d with fc := { d.fc with clog := c }, piers := ps, ks := ks } := by
  have hlog : ∀ p q u a, ∃ c ps ks, d.clogError p q u a = { d with fc := { d.fc with clog := c }, piers := ps, ks := ks } := by
    intro p q u a
    unfold Dev.clogError
    extract_lets l
    split
    · exact ⟨_, _, _, rfl⟩
    · extract_lets c same c' adv old d'
      clear_value adv old
      split <;> exact ⟨_, _, _, rfl⟩
  unfold Dev.sideEffects
  dsimp only
  split
  · split
    · exact hlog _ _ _ _
    · exact hlog _ _ _ _
    · exact hlog _ _ _ _
    · exact hlog _ _ _ _
    · exact ⟨_, _, _, rfl⟩
    · exact ⟨_, _, _, rfl⟩
    · exact ⟨_, _, _, rfl⟩
  · split <;> exact ⟨_, _, _, rfl⟩

/-- Causes of class CONTAIN and above are not repaired. -/
theorem Dev.sideEffects_of_class (d : Dev) (h : 2 ≤ causeClass x.cause.toNat x.region.toNat) : d.sideEffects x = d := by
  have hne : ∀ c n, causeClass c x.region.toNat = n → n < 2 → x.cause.toNat ≠ c := by
    rintro c n hc hn rfl
    omega
  unfold Dev.sideEffects
  dsimp only
  split
  · split
    · next hc => exact absurd hc (hne 0x02 0 rfl (by decide))
    · next hc => exact absurd hc (hne 0x03 1 rfl (by decide))
    · next hc => exact absurd hc (hne 0x04 0 rfl (by decide))
    · next hc => exact absurd hc (hne 0x05 1 rfl (by decide))
    · next hc => exact absurd hc (hne 0x08 0 rfl (by decide))
    · next hc => exact absurd hc (hne 0x12 1 rfl (by decide))
    · rfl
  · split
    · next hc => exact absurd hc (hne 0x1A 0 rfl (by decide))
    · rfl

/-- A record of an item on chain 16 leaves FAULT_N and READY. -/
theorem Dev.record16_board (d : Dev) (i : Item) : ∃ a, (d.record16 i).board = { d.board with alert := a } := by
  have hx : ∃ a, d.exhaust16.board = { d.board with alert := a } := by
    rcases d.exhaust16_cases with h | ⟨full, h⟩
    · exact ⟨d.board.alert, by rw [h]⟩
    · obtain ⟨q, fl, ks, h2⟩ := Dev.enterRecovery_frame { d with audit := { d.audit with full := full } }
      exact ⟨true, by rw [h, h2]⟩
  unfold Dev.record16
  dsimp only
  split
  · exact ⟨_, rfl⟩
  · split
    · exact hx
    · next hm =>
      obtain ⟨q, m, b, w, e⟩ := d.append16_of_lt (d.itemFields i.settled) (some i.settled.id) (Nat.lt_of_not_le hm)
      rw [e]
      exact ⟨_, rfl⟩

/-- An item of another number stays in the tracker. -/
theorem Dev.mem_record16_of_ne {i j : Item} (h : j ∈ d.items) (hne : j.id ≠ i.id) : j ∈ (d.record16 i).items := by
  have hdrop : ∀ e : Dev, e.items = d.items → j ∈ (e.dropItem i.settled.id).items := fun e he =>
    Dev.mem_dropItem.2 ⟨by rwa [Item.settled_id], he ▸ h⟩
  unfold Dev.record16
  dsimp only
  split
  · exact hdrop d rfl
  · split
    · refine hdrop _ ?_
      rcases d.exhaust16_cases with h | ⟨full, h⟩
      · rw [h]
      · obtain ⟨q, fl, ks, h2⟩ := Dev.enterRecovery_frame { d with audit := { d.audit with full := full } }
        rw [h, h2]
    · obtain ⟨q, au, fl, ks, bd, lf, e, -⟩ := d.append16_frame (d.itemFields i.settled) (some i.settled.id)
      rw [e]
      refine (Dev.mem_onItem_const ?_).2 (.inl ⟨by rwa [Item.settled_id], h⟩)
      rfl

/-- Items without a record that end on chain 16: the tracker then holds recorded items and those of other numbers. -/
theorem Dev.endUnrecorded_frame (l : List Item) (d : Dev) :
    ∃ its q au fl ks a lf, l.foldl (fun d i => if i.isRecorded then d else d.endItem16 i 0x30 0) d = { d with
      items := its, fc := { d.fc with detq := q }, audit := au, flash := fl, ks := ks
      board := { d.board with alert := a }, life := lf } ∧
      ∀ x ∈ its, x.isRecorded = true ∨ x ∈ d.items ∧ ∀ i ∈ l, i.isRecorded = false → x ≠ i := by
  induction l generalizing d with
  | nil => exact ⟨d.items, d.fc.detq, d.audit, d.flash, d.ks, d.board.alert, d.life, rfl, fun x hx => .inr ⟨hx, by simp⟩⟩
  | cons i l ih =>
    rw [List.foldl_cons]
    split
    · next hi =>
      obtain ⟨its, q, au, fl, ks, a, lf, e, h⟩ := ih d
      refine ⟨its, q, au, fl, ks, a, lf, e, fun x hx => (h x hx).imp_right fun ⟨hm, hl⟩ => ⟨hm, ?_⟩⟩
      exact List.forall_mem_cons.2 ⟨fun hf => absurd hi (by rw [hf]; decide), hl⟩
    · obtain ⟨its, q, au, fl, ks, bd, lf, e, h1⟩ := d.record16_frame { i with
        status := BitVec.ofNat 8 0x30, result := BitVec.ofNat 8 0, outLen := 0, output := [], rdata6 := 0, rdata7 := 0 }
      obtain ⟨a, hb⟩ := d.record16_board { i with
        status := BitVec.ofNat 8 0x30, result := BitVec.ofNat 8 0, outLen := 0, output := [], rdata6 := 0, rdata7 := 0 }
      rw [e] at hb
      replace hb : bd = { d.board with alert := a } := hb
      subst hb
      obtain ⟨its2, q2, au2, fl2, ks2, a2, lf2, e2, h2⟩ := ih (d.endItem16 i 0x30 0)
      have e1 : d.endItem16 i 0x30 0 = _ := e
      rw [e1] at e2 h2
      refine ⟨its2, q2, au2, fl2, ks2, a2, lf2, by rw [e1, e2], fun x hx => ?_⟩
      rcases h2 x hx with hr | ⟨hm, hl⟩
      · exact .inl hr
      · rcases h1 x hm with ⟨hne, hd⟩ | ⟨n, hn⟩
        · exact .inr ⟨hd, List.forall_mem_cons.2 ⟨fun _ hxi => hne (by rw [hxi]), hl⟩⟩
        · exact .inl (by simp [Item.isRecorded, hn])

/-- A HALT where none stands: its signals, no batch, every pier stopped, and the items dropped or ended (R452). -/
theorem Dev.haltNow_spec (h : d.fc.halt = false) (cause : Nat) :
    let e := d.haltNow cause
    e.fc.recs = d.fc.recs ∧ e.fc.halt = true ∧ e.board.fault = true ∧ e.board.ready = false ∧ e.setter.batches = [] ∧
    e.piers = (d.haltStart cause).piers ∧
    (cause = 0x19 ∨ cause = 0x1B → e.items = []) ∧ (cause ≠ 0x19 → cause ≠ 0x1B → ∀ i ∈ e.items, i.isRecorded = true) := by
  rw [Dev.haltNow_eq h]
  by_cases hc : (decide (cause = 0x19) || decide (cause = 0x1B)) = true
  · rw [if_pos hc]
    have hc' : cause = 0x19 ∨ cause = 0x1B := by simpa using hc
    exact ⟨rfl, rfl, rfl, rfl, rfl, rfl, fun _ => rfl, fun h1 h2 => absurd hc' (not_or.2 ⟨h1, h2⟩)⟩
  · rw [if_neg hc]
    have hc' : ¬ (cause = 0x19 ∨ cause = 0x1B) := by simpa using hc
    obtain ⟨its, q, au, fl, ks, a, lf, e, hi⟩ := Dev.endUnrecorded_frame (d.haltStart cause).items (d.haltStart cause).dropWork
    rw [e]
    refine ⟨rfl, rfl, rfl, rfl, rfl, rfl, fun hx => absurd hx hc', fun _ _ i hm => ?_⟩
    rcases hi i hm with hr | ⟨hm', hl⟩
    · exact hr
    · by_contra hf
      exact hl i hm' (by simpa using hf) rfl

theorem abortRun_exec (P : Pier) (now fr : Nat) : (abortRun P now fr).runs.exec = none := by
  unfold abortRun
  split
  · assumption
  · rfl

/-- A HALT stops every pier (R264, R452). -/
theorem Dev.haltStart_pier (d : Dev) (cause : Nat) (p : Fin 16) :
    ((d.haltStart cause).pier p).runs.exec = none ∧ ((d.haltStart cause).pier p).core.run ≠ .running := by
  have hp : (d.haltStart cause).pier p = { abortRun (d.pier p) d.now d.fresh with
      core := if (abortRun (d.pier p) d.now d.fresh).core.run = .reset then (abortRun (d.pier p) d.now d.fresh).core
        else { (abortRun (d.pier p) d.now d.fresh).core.nmiEdge with run := .stopped } } := Dev.pier_allPiers _ p _
  rw [hp]
  refine ⟨abortRun_exec _ _ _, ?_⟩
  dsimp only
  split
  · next hr =>
    rw [hr]
    decide
  · exact nofun

/-- The loss of a pier's items leaves the setter's OUT (R451). -/
theorem Dev.loseItems_out (d : Dev) (p : Fin 16) : (d.loseItems p).setter.out = d.setter.out := by
  have hkc : ∀ e : Dev, (e.kcSync p).setter = e.setter := fun e => by
    obtain ⟨ps, h, -⟩ := e.kcSync_frame p
    rw [h]
  have hem : ∀ e : Dev, (e.emptied p).setter.out = e.setter.out := fun e => by
    unfold Dev.emptied
    dsimp only
    split
    · rfl
    · rw [hkc]
      rfl
  obtain ⟨its, q, au, fl, ks, bd, lf, e, -⟩ := Dev.endItems_frame 0x23 0 (d.items.filter (fun i => i.unfinished p)) (d.unbatched p)
  rw [d.loseItems_eq, hem, e]
  rfl

section SelfRefresh

theorem handOver_selfRefresh (P : Pier) (now : Nat) (b : Fin 16) (o : BitVec 7) :
    (handOver P now b o).mem.selfRefresh = P.mem.selfRefresh := by
  obtain ⟨k, l, w, e⟩ := unlockBank_frame P b
  unfold handOver
  rw [e]
  dsimp only
  split <;> rfl

theorem bankOwnWrite_selfRefresh (P : Pier) (now : Nat) (b : Fin 16) (v : DW) :
    (bankOwnWrite P now b v).mem.selfRefresh = P.mem.selfRefresh := by
  by_cases h : bankOwnRefused P b (v.setWidth 7)
  · rw [bankOwnWrite_of_refused now h]
    rfl
  · rw [bankOwnWrite_of_accepted now h]
    split
    · rfl
    · exact handOver_selfRefresh P now b _

theorem Dev.kcSync_selfRefresh (d : Dev) (p : Fin 16) : ((d.kcSync p).pier p).mem.selfRefresh = (d.pier p).mem.selfRefresh := by
  unfold Dev.kcSync
  split
  · rfl
  · dsimp only
    split
    · unfold Dev.onReg
      split
      · rw [Dev.pier_onPier_self _ p fun P => bankOwnWrite P _ 15 64, bankOwnWrite_selfRefresh, Dev.pier_onPier_self]
      · rw [Dev.pier_onPier_self]
    · rw [Dev.pier_onPier_self]

theorem Dev.emptied_selfRefresh (d : Dev) (p : Fin 16) : ((d.emptied p).pier p).mem.selfRefresh = (d.pier p).mem.selfRefresh := by
  have h1 : ((d.s2Late p).pier p).mem.selfRefresh = (d.pier p).mem.selfRefresh := by
    unfold Dev.s2Late
    dsimp only
    rw [Dev.pier_onPier_self]
    rfl
  unfold Dev.emptied
  dsimp only
  split
  · exact h1
  · exact (Dev.kcSync_selfRefresh _ p).trans h1

theorem Dev.loseItems_selfRefresh (d : Dev) (p : Fin 16) :
    ((d.loseItems p).pier p).mem.selfRefresh = (d.pier p).mem.selfRefresh := by
  obtain ⟨its, q, au, fl, ks, bd, lf, e, -⟩ := Dev.endItems_frame 0x23 0 (d.items.filter (fun i => i.unfinished p)) (d.unbatched p)
  have h1 : ((d.unbatched p).pier p).mem.selfRefresh = (d.pier p).mem.selfRefresh := by
    rw [Dev.unbatched_pier]
  rw [d.loseItems_eq, e, Dev.emptied_selfRefresh]
  exact h1

end SelfRefresh

/-- An item of no lost number stays in the tracker. -/
theorem Dev.mem_endItems {st r : Nat} {i : Item} (l : List Item) (d : Dev) (hi : i ∈ d.items) (hl : ∀ j ∈ l, i.id ≠ j.id) :
    i ∈ (l.foldl (fun d i => d.endItem16 i st r) d).items := by
  induction l generalizing d with
  | nil => exact hi
  | cons j l ih =>
    obtain ⟨hj, hl⟩ := List.forall_mem_cons.1 hl
    exact ih _ (Dev.mem_record16_of_ne hi hj) hl

/-- The loss of a pier's items takes no item that is finished, but for the number of one that is not. -/
theorem Dev.mem_loseItems {i : Item} (hi : i ∈ d.items) :
    i ∈ (d.loseItems p).items ∨ ∃ j ∈ d.items, j.id = i.id ∧ j.unfinished p = true := by
  by_cases hx : ∃ j ∈ d.items, j.id = i.id ∧ j.unfinished p = true
  · exact .inr hx
  · refine .inl ?_
    obtain ⟨st, ps, e, -⟩ := Dev.emptied_frame
      ((d.items.filter (fun i => i.unfinished p)).foldl (fun d i => d.endItem16 i 0x23 0) (d.unbatched p)) p
    rw [d.loseItems_eq, e]
    refine Dev.mem_endItems _ (d.unbatched p) hi fun j hj hid => hx ⟨j, ?_⟩
    obtain ⟨hj, hu⟩ := List.mem_filter.1 hj
    exact ⟨hj, hid.symm, hu⟩

/-- A pier that is contained: quarantine, its reset due, its channel in self-refresh, its batches and unfinished items gone (R451). -/
theorem Dev.contain_spec (h : d.fc.quar.getLsbD p.val = false) :
    let e := d.contain p
    e.fc.recs = d.fc.recs ∧ e.fc.quar.getLsbD p.val = true ∧ e.fc.resetDue.getLsbD p.val = true ∧
    e.setter.out.getLsbD p.val = true ∧ (e.pier p).mem.selfRefresh = true ∧ (∀ b ∈ e.setter.batches, b.pier? ≠ some p) ∧
    (∀ i ∈ e.items, i.unfinished p = false) ∧
    ∀ i ∈ d.items, i ∈ e.items ∨ ∃ j ∈ d.items, j.id = i.id ∧ j.unfinished p = true := by
  intro e
  let d1 : Dev := ({ d with
    fc := { d.fc with quar := d.fc.quar ||| BitVec.ofNat 16 (2 ^ p.val), resetDue := d.fc.resetDue ||| BitVec.ofNat 16 (2 ^ p.val) }
    setter := { d.setter with out := d.setter.out ||| BitVec.ofNat 16 (2 ^ p.val) } } : Dev).onPier p
      (fun P => { P with mem := { P.mem with selfRefresh := true } })
  have he : e = d1.loseItems p := if_neg (by rw [h]; decide)
  obtain ⟨⟨q, hfc⟩, -, hb, hi, -⟩ := d1.loseItems_spec p
  rw [he]
  refine ⟨by rw [hfc]; rfl, ?_, ?_, ?_, ?_, hb, hi, fun i => Dev.mem_loseItems (d := d1)⟩
  · rw [hfc]
    exact (setBit_getLsbD _ p p).trans (by simp)
  · rw [hfc]
    exact (setBit_getLsbD _ p p).trans (by simp)
  · rw [Dev.loseItems_out]
    exact (setBit_getLsbD _ p p).trans (by simp)
  · rw [Dev.loseItems_selfRefresh]
    exact congrArg (fun P : Pier => P.mem.selfRefresh) (Dev.pier_onPier_self _ p _)

theorem Dev.contain_recs (d : Dev) (p : Fin 16) : (d.contain p).fc.recs = d.fc.recs := by
  by_cases h : d.fc.quar.getLsbD p.val = true
  · rw [show d.contain p = d from if_pos h]
  · exact (Dev.contain_spec (Bool.not_eq_true _ ▸ h)).1

/-- No reaction changes a record (R451, R452). -/
theorem Dev.react_recs (d : Dev) (cls c g : Nat) : (d.react cls c g).fc.recs = d.fc.recs := by
  unfold Dev.react
  split
  · rfl
  · dsimp only
    split <;> rfl
  · split
    · split
      · rfl
      · exact d.contain_recs _
    · rfl
  · exact (d.react_hold c g).2.2.2
  · by_cases h : d.fc.halt = true
    · rw [show d.haltNow c = d from if_pos h]
    · exact (Dev.haltNow_spec (Bool.not_eq_true _ ▸ h) c).1

/-! ### The record of a detection (R448, R449, R453) -/

/-- A CONTAIN detection of a pier that is OUT closes its record at once (R451). -/
def Dev.closesAtOnce (d : Dev) (x : Detection) (cls : Nat) : Bool :=
  cls = 2 && x.region.toNat < 16 && d.fc.out.getLsbD x.region.toNat

theorem Dev.record_of_halt (h : d.fc.halt = true) (hk : d.haltSlot = some k) (cls : Nat) :
    d.record x cls = d.setFrec k ((d.frec k).mergeCount x d.now) := by
  simp only [Dev.record, h, hk, if_true]

section Outside

variable (h : d.fc.halt = false)
include h

theorem Dev.record_of_shadow (ho : d.openOf x.region.toNat = some k) (hs : (d.frec k).shadow.isSome = true) (cls : Nat) :
    d.record x cls = d.setFrec k ((d.frec k).mergeCount x d.now) := by
  simp only [Dev.record, h, ho, FRec.inShadow, hs, if_true, Bool.false_eq_true, if_false]

section Open

variable {cls : Nat} (ho : d.openOf x.region.toNat = some k) (hs : (d.frec k).shadow = none)
  (hc : d.closesAtOnce x cls = false)
include ho hs hc

theorem Dev.record_joins (hle : cls ≤ (d.frec k).cls.toNat) : d.record x cls = d.setFrec k ((d.frec k).merge x d.now) := by
  unfold Dev.closesAtOnce at hc
  simp only [Dev.record, h, ho, FRec.inShadow, hs, hc, ((d.frec k).merge_spec x d.now).2.2, hle, Option.isSome_none, if_true,
    Bool.false_eq_true, if_false]

theorem Dev.record_raises (hlt : (d.frec k).cls.toNat < cls) :
    d.record x cls = (d.raiseClass x cls k).react cls x.cause.toNat x.region.toNat := by
  unfold Dev.closesAtOnce at hc
  simp only [Dev.record, Dev.raiseClass, h, ho, FRec.inShadow, hs, hc, ((d.frec k).merge_spec x d.now).2.2, Nat.not_le.2 hlt,
    Option.isSome_none, Bool.false_eq_true, if_false]

end Open

theorem Dev.record_opens (ho : d.openOf x.region.toNat = none) (cls : Nat) :
    d.record x cls = (d.newRec x cls (!d.closesAtOnce x cls)).react cls x.cause.toNat x.region.toNat := by
  simp only [Dev.record, Dev.closesAtOnce, h, ho, Bool.false_eq_true, if_false]

end Outside

/-- The record that a raised class leaves. -/
theorem Dev.frec_raiseClass (d : Dev) (x : Detection) (cls : Nat) (k : Fin 64) :
    (d.raiseClass x cls k).frec k = { (d.frec k).merge x d.now with cls := BitVec.ofNat 3 cls } := by
  obtain ⟨hp, au, fl, e⟩ := (d.setFrec k { (d.frec k).merge x d.now with cls := BitVec.ofNat 3 cls }).logged_frame
    { (d.frec k).merge x d.now with cls := BitVec.ofNat 3 cls } { (d.frec k).merge x d.now with cls := BitVec.ofNat 3 cls }
  rw [Dev.raiseClass, e]
  exact d.frec_setFrec_self k _

theorem Dev.frec_congr (h : e.fc.recs = d.fc.recs) (k : Fin 64) : e.frec k = d.frec k := by
  rw [Dev.frec, h]
  rfl

theorem Dev.sideEffects_recs (d : Dev) (x : Detection) : (d.sideEffects x).fc.recs = d.fc.recs := by
  obtain ⟨c, ps, ks, h⟩ := d.sideEffects_frame x
  rw [h]

/-- A detection without a free slot is counted as lost (R448). -/
theorem Dev.newRec_lost (h : d.freeSlot = none) (cls : Nat) (o : Bool) :
    d.newRec x cls o = { d with fc := { d.fc with lost := min 255 (d.fc.lost + 1) } } := by
  simp only [Dev.newRec, h]

/-- The record that a detection writes, open or closed at once (R448, R451). -/
def Dev.writtenRec (d : Dev) (x : Detection) (cls : Nat) (o : Bool) : FRec :=
  { d.freshRec x cls with opened := o, closedAt := if o then 0 else d.now }

/-- The device in whose slot `k` the record of a detection stands (R448, R450). -/
def Dev.slotted (d : Dev) (x : Detection) (cls : Nat) (o : Bool) (k : Fin 64) : Dev :=
  { d.setFrec k (d.writtenRec x cls o) with
    fc := { (d.setFrec k (d.writtenRec x cls o)).fc with newRid := d.fc.newRid + 1, newSlot := BitVec.ofNat 6 k.val } }

theorem Dev.entry1_frame (d : Dev) (r : FRec) : ∃ hp au, d.entry1 r = { d with host := hp, audit := au } := by
  obtain ⟨hp, n, e, -⟩ := d.fcEntry_frame 1 (r.dws.flatMap (fun w => leBytes 4 w.toNat))
  exact ⟨hp, _, e⟩

/-- A detection takes the free slot; the stream and the log have its record (R448, R450, R455). -/
theorem Dev.newRec_slot (h : d.freeSlot = some k) (x : Detection) (cls : Nat) (o : Bool) : ∃ hp au fl,
    d.newRec x cls o = { d.slotted x cls o k with host := hp, audit := au, flash := fl } := by
  have hn : d.newRec x cls o =
      let e := ((d.slotted x cls o k).entry1 { d.writtenRec x cls o with opened := true }).logFault (d.writtenRec x cls o)
      if o then e else e.entry1 (d.writtenRec x cls o) := by
    rw [Dev.newRec, h]
    rfl
  obtain ⟨hp, au, fl, e⟩ := (d.slotted x cls o k).logged_frame { d.writtenRec x cls o with opened := true } (d.writtenRec x cls o)
  rw [hn, e]
  cases o with
  | true => exact ⟨hp, au, fl, rfl⟩
  | false =>
    obtain ⟨hp2, au2, e2⟩ := Dev.entry1_frame { d.slotted x cls false k with host := hp, audit := au, flash := fl }
      (d.writtenRec x cls false)
    exact ⟨hp2, au2, fl, e2⟩

/-- The slots after a detection has taken one. -/
theorem Dev.frec_newRec_slot (h : d.freeSlot = some k) (x : Detection) (cls : Nat) (o : Bool) (j : Fin 64) :
    (d.newRec x cls o).frec j = (d.setFrec k (d.writtenRec x cls o)).frec j := by
  obtain ⟨hp, au, fl, e⟩ := Dev.newRec_slot h x cls o
  exact Dev.frec_congr (by rw [e]; rfl) j

/-- What a record that is written leaves of the rest. -/
theorem Dev.newRec_rest (d : Dev) (x : Detection) (cls : Nat) (o : Bool) : ∃ rs a b n hp au fl, d.newRec x cls o = { d with
    fc := { d.fc with recs := rs, newRid := a, newSlot := b, lost := n }, host := hp, audit := au, flash := fl } := by
  cases h : d.freeSlot with
  | none => exact ⟨_, _, _, _, _, _, _, Dev.newRec_lost h cls o⟩
  | some k =>
    obtain ⟨hp, au, fl, e⟩ := Dev.newRec_slot h x cls o
    exact ⟨_, _, _, d.fc.lost, _, _, _, e⟩

/-! ### The reaction of each class (R451 to R453) -/

theorem Dev.detected_joined (h : d.fc.halt = false) (ho : d.openOf x.region.toNat = some k) (hs : (d.frec k).shadow = none)
    (hc : d.closesAtOnce x (causeClass x.cause.toNat x.region.toNat) = false) :
    (causeClass x.cause.toNat x.region.toNat ≤ (d.frec k).cls.toNat →
      d.detected x = (d.setFrec k ((d.frec k).merge x d.now)).sideEffects x) ∧
    ((d.frec k).cls.toNat < causeClass x.cause.toNat x.region.toNat →
      ((d.detected x).frec k).cls.toNat = causeClass x.cause.toNat x.region.toNat) := by
  refine ⟨fun hle => ?_, fun hlt => ?_⟩
  · rw [Dev.detected, Dev.record_joins h ho hs hc hle]
  · rw [Dev.detected, Dev.record_raises h ho hs hc hlt, Dev.frec_congr (Dev.sideEffects_recs _ x),
      Dev.frec_congr (Dev.react_recs _ _ _ _), Dev.frec_raiseClass]
    have := causeClass_lt x.cause.toNat x.region.toNat
    show (BitVec.ofNat 3 _).toNat = _
    rw [BitVec.toNat_ofNat]
    omega

/-- A NOTICE of a region outside the piers (R448, R451). -/
theorem Dev.detected_notice (h : d.fc.halt = false) (ho : d.openOf x.region.toNat = none) (hr : 16 ≤ x.region.toNat)
    (hc : causeClass x.cause.toNat x.region.toNat = 1) :
    let e := d.detected x
    (∀ k, d.freeSlot = some k →
      (e.frec k).val = true ∧ (e.frec k).opened = true ∧ (e.frec k).cls = 1#3 ∧ (e.frec k).cause = x.cause ∧
      (e.frec k).region = x.region ∧ (e.frec k).count = 1 ∧ (e.frec k).tFirst = d.now ∧ (e.frec k).rid = d.fc.newRid + 1 ∧
      ∀ j, j ≠ k → e.frec j = d.frec j) ∧
    (d.freeSlot = none → e.fc.lost = min 255 (d.fc.lost + 1) ∧ e.fc.recs = d.fc.recs) ∧
    (e.core .warden).ipend.getLsbD 5 = true ∧ e.items = d.items := by
  intro e
  have hclose : d.closesAtOnce x 1 = false := rfl
  obtain ⟨c, ps, ks, hs⟩ := Dev.sideEffects_frame ((d.newRec x 1 true).pendWarden 5) x
  have he : e = { (d.newRec x 1 true).pendWarden 5 with
      fc := { (d.newRec x 1 true).fc with clog := c }, piers := ps, ks := ks } := by
    have hreact : (d.newRec x 1 true).react 1 x.cause.toNat x.region.toNat = (d.newRec x 1 true).pendWarden 5 :=
      dif_neg (Nat.not_lt.2 hr)
    show d.detected x = _
    rw [Dev.detected, hc, Dev.record_opens h ho, hclose, Bool.not_false, hreact, hs]
    rfl
  have hrecs : e.fc.recs = (d.newRec x 1 true).fc.recs := by rw [he]
  refine ⟨fun k hk => ?_, fun hn => ?_, ?_, ?_⟩
  · have hf : ∀ j, e.frec j = (d.setFrec k (d.writtenRec x 1 true)).frec j := fun j =>
      (Dev.frec_congr hrecs j).trans (Dev.frec_newRec_slot hk x 1 true j)
    rw [hf k, Dev.frec_setFrec_self]
    exact ⟨rfl, rfl, rfl, rfl, rfl, rfl, rfl, rfl, fun j hj => (hf j).trans (Dev.frec_setFrec_of_ne d _ hj)⟩
  · rw [he, Dev.newRec_lost hn]
    exact ⟨rfl, rfl⟩
  · rw [he]
    have hb : ∀ v : BitVec 9, (v ||| BitVec.ofNat 9 (2 ^ 5)).getLsbD 5 = true := by simp
    exact hb _
  · obtain ⟨rs, a, b, n, hp, au, fl, hn⟩ := d.newRec_rest x 1 true
    rw [he, hn]
    rfl

/-- A CONTAIN of a pier (R451). -/
theorem Dev.detected_contain (hx : x.region = BitVec.ofNat 5 p.val) (h : d.fc.halt = false) (ho : d.openOf p.val = none)
    (hc : causeClass x.cause.toNat x.region.toNat = 2) :
    let e := d.detected x
    (d.fc.out.getLsbD p.val = false → d.fc.quar.getLsbD p.val = false →
      e.fc.quar.getLsbD p.val = true ∧ e.fc.resetDue.getLsbD p.val = true ∧ e.setter.out.getLsbD p.val = true ∧
      (e.pier p).mem.selfRefresh = true ∧ (∀ b ∈ e.setter.batches, b.pier? ≠ some p) ∧
      (∀ i ∈ e.items, i.unfinished p = false) ∧ ∀ i ∈ d.items, i.unfinished p = false → i ∈ e.items ∨ ∃ j ∈ d.items, j.id = i.id ∧ j.unfinished p = true) ∧
    (d.fc.out.getLsbD p.val = true → e.fc.quar = d.fc.quar ∧ e.items = d.items ∧
      ∀ k, d.freeSlot = some k → (e.frec k).val = true ∧ (e.frec k).opened = false) := by
  intro e
  have hr : x.region.toNat = p.val := by rw [hx, toNat_pierRegion]
  have he : e = (d.newRec x 2 (!d.closesAtOnce x 2)).react 2 x.cause.toNat p.val := by
    show d.detected x = _
    rw [Dev.detected, hc, Dev.sideEffects_of_class _ hc.ge, Dev.record_opens h (by rw [hr]; exact ho), hr]
  have hreact : ∀ D : Dev, D.react 2 x.cause.toNat p.val = if D.fc.out.getLsbD p.val then D else D.contain p :=
    fun D => dif_pos p.isLt
  obtain ⟨rs, a, b, n, hp, au, fl, hn⟩ := d.newRec_rest x 2 (!d.closesAtOnce x 2)
  have hcl : d.closesAtOnce x 2 = d.fc.out.getLsbD p.val := by
    simp [Dev.closesAtOnce, hr]
  refine ⟨fun hout hq => ?_, fun hout => ?_⟩
  · have hq' : (d.newRec x 2 (!d.closesAtOnce x 2)).fc.quar.getLsbD p.val = false := by rw [hn]; exact hq
    have hout' : (d.newRec x 2 (!d.closesAtOnce x 2)).fc.out.getLsbD p.val = false := by rw [hn]; exact hout
    obtain ⟨-, h1, h2, h3, h4, h5, h6, h7⟩ := Dev.contain_spec hq'
    rw [he, hreact, hout', if_neg Bool.false_ne_true]
    refine ⟨h1, h2, h3, h4, h5, h6, fun i hi _ => ?_⟩
    have hit : (d.newRec x 2 (!d.closesAtOnce x 2)).items = d.items := by rw [hn]
    rw [hit] at h7
    exact h7 i hi
  · have hout' : (d.newRec x 2 (!d.closesAtOnce x 2)).fc.out.getLsbD p.val = true := by rw [hn]; exact hout
    rw [he, hreact, hout', if_pos rfl]
    refine ⟨by rw [hn], by rw [hn], fun k hk => ?_⟩
    rw [Dev.frec_newRec_slot hk, Dev.frec_setFrec_self, hcl, hout]
    exact ⟨rfl, rfl⟩

/-- A HOLD (R452). -/
theorem Dev.detected_hold (h : d.fc.halt = false) (ho : d.openOf x.region.toNat = none)
    (hc : causeClass x.cause.toNat x.region.toNat = 3) :
    (d.detected x).fc.hold = true ∧ (d.detected x).items = d.items ∧ (d.fc.hold = false → (d.detected x).board.alert = true) := by
  have he : d.detected x = if (d.newRec x 3 true).fc.hold then d.newRec x 3 true
      else ({ d.newRec x 3 true with fc := { (d.newRec x 3 true).fc with hold := true } } : Dev).alertUp := by
    rw [Dev.detected, hc, Dev.sideEffects_of_class _ (by omega), Dev.record_opens h ho]
    rfl
  obtain ⟨rs, a, b, n, hp, au, fl, hn⟩ := d.newRec_rest x 3 true
  rw [he, hn]
  by_cases hh : d.fc.hold = true
  · rw [if_pos hh]
    exact ⟨hh, rfl, fun hf => absurd hh (by rw [hf]; decide)⟩
  · rw [if_neg hh]
    exact ⟨rfl, rfl, fun _ => rfl⟩

/-- A HALT (R452). -/
theorem Dev.detected_halt (h : d.fc.halt = false) (ho : d.openOf x.region.toNat = none)
    (hc : causeClass x.cause.toNat x.region.toNat = 4) :
    let e := d.detected x
    e.fc.halt = true ∧ e.board.fault = true ∧ e.board.ready = false ∧ e.setter.batches = [] ∧
    (∀ p : Fin 16, (e.pier p).runs.exec = none ∧ (e.core (.pier p)).run ≠ .running) ∧
    (x.cause = 0x19#8 ∨ x.cause = 0x1B#8 → e.items = []) ∧
    (x.cause ≠ 0x19#8 → x.cause ≠ 0x1B#8 → ∀ i ∈ e.items, i.isRecorded = true) := by
  intro e
  have he : e = (d.newRec x 4 true).haltNow x.cause.toNat := by
    show d.detected x = _
    rw [Dev.detected, hc, Dev.sideEffects_of_class _ (by omega), Dev.record_opens h ho]
    rfl
  have hh : (d.newRec x 4 true).fc.halt = false := by
    obtain ⟨rs, a, b, n, hp, au, fl, hn⟩ := d.newRec_rest x 4 true
    rw [hn]
    exact h
  obtain ⟨-, h1, h2, h3, h4, h5, h6, h7⟩ := Dev.haltNow_spec hh x.cause.toNat
  have hcause : ∀ c : BitVec 8, x.cause.toNat = c.toNat ↔ x.cause = c := fun c => BitVec.toNat_inj
  rw [he]
  refine ⟨h1, h2, h3, h4, fun p => ?_, fun hx => h6 (hx.imp (hcause _).2 (hcause _).2),
    fun hx hy => h7 (mt (hcause 0x19#8).1 hx) (mt (hcause 0x1B#8).1 hy)⟩
  rw [Dev.core, Dev.pier_congr h5]
  exact Dev.haltStart_pier _ _ p

/-- Settles O54: what `Dev.take` hands to the collector, then the record and the reaction of each class. -/
theorem detectionsAndReactions : Obligations.DetectionsAndReactions := by
  unfold Obligations.DetectionsAndReactions
  intro broken cls
  refine ⟨fun src s h => answers_faultDetection_por h src, fun x s h => ⟨fun hc => ?_, fun hc => ?_⟩, fun p s h => ?_,
    fun r s h hr => ⟨fun x hx => answers_faultDetection h (Dev.take_queued_some hr hx),
      fun hx => answers_faultDetection h (Dev.take_queued_none hr hx)⟩, fun x a b s h => ?_, fun d x k h ho hs hc => ?_,
    fun d x k h ho hs => ?_, fun d x k h hk => ?_, fun d x => Dev.detected_notice, fun d p x => Dev.detected_contain,
    fun d x => Dev.detected_hold, fun d x => Dev.detected_halt⟩
  · exact answers_faultDetection h (if_pos hc)
  · exact answers_faultDetection h (if_neg (by rw [hc]; decide))
  · obtain ⟨h1, h2⟩ := s.dev.take_queued_pier p
    exact ⟨fun x rest hq => answers_faultDetection h (h1 x rest hq), fun hq => answers_faultDetection h (h2 hq)⟩
  · obtain ⟨h1, h2, h3⟩ := s.dev.take_path x a b
    exact ⟨fun hh ha hb => answers_faultDetection h (h1 hh ha hb), fun hh he => answers_faultDetection h (h2 hh he),
      fun hn => answers_faultDetection h (h3 hn)⟩
  · refine Dev.detected_joined h ho hs ?_
    by_contra hn
    exact hc (by simpa [Dev.closesAtOnce, and_assoc] using hn)
  · rw [Dev.detected, Dev.record_of_shadow h ho hs]
  · rw [Dev.detected, Dev.record_of_halt h hk]

end Sys2Proof.Machine
end

section
/-! The steward's commands, KEK components, bus addresses and the TAP (O39): R263, R358, R359, R414, R415, R431, R435, R472, R499,
R500, R511 and R512. -/

namespace Sys2Proof.Machine
open Sys2Proof

variable {d e : Dev} {s : State}

/-! ### A steward message that reaches the target (R358, R499, R512) -/

/-- A device that has heard a steward message: the bus mode is chosen and vector 24 is raised on the warden. -/
def Dev.heard (d : Dev) : Dev := (d.chooseBus false).onCore .warden (fun k => { k with ipend := k.ipend ||| 0x100#9 })

theorem Dev.heard_frame (d : Dev) : ∃ m w, d.heard = { d with board := { d.board with sbMode := m }, warden := w } := by
  unfold Dev.heard Dev.chooseBus
  split
  · exact ⟨_, _, rfl⟩
  · exact ⟨d.board.sbMode, _, rfl⟩

/-- What a message leaves: it changes the bus mode and the warden's pending bits alone. -/
theorem Dev.heard_keeps (d : Dev) : d.heard.life = d.life ∧ d.heard.fc = d.fc ∧ d.heard.pw = d.pw ∧ d.heard.ks = d.ks ∧
    d.heard.audit = d.audit ∧ d.heard.host = d.host ∧ d.heard.board.ready = d.board.ready := by
  obtain ⟨m, w, h⟩ := d.heard_frame
  rw [h]
  exact ⟨rfl, rfl, rfl, rfl, rfl, rfl, rfl⟩

/-- An answer to the steward. -/
def Dev.replies (d : Dev) (a : List Byte) : Dev := d.send (.steward Config.vendorId a)

theorem Dev.replies_fc (d : Dev) (a : List Byte) : (d.replies a).fc = d.fc := rfl

theorem Dev.steward_deaf (h : d.sidebandAnswers = false) (g : Bool) (serve : Dev → List Byte × Dev) : d.steward g serve = d := by
  rw [Dev.steward, h]
  rfl

section Answers

variable (h : d.sidebandAnswers = true) (serve : Dev → List Byte × Dev)
include h

theorem Dev.steward_get : d.steward true serve = (serve d.heard).2.replies (serve d.heard).1 := by
  simp only [Dev.steward, h, Bool.not_true, Bool.and_false, Bool.false_eq_true, if_false]
  rfl

/-- A command in the power-fail sequence, and one before Evoari runs (R512, log 15). -/
theorem Dev.steward_refused {a : Byte}
    (hx : (d.life.pf ≠ .none ∧ a = 0x03) ∨ (d.life.pf = .none ∧ d.evoariRuns = false ∧ a = 0x04)) :
    d.steward false serve = d.heard.replies [a] := by
  obtain ⟨hl, -⟩ := d.heard_keeps
  have hev : d.heard.evoariRuns = d.evoariRuns := by rw [Dev.evoariRuns, hl]; rfl
  have hs : d.steward false serve =
      if decide (d.heard.life.pf ≠ .none) && !false then d.heard.replies [0x03]
      else if !d.heard.evoariRuns && !false then d.heard.replies [0x04]
      else (serve d.heard).2.replies (serve d.heard).1 := by
    rw [Dev.steward, h]
    rfl
  rw [hs, hl, hev]
  rcases hx with ⟨hp, rfl⟩ | ⟨hp, hr, rfl⟩
  · simp [hp]
  · simp [hp, hr]

theorem Dev.steward_served (hp : d.life.pf = .none) (hr : d.evoariRuns = true) :
    d.steward false serve = (serve d.heard).2.replies (serve d.heard).1 := by
  obtain ⟨hl, -⟩ := d.heard_keeps
  have hev : d.heard.evoariRuns = d.evoariRuns := by rw [Dev.evoariRuns, hl]; rfl
  have hs : d.steward false serve =
      if decide (d.heard.life.pf ≠ .none) && !false then d.heard.replies [0x03]
      else if !d.heard.evoariRuns && !false then d.heard.replies [0x04]
      else (serve d.heard).2.replies (serve d.heard).1 := by
    rw [Dev.steward, h]
    rfl
  rw [hs, hl, hev, hp, hr]
  rfl

end Answers

/-! ### GET_STATE and LOWER_CAP (R359, R472, R511) -/

/-- What GET_STATE answers and does. -/
def Dev.serveState (payload : List Byte) (d : Dev) : List Byte × Dev :=
  if payload ≠ [] then ([0x02], d)
  else
    ([0x00] ++ bytesOf [d.life.life.toNat, d.faultState] ++ leBytes 2 d.cap ++ bytesOf [d.board.ready.toNat],
     { d with board := { d.board with alert := false } })

theorem exec_getState (inst : Byte) (payload : List Byte) (s : State) :
    exec (.getState inst payload) s = s.answer (s.dev.steward true (Dev.serveState payload)) := rfl

/-- What LOWER_CAP answers and does. -/
def Dev.serveCap (payload : List Byte) (d : Dev) : List Byte × Dev :=
  if payload.length ≠ 2 then ([0x02], d)
  else
    let n := leNat payload
    if 120 ≤ n && n ≤ d.cap then ([0x00], d.setCap d.pw.budget n) else ([0x03], d)

theorem exec_lowerCap (inst : Byte) (payload : List Byte) (s : State) :
    exec (.lowerCap inst payload) s = s.answer (s.dev.steward false (Dev.serveCap payload)) := rfl

theorem Dev.foldl_piersOnly {f : Dev → Fin 16 → Dev} (hf : ∀ d p, ∃ ps, f d p = { d with piers := ps }) (l : List (Fin 16))
    (d : Dev) : ∃ ps, l.foldl f d = { d with piers := ps } := by
  induction l generalizing d with
  | nil => exact ⟨d.piers, rfl⟩
  | cons p l ih =>
    obtain ⟨ps, h⟩ := hf d p
    obtain ⟨ps2, h2⟩ := ih (f d p)
    exact ⟨ps2, by rw [List.foldl_cons, h2, h]⟩

/-- A reclaim changes the piers alone (R471). -/
theorem Dev.reclaim_frame (d : Dev) : ∃ ps, d.reclaim = { d with piers := ps } := by
  unfold Dev.reclaim
  extract_lets fs base total f1
  split
  · exact ⟨d.piers, rfl⟩
  · split
    next f2 sl _ =>
      extract_lets f3
      refine Dev.foldl_piersOnly (fun e p => ?_) _ d
      split
      · exact ⟨_, rfl⟩
      · split
        · exact ⟨_, rfl⟩
        · exact ⟨e.piers, rfl⟩

theorem Dev.setCap_frame (d : Dev) (b n : Nat) : ∃ ps a, d.setCap b n = { d with
    pw := { d.pw with budget := b, scap := n }, piers := ps, board := { d.board with alert := a } } := by
  unfold Dev.setCap
  extract_lets pw d1 d2
  have h2 : ∃ a, d2 = { d with pw := { d.pw with budget := b, scap := n }, board := { d.board with alert := a } } := by
    unfold d2
    split
    · exact ⟨d.board.alert, rfl⟩
    · exact ⟨true, rfl⟩
  obtain ⟨a, h2⟩ := h2
  clear_value d2
  subst h2
  split
  · obtain ⟨ps, h⟩ := Dev.reclaim_frame { d with
      pw := { d.pw with budget := b, scap := n }, board := { d.board with alert := a } }
    exact ⟨ps, a, h⟩
  · exact ⟨d.piers, a, rfl⟩

/-- A cap that LOWER_CAP accepts takes effect (R472). -/
theorem Dev.serveCap_accepted {payload : List Byte} (hl : payload.length = 2) (h1 : 120 ≤ leNat payload)
    (h2 : leNat payload ≤ d.cap) :
    Dev.serveCap payload d = ([0x00], d.setCap d.pw.budget (leNat payload)) := by
  simp [Dev.serveCap, hl, h1, h2]

theorem lowerCap_accepted {payload : List Byte} {inst : Byte} (hs : s.dev.sidebandAnswers = true) (hp : s.dev.life.pf = .none)
    (hr : s.dev.evoariRuns = true) (hl : payload.length = 2) (h1 : 120 ≤ leNat payload) (h2 : leNat payload ≤ s.dev.cap) :
    AnswersWith (.lowerCap inst payload) s (fun d =>
      d.pw.scap = leNat payload ∧ d.pw.budget = s.dev.pw.budget ∧ d.cap = leNat payload ∧
      d.host.out = s.dev.host.out ++ [.steward Config.vendorId [0x00]]) := by
  obtain ⟨-, -, hpw, -, -, hhost, -⟩ := s.dev.heard_keeps
  have hcap : s.dev.heard.cap = s.dev.cap := by rw [Dev.cap, hpw]; rfl
  have ha : Answers (.lowerCap inst payload) s (s.dev.steward false (Dev.serveCap payload)) := exec_lowerCap inst payload s
  rw [Dev.steward_served hs _ hp hr, Dev.serveCap_accepted hl h1 (by rwa [hcap])] at ha
  obtain ⟨ps, a, he⟩ := s.dev.heard.setCap_frame s.dev.heard.pw.budget (leNat payload)
  have hle : leNat payload ≤ s.dev.pw.budget := h2.trans (Nat.min_le_left _ _)
  refine Answers.answersWith ha ?_
  dsimp only
  rw [he]
  refine ⟨rfl, by rw [← hpw]; rfl, ?_, ?_⟩
  · show min s.dev.heard.pw.budget (leNat payload) = leNat payload
    rw [hpw]
    exact Nat.min_eq_right hle
  · show s.dev.heard.host.out ++ _ = _
    rw [hhost]

/-- A cap outside of the legal range is refused (R359, R472). -/
theorem lowerCap_outside {payload : List Byte} {inst : Byte} (hs : s.dev.sidebandAnswers = true) (hp : s.dev.life.pf = .none)
    (hr : s.dev.evoariRuns = true) (hl : payload.length = 2) (h : leNat payload < 120 ∨ s.dev.cap < leNat payload) :
    Answers (.lowerCap inst payload) s (s.dev.heard.replies [0x03]) := by
  obtain ⟨-, -, hpw, -⟩ := s.dev.heard_keeps
  have hcap : s.dev.heard.cap = s.dev.cap := by rw [Dev.cap, hpw]; rfl
  have hn : (decide (120 ≤ leNat payload) && decide (leNat payload ≤ s.dev.heard.cap)) = false := by
    rw [hcap, Bool.and_eq_false_iff, decide_eq_false_iff_not, decide_eq_false_iff_not, Nat.not_le, Nat.not_le]
    exact h
  refine (exec_lowerCap inst payload s).trans (congrArg s.answer ?_)
  have hc : Dev.serveCap payload s.dev.heard = ([0x03], s.dev.heard) := by
    simp only [Dev.serveCap, hl, hn, ne_eq, not_true, if_false, Bool.false_eq_true]
  rw [Dev.steward_served hs _ hp hr, hc]

/-! ### KEK_COMPONENT (R415, R431, R435) -/

/-- A record of chain 16 leaves the pending components, whatever it does at the chain's end (R416). -/
theorem Dev.append16_pend (d : Dev) (f : RecFields) (item : Option Nat) : (d.append16 f item).ks.pend = d.ks.pend := by
  rcases Nat.lt_or_ge (d.acceptedHead 16).1 cseqMax with h | h
  · obtain ⟨q, m, b, w, e⟩ := d.append16_of_lt f item h
    rw [e]
  · rw [Dev.append16_of_le f item h]
    rcases d.exhaust16_cases with h | ⟨full, h⟩
    · rw [h]
    · rw [h, Dev.enterRecovery, Dev.setLife, Dev.writeLife]
      obtain ⟨q, h2⟩ := Dev.persist_eq _
      rw [h2]
      rfl

/-- The fields of a steward command's record (R359, R414). -/
def Dev.stewardFields (d : Dev) (code : Nat) (inst : Byte) (payload idata answer : List Byte) : RecFields :=
  { kind := 2, opc := code, func := 0xFE, tag := inst.toNat, time := d.now,
    part := if code = 3 then payload.head?.map (fun b => b.toNat % 64) else none,
    status := (answer.getD 0 0).toNat
    result := if (answer.getD 0 0).toNat = 3 then (answer.getD 1 0).toNat else 0
    idata := idata, rdata := answer }

theorem Dev.stewardRecord_eq (d : Dev) (code : Nat) (inst : Byte) (payload idata answer : List Byte) :
    d.stewardRecord code inst payload idata answer =
      if d.recordsAllowed && d.chainsUp then d.append16 (d.stewardFields code inst payload idata answer) none else d := by
  unfold Dev.stewardRecord
  cases d.recordsAllowed <;> cases d.chainsUp <;> rfl

/-- A steward record leaves the host, the pending components, the records of faults and the HALT (R359, R414). -/
theorem Dev.stewardRecord_keeps (d : Dev) (code : Nat) (inst : Byte) (payload idata answer : List Byte) :
    let r := d.stewardRecord code inst payload idata answer
    r.host = d.host ∧ r.ks.pend = d.ks.pend ∧ ∃ q, r.fc = { d.fc with detq := q } := by
  intro r
  have hr : r = _ := d.stewardRecord_eq code inst payload idata answer
  rw [hr]
  split
  · have hp := d.append16_pend (d.stewardFields code inst payload idata answer) none
    obtain ⟨q, au, fl, ks, bd, lf, e, -⟩ := d.append16_frame (d.stewardFields code inst payload idata answer) none
    rw [e] at hp ⊢
    exact ⟨rfl, hp, q, rfl⟩
  · exact ⟨rfl, rfl, d.fc.detq, rfl⟩

@[simp] theorem Dev.keyUse_host (d : Dev) (w n : Nat) : (d.keyUse w n).host = d.host := by
  obtain ⟨q, h⟩ := d.keyUse_frame w n
  rw [h]

@[simp] theorem Dev.persist_host (d : Dev) : d.persist.host = d.host := by
  obtain ⟨q, h⟩ := d.persist_eq
  rw [h]

theorem Dev.kekArrive_host (d : Dev) (q kalg kcv : Nat) (comp : List Byte) (b : Bool) :
    (d.kekArrive q kalg kcv comp b).2.host = d.host := by
  unfold Dev.kekArrive
  dsimp only
  repeat' split
  all_goals simp

theorem Dev.expirePend_host (d : Dev) (q : Nat) : (d.expirePend q).host = d.host := by
  unfold Dev.expirePend
  split
  · split
    · obtain ⟨q', au, fl, ks, bd, lf, h, -⟩ := Dev.append16_frame { d with ks := d.ks.discard q }
        { kind := 1, opc := 3, time := d.now, idata := bytesOf [q, _] } none
      rw [h]
    · rfl
  · rfl

theorem Dev.expireAll_host (d : Dev) : d.expireAll.host = d.host := by
  have hl : ∀ (l : List KekPend) (e : Dev), (l.foldl (fun d x => d.expirePend x.part.val) e).host = e.host := by
    intro l
    induction l with
    | nil => exact fun _ => rfl
    | cons x l ih => exact fun e => (ih _).trans (e.expirePend_host _)
  exact hl _ d

/-- What a steward's component answers, before it is recorded (R435). -/
def Dev.judgeComponent (payload : List Byte) (d : Dev) : List Byte × Dev :=
  if !d.kekStates then ([0x03], d)
  else if payload.length < 5 then ([0x02], d)
  else
    let kcv := leNat ((payload.drop 2).take 3)
    let d := d.expireAll
    (match d.kekArrive (payload.getD 0 0).toNat (payload.getD 1 0).toNat kcv (payload.drop 5) false with
     | (.refused c, d) => (if c = 1 then [0x02] else [0x03, BitVec.ofNat 8 c], d)
     | (.pending, d) => ([0x00], d)
     | (.pair v, d) => ([0x00] ++ leBytes 3 v, d))

theorem exec_stewardKekComponent (inst : Byte) (payload : List Byte) (s : State) :
    exec (.stewardKekComponent inst payload) s = s.answer (s.dev.steward false (fun d =>
      let r := Dev.judgeComponent payload d
      (r.1, r.2.stewardRecord 3 inst payload (payload.take 5) r.1))) := rfl

theorem kekComponent_judged {payload a : List Byte} {inst : Byte} (hs : s.dev.sidebandAnswers = true)
    (hp : s.dev.life.pf = .none) (hr : s.dev.evoariRuns = true) (hj : Dev.judgeComponent payload s.dev.heard = (a, e))
    (hh : e.host = s.dev.host) : AnswersWith (.stewardKekComponent inst payload) s (fun d =>
      d.ks.pend = e.ks.pend ∧ d.host.out = s.dev.host.out ++ [.steward Config.vendorId a]) := by
  have ha : Answers (.stewardKekComponent inst payload) s (s.dev.steward false _) := exec_stewardKekComponent inst payload s
  rw [Dev.steward_served hs _ hp hr] at ha
  simp only [hj] at ha
  obtain ⟨h1, h2, -⟩ := e.stewardRecord_keeps 3 inst payload (payload.take 5) a
  refine Answers.answersWith ha ⟨h2, ?_⟩
  show (e.stewardRecord 3 inst payload (payload.take 5) a).host.out ++ _ = _
  rw [h1, hh]

/-- A component that comes in a state without KEK components, or too short, is refused before anything else (R435, R511). -/
theorem kekComponent_refused {payload : List Byte} {inst c : Byte} (hs : s.dev.sidebandAnswers = true)
    (hp : s.dev.life.pf = .none) (hr : s.dev.evoariRuns = true)
    (hj : Dev.judgeComponent payload s.dev.heard = ([c], s.dev.heard)) : AnswersWith (.stewardKekComponent inst payload) s (fun d =>
      d.ks.pend = s.dev.ks.pend ∧ d.host.out = s.dev.host.out ++ [.steward Config.vendorId [c]]) := by
  obtain ⟨-, -, -, hks, -, hho, -⟩ := s.dev.heard_keeps
  have h := kekComponent_judged (inst := inst) hs hp hr hj hho
  rwa [hks] at h

/-! ### HALT (R359, R414) -/

/-- What HALT answers and does. -/
def Dev.serveHalt (inst : Byte) (payload : List Byte) (d : Dev) : List Byte × Dev :=
  let ok := payload = [0x5A]
  let ans : List Byte := if ok then [0x00] else [0x02]
  let d := d.stewardRecord 4 inst payload ([0x04, inst] ++ payload) ans
  (ans, if ok then d.detected (mkDetection 0x24 16 0 0) else d)

theorem exec_stewardHalt (inst : Byte) (payload : List Byte) (s : State) :
    exec (.stewardHalt inst payload) s = s.answer (s.dev.steward false (Dev.serveHalt inst payload)) := rfl

/-- The steward's HALT where the warden's region has no record in its shadow and none of class HALT (R447, R448, R452). -/
theorem Dev.detected_stewardHalt (h : d.fc.halt = true ∨
    ∀ k, d.openOf 16 = some k → (d.frec k).inShadow = false ∧ (d.frec k).cls.toNat < 4) :
    (d.detected (mkDetection 0x24 16 0 0)).fc.halt = true := by
  have hs : ∀ e : Dev, e.sideEffects (mkDetection 0x24 16 0 0) = e := fun e => e.sideEffects_of_class (by decide)
  show ((d.record (mkDetection 0x24 16 0 0) 4).sideEffects _).fc.halt = true
  rw [hs]
  by_cases hh : d.fc.halt = true
  · simp only [Dev.record, hh, if_true]
    split
    · exact hh
    · exact hh
  · have hh' : d.fc.halt = false := Bool.not_eq_true _ ▸ hh
    have hr : ∀ e : Dev, (e.react 4 0x24 16).fc.halt = true := fun e => (e.haltNow_watches 0x24).2
    cases ho : d.openOf 16 with
    | none =>
      rw [Dev.record_opens (x := mkDetection 0x24 16 0 0) hh' ho 4]
      exact hr _
    | some k =>
      obtain ⟨hsh, hlt⟩ := h.resolve_left hh k ho
      have hn : (d.frec k).shadow = none := by simpa [FRec.inShadow] using hsh
      rw [Dev.record_raises (x := mkDetection 0x24 16 0 0) (cls := 4) hh' ho hn rfl hlt]
      exact hr _

/-- The same where the records and the HALT are those of another device. -/
theorem Dev.detected_stewardHalt_of (hh : e.fc.halt = d.fc.halt) (hrecs : e.fc.recs = d.fc.recs) (h : d.fc.halt = true ∨
    ∀ k, d.openOf 16 = some k → (d.frec k).inShadow = false ∧ (d.frec k).cls.toNat < 4) :
    (e.detected (mkDetection 0x24 16 0 0)).fc.halt = true := by
  refine Dev.detected_stewardHalt (h.imp hh.trans fun h k hk => ?_)
  rw [Dev.frec_congr hrecs]
  rw [Dev.openOf_congr hrecs] at hk
  exact h k hk

theorem Dev.serveHalt_confirmed (inst : Byte) (d : Dev) : ∃ (e : Dev) (q : List Detection),
    Dev.serveHalt inst [0x5A] d = ([0x00], e.detected (mkDetection 0x24 16 0 0)) ∧ e.fc = { d.fc with detq := q } := by
  obtain ⟨-, -, q, h⟩ := d.stewardRecord_keeps 4 inst [0x5A] ([0x04, inst] ++ [0x5A]) [0x00]
  exact ⟨_, q, by simp only [Dev.serveHalt, if_true], h⟩

theorem Dev.serveHalt_refused {payload : List Byte} (inst : Byte) (h : payload ≠ [0x5A]) (d : Dev) :
    Dev.serveHalt inst payload d = ([0x02], d.stewardRecord 4 inst payload ([0x04, inst] ++ payload) [0x02]) := by
  simp only [Dev.serveHalt, h, if_false]

section Halt

variable {inst : Byte} (hs : s.dev.sidebandAnswers = true) (hp : s.dev.life.pf = .none) (hr : s.dev.evoariRuns = true)
include hs hp hr

theorem answers_stewardHalt (payload : List Byte) : Answers (.stewardHalt inst payload) s
    ((Dev.serveHalt inst payload s.dev.heard).2.replies (Dev.serveHalt inst payload s.dev.heard).1) := by
  rw [← Dev.steward_served hs _ hp hr]
  exact exec_stewardHalt inst payload s

/-- HALT without its confirmation (R359). -/
theorem stewardHalt_refused {payload : List Byte} (hne : payload ≠ [0x5A]) : AnswersWith (.stewardHalt inst payload) s (fun d =>
    d.host.out = s.dev.host.out ++ [.steward Config.vendorId [0x02]] ∧ d.fc.halt = s.dev.fc.halt ∧ d.fc.recs = s.dev.fc.recs ∧
    (s.dev.chainsUp = true → s.dev.recordsAllowed = true → (s.dev.acceptedHead 16).1 < cseqMax →
      d.audit.recs.length = s.dev.audit.recs.length + 1)) := by
  have ha := answers_stewardHalt (inst := inst) hs hp hr payload
  rw [Dev.serveHalt_refused inst hne] at ha
  obtain ⟨h1, -, q, h3⟩ := s.dev.heard.stewardRecord_keeps 4 inst payload ([0x04, inst] ++ payload) [0x02]
  obtain ⟨hl, hfc, -, hks, hau, hho, -⟩ := s.dev.heard_keeps
  refine Answers.answersWith ha ⟨?_, ?_, ?_, fun hc hra hh => ?_⟩
  · show (s.dev.heard.stewardRecord _ _ _ _ _).host.out ++ _ = _
    rw [h1, hho]
  · show (s.dev.heard.stewardRecord _ _ _ _ _).fc.halt = _
    rw [h3, hfc]
  · show (s.dev.heard.stewardRecord _ _ _ _ _).fc.recs = _
    rw [h3, hfc]
  · have hc' : s.dev.heard.chainsUp = true := by rw [Dev.chainsUp, hl]; exact hc
    have hra' : s.dev.heard.recordsAllowed = true := by rw [Dev.recordsAllowed, hl, hfc]; exact hra
    have hh' : (s.dev.heard.acceptedHead 16).1 < cseqMax := by rw [Dev.acceptedHead, hau, hks]; exact hh
    obtain ⟨q, m, b, w, e⟩ := s.dev.heard.append16_of_lt
      (s.dev.heard.stewardFields 4 inst payload ([0x04, inst] ++ payload) [0x02]) none hh'
    show (s.dev.heard.stewardRecord 4 inst payload ([0x04, inst] ++ payload) [0x02]).audit.recs.length = _
    rw [Dev.stewardRecord_eq, hra', hc', Bool.and_self, if_pos rfl, e]
    show (s.dev.heard.audit.recs ++ [_]).length = _
    rw [hau, List.length_append, List.length_singleton]

/-- HALT with its confirmation (R359, R414, R447). -/
theorem stewardHalt_confirmed : AnswersWith (.stewardHalt inst [0x5A]) s (fun d =>
    (.steward Config.vendorId [0x00] : Out) ∈ d.host.out ∧
    (s.dev.fc.halt = true ∨ (∀ k, s.dev.openOf 16 = some k → (s.dev.frec k).inShadow = false ∧ (s.dev.frec k).cls.toNat < 4) →
      d.fc.halt = true)) := by
  have ha := answers_stewardHalt (inst := inst) hs hp hr [0x5A]
  obtain ⟨e, q, he, h3⟩ := Dev.serveHalt_confirmed inst s.dev.heard
  obtain ⟨-, hfc, -⟩ := s.dev.heard_keeps
  rw [he] at ha
  refine Answers.answersWith ha ⟨List.mem_append_right _ (List.mem_singleton_self _), fun hx => ?_⟩
  rw [Dev.replies_fc]
  exact Dev.detected_stewardHalt_of (d := s.dev) (by rw [h3, hfc]) (by rw [h3, hfc]) hx

end Halt

/-! ### The end of a component's window (R415, R435) -/

theorem Keystone.word_putWords_of_lt {w a : Nat} (l : List DW) (k : Keystone) (h : a < w) : (k.putWords w l).word a = k.word a := by
  induction l generalizing k w with
  | nil => rfl
  | cons v l ih =>
    rw [Keystone.putWords, ih _ (Nat.lt_succ_of_lt h)]
    simp only [Keystone.word, Keystone.put, SMem.get_set_of_ne _ _ (Nat.ne_of_lt h)]

theorem Keystone.word_pend (k : Keystone) (l : List KekPend) (a : Nat) : Keystone.word { k with pend := l } a = k.word a := rfl

/-- A component discarded leaves the words of the chain heads. -/
theorem Keystone.word_discard_of_lt (k : Keystone) (q : Nat) {a : Nat} (h : a < 0x340) : (k.discard q).word a = k.word a := by
  unfold Keystone.discard
  split
  · rfl
  next e _ =>
    rw [Keystone.word_pend]
    exact Keystone.word_putWords_of_lt (w := 0x340 + 16 * e.slot) (List.replicate 16 0) k (by omega)

theorem Keystone.pendOf_discard (k : Keystone) (q : Nat) : (k.discard q).pendOf q = none := by
  unfold Keystone.discard
  split
  · assumption
  · simp [Keystone.pendOf]

theorem Dev.acceptedHead_discard (d : Dev) (q : Nat) :
    (Dev.acceptedHead { d with ks := d.ks.discard q } 16).1 = (d.acceptedHead 16).1 := by
  unfold Dev.acceptedHead
  dsimp only
  split
  · rfl
  · simp only [Keystone.head, Keystone.word_discard_of_lt _ _ (show 0x40 + 8 * 16 < 0x340 by decide),
      Keystone.word_discard_of_lt _ _ (show 0x41 + 8 * 16 < 0x340 by decide)]

theorem Dev.append16_length (d : Dev) (f : RecFields) (item : Option Nat) :
    (d.append16 f item).audit.recs.length = d.audit.recs.length + (if (d.acceptedHead 16).1 < cseqMax then 1 else 0) := by
  rcases Nat.lt_or_ge (d.acceptedHead 16).1 cseqMax with h | h
  · obtain ⟨q, m, b, w, e⟩ := d.append16_of_lt f item h
    rw [e, if_pos h]
    exact List.length_append
  · rw [Dev.append16_of_le f item h, if_neg (Nat.not_lt.2 h)]
    rcases d.exhaust16_cases with h | ⟨full, h⟩
    · rw [h]
      rfl
    · obtain ⟨q, fl, ks, h2⟩ := Dev.enterRecovery_frame { d with audit := { d.audit with full := full } }
      rw [h, h2]
      rfl

theorem componentExpired_due {q : Fin 64} {x : KekPend} (hq : s.dev.ks.pendOf q.val = some x)
    (ht : x.since + 15000000000 ≤ s.dev.now) : AnswersWith (.componentExpired q) s (fun d =>
      d.ks.pendOf q.val = none ∧
      d.audit.recs.length = s.dev.audit.recs.length + (if (s.dev.acceptedHead 16).1 < cseqMax then 1 else 0)) := by
  have hx : s.dev.expirePend q.val = Dev.append16 { s.dev with ks := s.dev.ks.discard q.val }
      { kind := 1, opc := 3, time := s.dev.now, idata := bytesOf [q.val, x.kalg] } none := by
    simp only [Dev.expirePend, hq, ht, if_true]
  refine ⟨_, rfl, rfl, ?_⟩
  dsimp only
  rw [hx, Dev.append16_length, Dev.acceptedHead_discard, Keystone.pendOf, Dev.append16_pend]
  exact ⟨s.dev.ks.pendOf_discard q.val, rfl⟩

theorem answers_componentExpired_early {q : Fin 64}
    (h : ∀ e, s.dev.ks.pendOf q.val = some e → s.dev.now < e.since + 15000000000) : Answers (.componentExpired q) s s.dev := by
  refine congrArg s.answer ?_
  unfold Dev.expirePend
  split
  · next e he => exact if_neg (Nat.not_le.2 (h e he))
  · rfl

/-! ### The I3C bus and the TAP (R431, R499, R500) -/

/-- A bus that has not chosen I2C is in I3C mode from its first I3C transaction on (R499). -/
theorem Dev.chooseBus_i3c (h : d.board.sbMode ≠ some false) :
    d.chooseBus true = { d with board := { d.board with sbMode := some true } } := by
  unfold Dev.chooseBus
  cases hm : d.board.sbMode with
  | none => rfl
  | some b =>
    obtain rfl : b = true := by
      rw [hm] at h
      simpa using h
    rw [if_neg (by simp), ← hm]

section Bus

variable {a b : BitVec 7} (hp : s.dev.board.porLow = false) (hm : s.dev.board.sbMode ≠ some false)
include hp hm

theorem busCommand : (s.dev.board.porLow || decide (s.dev.board.sbMode = some false)) = false := by
  simp [hp, hm]

theorem setdasa_spec :
    (a = 0x58#7 + s.dev.board.sbAddr.setWidth 7 → s.dev.board.dynAddr = none → Answers (.setdasa a b) s { s.dev with
        board := { s.dev.board with sbMode := some true, dynAddr := some b } }) ∧
    (a ≠ 0x58#7 + s.dev.board.sbAddr.setWidth 7 ∨ s.dev.board.dynAddr ≠ none → Answers (.setdasa a b) s { s.dev with
        board := { s.dev.board with sbMode := some true } }) := by
  have hx : exec (.setdasa a b) s = s.answer
      (if decide (a = 0x58#7 + s.dev.board.sbAddr.setWidth 7) && s.dev.board.dynAddr.isNone then
        { s.dev with board := { s.dev.board with sbMode := some true, dynAddr := some b } }
      else { s.dev with board := { s.dev.board with sbMode := some true } }) := by
    show execSetdasa a b s = _
    rw [execSetdasa]
    simp only [busCommand hp hm, Bool.false_eq_true, if_false, Dev.chooseBus_i3c hm] <;> rfl
  refine ⟨fun ha hd => hx.trans (congrArg s.answer (if_pos ?_)), fun h => hx.trans (congrArg s.answer (if_neg ?_))⟩
  · simp [ha, hd]
  · simpa [imp_iff_not_or] using h

theorem entdaa_spec :
    (s.dev.board.dynAddr = none →
      Answers (.entdaa b) s { s.dev with board := { s.dev.board with sbMode := some true, dynAddr := some b } }) ∧
    (s.dev.board.dynAddr ≠ none →
      Answers (.entdaa b) s { s.dev with board := { s.dev.board with sbMode := some true } }) := by
  have hx : exec (.entdaa b) s = s.answer
      (if s.dev.board.dynAddr.isNone then
        { s.dev with board := { s.dev.board with sbMode := some true, dynAddr := some b } }
      else { s.dev with board := { s.dev.board with sbMode := some true } }) := by
    show execEntdaa b s = _
    rw [execEntdaa]
    simp only [busCommand hp hm, Bool.false_eq_true, if_false, Dev.chooseBus_i3c hm]
  refine ⟨fun hd => hx.trans (congrArg s.answer (if_pos ?_)), fun hd => hx.trans (congrArg s.answer (if_neg ?_))⟩
  · simp [hd]
  · simpa using hd

end Bus

theorem busCommands_ignored (h : s.dev.board.porLow = true ∨ s.dev.board.sbMode = some false) (a b : BitVec 7) :
    Answers (.setdasa a b) s s.dev ∧ Answers (.entdaa b) s s.dev := by
  have hc : (s.dev.board.porLow || decide (s.dev.board.sbMode = some false)) = true := by simpa using h
  exact ⟨congrArg s.answer (if_pos hc), congrArg s.answer (if_pos hc)⟩

theorem memoryBist_offered (h : s.dev.life.life = 0 ∨ s.dev.life.life = 4) : AnswersWith .memoryBist s (fun d =>
    d.board.ir = .bist ∧ d.board.bist.isSome = true) := by
  have hc : (decide (s.dev.life.life = 0#3) || decide (s.dev.life.life = 4#3)) = true := by simpa using h
  have ha : Answers .memoryBist s (Dev.used { s.dev with board := { s.dev.board.tap .bist with bist := some (s.dev.free 64) } }) :=
    congrArg s.answer (if_pos hc)
  exact Answers.answersWith ha ⟨rfl, rfl⟩

theorem memoryBist_bypassed (h0 : s.dev.life.life ≠ 0) (h4 : s.dev.life.life ≠ 4) :
    Answers .memoryBist s { s.dev with board := s.dev.board.tap .bypass } := by
  refine congrArg s.answer (if_neg ?_)
  simpa using And.intro h0 h4

/-! ### The claim -/

/-- A command that finds no target answers nothing. -/
theorem sideband_deaf (inst code : Byte) (payload : List Byte) (h : s.dev.sidebandAnswers = false) :
    Answers (.getState inst payload) s s.dev ∧ Answers (.lowerCap inst payload) s s.dev ∧
      Answers (.stewardKekComponent inst payload) s s.dev ∧ Answers (.stewardHalt inst payload) s s.dev ∧
      Answers (.unknownCommand code inst payload) s s.dev := by
  have hd := Dev.steward_deaf h
  refine ⟨congrArg s.answer (hd _ _), congrArg s.answer (hd _ _), congrArg s.answer (hd _ _), congrArg s.answer (hd _ _),
    congrArg s.answer ?_⟩
  split
  · rfl
  · exact hd _ _

theorem exec_unknownCommand {code : Byte} (h : code.toNat = 0 ∨ 4 < code.toNat) (inst : Byte) (payload : List Byte) :
    exec (.unknownCommand code inst payload) s = s.answer (s.dev.steward false (fun d => ([0x01], d))) := by
  refine congrArg s.answer (if_neg ?_)
  simp only [Bool.and_eq_true, decide_eq_true_eq]
  omega

/-- Settles O39: each steward command through `Dev.steward`, then what it serves. -/
theorem sidebandAndTap : Obligations.SidebandAndTap := by
  unfold Obligations.SidebandAndTap
  refine ⟨⟨fun s inst code payload => sideband_deaf inst code payload, fun s inst payload hs => ?_⟩,
    ⟨fun q s e => componentExpired_due, fun q s => answers_componentExpired_early⟩,
    fun a b s h => busCommands_ignored h a b, fun a b s hp hm => ⟨(setdasa_spec hp hm).1, (setdasa_spec hp hm).2, entdaa_spec hp hm⟩,
    fun s => ⟨rfl, rfl, fun bits => rfl, rfl, memoryBist_offered, memoryBist_bypassed, rfl⟩⟩
  obtain ⟨hl, hfc, hpw, hks, -, hho, hrd⟩ := s.dev.heard_keeps
  have hkek : s.dev.heard.kekStates = s.dev.kekStates := by rw [Dev.kekStates, Dev.authState, hl]; rfl
  have hget : Answers (.getState inst payload) s _ := congrArg s.answer (Dev.steward_get hs (Dev.serveState payload))
  refine ⟨fun h => ?_, fun h => ?_, fun a code h => ?_, fun hp hr => ⟨fun h => ?_, fun h => ⟨fun h1 h2 => ?_, fun h1 => ?_⟩,
    fun h => ?_, fun h h5 => ?_, fun r d1 h h5 hk => ?_, fun hc hra hh hne => ?_, fun hne => ?_, stewardHalt_confirmed hs hp hr,
    fun code h => ?_⟩⟩
  · subst h
    have hv : (Dev.serveState [] s.dev.heard).1 = [0x00] ++ bytesOf [s.dev.life.life.toNat,
        if s.dev.fc.halt then 2 else if s.dev.fc.hold then 1 else 0] ++
        leBytes 2 (min s.dev.pw.budget s.dev.pw.scap) ++ bytesOf [s.dev.board.ready.toNat] := by
      rw [Dev.serveState, if_neg (not_not.2 rfl), Dev.faultState, Dev.cap, hl, hfc, hpw, hrd]
    rw [hv] at hget
    exact hget
  · rw [Dev.serveState, if_pos h] at hget
    exact hget
  · have hx := fun serve => Dev.steward_refused hs serve h
    refine ⟨congrArg s.answer (hx _), congrArg s.answer (hx _), congrArg s.answer (hx _), fun hc => ?_⟩
    exact (exec_unknownCommand hc inst payload).trans (congrArg s.answer (hx _))
  · refine (exec_lowerCap inst payload s).trans (congrArg s.answer ?_)
    rw [Dev.steward_served hs _ hp hr, Dev.serveCap, if_pos h]
    rfl
  · exact lowerCap_accepted hs hp hr h h1 h2
  · exact lowerCap_outside hs hp hr h h1
  · exact kekComponent_refused hs hp hr (by rw [Dev.judgeComponent, hkek, h]; rfl)
  · exact kekComponent_refused hs hp hr (by rw [Dev.judgeComponent, hkek, h, if_pos h5]; rfl)
  · refine kekComponent_judged hs hp hr (e := d1) ?_ ?_
    · rw [Dev.judgeComponent, hkek, h, if_neg (Nat.not_lt.2 h5)]
      rw [if_neg (show ¬ (!true) = true by decide)]
      dsimp only
      change s.dev.heard.expireAll.kekArrive _ _ _ _ _ = _ at hk
      rw [hk]
      cases r <;> rfl
    · have hd1 : d1 = (r, d1).2 := rfl
      rw [hd1, ← hk, Dev.kekArrive_host, Dev.expireAll_host]
      exact hho
  · obtain ⟨t, ht, hq, ho, hf, hrs, hln⟩ := stewardHalt_refused (inst := inst) hs hp hr hne
    exact ⟨t, ht, hq, ho, hf, hrs, hln hc hra hh⟩
  · obtain ⟨t, ht, hq, ho, hf, -⟩ := stewardHalt_refused (inst := inst) hs hp hr hne
    exact ⟨t, ht, hq, ho, hf⟩
  · refine (exec_unknownCommand h inst payload).trans (congrArg s.answer ?_)
    rw [Dev.steward_served hs _ hp hr]
    rfl

end Sys2Proof.Machine
end

section
/-! What the setter's operations leave (R361 to R377): the work of a pier under the setter's reads and writes of its memory, the
batches under closing and placing, and a pier under a placement. -/

namespace Sys2Proof.Machine
open Sys2Proof

variable {d e : Dev} {s : State} {p : Fin 16}

/-! ### The work of a pier under accesses of the setter (R271, R367) -/

/-- What a pier works on and how it stands with the setter: its run, its hod, its power, its laps, and the words of PR_WORK and
PR_PREEMPT. -/
def Pier.work (P : Pier) : RunSt × Hod × PierPower × (Lap × Lap) × (BitVec 4 × BitVec 4) × Bool × Nat :=
  (P.runs, P.hod, P.pw, (P.lapB, P.lapQ), (P.regs.put, P.regs.get), P.regs.req, P.regs.reqAt)

section Work

variable {P Q : Pier} (h : P.work = Q.work)
include h

theorem Pier.runs_of_work : P.runs = Q.runs := congrArg (·.1) h

theorem Pier.hod_of_work : P.hod = Q.hod := congrArg (·.2.1) h

theorem Pier.pw_of_work : P.pw = Q.pw := congrArg (·.2.2.1) h

theorem Pier.awake_of_work : P.awake = Q.awake := by rw [Pier.awake, Pier.pw_of_work h]; rfl

theorem Pier.lapOverdue_of_work : P.lapOverdue = Q.lapOverdue :=
  congrArg₂ (fun a b : Lap => a.overdue || b.overdue) (congrArg (·.2.2.2.1.1) h) (congrArg (·.2.2.2.1.2) h)

theorem Pier.put_of_work : P.regs.put = Q.regs.put := congrArg (·.2.2.2.2.1.1) h

theorem Pier.req_of_work : P.regs.req = Q.regs.req := congrArg (·.2.2.2.2.2.1) h

theorem Pier.reqAt_of_work : P.regs.reqAt = Q.regs.reqAt := congrArg (·.2.2.2.2.2.2) h

end Work

theorem Pier.work_detect (P : Pier) (cause a b : Nat) : (P.detect cause a b).work = P.work := rfl

theorem Pier.work_onBank (P : Pier) (b : Fin 16) (f : Bank → Bank) : (P.onBank b f).work = P.work := rfl

theorem bankStore_work (P : Pier) (a : Nat) (c : BitVec 43) : (bankStore P a c).work = P.work := rfl

theorem bankFetch_work (P : Pier) (m : Master) (a : Nat) : (bankFetch P m a).pier.work = P.work := by
  unfold bankFetch
  dsimp only
  split <;> rfl

theorem hbmWrite_work (P : Pier) (l : Nat) (c : BitVec 576) : (hbmWrite P l c).work = P.work := by
  unfold hbmWrite
  split <;> rfl

theorem mergePut_work (P : Pier) (e : MergeLine) : (mergePut P e).work = P.work := by
  have ho : ∀ x, (mergeOut P x).work = P.work := fun x => hbmWrite_work _ _ _
  unfold mergePut
  show Pier.work (ite _ _ _) = _
  split
  · rfl
  · split
    · rfl
    · split
      · exact ho _
      · rfl

theorem lineFetch_work (P : Pier) (m : Master) (l : Nat) : (lineFetch P m l).2.work = P.work := by
  unfold lineFetch
  split
  · rfl
  · dsimp only
    split <;> rfl

theorem lineWrite_work (P : Pier) (m : Master) (stream : Bool) (l : Nat) (ws : List LineWrite) :
    (lineWrite P m stream l ws).2.work = P.work := by
  unfold lineWrite
  split
  · exact hbmWrite_work _ _ _
  · dsimp only
    split <;> exact (mergePut_work _ _).trans (lineFetch_work P m l)

theorem unlockBank_work (P : Pier) (b : Fin 16) : (unlockBank P b).work = P.work := by
  obtain ⟨c, l, w, h⟩ := unlockBank_frame P b
  rw [h]
  rfl

theorem settleBank_work (P : Pier) (now : Nat) (b : Fin 16) : (settleBank P now b).work = P.work := by
  unfold settleBank
  extract_lets P1 P2
  have h1 : P1.work = P.work := by
    unfold P1
    split <;> rfl
  rw [Pier.work_onBank]
  unfold P2
  split
  · exact (unlockBank_work P1 b).trans h1
  · exact h1

theorem gatewayQuarry_work (l : List (Nat × Word × Bool)) (P : Pier) : (gatewayQuarry P l).work = P.work := by
  induction l generalizing P with
  | nil => rfl
  | cons x l ih =>
    obtain ⟨a, w, rub⟩ := x
    unfold gatewayQuarry
    generalize (a - quarryBase) / 15 = line
    generalize (a - quarryBase) % 15 = pos
    rw [ih, lineWrite_work]

theorem gatewayWrite_work (P : Pier) (now : Nat) (i : Ident) (a : Nat) (w : Word) (rub : Bool) :
    (gatewayWrite P now i a w rub).pier.work = P.work := by
  unfold gatewayWrite
  split
  · unfold gatewayBank
    split
    · exact (bankStore_work _ _ _).trans (settleBank_work P now _)
    · rw [gatewayFail, MemRes.pier, Pier.work_detect, Pier.work_detect]
  · rw [MemRes.pier, gatewayQuarry_work]
  · rw [gatewayFail, MemRes.pier, Pier.work_detect]

theorem gatewayRead_work (P : Pier) (now : Nat) (i : Ident) (a : Nat) : (gatewayRead P now i a).pier.work = P.work := by
  unfold gatewayRead
  split
  · unfold gatewayBank
    split
    · exact (bankFetch_work _ _ _).trans (settleBank_work P now _)
    · rfl
  · next l k _ =>
    have hl := lineFetch_work P .gateway l
    split
    · next h => rwa [h] at hl
    · next h => rwa [h] at hl
  · rfl

theorem setterWords_work (now : Nat) (ws : List Word) (a : Nat) (P : Pier) : (setterWords now a ws P).work = P.work := by
  induction ws generalizing a P with
  | nil => rfl
  | cons w l ih =>
    have hw := gatewayWrite_work P now setterIdent a w false
    unfold setterWords
    split
    · next h =>
      rw [h] at hw
      exact (ih _ _).trans hw
    · exact hw

theorem cacheFill_work (now h : Nat) (P : Pier) : (cacheFill now h P).work = P.work := by
  have hput : ∀ Q : Pier, Pier.work (match lineFetch Q .gateway (dirLine h) with
      | (none, P) => P
      | (some ws, P) =>
        setterWords now (cacheSlot h) (ws.take 15 ++ [BitVec.ofNat 36 ((parseEntry h ws).version.toNat * 2 ^ 23 + 2 ^ 22 + h)]) P) =
      Q.work := fun Q => by
    have hl := lineFetch_work Q .gateway (dirLine h)
    split
    · next hf => rwa [hf] at hl
    · next hf =>
      rw [hf] at hl
      exact (setterWords_work _ _ _ _).trans hl
  have hr := gatewayRead_work P now setterIdent (cacheSlot h + 15)
  unfold cacheFill
  split
  · rfl
  · extract_lets put
    split
    · next hg =>
      rw [hg] at hr
      split
      · exact hr
      · exact (hput _).trans hr
    · next hg =>
      rw [hg] at hr
      exact (hput _).trans hr
    · exact hr

theorem handOver_work (P : Pier) (now : Nat) (b : Fin 16) (o : BitVec 7) : (handOver P now b o).work = P.work := by
  obtain ⟨k, l, w, e⟩ := unlockBank_frame P b
  unfold handOver
  rw [e]
  dsimp only
  split <;> rfl

theorem bankOwnWrite_work (P : Pier) (now : Nat) (b : Fin 16) (v : DW) : (bankOwnWrite P now b v).work = P.work := by
  by_cases h : bankOwnRefused P b (v.setWidth 7)
  · rw [bankOwnWrite_of_refused now h]
    rfl
  · rw [bankOwnWrite_of_accepted now h]
    split
    · rfl
    · exact handOver_work P now b _

/-! ### A pier that has lost a batch (R319, R366, R367) -/

theorem Dev.kcSync_work (d : Dev) (p : Fin 16) : ((d.kcSync p).pier p).work = (d.pier p).work := by
  unfold Dev.kcSync
  split
  · rfl
  · dsimp only
    split
    · unfold Dev.onReg
      split
      · rw [Dev.pier_onPier_self _ p fun P => bankOwnWrite P _ 15 64, bankOwnWrite_work, Dev.pier_onPier_self]
        rfl
      · rw [Dev.pier_onPier_self]
        rfl
    · rw [Dev.pier_onPier_self]
      rfl

/-- What the loss of a batch changes beside the pier: the idle time and the PR_S2CFG that waited (R319, R366). -/
theorem Dev.emptied_setter (d : Dev) (p : Fin 16) : ∃ idle due ps,
    d.emptied p = { d with setter := { d.setter with idleSince := idle, s2Due := due }, piers := ps } := by
  unfold Dev.emptied
  dsimp only
  split
  · exact ⟨_, _, _, rfl⟩
  · obtain ⟨ps, h, -⟩ := Dev.kcSync_frame { d.s2Late p with setter :=
      { (d.s2Late p).setter with idleSince := (d.s2Late p).setter.idleSince.set p (d.s2Late p).now } } p
    exact ⟨_, _, ps, h⟩

theorem Dev.emptied_work (d : Dev) (p : Fin 16) : ((d.emptied p).pier p).work = (d.pier p).work := by
  have h1 : ((d.s2Late p).pier p).work = (d.pier p).work := by
    unfold Dev.s2Late
    dsimp only
    rw [Dev.pier_onPier_self]
    rfl
  unfold Dev.emptied
  dsimp only
  split
  · exact h1
  · exact (Dev.kcSync_work _ p).trans h1

/-! ### Batches that close (R361) -/

/-- A batch that closes: it is ready from `now` on (R361). -/
def Batch.closed (x : Batch) (now : Nat) : Batch := { x with state := .ready, readyAt := now }

theorem Dev.mem_onBatch {b : Nat} {f : Batch → Batch} {y : Batch} :
    y ∈ (d.onBatch b f).setter.batches ↔ ∃ x ∈ d.setter.batches, (if x.id = b then f x else x) = y :=
  List.mem_map

/-- A batch of a device one of whose open batches closed: it was there, or it is one that closed. -/
theorem Dev.mem_closeBatch {b : Nat} {y : Batch} (h : y ∈ (d.closeBatch b).setter.batches) :
    y ∈ d.setter.batches ∨ ∃ x ∈ d.setter.batches, x.state = .gathering ∧ y = x.closed d.now := by
  obtain ⟨x, hx, rfl⟩ := Dev.mem_onBatch.1 h
  split
  · split
    · next hs => exact .inr ⟨x, hx, hs, rfl⟩
    · exact .inl hx
  · exact .inl hx

/-- EAGER leaves every batch or closes it while it is open (R361). -/
theorem Dev.mem_eagerAll {y : Batch} (h : y ∈ d.eagerAll.setter.batches) :
    y ∈ d.setter.batches ∨ ∃ x ∈ d.setter.batches, x.state = .gathering ∧ y = x.closed d.now := by
  unfold Dev.eagerAll at h
  generalize d.setter.batches.filter (fun b => b.state = .gathering) = l at h
  induction l generalizing d with
  | nil => exact .inl h
  | cons b l ih =>
    rw [List.foldl_cons] at h
    split at h
    · rcases ih h with hy | ⟨x, hx, hs, hy⟩
      · exact Dev.mem_closeBatch hy
      · rcases Dev.mem_closeBatch hx with hx' | ⟨z, -, -, rfl⟩
        · exact .inr ⟨x, hx', hs, hy⟩
        · exact absurd hs nofun
    · exact ih h

/-- Where EAGER is 0, no batch closes. -/
theorem Dev.eagerAll_of_not (h : d.setter.eager = false) : d.eagerAll = d := by
  unfold Dev.eagerAll
  generalize d.setter.batches.filter (fun b => b.state = .gathering) = l
  induction l with
  | nil => rfl
  | cons b l ih =>
    rw [List.foldl_cons, Dev.eagerCloses, h]
    exact ih

/-- After BATCH_WINDOW_EXPIRY or DEADLINE_HINT_EXPIRY has closed batch `b`, it gathers no longer and every other batch stands. -/
theorem Dev.closeBatch_spec (d : Dev) (b : Nat) :
    (∀ y ∈ (d.closeBatch b).setter.batches, y.id = b → y.state ≠ .gathering) ∧
    (∀ y ∈ d.setter.batches, y.id ≠ b ∨ y.state ≠ .gathering → y ∈ (d.closeBatch b).setter.batches) ∧
    (d.closeBatch b).setter.batches.map (·.items) = d.setter.batches.map (·.items) := by
  refine ⟨fun y hy hb => ?_, fun y hy h => Dev.mem_onBatch.2 ⟨y, hy, ?_⟩, ?_⟩
  · obtain ⟨x, hx, rfl⟩ := Dev.mem_onBatch.1 hy
    split
    · split
      · exact nofun
      · next hs => exact hs
    · next hne =>
      rw [if_neg hne] at hb
      exact absurd hb hne
  · rcases h with h | h
    · exact if_neg h
    · rw [if_neg h, ite_self]
  · show List.map _ (List.map _ _) = _
    rw [List.map_map]
    refine List.map_congr_left fun x _ => ?_
    dsimp only [Function.comp]
    split
    · split <;> rfl
    · rfl

/-! ### A placement (R362, R365) -/

/-- A device whose setter has given batch `b` to pier `p`, before the pier is told (R365). -/
def Dev.placed (d : Dev) (b : Batch) (p : Fin 16) : Dev := { d with
  setter := { d.setter with
    batches := d.setter.batches.map (fun x => if x.id = b.id then { x with
      state := .placed p, snap := some (x.snap.getD d.loaded), turn := d.setter.nextTurn, parts := d.batchParts b } else x)
    lastPier := p.val, nextTurn := d.setter.nextTurn + 1 }
  items := d.items.map (fun (i : Item) => if b.items.contains i.id && i.stage = Stage.setter then { i with stage := .pier p } else i) }

theorem Dev.place_eq (d : Dev) (b : Batch) (p : Fin 16) : d.place b p =
    if d.fc.inReset.getLsbD p.val then (d.placed b p).loseItems p
    else if (d.pier p).awake then (d.placed b p).announce p b else d.placed b p := rfl

theorem Dev.mem_placed {b y : Batch} (h : y ∈ (d.placed b p).setter.batches) :
    (y.id = b.id → y.state = .placed p) ∧ (y.id ≠ b.id → y ∈ d.setter.batches) := by
  obtain ⟨x, hx, rfl⟩ := List.mem_map.1 h
  split
  · next hb => exact ⟨fun _ => rfl, fun hn => absurd hb hn⟩
  · next hb => exact ⟨fun h => absurd h hb, fun _ => hx⟩

theorem Dev.stage_of_mem_placed {b : Batch} {i : Item} (h : i ∈ (d.placed b p).items) (hb : b.items.contains i.id = true) :
    i.stage ≠ .setter := by
  obtain ⟨x, hx, rfl⟩ := List.mem_map.1 h
  split
  · exact nofun
  · next hc =>
    rw [if_neg hc] at hb
    intro hs
    exact hc (by rw [hb, hs]; rfl)

/-- A pier whose PUT has advanced and whose key cache holds the handles of a batch (R365, R367). -/
def Pier.announced (P : Pier) (now : Nat) (handles : List Nat) : Pier :=
  handles.foldl (fun P h => cacheFill now h P) { P with regs := { P.regs with put := P.regs.put + 1 } }

theorem Pier.announced_work (P : Pier) (now : Nat) (handles : List Nat) :
    (P.announced now handles).work = { P with regs := { P.regs with put := P.regs.put + 1 } }.work :=
  List.foldlRecOn handles _ (motive := fun Q : Pier => Q.work = _) rfl fun _ hQ x _ => (cacheFill_work now x _).trans hQ

theorem Dev.announce_eq (d : Dev) (p : Fin 16) (b : Batch) :
    d.announce p b = (d.onPier p (fun P => P.announced d.now (d.batchHandles b))).pendPier p 2 := rfl

/-- A bit of the pending word of a pier rises and the rest of the pier stands. -/
theorem Dev.pendPier_onPier (d : Dev) (p : Fin 16) (f : Pier → Pier) (k : Nat) : ∃ P, (d.onPier p f).pendPier p k = d.setPier p P ∧
    P.work = (f (d.pier p)).work ∧ P.core.ipend = (f (d.pier p)).core.ipend ||| BitVec.ofNat 9 (2 ^ k) := by
  unfold Dev.pendPier
  refine ⟨{ f (d.pier p) with core := { (f (d.pier p)).core with
    ipend := (f (d.pier p)).core.ipend ||| BitVec.ofNat 9 (2 ^ k) } }, ?_, rfl, rfl⟩
  rw [Dev.onPier, Dev.pier_onPier_self]
  simp only [Dev.onPier, Dev.setPier, Vector.set_set]

/-- The pier that is told of a batch: its PUT advances and IPEND bit 2 rises; its run, hod, power and laps stand (R365). -/
theorem Dev.announce_spec (d : Dev) (p : Fin 16) (b : Batch) : ∃ P, d.announce p b = d.setPier p P ∧
    P.work = { d.pier p with regs := { (d.pier p).regs with put := (d.pier p).regs.put + 1 } }.work ∧
    P.core.ipend.getLsbD 2 = true := by
  obtain ⟨P, h, hw, hi⟩ := d.pendPier_onPier p (fun P => P.announced d.now (d.batchHandles b)) 2
  refine ⟨P, (d.announce_eq p b).trans h, hw.trans (Pier.announced_work _ _ _), ?_⟩
  rw [hi, BitVec.getLsbD_or]
  exact Bool.or_true _

/-- The loss of a pier's items takes its batches and its preemption requests from the setter, and REQ from the pier (R16, R375). -/
theorem Dev.loseItems_setter (d : Dev) (p : Fin 16) :
    (∃ idle due, (d.loseItems p).setter = { d.setter with
      batches := d.setter.batches.filter (fun (b : Batch) => b.pier? ≠ some p)
      preempts := d.setter.preempts.filter (fun e => e.1 ≠ p), idleSince := idle, s2Due := due }) ∧
    ((d.loseItems p).pier p).work = { d.pier p with regs := { (d.pier p).regs with req := false } }.work := by
  obtain ⟨its, q, au, fl, ks, bd, lf, e, -⟩ :=
    Dev.endItems_frame 0x23 0 (d.items.filter (fun i => i.unfinished p)) (d.unbatched p)
  have he : d.loseItems p = _ := (d.loseItems_eq p).trans (congrArg (fun d => Dev.emptied d p) e)
  constructor
  · obtain ⟨idle, due, ps, h⟩ := Dev.emptied_setter { d.unbatched p with
      items := its, fc := { d.fc with detq := q }, audit := au, flash := fl, ks := ks, board := bd, life := lf } p
    exact ⟨idle, due, by rw [he.trans h]; rfl⟩
  · rw [he, Dev.emptied_work, ← d.unbatched_pier p]
    rfl

/-- What a placement leaves: its batch is placed on the pier or gone with its items, every other batch was there, and the pier's
run and request stand (R16, R365). -/
theorem Dev.place_spec (d : Dev) (b : Batch) (p : Fin 16) :
    (∀ y ∈ (d.place b p).setter.batches, (y.id = b.id → y.state = .placed p) ∧ (y.id ≠ b.id → y ∈ d.setter.batches)) ∧
    (∀ x ∈ (d.place b p).setter.preempts, x ∈ d.setter.preempts) ∧ ((d.place b p).pier p).runs = (d.pier p).runs ∧
    ((d.pier p).regs.req = false → ((d.place b p).pier p).regs.req = false) ∧ (d.place b p).time = d.time := by
  rw [Dev.place_eq]
  split
  · obtain ⟨⟨idle, due, hs⟩, hw⟩ := (d.placed b p).loseItems_setter p
    obtain ⟨-, ht, -⟩ := (d.placed b p).loseItems_spec p
    have hr := Pier.runs_of_work hw
    rw [hs]
    exact ⟨fun y hy => Dev.mem_placed (List.mem_filter.1 hy).1, fun x hx => (List.mem_filter.1 hx).1, hr,
      fun _ => Pier.req_of_work hw, ht⟩
  · split
    · obtain ⟨P, h, hw, -⟩ := (d.placed b p).announce_spec p b
      have hr := Pier.runs_of_work hw
      rw [h, Dev.pier_setPier_self]
      exact ⟨fun y hy => Dev.mem_placed hy, fun x hx => hx, hr, fun hr => (Pier.req_of_work hw).trans hr, rfl⟩
    · exact ⟨fun y hy => Dev.mem_placed hy, fun x hx => hx, rfl, id, rfl⟩

end Sys2Proof.Machine
end

section
/-! Batches that close and age, and what the setter places (O40): R361 to R366, R370, R371 and R423. -/

namespace Sys2Proof.Machine
open Sys2Proof

variable {d e : Dev} {s : State} {p : Fin 16}

/-! ### Closing and aging (R361, R362) -/

theorem answers_batchWindowExpiry_early {b : Nat}
    (h : ∀ x, s.dev.batch? b = some x → s.dev.now < x.oldest + 25 * s.dev.setter.win.toNat) :
    Answers (.batchWindowExpiry b) s s.dev := by
  show execBatchWindowExpiry b s = _
  rw [execBatchWindowExpiry]
  cases hb : s.dev.batch? b with
  | none => rfl
  | some x => exact congrArg s.answer (if_neg (Nat.not_le.2 (h x hb)))

theorem answers_batchWindowExpiry {b : Nat} {x : Batch} (hb : s.dev.batch? b = some x)
    (h : x.oldest + 25 * s.dev.setter.win.toNat ≤ s.dev.now) : Answers (.batchWindowExpiry b) s (s.dev.closeBatch b) := by
  show execBatchWindowExpiry b s = _
  rw [execBatchWindowExpiry, hb]
  exact congrArg s.answer (if_pos h)

/-- The deadline hint stands in the upper half of word 3 (R336). -/
theorem Item.bits_hint (i : Item) : i.bits 3 31 16 = (i.dw 3).toNat / 65536 :=
  Nat.mod_eq_of_lt (Nat.div_lt_of_lt_mul (i.dw 3).isLt)

theorem answers_deadlineHintExpiry {id : Nat} {i : Item} {b : Batch} (hi : s.dev.item? id = some i)
    (hb : s.dev.setter.batches.find? (fun b => b.items.contains id) = some b) : Answers (.deadlineHintExpiry id) s
    (if (i.dw 3).toNat / 65536 ≠ 0 ∧ i.joined + 25 * min s.dev.setter.win.toNat ((i.dw 3).toNat / 65536 / 2) ≤ s.dev.now then
      s.dev.closeBatch b.id else s.dev) := by
  show execDeadlineHintExpiry id s = _
  rw [execDeadlineHintExpiry]
  dsimp only
  rw [hi, hb]
  dsimp only
  rw [Item.bits_hint]
  simp only [Bool.and_eq_true, decide_eq_true_eq]
  rfl

theorem answers_deadlineHintExpiry_early {id : Nat}
    (h : ∀ i b, s.dev.item? id = some i → s.dev.setter.batches.find? (fun b => b.items.contains id) = some b →
      (i.dw 3).toNat / 65536 = 0 ∨
        s.dev.now < i.joined + 25 * min s.dev.setter.win.toNat ((i.dw 3).toNat / 65536 / 2)) :
    Answers (.deadlineHintExpiry id) s s.dev := by
  cases hi : s.dev.item? id with
  | none =>
    show execDeadlineHintExpiry id s = _
    rw [execDeadlineHintExpiry]
    dsimp only
    rw [hi]
    rfl
  | some i =>
    cases hb : s.dev.setter.batches.find? (fun b => b.items.contains id) with
    | none =>
      show execDeadlineHintExpiry id s = _
      rw [execDeadlineHintExpiry]
      dsimp only
      rw [hi, hb]
      rfl
    | some b =>
      refine (answers_deadlineHintExpiry hi hb).trans (congrArg s.answer (if_neg fun ⟨hn, ht⟩ => ?_))
      exact (h i b hi hb).elim hn (Nat.not_lt.2 ht)

/-- A batch that waits for 10 ms ages (R362). -/
def Batch.aging (x : Batch) (now : Nat) : Batch :=
  if x.state = .ready && x.readyAt + 250000 ≤ now then { x with aged := true } else x

theorem answers_batchAging (b : Nat) : Answers (.batchAging b) s (s.dev.onBatch b (fun x => x.aging s.dev.now)) := rfl

theorem Batch.rank_aging {x : Batch} {now : Nat} (hs : (x.aging now).state = .ready) (hr : (x.aging now).readyAt + 250000 ≤ now) :
    (x.aging now).rank = 15 := by
  unfold Batch.aging at hs hr ⊢
  split
  · rfl
  · next h =>
    rw [if_neg h] at hs hr
    exact absurd (by simp [hs, hr]) h

theorem Batch.aging_of_not {x : Batch} {now : Nat} (h : x.state ≠ .ready ∨ now < x.readyAt + 250000) : x.aging now = x := by
  refine if_neg ?_
  rw [Bool.and_eq_true, decide_eq_true_eq, decide_eq_true_eq, not_and_or, Nat.not_le]
  exact h

theorem batchAging_spec (b : Nat) (s : State) : AnswersWith (.batchAging b) s (fun d =>
    (∀ y ∈ d.setter.batches, y.id = b → y.state = .ready → y.readyAt + 250000 ≤ s.dev.now → y.rank = 15) ∧
    (∀ y ∈ s.dev.setter.batches, y.id ≠ b ∨ y.state ≠ .ready ∨ s.dev.now < y.readyAt + 250000 → y ∈ d.setter.batches) ∧
    d.setter.batches.map (·.id) = s.dev.setter.batches.map (·.id) ∧ d.items = s.dev.items) := by
  have hid : ∀ x : Batch, (x.aging s.dev.now).id = x.id := fun x => by
    unfold Batch.aging
    split <;> rfl
  refine Answers.answersWith (answers_batchAging b) ⟨fun y hy hb => ?_, fun y hy h => Dev.mem_onBatch.2 ⟨y, hy, ?_⟩, ?_, rfl⟩
  · obtain ⟨x, hx, rfl⟩ := Dev.mem_onBatch.1 hy
    split
    · exact Batch.rank_aging
    · next hn =>
      rw [if_neg hn] at hb
      exact absurd hb hn
  · rcases h with h | h
    · exact if_neg h
    · rw [Batch.aging_of_not h, ite_self]
  · show List.map _ (List.map _ _) = _
    rw [List.map_map]
    refine List.map_congr_left fun x _ => ?_
    dsimp only [Function.comp]
    split
    · exact hid x
    · rfl

/-! ### What the rules choose (R364, R370) -/

/-- A pier that rule 1 chooses takes the batch. -/
theorem Dev.takes_of_rule1 {b : Batch} (h : d.rule1 b = some p) : d.takes b p = true := by
  unfold Dev.rule1 at h
  dsimp only at h
  generalize (List.range 16).map _ = l at h
  have hl : ∀ (l : List (Fin 16)) (m : Option (Fin 16)), (∀ q ∈ l, d.takes b q = true) → (∀ q, m = some q → d.takes b q = true) →
      ∀ q, l.foldl (fun (m : Option (Fin 16)) p => match m with
        | none => some p
        | some q => if d.heldItems p < d.heldItems q then some p else some q) m = some q → d.takes b q = true := by
    intro l
    induction l with
    | nil => exact fun m _ hm => hm
    | cons r l ih =>
      intro m hl hm
      obtain ⟨hr, hl⟩ := List.forall_mem_cons.1 hl
      refine ih _ hl fun q hq => ?_
      cases m with
      | none => exact Option.some.inj hq ▸ hr
      | some t =>
        dsimp only at hq
        split at hq
        · exact Option.some.inj hq ▸ hr
        · exact hm q hq
  exact hl _ none (fun q hq => (List.mem_filter.1 hq).2) nofun p h

/-- The victim on a pier that may be preempted runs there at a lower QoS (R370). -/
theorem Dev.victim_of_victimOk {q : Nat} {b : Batch} (h : d.victimOk q b p = true) :
    ∃ v, d.runningOn p = some v ∧ v.cls.qos < q := by
  unfold Dev.victimOk at h
  split at h
  · cases h
  · next v hv =>
    simp only [Bool.and_eq_true, decide_eq_true_eq] at h
    obtain ⟨⟨⟨⟨-, hq⟩, -⟩, -⟩, -⟩ := h
    exact ⟨v, hv, hq⟩

/-- The better of a victim found so far and the batch that runs on a pier: the lower QoS, then the longer run (R370). -/
def Dev.betterVictim (d : Dev) (m : Option (Fin 16 × Batch)) (p : Fin 16) : Option (Fin 16 × Batch) :=
  match d.runningOn p with
  | none => m
  | some v =>
    match m with
    | none => some (p, v)
    | some (q, w) => if v.cls.qos < w.cls.qos || (v.cls.qos = w.cls.qos && v.started < w.started) then some (p, v) else some (q, w)

theorem Dev.rule3_eq (d : Dev) (b : Batch) : d.rule3 b = if !d.setter.preEn || d.preempting b.id then none
    else ((List.finRange 16).filter (d.victimOk b.cls.qos b)).foldl d.betterVictim none := rfl

theorem Dev.betterVictim_cases {v : Batch} (hv : d.runningOn p = some v) (m : Option (Fin 16 × Batch)) :
    d.betterVictim m p = some (p, v) ∨ d.betterVictim m p = m ∧ m.isSome = true := by
  unfold Dev.betterVictim
  rw [hv]
  rcases m with _ | ⟨q, w⟩
  · exact .inl rfl
  · dsimp only
    split
    · exact .inl rfl
    · exact .inr ⟨rfl, rfl⟩

/-- What rule 3 chooses among piers with victims for QoS `n`: a victim of that kind, and one wherever there is a pier. -/
theorem Dev.foldl_betterVictim {n : Nat} {l : List (Fin 16)} (hl : ∀ p ∈ l, ∃ v, d.runningOn p = some v ∧ v.cls.qos < n)
    {m : Option (Fin 16 × Batch)} (hm : ∀ x, m = some x → x.2.cls.qos < n) :
    (∀ x, l.foldl d.betterVictim m = some x → x.2.cls.qos < n) ∧ (l ≠ [] ∨ m.isSome = true → (l.foldl d.betterVictim m).isSome = true) := by
  induction l generalizing m with
  | nil => exact ⟨hm, fun h => h.resolve_left (absurd rfl)⟩
  | cons p l ih =>
    obtain ⟨⟨v, hv, hn⟩, hl⟩ := List.forall_mem_cons.1 hl
    rw [List.foldl_cons]
    rcases Dev.betterVictim_cases hv m with h | ⟨h, hsome⟩ <;> rw [h]
    · have hi := ih hl (m := some (p, v)) (fun x hx => Option.some.inj hx ▸ hn)
      exact ⟨hi.1, fun _ => hi.2 (.inr rfl)⟩
    · have hi := ih hl hm
      exact ⟨hi.1, fun _ => hi.2 (.inr hsome)⟩

section Rule3

variable {b : Batch}

theorem Dev.mem_victims {q : Fin 16} (h : q ∈ (List.finRange 16).filter (d.victimOk b.cls.qos b)) :
    ∃ v, d.runningOn q = some v ∧ v.cls.qos < b.cls.qos :=
  Dev.victim_of_victimOk (List.mem_filter.1 h).2

/-- The victim of rule 3 has a lower QoS (R370). -/
theorem Dev.qos_of_rule3 {v : Batch} (h : d.rule3 b = some (p, v)) : v.cls.qos < b.cls.qos := by
  rw [Dev.rule3_eq] at h
  split at h
  · cases h
  · exact (Dev.foldl_betterVictim (fun _ => Dev.mem_victims) (m := none) nofun).1 _ h

/-- Where a pier's batch may be preempted, rule 3 chooses a victim (R370). -/
theorem Dev.rule3_of_victimOk (he : d.setter.preEn = true) (hp : d.preempting b.id = false) (hv : d.victimOk b.cls.qos b p = true) :
    ∃ q v, d.rule3 b = some (q, v) := by
  have hne : (List.finRange 16).filter (d.victimOk b.cls.qos b) ≠ [] :=
    List.ne_nil_of_mem (List.mem_filter.2 ⟨List.mem_finRange p, hv⟩)
  have hs := (Dev.foldl_betterVictim (fun _ => Dev.mem_victims) (m := none) nofun).2 (.inl hne)
  obtain ⟨⟨q, v⟩, h⟩ := Option.isSome_iff_exists.1 hs
  exact ⟨q, v, by rw [Dev.rule3_eq, he, hp]; exact h⟩

end Rule3

/-- A request for preemption: it joins the setter's, REQ and its time stand in the pier, and IPEND bit 3 rises (R371). -/
theorem Dev.preempt_spec (d : Dev) (b v : Batch) (p : Fin 16) :
    (d.preempt b v p).setter.preempts = d.setter.preempts ++ [(p, b.id, v.id)] ∧ ((d.preempt b v p).pier p).regs.req = true ∧
    ((d.preempt b v p).pier p).regs.reqAt = d.now ∧ ((d.preempt b v p).core (.pier p)).ipend.getLsbD 3 = true ∧
    (d.preempt b v p).setter.batches = d.setter.batches := by
  obtain ⟨P, h, hw, hi⟩ := Dev.pendPier_onPier
    { d with setter := { d.setter with preempts := d.setter.preempts ++ [(p, b.id, v.id)] } } p
    (fun P => { P with regs := { P.regs with req := true, reqAt := d.now } }) 3
  have he : d.preempt b v p = _ := h
  rw [Dev.core, he, Dev.pier_setPier_self]
  refine ⟨rfl, Pier.req_of_work hw, Pier.reqAt_of_work hw, ?_, rfl⟩
  rw [hi, BitVec.getLsbD_or]
  exact Bool.or_true _

theorem Dev.pier_onPier_pw (d : Dev) (p : Fin 16) (g : Pier → Pier) (pw : Arbiter) :
    Dev.pier { d.onPier p g with pw := pw } p = g (d.pier p) := Dev.pier_onPier_self d p g

/-- A wake that the setter starts: the pier slept and now it wakes, and the piers in reset stay (R364, R470). -/
theorem Dev.tryWake_spec (h : d.tryWake p = some e) : e.fc = d.fc ∧ (e.pier p).awake = false ∧
    (e.pier p).regs = (d.pier p).regs ∧ ∃ f, (e.pier p).pw.change = .wake f := by
  unfold Dev.tryWake at h
  dsimp only at h
  split at h
  · cases h
  · next hn =>
    have ha : (d.pier p).awake = false := by simp_all
    split at h
    · cases h
    · next f _ =>
      split at h
      · cases h
      · obtain rfl := Option.some.inj h
        refine ⟨rfl, ?_⟩
        rw [Dev.pier_onPier_pw]
        exact ⟨ha, rfl, f, rfl⟩

/-- The pier that rule 2 wakes (R364). -/
theorem Dev.tryWake_of_rule2 {b : Batch} (h : d.rule2 b = some (p, e)) : d.tryWake p = some e := by
  obtain ⟨q, -, hq⟩ := List.exists_of_findSome?_eq_some h
  split at hq
  · cases hq
  · obtain ⟨e', he', heq⟩ := Option.map_eq_some_iff.1 hq
    cases heq
    exact he'

/-! ### What the setter does with one ready batch (R363, R364) -/

section PlaceOne

variable {b : Batch} {q : Fin 16}

theorem Dev.placeOne_of_allowed (h : d.allowed (d.batchParts b) q = true) : d.placeOne b =
    match d.rule1 b with
    | some p => some (d.place b p)
    | none =>
      match d.rule2 b with
      | some (p, d') => some (d'.place b p)
      | none =>
        match d.rule3 b with
        | some (p, v) => some (d.preempt b v p)
        | none => none := by
  have ha : (List.finRange 16).any (d.allowed (d.batchParts b)) = true := List.any_eq_true.2 ⟨q, List.mem_finRange q, h⟩
  rw [Dev.placeOne, ha] <;> rfl

theorem Dev.placeOne_of_not_allowed (h : ∀ p, d.allowed (d.batchParts b) p = false) :
    d.placeOne b = if 1 < (d.batchParts b).length then some (d.splitBatch b) else none := by
  have ha : (List.finRange 16).any (d.allowed (d.batchParts b)) = false :=
    List.any_eq_false.2 fun p _ => by rw [h p]; exact Bool.false_ne_true
  rw [Dev.placeOne, ha]
  rfl

theorem Dev.placeOne_rule1 (h : d.allowed (d.batchParts b) q = true) (h1 : d.rule1 b = some p) : d.placeOne b = some (d.place b p) := by
  rw [Dev.placeOne_of_allowed h, h1]

theorem Dev.placeOne_rule2 (h : d.allowed (d.batchParts b) q = true) (h1 : d.rule1 b = none) (h2 : d.rule2 b = some (p, e)) :
    d.placeOne b = some (e.place b p) := by
  rw [Dev.placeOne_of_allowed h, h1, h2]

theorem Dev.placeOne_rule3 {v : Batch} (h : d.allowed (d.batchParts b) q = true) (h1 : d.rule1 b = none) (h2 : d.rule2 b = none)
    (h3 : d.rule3 b = some (p, v)) : d.placeOne b = some (d.preempt b v p) := by
  rw [Dev.placeOne_of_allowed h, h1, h2, h3]

theorem Dev.placeOne_rule4 (h : d.allowed (d.batchParts b) q = true) (h1 : d.rule1 b = none) (h2 : d.rule2 b = none)
    (h3 : d.rule3 b = none) : d.placeOne b = none := by
  rw [Dev.placeOne_of_allowed h, h1, h2, h3]

end PlaceOne

/-- A batch placed on an awake pier: the pier holds it and is told, and its items wait on it (R365). -/
theorem Dev.place_awake {b : Batch} (hr : d.fc.inReset.getLsbD p.val = false) (ha : (d.pier p).awake = true) :
    (∀ y ∈ (d.place b p).setter.batches, y.id = b.id → y.state = .placed p) ∧ (d.place b p).setter.lastPier = p.val ∧
    ((d.place b p).pier p).regs.put = (d.pier p).regs.put + 1 ∧ ((d.place b p).core (.pier p)).ipend.getLsbD 2 = true ∧
    (∀ i ∈ (d.place b p).items, b.items.contains i.id = true → i.stage ≠ .setter) ∧
    (d.place b p).setter.minawake = d.setter.minawake := by
  obtain ⟨P, h, hw, hi⟩ := (d.placed b p).announce_spec p b
  have hput := Pier.put_of_work hw
  rw [Dev.core, Dev.place_eq, hr, if_neg Bool.false_ne_true, if_pos ha, h, Dev.pier_setPier_self]
  exact ⟨fun y hy => (Dev.mem_placed hy).1, rfl, hput, hi, fun i => Dev.stage_of_mem_placed, rfl⟩

/-- A batch placed on a pier that wakes: the pier is told when its wake ends (R364). -/
theorem Dev.place_waking {b : Batch} (hr : d.fc.inReset.getLsbD p.val = false) (ha : (d.pier p).awake = false) :
    d.place b p = d.placed b p := by
  rw [Dev.place_eq, hr, if_neg Bool.false_ne_true, ha, if_neg Bool.false_ne_true]

/-- A batch placed on a pier in reset is gone (R16). -/
theorem Dev.place_inReset {b : Batch} (hr : d.fc.inReset.getLsbD p.val = true) {y : Batch}
    (hy : y ∈ (d.place b p).setter.batches) : y.id ≠ b.id := by
  obtain ⟨⟨idle, due, hs⟩, -⟩ := (d.placed b p).loseItems_setter p
  rw [Dev.place_eq, if_pos hr, hs] at hy
  obtain ⟨hm, hp⟩ := List.mem_filter.1 hy
  intro hb
  have hst := (Dev.mem_placed hm).1 hb
  rw [Batch.pier?, hst] at hp
  simp at hp

theorem Dev.placeOne_wakes {b : Batch} {q : Fin 16} (h : d.allowed (d.batchParts b) q = true) (h1 : d.rule1 b = none)
    (h2 : d.rule2 b = some (p, e)) (hr : d.fc.inReset.getLsbD p.val = false) : ∃ c, d.placeOne b = some c ∧
      (∀ y ∈ c.setter.batches, y.id = b.id → y.state = .placed p) ∧ (∃ f, (c.pier p).pw.change = .wake f) ∧
      (c.pier p).regs.put = (d.pier p).regs.put := by
  obtain ⟨hfc, ha, hregs, hc⟩ := Dev.tryWake_spec (Dev.tryWake_of_rule2 h2)
  refine ⟨_, Dev.placeOne_rule2 h h1 h2, ?_⟩
  rw [Dev.place_waking (by rw [hfc]; exact hr) ha, show (e.placed b p).pier p = e.pier p from rfl, hregs]
  exact ⟨fun y hy => (Dev.mem_placed hy).1, hc, rfl⟩

/-! ### BATCH_PLACEMENT (R364, R366) -/

theorem Dev.placeNext_of_placing (h : d.placing = true) : d.placeNext = (d.readyOrder.findSome? d.placeOne).getD d := by
  rw [Dev.placeNext, h]
  rfl

theorem Dev.placeNext_of_not (h : d.placing = false) : d.placeNext = d := by
  rw [Dev.placeNext, h]
  rfl

theorem Dev.keepAwake_of_not_placing (h : d.placing = false) : d.keepAwake = d := by
  rw [Dev.keepAwake, h]
  rfl

theorem Dev.keepAwake_of_zero (h : d.setter.minawake = 0) : d.keepAwake = d := by
  unfold Dev.keepAwake
  dsimp only
  rw [h]
  refine if_pos ?_
  simp

theorem answers_batchPlacement (s : State) : Answers .batchPlacement s s.dev.placeNext.keepAwake := rfl

/-- Settles O40: each clause is about one command or one rule, and is the lemma about it above. -/
theorem batchesCloseAndArePlaced : Obligations.BatchesCloseAndArePlaced := by
  unfold Obligations.BatchesCloseAndArePlaced
  refine ⟨⟨fun b s => answers_batchWindowExpiry_early, fun b s x hb h => ?_, fun id s => answers_deadlineHintExpiry_early,
    fun id s i b hi hb hn h => ?_, batchAging_spec⟩,
    fun s h => ?_, fun s h hf => ?_, fun s d h hf => ?_, fun d => Dev.keepAwake_of_zero, fun s b bs p h ho ha h1 hr hm => ?_,
    fun d b p => Dev.placeOne_rule1, fun d b p hr y => Dev.place_inReset hr, fun d b p d1 => Dev.placeOne_wakes,
    fun d b p v q ha h1 h2 h3 => ?_, fun d b q => Dev.placeOne_rule4, fun d b h => ?_⟩
  · obtain ⟨hc, hk, hi⟩ := s.dev.closeBatch_spec b
    exact (answers_batchWindowExpiry hb h).answersWith ⟨hc, hk, hi, rfl⟩
  · obtain ⟨hc, hk, -⟩ := s.dev.closeBatch_spec b.id
    have hx := answers_deadlineHintExpiry hi hb
    rw [if_pos ⟨hn, h⟩] at hx
    exact hx.answersWith ⟨hc, hk, rfl⟩
  · have hx := answers_batchPlacement s
    rwa [Dev.placeNext_of_not h, Dev.keepAwake_of_not_placing h] at hx
  · have hx := answers_batchPlacement s
    rwa [Dev.placeNext_of_placing h, hf] at hx
  · have hx := answers_batchPlacement s
    rwa [Dev.placeNext_of_placing h, hf] at hx
  · have haw : (s.dev.pier p).awake = true := by
      have ht := Dev.takes_of_rule1 h1
      simp only [Dev.takes, Bool.and_eq_true] at ht
      exact ht.1.1.1
    obtain ⟨hb, hl, hput, hi, hit, hmin⟩ := Dev.place_awake (b := b) hr haw
    have hx := answers_batchPlacement s
    rw [Dev.placeNext_of_placing h, ho, List.findSome?_cons, Dev.placeOne_rule1 ha h1, Option.getD_some,
      Dev.keepAwake_of_zero (hmin.trans hm)] at hx
    exact hx.answersWith ⟨hb, hl, hput, hi, hit⟩
  · obtain ⟨hp, hr, ht, hi, hb⟩ := d.preempt_spec b v p
    exact ⟨_, Dev.placeOne_rule3 ha h1 h2 h3, hp, hr, ht, hi, Dev.qos_of_rule3 h3, hb⟩
  · rw [Dev.placeOne_of_not_allowed h]
    exact ⟨fun hl => if_pos hl, fun hl => if_neg (Nat.not_lt.2 hl)⟩

end Sys2Proof.Machine
end

section
/-! A preemption: asked for, acknowledged, timed out (O42): R370 to R375 and R377. -/

namespace Sys2Proof.Machine
open Sys2Proof

variable {d e : Dev} {s : State} {p : Fin 16}

/-! ### The work of a pier is suspended (R351, R372) -/

/-- An abort leaves the hod, the laps, the registers and whether the pier is awake. -/
theorem abortRun_keeps (P : Pier) (now fr : Nat) : ∃ R t, abortRun P now fr = { P with runs := R, pw := { P.pw with lastRun := t } } := by
  unfold abortRun
  split
  · exact ⟨P.runs, P.pw.lastRun, rfl⟩
  · next r _ =>
    obtain ⟨R, h⟩ := runReport_frame (freeAccs P fr (mcUsed r)) 2 0 (abortIndex r)
    rw [h]
    exact ⟨_, _, rfl⟩

/-- A pier whose run is aborted and whose hod is asked to suspend (R372). -/
def Pier.suspended (P : Pier) (now fr : Nat) : Pier := hodCtl (abortRun P now fr) 1#32

/-- A suspension ends the run, leaves the registers and the laps, and takes effect at once where no ticket runs (R351, R372). -/
theorem Pier.suspended_spec (P : Pier) (now fr : Nat) : (P.suspended now fr).regs = P.regs ∧ (P.suspended now fr).awake = P.awake ∧
    (P.suspended now fr).lapOverdue = P.lapOverdue ∧ (P.suspended now fr).runs.exec = none ∧
    (P.hod.cur = none ∨ P.hod.suspd = true → (P.suspended now fr).hod.suspd = true) := by
  have hx := abortRun_exec P now fr
  obtain ⟨R, t, h⟩ := abortRun_keeps P now fr
  rw [Pier.suspended, hodCtl_eq]
  rw [h] at hx ⊢
  refine ⟨rfl, rfl, rfl, hx, fun hc => ?_⟩
  rcases hc with hc | hc
  · cases hs : P.hod.suspd <;> simp [hc]
  · simp [hc]

/-- A device whose pier's run is aborted and whose hod is asked to suspend (R372). -/
def Dev.askedToSuspend (d : Dev) (p : Fin 16) : Dev :=
  { d.onPier p (fun P => P.suspended d.now d.fresh) with fresh := d.fresh + accFrees }

theorem Dev.askedToSuspend_pier (d : Dev) (p : Fin 16) :
    (d.askedToSuspend p).pier p = (d.pier p).suspended d.now d.fresh :=
  Dev.pier_onPier_self d p (fun P => P.suspended d.now d.fresh)

theorem Dev.suspendWork_eq (d : Dev) (p : Fin 16) : d.suspendWork p =
    if ((d.askedToSuspend p).pier p).hod.suspd then
      (d.askedToSuspend p).onPier p (fun P => { P with runs := { P.runs with rout := 0, unit := 0, index := 0 } })
    else d.askedToSuspend p := rfl

/-- What firmware's suspension of a pier's work changes: that pier and the counter of free values (R372). -/
theorem Dev.suspendWork_spec (d : Dev) (p : Fin 16) :
    (∃ ps f, d.suspendWork p = { d with piers := ps, fresh := f }) ∧ ((d.suspendWork p).pier p).regs = (d.pier p).regs ∧
    ((d.suspendWork p).pier p).awake = (d.pier p).awake ∧ ((d.suspendWork p).pier p).lapOverdue = (d.pier p).lapOverdue ∧
    ((d.suspendWork p).pier p).runs.exec = none ∧
    ((d.pier p).hod.cur = none ∨ (d.pier p).hod.suspd = true → ((d.suspendWork p).pier p).hod.suspd = true) := by
  obtain ⟨hregs, haw, hlap, hrun, hsus⟩ := (d.pier p).suspended_spec d.now d.fresh
  have hp := d.askedToSuspend_pier p
  rw [Dev.suspendWork_eq]
  split
  · rw [Dev.pier_onPier_self, hp]
    exact ⟨⟨_, _, rfl⟩, hregs, haw, hlap, hrun, hsus⟩
  · rw [hp]
    exact ⟨⟨_, _, rfl⟩, hregs, haw, hlap, hrun, hsus⟩

/-! ### The request ends (R371, R373, R374) -/

/-- A device before the preempting batch takes pier `p`: against `d`, the request is over, and beside batches, items and the pier
only the idle times, PR_S2CFG that waited and the free values may differ. -/
structure Dev.Freed (d : Dev) (p : Fin 16) (e : Dev) : Prop where
  frame : ∃ bs idle due its ps f, e = { d with
    setter := { d.setter with batches := bs, preempts := d.setter.preempts.filter (fun e => e.1 ≠ p), idleSince := idle, s2Due := due }
    items := its, piers := ps, fresh := f }
  req : (e.pier p).regs.req = false
  awake : (e.pier p).awake = (d.pier p).awake
  lap : (e.pier p).lapOverdue = (d.pier p).lapOverdue

theorem Dev.endRequest_pier (d : Dev) (p : Fin 16) :
    (d.endRequest p).pier p = { d.pier p with regs := { (d.pier p).regs with req := false } } :=
  Dev.pier_onPier_self { d with setter := { d.setter with preempts := d.setter.preempts.filter (fun e => e.1 ≠ p) } } p _

theorem Dev.endRequest_freed (d : Dev) (p : Fin 16) : d.Freed p (d.endRequest p) := by
  have hp := d.endRequest_pier p
  refine ⟨⟨_, _, _, _, _, _, rfl⟩, ?_, ?_, ?_⟩ <;> rw [hp]
  · rfl
  · rfl

/-- The batch that the setter prefers takes the pier, or it does not and nothing changes (R373). -/
theorem Dev.placeFirst_cases (d : Dev) (b : Nat) (p : Fin 16) : d.placeFirst b p = d ∨ ∃ x, d.batch? b = some x ∧ x.id = b ∧
    d.placing = true ∧ d.takes x p = true ∧ d.placeFirst b p = d.place x p := by
  unfold Dev.placeFirst
  cases hb : d.batch? b with
  | none => exact .inl rfl
  | some x =>
    dsimp only
    split
    · next h =>
      simp only [Bool.and_eq_true, decide_eq_true_eq] at h
      have hid : x.id = b := by simpa using List.find?_some hb
      exact .inr ⟨x, rfl, hid, h.1.2, h.2, rfl⟩
    · exact .inl rfl

theorem Dev.placeFirst_of_takes {b : Nat} {x : Batch} (hb : d.batch? b = some x) (hs : x.state = .ready) (hp : d.placing = true)
    (ht : d.takes x p = true) : d.placeFirst b p = d.place x p := by
  rw [Dev.placeFirst, hb]
  simp only [hs, hp, ht, decide_true, Bool.and_self, if_true]

/-- What an acknowledgement leaves after the preempting batch has had its turn and EAGER its (R361, R371, R373). -/
theorem Dev.Freed.placed (h : d.Freed p e) (b : Nat) :
    ((e.placeFirst b p).eagerAll.pier p).regs.req = false ∧ (∀ x ∈ (e.placeFirst b p).eagerAll.setter.preempts, x.1 ≠ p) ∧
    ((e.placeFirst b p).eagerAll.pier p).runs = (e.pier p).runs ∧
    ∀ y ∈ (e.placeFirst b p).eagerAll.setter.batches, y.id ≠ b → y ∈ e.setter.batches ∨ y.state = .ready ∧ y.readyAt = d.now := by
  have hpre : ∀ x ∈ e.setter.preempts, x.1 ≠ p := by
    obtain ⟨bs, idle, due, its, ps, f, he⟩ := h.frame
    rw [he]
    exact fun x hx => by simpa using (List.mem_filter.1 hx).2
  have ht : e.time = d.time := by
    obtain ⟨bs, idle, due, its, ps, f, he⟩ := h.frame
    rw [he]
  have hf : ((e.placeFirst b p).pier p).regs.req = false ∧ (∀ x ∈ (e.placeFirst b p).setter.preempts, x.1 ≠ p) ∧
      ((e.placeFirst b p).pier p).runs = (e.pier p).runs ∧ (e.placeFirst b p).time = d.time ∧
      ∀ y ∈ (e.placeFirst b p).setter.batches, y.id ≠ b → y ∈ e.setter.batches := by
    rcases e.placeFirst_cases b p with hc | ⟨x, -, rfl, -, -, hc⟩ <;> rw [hc]
    · exact ⟨h.req, hpre, rfl, ht, fun y hy _ => hy⟩
    · obtain ⟨hb, hp, hr, hq, htime⟩ := e.place_spec x p
      exact ⟨hq h.req, fun y hy => hpre y (hp y hy), hr, htime.trans ht, fun y hy => (hb y hy).2⟩
  obtain ⟨hreq, hp, hr, hn, hb⟩ := hf
  obtain ⟨bs, hea⟩ := (e.placeFirst b p).eagerAll_frame
  refine ⟨by rw [hea]; exact hreq, by rw [hea]; exact hp, by rw [hea]; exact hr, fun y hy hid => ?_⟩
  rcases Dev.mem_eagerAll hy with hy | ⟨x, -, -, rfl⟩
  · exact .inl (hb y hy hid)
  · exact .inr ⟨rfl, congrArg BitVec.toNat hn⟩

/-- The preempting batch that takes the pier is placed there, and EAGER does not close it again (R373). -/
theorem Dev.placed_of_takes {b : Nat} {x : Batch} (hb : e.batch? b = some x) (hs : x.state = .ready) (hp : e.placing = true)
    (ht : e.takes x p = true) : ∀ y ∈ (e.placeFirst b p).eagerAll.setter.batches, y.id = b → y.state = .placed p := by
  have hid : x.id = b := by simpa using List.find?_some hb
  obtain ⟨hpl, -⟩ := e.place_spec x p
  intro y hy hyb
  rw [Dev.placeFirst_of_takes hb hs hp ht] at hy
  rcases Dev.mem_eagerAll hy with hy | ⟨z, hz, hg, rfl⟩
  · exact (hpl y hy).1 (hyb.trans hid.symm)
  · exact absurd (((hpl z hz).1 (hyb.trans hid.symm)).symm.trans hg) nofun

/-- Partitions of a batch's items, where the items of another device have the same numbers and partitions. -/
theorem Dev.batchParts_congr {g : Item → Item} (hg : ∀ i, (g i).id = i.id ∧ (g i).part = i.part) (h : e.items = d.items.map g)
    (b : Batch) : e.batchParts b = d.batchParts b := by
  rw [Dev.batchParts, Dev.batchParts, h, List.filter_map, List.filterMap_map]
  have h1 : ((fun i : Item => b.items.contains i.id) ∘ g) = fun i => b.items.contains i.id := funext fun i => by
    rw [Function.comp_apply, (hg i).1]
  have h2 : ((fun i : Item => i.part) ∘ g) = fun i => i.part := funext fun i => (hg i).2
  rw [h1]
  exact congrArg (fun f => (List.filterMap f _).eraseDups) h2

/-- The pier of a freed device takes the batch where it does by rule 1 of R364, unthinned (R364, R373). -/
theorem Dev.Freed.takes (h : d.Freed p e) {b : Batch} (hp : e.batchParts b = d.batchParts b) (haw : (d.pier p).awake = true)
    (hal : d.allowed (d.batchParts b) p = true) (hlap : (d.pier p).lapOverdue = false) (hfull : d.audit.full.contains p.val = false)
    (hq : (e.held p).length < d.setter.qd.toNat + 1) : e.takes b p = true := by
  obtain ⟨bs, idle, due, its, ps, f, he⟩ := h.frame
  have ha : e.allowed (d.batchParts b) p = true := by rw [he]; exact hal
  have hf : e.audit.full.contains p.val = false := by rw [he]; exact hfull
  have hqd : (e.held p).length < e.setter.qd.toNat + 1 := by
    have h2 : e.setter.qd = d.setter.qd := by rw [he]
    rw [h2]
    exact hq
  simp only [Dev.takes, h.awake, haw, hp, ha, h.lap, hlap, hf, hqd, Bool.false_eq_true, if_false, decide_true, Bool.and_self,
    Bool.not_false]

/-! ### ACK = 1 (R371, R373, R374) -/

/-- A victim that waits again with the items that its pier has not finished (R374). -/
def Batch.waiting (v : Batch) (left : List Nat) (now : Nat) : Batch :=
  { v with state := .ready, items := left, readyAt := now, preempted := v.preempted + 1 }

/-- A device whose victim `v` is ready again, or gone where none of its items is left (R374). -/
def Dev.requeued (d : Dev) (p : Fin 16) (v : Nat) : Dev :=
  let left := d.unfinishedOf p v
  let c := d.endRequest p
  let c := { c with items := c.items.map (fun (i : Item) => if left.contains i.id then i.restart else i) }
  let c := c.onBatch v (fun x => x.waiting left c.now)
  if left.isEmpty then { c with setter := { c.setter with batches := c.setter.batches.filter (fun (x : Batch) => x.id ≠ v) } } else c

theorem Dev.ackSuspended_eq {x : Fin 16 × Nat × Nat} (h : d.setter.preempts.find? (fun e => e.1 = p) = some x) :
    d.ackSuspended p = ((d.requeued p x.2.2).emptied p).placeFirst x.2.1 p := by
  rw [Dev.ackSuspended, h]
  rfl

theorem Dev.ackEnded_eq {x : Fin 16 × Nat × Nat} (h : d.setter.preempts.find? (fun e => e.1 = p) = some x) :
    d.ackEnded p = (d.endRequest p).placeFirst x.2.1 p := by
  rw [Dev.ackEnded, h]

/-- The batches after the victim's return: the victim waits since now, and each other batch stands (R374). -/
theorem Dev.requeued_batches (d : Dev) (p : Fin 16) (v : Nat) : ∃ q : Batch → Bool, (∀ y, y.id ≠ v → q y = true) ∧
    (d.requeued p v).setter.batches = (d.setter.batches.map (fun x => if x.id = v then x.waiting (d.unfinishedOf p v) d.now else x)).filter q := by
  unfold Dev.requeued
  extract_lets left c1 c2 c3
  split
  · exact ⟨fun x => x.id ≠ v, fun y hy => by simpa using hy, rfl⟩
  · exact ⟨fun _ => true, fun _ _ => rfl, (List.filter_eq_self.2 fun _ _ => rfl).symm⟩

theorem Dev.requeued_freed (d : Dev) (p : Fin 16) (v : Nat) : d.Freed p (d.requeued p v) ∧
    (d.requeued p v).items = d.items.map (fun (i : Item) => if (d.unfinishedOf p v).contains i.id then i.restart else i) ∧
    ((d.requeued p v).pier p).runs = (d.pier p).runs := by
  have hp := d.endRequest_pier p
  have hf : ∃ bs, d.requeued p v = { d.endRequest p with
      setter := { (d.endRequest p).setter with batches := bs }
      items := d.items.map (fun (i : Item) => if (d.unfinishedOf p v).contains i.id then i.restart else i) } := by
    unfold Dev.requeued
    extract_lets left c1 c2 c3
    split <;> exact ⟨_, rfl⟩
  obtain ⟨bs, hr⟩ := hf
  have hp2 : (d.requeued p v).pier p = (d.endRequest p).pier p := by rw [hr]; rfl
  refine ⟨⟨⟨_, _, _, _, _, _, hr⟩, ?_, ?_, ?_⟩, by rw [hr], ?_⟩ <;> rw [hp2, hp]
  · rfl
  · rfl

theorem Dev.Freed.emptied (h : d.Freed p e) : d.Freed p (e.emptied p) := by
  have hw := e.emptied_work p
  obtain ⟨idle, due, ps, he⟩ := e.emptied_setter p
  obtain ⟨bs, idle1, due1, its, ps1, f, h1⟩ := h.frame
  refine ⟨⟨bs, idle, due, its, ps, f, ?_⟩, (Pier.req_of_work hw).trans h.req, (Pier.awake_of_work hw).trans h.awake,
    (Pier.lapOverdue_of_work hw).trans h.lap⟩
  rw [he, h1]


/-- Another batch than the victim is found as before. -/
theorem Dev.requeued_batch? {b v : Nat} (hne : b ≠ v) : (d.requeued p v).batch? b = d.batch? b := by
  obtain ⟨q, hq, hb⟩ := d.requeued_batches p v
  rw [Dev.batch?, Dev.batch?, hb]
  generalize d.setter.batches = l
  induction l with
  | nil => rfl
  | cons x l ih =>
    rw [List.map_cons]
    by_cases hx : x.id = v
    · have h1 : (x.waiting (d.unfinishedOf p v) d.now).id ≠ b := fun h => hne (h.symm.trans hx)
      rw [if_pos hx, List.find?_cons_of_neg (by simpa [hx] using hne.symm), ← ih, List.filter_cons]
      split
      · exact List.find?_cons_of_neg (by simpa using h1)
      · rfl
    · rw [if_neg hx, List.filter_cons_of_pos (hq x hx), List.find?_cons, List.find?_cons, ih]

/-- The pier of the victim holds its other batches. -/
theorem Dev.requeued_held (d : Dev) (p : Fin 16) (v : Nat) : (d.requeued p v).held p = (d.held p).filter (fun x => x.id ≠ v) := by
  obtain ⟨q, hq, hb⟩ := d.requeued_batches p v
  rw [Dev.held, Dev.held, hb]
  generalize d.setter.batches = l
  induction l with
  | nil => rfl
  | cons x l ih =>
    rw [List.map_cons]
    by_cases hx : x.id = v
    · have h1 : (x.waiting (d.unfinishedOf p v) d.now).pier? ≠ some p := nofun
      have h2 : ∀ m : List Batch, (List.filter (fun x => decide (x.id ≠ v)) (if x.pier? = some p then x :: m else m)) =
          List.filter (fun x => decide (x.id ≠ v)) m := fun m => by
        split
        · exact List.filter_cons_of_neg (by simpa using hx)
        · rfl
      rw [if_pos hx, List.filter_cons (x := x)]
      simp only [decide_eq_true_eq]
      rw [h2, ← ih, List.filter_cons]
      split
      · exact List.filter_cons_of_neg (by simpa using h1)
      · rfl
    · rw [if_neg hx, List.filter_cons_of_pos (hq x hx), List.filter_cons, List.filter_cons, ih]
      split
      · rw [List.filter_cons_of_pos (by simpa using hx)]
      · rfl

/-- The victim waits again, from now on (R374). -/
theorem Dev.victim_of_mem_requeued {v : Nat} {y : Batch} (h : y ∈ (d.requeued p v).setter.batches) (hv : y.id = v) :
    y.state = .ready ∧ y.readyAt = d.now := by
  obtain ⟨q, -, hb⟩ := d.requeued_batches p v
  rw [hb] at h
  obtain ⟨x, -, rfl⟩ := List.mem_map.1 (List.mem_filter.1 h).1
  split
  · exact ⟨rfl, rfl⟩
  · next hx =>
    rw [if_neg hx] at hv
    exact absurd hv hx

/-- What the setter asks of a pier for the preempting batch, beside room in its queue (R364, R373). -/
def Dev.mayTake (d : Dev) (b : Batch) (p : Fin 16) : Prop :=
  d.placing = true ∧ (d.pier p).awake = true ∧ d.allowed (d.batchParts b) p = true ∧ (d.pier p).lapOverdue = false ∧
    d.audit.full.contains p.val = false ∧ d.fc.inReset.getLsbD p.val = false

section AckSuspended

variable {x : Fin 16 × Nat × Nat} {b : Batch} (hx : d.setter.preempts.find? (fun e => e.1 = p) = some x) (hne : x.2.1 ≠ x.2.2)
  (hb : d.batch? x.2.1 = some b) (hs : b.state = .ready)
include hx hne hb hs

/-- ACK = 1: the request is over, the victim waits, and the preempting batch takes the pier where it may (R371, R373, R374). -/
theorem Dev.ackSuspended_spec :
    (((d.ackSuspended p).eagerAll.pier p).regs.req = false ∧ (∀ y ∈ (d.ackSuspended p).eagerAll.setter.preempts, y.1 ≠ p) ∧
      ((d.ackSuspended p).eagerAll.pier p).runs = (d.pier p).runs) ∧
    (∀ y ∈ (d.ackSuspended p).eagerAll.setter.batches, y.id = x.2.2 → y.state = .ready ∧ y.readyAt = d.now) ∧
    (d.mayTake b p → ((d.held p).filter (fun y => y.id ≠ x.2.2)).length < d.setter.qd.toNat + 1 →
      ∀ y ∈ (d.ackSuspended p).eagerAll.setter.batches, y.id = x.2.1 → y.state = .placed p) := by
  obtain ⟨hfr, hits, hruns⟩ := d.requeued_freed p x.2.2
  have hw := (d.requeued p x.2.2).emptied_work p
  obtain ⟨idle, due, ps, he⟩ := (d.requeued p x.2.2).emptied_setter p
  have hF := hfr.emptied
  rw [Dev.ackSuspended_eq hx]
  obtain ⟨hreq, hpre, hr, hbs⟩ := hF.placed x.2.1
  refine ⟨⟨hreq, hpre, hr.trans ((Pier.runs_of_work hw).trans hruns)⟩, fun y hy hid => ?_, fun hm hq => ?_⟩
  · rcases hbs y hy (fun h => hne (h.symm.trans hid)) with hy | h
    · rw [he] at hy
      exact Dev.victim_of_mem_requeued hy hid
    · exact h
  · obtain ⟨hpl, haw, hal, hlap, hfull, -⟩ := hm
    refine Dev.placed_of_takes (x := b) ?_ hs ?_ (hF.takes ?_ haw hal hlap hfull ?_)
    · rw [he]
      exact (Dev.requeued_batch? hne).trans hb
    · obtain ⟨bs, idle1, due1, its, ps1, f, h1⟩ := hF.frame
      rw [h1]
      exact hpl
    · refine Dev.batchParts_congr (g := fun i => if (d.unfinishedOf p x.2.2).contains i.id then i.restart else i) (fun i => ?_) ?_ b
      · split <;> exact ⟨rfl, rfl⟩
      · rw [he]
        exact hits
    · rw [he]
      show ((d.requeued p x.2.2).held p).length < _
      rw [Dev.requeued_held]
      exact hq

omit hne in
/-- ACK = 2: the request is over, and the preempting batch takes the pier where it may (R371, R372, R375). -/
theorem Dev.ackEnded_spec :
    ((d.ackEnded p).eagerAll.pier p).regs.req = false ∧ (∀ y ∈ (d.ackEnded p).eagerAll.setter.preempts, y.1 ≠ p) ∧
    (d.mayTake b p → (d.held p).length < d.setter.qd.toNat + 1 →
      ∀ y ∈ (d.ackEnded p).eagerAll.setter.batches, y.id = x.2.1 → y.state = .placed p) ∧
    (d.placing = false ∨ d.allowed (d.batchParts b) p = false →
      ∀ y ∈ (d.ackEnded p).eagerAll.setter.batches, y.id = x.2.1 → y.state = .ready ∨ y ∈ d.setter.batches) := by
  have hF := d.endRequest_freed p
  rw [Dev.ackEnded_eq hx]
  obtain ⟨hreq, hpre, -⟩ := hF.placed x.2.1
  refine ⟨hreq, hpre, fun hm hq => ?_, fun hno y hy _ => ?_⟩
  · obtain ⟨hpl, haw, hal, hlap, hfull, -⟩ := hm
    exact Dev.placed_of_takes (x := b) hb hs hpl (hF.takes rfl haw hal hlap hfull hq)
  · have hc : (d.endRequest p).placeFirst x.2.1 p = d.endRequest p := by
      rcases (d.endRequest p).placeFirst_cases x.2.1 p with h | ⟨z, hz, -, hp, ht, -⟩
      · exact h
      · obtain rfl : z = b := Option.some.inj (hz.symm.trans hb)
        have hal : d.allowed (d.batchParts z) p = true := by
          simp only [Dev.takes, Bool.and_eq_true] at ht
          exact ht.1.1.2
        rcases hno with h | h
        · exact absurd (hp.symm.trans h) nofun
        · exact absurd (hal.symm.trans h) nofun
    rw [hc] at hy
    rcases Dev.mem_eagerAll hy with hy | ⟨z, -, -, rfl⟩
    · exact .inr hy
    · exact .inl rfl

end AckSuspended

/-! ### The commands (R371 to R373, R377) -/

theorem answers_preemptAckEnded_not (h : (s.dev.pier p).regs.req = false ∨ s.dev.victimRecorded p = false) :
    Answers (.preemptAckEnded p) s s.dev := by
  refine congrArg s.answer (if_neg ?_)
  rw [Bool.and_eq_true, not_and_or, Bool.not_eq_true, Bool.not_eq_true]
  exact h

theorem answers_preemptAckEnded (hr : (s.dev.pier p).regs.req = true) (hv : s.dev.victimRecorded p = true) :
    Answers (.preemptAckEnded p) s (s.dev.ackEnded p).eagerAll :=
  congrArg s.answer (if_pos (by rw [hr, hv]; rfl))

theorem answers_preemptAckSuspended_idle (h : (s.dev.pier p).regs.req = false) : Answers (.preemptAckSuspended p) s s.dev :=
  congrArg s.answer (if_pos (by rw [h]; rfl))

/-- Where the victim's last item has its record, firmware acknowledges its end (R372). -/
theorem exec_preemptAckSuspended_recorded (hv : s.dev.victimRecorded p = true) :
    exec (.preemptAckSuspended p) s = exec (.preemptAckEnded p) s := by
  show execPreemptAckSuspended p s = execPreemptAckEnded p s
  rw [execPreemptAckSuspended, execPreemptAckEnded, hv]
  cases (s.dev.pier p).regs.req <;> rfl

theorem answers_preemptAckSuspended (hr : (s.dev.pier p).regs.req = true) (hv : s.dev.victimRecorded p = false) :
    Answers (.preemptAckSuspended p) s (if ((s.dev.suspendWork p).pier p).hod.suspd then
      ((s.dev.suspendWork p).ackSuspended p).eagerAll else s.dev.suspendWork p) := by
  show execPreemptAckSuspended p s = _
  rw [execPreemptAckSuspended, hv, hr]
  rfl

theorem preemptTimeout_spec (p : Fin 16) (s : State) :
    let due : Prop := (s.dev.pier p).regs.req = true ∧ (s.dev.pier p).regs.reqAt + 25000 ≤ s.dev.now ∧
      (∀ e ∈ (s.dev.pier p).detq, e.cause ≠ 0x0E#8)
    (due → Answers (.preemptTimeout p) s (s.dev.onPier p (fun P => { P with detq := P.detq ++ [mkDetection 0x0E 0 0 0] }))) ∧
    (¬ due → Answers (.preemptTimeout p) s s.dev) := by
  intro due
  have hd : ((s.dev.pier p).regs.req && decide ((s.dev.pier p).regs.reqAt + 25000 ≤ s.dev.now) &&
      (s.dev.pier p).detq.all (fun e => decide (e.cause ≠ 0x0E#8))) = true ↔ due := by
    simp only [due, Bool.and_eq_true, decide_eq_true_eq, List.all_eq_true, and_assoc]
  exact ⟨fun h => congrArg s.answer (if_pos (hd.2 h)), fun h => congrArg s.answer (if_neg (mt hd.1 h))⟩

/-- The first ready batch that may preempt the batch that runs on a pier (R370, R377). -/
def Dev.firstPreempter (d : Dev) (p : Fin 16) : Option Batch :=
  d.readyOrder.find? (fun b => !d.preempting b.id && (d.rule1 b).isNone && (d.rule2 b).isNone && d.victimOk b.cls.qos b p)

theorem answers_minrunExpiry_none (h : s.dev.placing = false ∨ s.dev.setter.preEn = false ∨ s.dev.firstPreempter p = none) :
    Answers (.minrunExpiry p) s s.dev := by
  refine congrArg s.answer ?_
  by_cases hc : s.dev.placing = false ∨ s.dev.setter.preEn = false
  · exact if_pos (by simpa using hc)
  · have hf : s.dev.firstPreempter p = none := (or_assoc.2 h).resolve_left hc
    refine (if_neg (by simpa using hc)).trans ?_
    rw [Dev.firstPreempter] at hf
    rw [hf]

theorem answers_minrunExpiry {b v : Batch} {q : Fin 16} (hp : s.dev.placing = true) (he : s.dev.setter.preEn = true)
    (hf : s.dev.firstPreempter p = some b) (h3 : s.dev.rule3 b = some (q, v)) :
    Answers (.minrunExpiry p) s (s.dev.preempt b v q) := by
  refine congrArg s.answer ((if_neg (by simp [hp, he])).trans ?_)
  rw [Dev.firstPreempter] at hf
  rw [hf]
  dsimp only
  rw [h3]

theorem minrunExpiry_preempts {b : Batch} (hp : s.dev.placing = true) (he : s.dev.setter.preEn = true)
    (hf : s.dev.firstPreempter p = some b) : AnswersWith (.minrunExpiry p) s (fun d => ∃ q v, s.dev.rule3 b = some (q, v) ∧
      d.setter.preempts = s.dev.setter.preempts ++ [(q, b.id, v.id)] ∧ (d.pier q).regs.req = true ∧
      (d.pier q).regs.reqAt = s.dev.now ∧ (d.core (.pier q)).ipend.getLsbD 3 = true ∧ v.cls.qos < b.cls.qos ∧
      d.setter.batches = s.dev.setter.batches) := by
  have hc := List.find?_some hf
  simp only [Bool.and_eq_true, Bool.not_eq_true'] at hc
  obtain ⟨⟨⟨hn, -⟩, -⟩, hv⟩ := hc
  obtain ⟨q, v, h3⟩ := Dev.rule3_of_victimOk he hn hv
  obtain ⟨hpre, hr, ht, hi, hb⟩ := s.dev.preempt_spec b v q
  exact (answers_minrunExpiry hp he hf h3).answersWith ⟨q, v, h3, hpre, hr, ht, hi, Dev.qos_of_rule3 h3, hb⟩

/-- Settles O42: the two acknowledgements by `Dev.ackSuspended_spec` and `Dev.ackEnded_spec`, the timer and MINRUN by their lemmas. -/
theorem preemption : Obligations.Preemption := by
  unfold Obligations.Preemption
  refine ⟨fun p s h => ⟨answers_preemptAckSuspended_idle h, answers_preemptAckEnded_not (.inl h)⟩,
    fun p s h => answers_preemptAckEnded_not (.inr h), fun p s => exec_preemptAckSuspended_recorded, fun p s hr hv => ?_,
    fun p s x b hr hx hne hb hs => ⟨fun hv hc => ?_, fun hv => ?_⟩, preemptTimeout_spec,
    fun p s => ⟨answers_minrunExpiry_none, fun b => minrunExpiry_preempts⟩⟩
  · obtain ⟨-, hregs, -, -, hrun, hsus⟩ := s.dev.suspendWork_spec p
    have ha := answers_preemptAckSuspended hr hv
    refine ⟨fun h => ⟨?_, by rw [hregs, hr]⟩, fun h => ?_, hrun, hsus⟩ <;> rw [h] at ha <;> exact ha
  · obtain ⟨⟨ps, f, hd⟩, hregs, haw, hlap, hrun, hsus⟩ := s.dev.suspendWork_spec p
    have ha := answers_preemptAckSuspended hr hv
    rw [hsus hc, if_pos rfl] at ha
    generalize s.dev.suspendWork p = d1 at hd hregs haw hlap hrun ha
    have hset : d1.setter = s.dev.setter := by rw [hd]
    obtain ⟨⟨hreq, hpre, hr1⟩, hvic, htake⟩ := Dev.ackSuspended_spec (d := d1) (p := p) (x := x) (b := b)
      (by rw [hset]; exact hx) hne (by rw [Dev.batch?, hset]; exact hb) hs
    refine ha.answersWith ⟨hreq, hpre, by rw [hr1]; exact hrun, fun y hy hid => ?_, fun ht hq => htake ?_ ?_⟩
    · obtain ⟨h1, h2⟩ := hvic y hy hid
      exact ⟨h1, h2.trans (by rw [hd]; rfl)⟩
    · obtain ⟨hp, ha1, ha2, hl, hf, hi⟩ := ht
      exact ⟨by rw [hd]; exact hp, haw.trans ha1, by rw [hd]; exact ha2, hlap.trans hl, by rw [hd]; exact hf, by rw [hd]; exact hi⟩
    · rw [Dev.held, hset]
      exact hq
  · obtain ⟨hreq, hpre, htake, hkeep⟩ := Dev.ackEnded_spec hx hb hs
    refine (answers_preemptAckEnded hr hv).answersWith ?_
    exact ⟨hreq, hpre, htake, hkeep⟩

end Sys2Proof.Machine
end

section
/-! The end of a batch, sleep and off of idle piers, and the move of a leaf (O41): R361, R364 to R369, R462 and R467. -/

namespace Sys2Proof.Machine
open Sys2Proof

variable {d e : Dev} {s : State} {p : Fin 16}

/-! ### The end of a batch (R361, R364 to R366) -/

/-- A pier that holds no batch any more is idle from now on (R366). -/
theorem Dev.emptied_idleSince (h : d.held p = []) : (d.emptied p).setter.idleSince = d.setter.idleSince.set p d.now := by
  have hs : (d.s2Late p).held p = [] := h
  unfold Dev.emptied
  dsimp only
  rw [hs, if_neg (by simp)]
  obtain ⟨ps, hk, -⟩ := Dev.kcSync_frame { d.s2Late p with setter :=
    { (d.s2Late p).setter with idleSince := (d.s2Late p).setter.idleSince.set p (d.s2Late p).now } } p
  rw [hk]
  rfl

/-- Whether an item of a batch is still to be finished on a pier. -/
def Dev.stillWorks (d : Dev) (b : Batch) (p : Fin 16) : Bool := d.items.any (fun i => b.items.contains i.id && i.unfinished p)

theorem Dev.endBatch_of_works (h : ∀ b, d.runningOn p = some b → d.stillWorks b p = true) : d.endBatch p = d := by
  unfold Dev.endBatch
  split
  · rfl
  · next b hb => exact if_pos (h b hb)

section Ends

variable {b : Batch} (hb : d.runningOn p = some b) (hw : d.stillWorks b p = false)
include hb hw

theorem Dev.endBatch_frame : ∃ thin, d.endBatch p = Dev.emptied { d with setter := { d.setter with
    batches := d.setter.batches.filter (fun (x : Batch) => x.id ≠ b.id), thin := thin } } p := by
  have hw' : d.items.any (fun i => b.items.contains i.id && i.unfinished p) = false := hw
  unfold Dev.endBatch
  rw [hb]
  dsimp only
  rw [hw', if_neg Bool.false_ne_true]
  exact ⟨_, rfl⟩

/-- The ended batch leaves the setter, and no other batch or item changes (R365). -/
theorem Dev.endBatch_keeps : (d.endBatch p).setter.batches = d.setter.batches.filter (fun (x : Batch) => x.id ≠ b.id) ∧
    (d.endBatch p).items = d.items ∧ (d.endBatch p).placing = d.placing ∧ (d.endBatch p).setter.eager = d.setter.eager := by
  obtain ⟨thin, h⟩ := Dev.endBatch_frame hb hw
  obtain ⟨idle, due, ps, he⟩ := Dev.emptied_setter { d with setter := { d.setter with
    batches := d.setter.batches.filter (fun (x : Batch) => x.id ≠ b.id), thin := thin } } p
  rw [h, he]
  exact ⟨rfl, rfl, rfl, rfl⟩

theorem Dev.endBatch_batches : (∀ y ∈ (d.endBatch p).setter.batches, y.id ≠ b.id) ∧
    (∀ y ∈ d.setter.batches, y.id ≠ b.id → y ∈ (d.endBatch p).setter.batches) := by
  rw [(Dev.endBatch_keeps hb hw).1]
  exact ⟨fun y hy => by simpa using (List.mem_filter.1 hy).2, fun y hy hn => List.mem_filter.2 ⟨hy, by simpa using hn⟩⟩

/-- A pier that held that batch alone is idle from now on (R366). -/
theorem Dev.endBatch_idle (hh : d.held p = [b]) : (d.endBatch p).setter.idleSince[p] = d.now := by
  obtain ⟨thin, h⟩ := Dev.endBatch_frame hb hw
  have hempty : (Dev.held { d with setter := { d.setter with
      batches := d.setter.batches.filter (fun (x : Batch) => x.id ≠ b.id), thin := thin } } p) = [] := by
    have hc : Dev.held { d with setter := { d.setter with
        batches := d.setter.batches.filter (fun (x : Batch) => x.id ≠ b.id), thin := thin } } p =
        (d.held p).filter (fun x => x.id ≠ b.id) := List.filter_comm _ _ _
    rw [hc, hh]
    simp
  have hi := Dev.emptied_idleSince hempty
  rw [h, hi]
  exact Vector.getElem_set_self _

theorem Dev.endBatch_runs_other : (d.endBatch p).runningOn p ≠ d.runningOn p := by
  rw [hb]
  intro h
  exact (Dev.endBatch_batches hb hw).1 b (List.mem_of_find?_eq_some h) rfl

end Ends

theorem answers_batchEnd (p : Fin 16) (s : State) : Answers (.batchEnd p) s
    (if (s.dev.endBatch p).runningOn p = s.dev.runningOn p then s.dev.endBatch p else (s.dev.endBatch p).eagerAll.placeNext) := rfl

/-! ### Sleep, OFF and thinning (R366, R462, R467) -/

theorem pierSleepTimer_spec (p : Fin 16) (s : State) :
    let due : Prop := (s.dev.pier p).awake = true ∧ s.dev.holdsNoBatch p.val = true ∧
      s.dev.setter.idleSince[p] + 25 * s.dev.setter.sleept.toNat ≤ s.dev.now ∧
      (s.dev.counts p = false ∨ s.dev.setter.minawake.toNat ≤ s.dev.awakeBeside p)
    (¬ due → Answers (.pierSleepTimer p) s s.dev) ∧
    (due → Answers (.pierSleepTimer p) s (s.dev.onPier p (fun P => P.toSleep s.dev.now))) := by
  intro due
  have hd : ((s.dev.pier p).awake && s.dev.holdsNoBatch p.val &&
      decide (s.dev.setter.idleSince[p] + 25 * s.dev.setter.sleept.toNat ≤ s.dev.now) &&
      (!s.dev.counts p || decide (s.dev.setter.minawake.toNat ≤ s.dev.awakeBeside p))) = true ↔ due := by
    simp only [due, Bool.and_eq_true, Bool.or_eq_true, Bool.not_eq_true', decide_eq_true_eq, and_assoc]
  exact ⟨fun h => congrArg s.answer (if_neg (mt hd.1 h)), fun h => congrArg s.answer (if_pos (hd.2 h))⟩

theorem pierOffTimer_spec (p : Fin 16) (s : State) :
    let due : Prop := (s.dev.pier p).pw.st = .sleep ∧ (s.dev.pier p).pw.change = .none ∧ s.dev.setter.offok = true ∧
      (s.dev.pier p).pw.since + 2500000 ≤ s.dev.now ∧
      (∀ b : Fin 16, b.val < 15 → 64 ≤ (s.dev.pier p).mem.bank[b].owner.toNat)
    (¬ due → Answers (.pierOffTimer p) s s.dev) ∧
    (due → Answers (.pierOffTimer p) s (s.dev.onPier p (fun P => P.toOff s.dev.now))) := by
  intro due
  have hb : ((List.finRange 15).all (fun b => decide (64 ≤ ((s.dev.pier p).mem.bank[b.val]).owner.toNat))) = true ↔
      ∀ b : Fin 16, b.val < 15 → 64 ≤ (s.dev.pier p).mem.bank[b].owner.toNat := by
    simp only [List.all_eq_true, List.mem_finRange, forall_const, decide_eq_true_eq]
    exact ⟨fun h b hb => h ⟨b.val, hb⟩, fun h b => h ⟨b.val, by omega⟩ b.isLt⟩
  have hd : (decide ((s.dev.pier p).pw.st = .sleep) && decide ((s.dev.pier p).pw.change = .none) && s.dev.setter.offok &&
      decide ((s.dev.pier p).pw.since + 2500000 ≤ s.dev.now) &&
      (List.finRange 15).all (fun b => decide (64 ≤ ((s.dev.pier p).mem.bank[b.val]).owner.toNat))) = true ↔ due := by
    simp only [due, Bool.and_eq_true, decide_eq_true_eq, hb, and_assoc]
  exact ⟨fun h => congrArg s.answer (if_neg (mt hd.1 h)), fun h => congrArg s.answer (if_pos (hd.2 h))⟩

theorem pierThinDelayExpiry_spec (p : Fin 16) (s : State) : AnswersWith (.pierThinDelayExpiry p) s (fun d =>
    (∀ t, t ∈ d.setter.thin ↔ t ∈ s.dev.setter.thin ∧ ¬ (t.1 = p ∧ t.2 ≤ s.dev.now)) ∧ d.items = s.dev.items) := by
  have ha : Answers (.pierThinDelayExpiry p) s { s.dev with setter := { s.dev.setter with
      thin := s.dev.setter.thin.filter (fun (t : Fin 16 × Nat) => !(t.1 = p && t.2 ≤ s.dev.now)) } } := rfl
  refine ha.answersWith ⟨fun t => ?_, rfl⟩
  refine List.mem_filter.trans (and_congr_right fun _ => ?_)
  rw [Bool.not_eq_true', Bool.and_eq_false_iff, decide_eq_false_iff_not, decide_eq_false_iff_not, not_and_or]

/-! ### The move of a leaf (R271, R311, R368, R369) -/

/-- The pier of a leaf's move, once it has the bank that the setter may give for it (R368). -/
def Dev.leafPier (d : Dev) (p : Fin 16) (q : Fin 64) (dest : Word) : Pier :=
  match d.bankFor p q dest.toNat with
  | some b => bankOwnWrite (d.pier p) d.now b (BitVec.ofNat 32 q.val)
  | none => d.pier p

/-- Whether a leaf may move to a block (R311, R369). -/
def leafFits (P : Pier) (q : Fin 64) (dest : Word) (f : FoundLeaf) : Prop :=
  f.size ≤ 4096 ∧ f.pte.getLsbD 5 = false ∧ leafDestOk P q dest.toNat f.size = true

/-- The copy of a leaf from its place to the new block. -/
def leafCopy (P : Pier) (now : Nat) (q : Fin 64) (dest : Word) (f : FoundLeaf) : Bool × Pier :=
  copyLeaf now q.val f.size none (f.pte.toNat / 64 * 64) dest.toNat P

/-- A pier whose leaf entry names the new place (R369). -/
def leafEntered (P : Pier) (dest : Word) (f : FoundLeaf) : Pier := gatewayQuarry P [(f.at_, (f.pte &&& 0x3F#36) ||| dest, false)]

/-- A pier without the TLB entries of a partition and without cached instructions (R369). -/
def leafForgotten (P : Pier) (q : Fin 64) : Pier :=
  { tlbiPartition q P with mem := { (tlbiPartition q P).mem with icache := [] } }

theorem leafForgotten_mem (P : Pier) (q : Fin 64) : (leafForgotten P q).mem = withoutPartition q P.mem := by
  simp only [leafForgotten, tlbiPartition, tlbInvalidate, withoutPartition, decide_not]

/-- The setter knows a leaf of 4,096 words at its new place. -/
def Dev.knowLeaf (d : Dev) (p : Fin 16) (q : Fin 64) (ipa : BitVec 30) (dest : Word) (f : FoundLeaf) : Dev :=
  if f.size ≠ 4096 then d
  else { d with setter := { d.setter with
    leaves := d.setter.leaves.filter (fun l => !(l.pier = p && l.part = q && l.leaf = ipa.toNat / 4096)) ++
      [⟨p, q, ipa.toNat / 4096, dest.toNat⟩] } }

theorem Dev.knowLeaf_piers (d : Dev) (p : Fin 16) (q : Fin 64) (ipa : BitVec 30) (dest : Word) (f : FoundLeaf) :
    (d.knowLeaf p q ipa dest f).piers = d.piers := by
  unfold Dev.knowLeaf
  split <;> rfl

theorem Dev.mem_knowLeaf {q : Fin 64} {ipa : BitVec 30} {dest : Word} {f : FoundLeaf} (h : f.size = 4096) :
    (⟨p, q, ipa.toNat / 4096, dest.toNat⟩ : LeafPlace) ∈ (d.knowLeaf p q ipa dest f).setter.leaves := by
  rw [Dev.knowLeaf, if_neg (not_not.2 h)]
  exact List.mem_append_right _ (List.mem_singleton_self _)

section Move

variable {q : Fin 64} {ipa : BitVec 30} {dest : Word} {f : FoundLeaf} {Q : Pier}

/-- A partition that is active on the pier, or a pier that sleeps: no leaf moves (R369). -/
theorem answers_leafMove_refused (h : ¬ (s.dev.partActive p q = false ∧ (s.dev.leafPier p q dest).awake = true)) :
    Answers (.migrationLeafMove p q ipa dest) s s.dev := by
  refine congrArg s.answer (if_pos ?_)
  show (s.dev.partActive p q || !(s.dev.leafPier p q dest).awake) = true
  simpa [imp_iff_not_or] using h

theorem exec_migrationLeafMove (p : Fin 16) (q : Fin 64) (ipa : BitVec 30) (dest : Word) (s : State) :
    exec (.migrationLeafMove p q ipa dest) s =
      s.answer (if s.dev.partActive p q || !(s.dev.leafPier p q dest).awake then s.dev else
        match (s.dev.leafPier p q dest).leafOf q ipa.toNat with
        | none => s.dev
        | some f =>
          if 4096 < f.size || f.pte.getLsbD 5 || !leafDestOk (s.dev.leafPier p q dest) q dest.toNat f.size then s.dev
          else match leafCopy (s.dev.leafPier p q dest) s.dev.now q dest f with
            | (false, P) => s.dev.setPier p P
            | (true, P) => (s.dev.setPier p (leafForgotten (leafEntered P dest f) q)).knowLeaf p q ipa dest f) := by
  unfold leafForgotten leafEntered
  rfl

theorem answers_leafMove_none (h : (s.dev.leafPier p q dest).leafOf q ipa.toNat = none) :
    Answers (.migrationLeafMove p q ipa dest) s s.dev := by
  refine (exec_migrationLeafMove p q ipa dest s).trans ?_
  rw [h, ite_self]
  rfl

/-- Whether a block may not be the leaf's new place, as the command asks it. -/
theorem leafFits_iff (P : Pier) (q : Fin 64) (dest : Word) (f : FoundLeaf) : leafFits P q dest f ↔
    (decide (4096 < f.size) || f.pte.getLsbD 5 || !leafDestOk P q dest.toNat f.size) = false := by
  simp only [leafFits, Bool.or_eq_false_iff, decide_eq_false_iff_not, Nat.not_lt, Bool.not_eq_false', and_assoc]

theorem answers_leafMove_unfit (h : (s.dev.leafPier p q dest).leafOf q ipa.toNat = some f)
    (hf : ¬ leafFits (s.dev.leafPier p q dest) q dest f) : Answers (.migrationLeafMove p q ipa dest) s s.dev := by
  rw [leafFits_iff, Bool.not_eq_false] at hf
  refine (exec_migrationLeafMove p q ipa dest s).trans ?_
  rw [h]
  dsimp only
  rw [if_pos hf, ite_self]
  rfl

section Copied

variable (hm : s.dev.partActive p q = false ∧ (s.dev.leafPier p q dest).awake = true)
  (h : (s.dev.leafPier p q dest).leafOf q ipa.toNat = some f) (hf : leafFits (s.dev.leafPier p q dest) q dest f)
include hm h hf

theorem exec_migrationLeafMove_fits : exec (.migrationLeafMove p q ipa dest) s = s.answer
    (match leafCopy (s.dev.leafPier p q dest) s.dev.now q dest f with
      | (false, P) => s.dev.setPier p P
      | (true, P) => (s.dev.setPier p (leafForgotten (leafEntered P dest f) q)).knowLeaf p q ipa dest f) := by
  obtain ⟨ha, hw⟩ := hm
  refine (exec_migrationLeafMove p q ipa dest s).trans ?_
  rw [ha, hw, h]
  dsimp only
  rw [(leafFits_iff _ q dest f).1 hf]
  rfl

/-- A copy that fails leaves the entry (R271). -/
theorem answers_leafMove_failed (hc : leafCopy (s.dev.leafPier p q dest) s.dev.now q dest f = (false, Q)) :
    Answers (.migrationLeafMove p q ipa dest) s (s.dev.setPier p Q) := by
  refine (exec_migrationLeafMove_fits hm h hf).trans ?_
  rw [hc]
  rfl

/-- A copy that succeeds: the entry names the new place, and what was cached for the partition is dropped (R369). -/
theorem leafMove_moves (hc : leafCopy (s.dev.leafPier p q dest) s.dev.now q dest f = (true, Q)) :
    AnswersWith (.migrationLeafMove p q ipa dest) s (fun d =>
      (d.pier p).mem = withoutPartition q (leafEntered Q dest f).mem ∧ (∀ r, r ≠ p → d.pier r = s.dev.pier r) ∧
      (f.size = 4096 → (⟨p, q, ipa.toNat / 4096, dest.toNat⟩ : LeafPlace) ∈ d.setter.leaves)) := by
  have hx := exec_migrationLeafMove_fits hm h hf
  rw [hc] at hx
  have hp := Dev.knowLeaf_piers (s.dev.setPier p (leafForgotten (leafEntered Q dest f) q)) p q ipa dest f
  refine Answers.answersWith hx ⟨?_, fun r hr => ?_, Dev.mem_knowLeaf⟩
  · rw [Dev.pier_congr hp, Dev.pier_setPier_self, leafForgotten_mem]
  · rw [Dev.pier_congr hp, Dev.pier_setPier_of_ne _ _ hr]

end Copied

end Move

/-- Settles O41: the end of a batch by `Dev.endBatch_keeps`, the timers and the leaf's move by their lemmas. -/
theorem batchEndSleepAndLeafMoves : Obligations.BatchEndSleepAndLeafMoves := by
  unfold Obligations.BatchEndSleepAndLeafMoves
  refine ⟨⟨fun p s h => ?_, fun p s b hb hw => ?_, fun p s b hb hw hp he hh => ?_, fun p s => ?_, fun p s => ?_,
    pierThinDelayExpiry_spec⟩, fun p q ipa dest s => ⟨answers_leafMove_refused, answers_leafMove_none, fun f h =>
      ⟨answers_leafMove_unfit h, fun Q hm hf => answers_leafMove_failed hm h hf, fun Q hm hf => leafMove_moves hm h hf⟩⟩⟩
  · have hx := answers_batchEnd p s
    rwa [Dev.endBatch_of_works h, if_pos rfl] at hx
  · have hx := answers_batchEnd p s
    rw [if_neg (Dev.endBatch_runs_other hb hw)] at hx
    obtain ⟨h1, h2⟩ := Dev.endBatch_batches hb hw
    obtain ⟨-, hit, -⟩ := Dev.endBatch_keeps hb hw
    exact ⟨hx, h1, h2, hit, Dev.endBatch_idle hb hw⟩
  · have hx := answers_batchEnd p s
    obtain ⟨-, hit, hpl, hea⟩ := Dev.endBatch_keeps hb hw
    rw [if_neg (Dev.endBatch_runs_other hb hw), Dev.eagerAll_of_not (hea.trans he), Dev.placeNext_of_not (hpl.trans hp)] at hx
    exact hx.answersWith ⟨(Dev.endBatch_batches hb hw).1, hit, Dev.endBatch_idle hb hw hh⟩
  · obtain ⟨h1, h2⟩ := pierSleepTimer_spec p s
    refine ⟨h1, fun h => (h2 h).answersWith ?_⟩
    rw [Dev.pier_onPier_self]
    exact ⟨rfl, rfl, rfl, rfl, rfl, rfl, rfl⟩
  · obtain ⟨h1, h2⟩ := pierOffTimer_spec p s
    refine ⟨h1, fun h => (h2 h).answersWith ?_⟩
    rw [Dev.pier_onPier_self]
    exact ⟨rfl, rfl, rfl, rfl⟩

end Sys2Proof.Machine
end

section
/-! The power commands and the shares of a pier at a frequency (O56): R269 and R466 to R473. -/

namespace Sys2Proof.Machine
open Sys2Proof

variable {d e : Dev} {s : State} {p : Fin 16}

/-! ### PW_BUDGET (R470 to R473) -/

/-- Whether BUDGET takes a number: it is unlocked, and the number is in the legal range (R8, R11, R472). -/
def Dev.budgetLegal (d : Dev) (n : Nat) : Prop := d.unlocked = true ∧ 120 ≤ n ∧ n ≤ 560

theorem Dev.writeBudget_same {v : DW} (h : (v.extractLsb' 0 10).toNat = d.pw.budget) : d.writeBudget v = d := if_pos h

theorem Dev.budgetLegal_iff (d : Dev) (n : Nat) :
    d.budgetLegal n ↔ (!d.unlocked || decide (n < 120) || decide (560 < n)) = false := by
  simp only [Dev.budgetLegal, Bool.or_eq_false_iff, Bool.not_eq_false', decide_eq_false_iff_not, Nat.not_lt, and_assoc]

theorem Dev.writeBudget_legal_eq {v : DW} (hn : (v.extractLsb' 0 10).toNat ≠ d.pw.budget)
    (h : d.budgetLegal (v.extractLsb' 0 10).toNat) : d.writeBudget v = d.setCap (v.extractLsb' 0 10).toNat d.pw.scap := by
  refine (if_neg hn).trans ?_
  rw [(d.budgetLegal_iff _).1 h]
  rfl

theorem Dev.writeBudget_refused {v : DW} (hn : (v.extractLsb' 0 10).toNat ≠ d.pw.budget)
    (h : d.unlocked = false ∨ (v.extractLsb' 0 10).toNat < 120 ∨ 560 < (v.extractLsb' 0 10).toNat) :
    d.writeBudget v = { d with pw := { d.pw with err := true } } := by
  refine (if_neg hn).trans (if_pos ?_)
  simpa [or_assoc] using h

theorem pwBudgetWrite_accepted {a : Agent} {v : DW} (hn : (v.extractLsb' 0 10).toNat ≠ s.dev.pw.budget)
    (h : s.dev.budgetLegal (v.extractLsb' 0 10).toNat) : AnswersWith (.pwBudgetWrite a v) s (fun d =>
      d.pw.budget = (v.extractLsb' 0 10).toNat ∧ d.pw.scap = s.dev.pw.scap ∧ d.pw.err = s.dev.pw.err ∧ d.items = s.dev.items) := by
  obtain ⟨ps, al, hc⟩ := s.dev.setCap_frame (v.extractLsb' 0 10).toNat s.dev.pw.scap
  have ha : Answers (.pwBudgetWrite a v) s _ := congrArg s.answer ((Dev.writeBudget_legal_eq hn h).trans hc)
  exact ha.answersWith ⟨rfl, rfl, rfl, rfl⟩

/-! ### PW_PIER's target (R466, R467, R470, R473) -/

/-- Whether TFREQ is within 0.2 to 1.6 GHz (R473). -/
def freqLegal (f : BitVec 5) : Prop := 2 ≤ f.toNat ∧ f.toNat ≤ 16

theorem freqLegal_iff (f : BitVec 5) : freqLegal f ↔ (decide (f.toNat < 2) || decide (16 < f.toNat)) = false := by
  simp only [freqLegal, Bool.or_eq_false_iff, decide_eq_false_iff_not, Nat.not_lt]

/-- A device whose pier `p` is `P` and whose power block is `pw`. -/
def Dev.withPower (d : Dev) (p : Fin 16) (P : Pier) (pw : Arbiter) : Dev := { d.setPier p P with pw := pw }

theorem Dev.withPower_pier (d : Dev) (p : Fin 16) (P : Pier) (pw : Arbiter) : (d.withPower p P pw).pier p = P :=
  Dev.pier_setPier_self d p P

theorem Dev.withPower_pier_of_ne {q : Fin 16} (P : Pier) (pw : Arbiter) (h : q ≠ p) : (d.withPower p P pw).pier q = d.pier q :=
  Dev.pier_setPier_of_ne d P h

/-- The target of a pier as a write of PW_PIER leaves it, TST first (R473). -/
def Pier.withTst (P : Pier) (t : BitVec 2) : Pier := if t = 3#2 then P else { P with pw := { P.pw with tst := t } }

/-- The target's frequency as a write of PW_PIER leaves it (R473). -/
def Pier.withTfreq (P : Pier) (f : BitVec 5) : Pier :=
  if f.toNat < 2 || 16 < f.toNat then P else { P with pw := { P.pw with tfreq := f } }

/-- A pier with another target: everything else of it stands. -/
theorem Pier.retargeted_keeps (P : Pier) (t : BitVec 2) (f : BitVec 5) : ∃ t' f', (P.withTst t).withTfreq f =
    { P with pw := { P.pw with tst := t', tfreq := f' } } ∧ t' = (if t = 3#2 then P.pw.tst else t) ∧
    (freqLegal f → f' = f) ∧ (¬ freqLegal f → f' = P.pw.tfreq) := by
  rw [freqLegal_iff]
  unfold Pier.withTst Pier.withTfreq
  by_cases ht : t = 3#2 <;> cases hf : (decide (f.toNat < 2) || decide (16 < f.toNat))
  · exact ⟨P.pw.tst, f, by simp [ht], by simp [ht], fun _ => rfl, fun h => absurd rfl h⟩
  · exact ⟨P.pw.tst, P.pw.tfreq, by simp [ht], by simp [ht], nofun, fun _ => rfl⟩
  · exact ⟨t, f, by simp [ht], by simp [ht], fun _ => rfl, fun h => absurd rfl h⟩
  · exact ⟨t, P.pw.tfreq, by simp [ht], by simp [ht], nofun, fun _ => rfl⟩

/-- What a write of PW_PIER's target changes before the arbiter acts: the target and CFG_ERR (R473). -/
theorem Dev.retarget_eq (d : Dev) (p : Fin 16) (t : BitVec 2) (f : BitVec 5) : ∃ err,
    d.retarget p t f = d.withPower p (((d.pier p).withTst t).withTfreq f) { d.pw with err := err } ∧
    (freqLegal f → err = (d.pw.err || decide (t = 3#2))) ∧ (¬ freqLegal f → err = true) := by
  rw [freqLegal_iff]
  unfold Dev.retarget Pier.withTst Pier.withTfreq Dev.withPower Dev.pwError
  by_cases ht : t = 3#2 <;> cases hf : (decide (f.toNat < 2) || decide (16 < f.toNat))
  · refine ⟨true, ?_, fun _ => by simp [ht], nofun⟩
    simp only [ht, if_true, Bool.false_eq_true, if_false]
    rfl
  · refine ⟨true, ?_, nofun, fun _ => rfl⟩
    simp only [ht, if_true, Dev.setPier_pier]
  · refine ⟨d.pw.err, ?_, fun _ => by simp [ht], fun h => absurd rfl h⟩
    simp only [ht, if_false, Bool.false_eq_true, Dev.onPier, Dev.setPier_setPier, Dev.pier_setPier_self]
    rfl
  · refine ⟨true, ?_, nofun, fun _ => rfl⟩
    simp only [ht, if_true, if_false]
    rfl

/-- What the arbiter changes when it follows a target at once: the pier, of which the target and the quarry stand, and the time of the
last start (R466, R467, R470). -/
theorem Dev.steer_frame (d : Dev) (p : Fin 16) : ∃ Q ls, d.steer p = d.withPower p Q { d.pw with lastStart := ls } ∧
    Q.pw.tst = (d.pier p).pw.tst ∧ Q.pw.tfreq = (d.pier p).pw.tfreq ∧ Q.mem.quarry = (d.pier p).mem.quarry := by
  have hself : d = d.withPower p (d.pier p) { d.pw with lastStart := d.pw.lastStart } := by
    rw [Dev.withPower, Dev.setPier_pier]
  unfold Dev.steer
  dsimp only
  split
  · split
    · split
      · exact ⟨_, d.pw.lastStart, rfl, rfl, rfl, rfl⟩
      · exact ⟨_, _, hself, rfl, rfl, rfl⟩
    · cases hw : d.tryWake p with
      | none => exact ⟨_, _, hself, rfl, rfl, rfl⟩
      | some e =>
        unfold Dev.tryWake at hw
        dsimp only at hw
        split at hw
        · cases hw
        · split at hw
          · cases hw
          · split at hw
            · cases hw
            · cases hw
              exact ⟨_, _, rfl, rfl, rfl, rfl⟩
  · split
    · split
      · split
        · exact ⟨_, d.pw.lastStart, rfl, rfl, rfl, rfl⟩
        · exact ⟨_, _, hself, rfl, rfl, rfl⟩
      · split
        · exact ⟨_, _, hself, rfl, rfl, rfl⟩
        · exact ⟨_, d.pw.lastStart, rfl, rfl, rfl, rfl⟩
    · exact ⟨_, _, hself, rfl, rfl, rfl⟩

/-- TST 1: an idle pier sleeps at once (R467). -/
theorem Dev.steer_sleeps (ht : (d.pier p).pw.tst = 1#2) (ha : (d.pier p).awake = true) (hb : d.holdsNoBatch p.val = true)
    (hc : (d.pier p).pw.change = .none) : (d.steer p).pier p = (d.pier p).toSleep d.now := by
  have h : d.steer p = d.onPier p (fun P => P.toSleep d.now) := by
    rw [Dev.steer]
    simp only [ht, ha, hb, hc, decide_true, Bool.and_self, if_true]
    rfl
  rw [h, Dev.pier_onPier_self]

/-- TST 0: an idle pier goes OFF at once (R467). -/
theorem Dev.steer_off (ht : (d.pier p).pw.tst = 0#2) (ho : (d.pier p).pw.st ≠ .off) (hb : d.holdsNoBatch p.val = true)
    (hc : (d.pier p).pw.change = .none) : (d.steer p).pier p = (d.pier p).toOff d.now := by
  have h : d.steer p = d.onPier p (fun P => P.toOff d.now) := by
    rw [Dev.steer]
    simp only [ht, hb, hc, ho, decide_true, Bool.and_self, if_true, if_false]
    rfl
  rw [h, Dev.pier_onPier_self]

/-- TST 2: a lower TFREQ lowers the clock at once, and a higher one waits (R466, R473). -/
theorem Dev.steer_runs (ht : (d.pier p).pw.tst = 2#2) (ha : (d.pier p).awake = true) : (d.steer p).pier p =
    if (d.pier p).pw.tfreq.toNat < (d.pier p).goal then (d.pier p).startFreq d.now (d.pier p).pw.tfreq.toNat else d.pier p := by
  rw [Dev.steer, if_pos ht, if_pos ha]
  split
  · rw [Dev.pier_onPier_self]
  · rfl

/-- PW_PIER's fields agree with the target that stands. -/
def Dev.sameTarget (d : Dev) (p : Fin 16) (v : DW) : Prop :=
  v.extractLsb' 8 2 = (d.pier p).pw.tst ∧ v.extractLsb' 0 5 = (d.pier p).pw.tfreq

theorem Dev.writeTarget_same {v : DW} (h : d.sameTarget p v) (a : Agent) : d.writeTarget p a v = d := by
  obtain ⟨h1, h2⟩ := h
  rw [Dev.writeTarget_eq]
  exact if_pos (by simp [h1, h2])

theorem Dev.writeTarget_refused {v : DW} {a : Agent} (ha : d.targetWritable a = false) (h : ¬ d.sameTarget p v) :
    d.writeTarget p a v = d.pwError := by
  rw [Dev.writeTarget_eq, if_neg (by simpa [Dev.sameTarget] using h), ha]
  rfl

theorem Dev.writeTarget_accepted {v : DW} {a : Agent} (ha : d.targetWritable a = true) (h : ¬ d.sameTarget p v) :
    d.writeTarget p a v = (d.retarget p (v.extractLsb' 8 2) (v.extractLsb' 0 5)).steer p := by
  rw [Dev.writeTarget_eq, if_neg (by simpa [Dev.sameTarget] using h), ha]
  rfl

/-- A write of PW_PIER's target leaves the quarry, the piers in reset and every other pier. -/
theorem Dev.writeTarget_keeps (d : Dev) (p : Fin 16) (a : Agent) (v : DW) : (d.writeTarget p a v).fc = d.fc ∧
    ((d.writeTarget p a v).pier p).mem.quarry = (d.pier p).mem.quarry := by
  rw [Dev.writeTarget_eq]
  split
  · exact ⟨rfl, rfl⟩
  · split
    · exact ⟨rfl, rfl⟩
    · obtain ⟨err, hr, -⟩ := d.retarget_eq p (v.extractLsb' 8 2) (v.extractLsb' 0 5)
      obtain ⟨t, f, hP, -⟩ := (d.pier p).retargeted_keeps (v.extractLsb' 8 2) (v.extractLsb' 0 5)
      rw [hP] at hr
      rw [hr]
      obtain ⟨Q, ls, hs, -, -, hq⟩ := Dev.steer_frame (d.withPower p
        { d.pier p with pw := { (d.pier p).pw with tst := t, tfreq := f } } { d.pw with err := err }) p
      rw [hs, Dev.withPower_pier, hq, Dev.withPower_pier]
      exact ⟨rfl, rfl⟩

/-- A write of PW_PIER's target that is taken (R466, R467, R473). -/
theorem pwPierTargetWrite_accepted {a : Agent} {v : DW} (hw : s.dev.targetWritable a = true) (hs : ¬ s.dev.sameTarget p v) :
    AnswersWith (.pwPierTargetWrite p a v) s (fun d =>
      (d.pier p).pw.tst = (if v.extractLsb' 8 2 = 3#2 then (s.dev.pier p).pw.tst else v.extractLsb' 8 2) ∧
      (freqLegal (v.extractLsb' 0 5) → (d.pier p).pw.tfreq = v.extractLsb' 0 5 ∧
        d.pw.err = (s.dev.pw.err || decide (v.extractLsb' 8 2 = 3#2))) ∧
      (¬ freqLegal (v.extractLsb' 0 5) → (d.pier p).pw.tfreq = (s.dev.pier p).pw.tfreq ∧ d.pw.err = true) ∧
      (d.pier p).mem.quarry = (s.dev.pier p).mem.quarry ∧ (∀ q, q ≠ p → d.pier q = s.dev.pier q) ∧
      (v.extractLsb' 8 2 = 1#2 → (s.dev.pier p).awake = true → s.dev.holdsNoBatch p.val = true → (s.dev.pier p).pw.change = .none →
        (d.pier p).pw.st = .sleep ∧ (d.pier p).mem.banks = (s.dev.pier p).mem.banks) ∧
      (v.extractLsb' 8 2 = 0#2 → (s.dev.pier p).pw.st ≠ .off → s.dev.holdsNoBatch p.val = true → (s.dev.pier p).pw.change = .none →
        (d.pier p).pw.st = .off ∧ (d.pier p).mem.banks = []) ∧
      (v.extractLsb' 8 2 = 2#2 → freqLegal (v.extractLsb' 0 5) → (s.dev.pier p).awake = true →
        (v.extractLsb' 0 5).toNat < (s.dev.pier p).goal →
        (d.pier p).pw.change = .freq (v.extractLsb' 0 5).toNat (s.dev.pier p).pw.freq) ∧
      (v.extractLsb' 8 2 = 2#2 → freqLegal (v.extractLsb' 0 5) → (s.dev.pier p).awake = true →
        (s.dev.pier p).goal ≤ (v.extractLsb' 0 5).toNat → (d.pier p).pw.change = (s.dev.pier p).pw.change)) := by
  have ha : Answers (.pwPierTargetWrite p a v) s _ := congrArg s.answer (Dev.writeTarget_accepted hw hs)
  generalize v.extractLsb' 8 2 = t at ha ⊢
  generalize v.extractLsb' 0 5 = f at ha ⊢
  obtain ⟨err, hr, herr, herr'⟩ := s.dev.retarget_eq p t f
  obtain ⟨t', f', hP, ht, hf, hf'⟩ := (s.dev.pier p).retargeted_keeps t f
  rw [hP] at hr
  have hp1 : (s.dev.retarget p t f).pier p = { s.dev.pier p with pw := { (s.dev.pier p).pw with tst := t', tfreq := f' } } := by
    rw [hr, Dev.withPower_pier]
  have hb1 : (s.dev.retarget p t f).holdsNoBatch p.val = s.dev.holdsNoBatch p.val := by rw [hr]; rfl
  obtain ⟨Q, ls, hst, h1, h2, h3⟩ := (s.dev.retarget p t f).steer_frame p
  have hQ : ((s.dev.retarget p t f).steer p).pier p = Q := by rw [hst, Dev.withPower_pier]
  have hpw : ((s.dev.retarget p t f).steer p).pw.err = err := by rw [hst, hr]; rfl
  have hother : ∀ q, q ≠ p → ((s.dev.retarget p t f).steer p).pier q = s.dev.pier q := fun q hq => by
    rw [hst, Dev.withPower_pier_of_ne _ _ hq, hr, Dev.withPower_pier_of_ne _ _ hq]
  refine ha.answersWith ⟨?_, fun hl => ⟨?_, hpw.trans (herr hl)⟩, fun hl => ⟨?_, hpw.trans (herr' hl)⟩, ?_, hother,
    fun h haw hb hc => ?_, fun h ho hb hc => ?_, fun h hl haw hg => ?_, fun h hl haw hg => ?_⟩
  · rw [hQ, h1, hp1]
    exact ht
  · rw [hQ, h2, hp1]
    exact hf hl
  · rw [hQ, h2, hp1]
    exact hf' hl
  · rw [hQ, h3, hp1]
  · have ht1 : t' = 1#2 := by rw [ht, h]; rfl
    rw [Dev.steer_sleeps (by rw [hp1]; exact ht1) (by rw [hp1]; exact haw) (hb1.trans hb) (by rw [hp1]; exact hc), hp1]
    exact ⟨rfl, rfl⟩
  · have ht0 : t' = 0#2 := by rw [ht, h]; rfl
    rw [Dev.steer_off (by rw [hp1]; exact ht0) (by rw [hp1]; exact ho) (hb1.trans hb) (by rw [hp1]; exact hc), hp1]
    exact ⟨rfl, rfl⟩
  · have ht2 : t' = 2#2 := by rw [ht, h]; rfl
    obtain rfl := hf hl
    rw [Dev.steer_runs (by rw [hp1]; exact ht2) (by rw [hp1]; exact haw), hp1]
    exact congrArg (fun P : Pier => P.pw.change) (if_pos hg)
  · have ht2 : t' = 2#2 := by rw [ht, h]; rfl
    obtain rfl := hf hl
    rw [Dev.steer_runs (by rw [hp1]; exact ht2) (by rw [hp1]; exact haw), hp1]
    split
    · next hlt => exact absurd hlt (Nat.not_lt.2 hg)
    · rfl

/-! ### PW_PIER.RST (R451, R473) -/

theorem pwPierRst_resets {a : Agent} {v : DW} (hv : v.getLsbD 31 = true) (ho : s.dev.fc.out.getLsbD p.val = false) :
    AnswersWith (.pwPierRst p a v) s (fun d => d.fc.inReset.getLsbD p.val = true ∧ (d.core (.pier p)).run = .reset ∧
      (d.pier p).mem.quarry = (s.dev.pier p).mem.quarry) := by
  obtain ⟨hfc, hq⟩ := s.dev.writeTarget_keeps p a v
  have ha : Answers (.pwPierRst p a v) s ((s.dev.writeTarget p a v).assertReset p) :=
    congrArg s.answer (if_pos (by rw [hv, hfc, ho]; rfl))
  obtain ⟨⟨q, hr⟩, -, -, hrun, -, -, hq2, -⟩ := (s.dev.writeTarget p a v).assertReset_spec p
  refine ha.answersWith ⟨?_, hrun, hq2.trans hq⟩
  rw [hr]
  exact (setBit_getLsbD _ p p).trans (by simp)

theorem exec_pwPierRst_of_not {a : Agent} {v : DW} (h : v.getLsbD 31 = false ∨ s.dev.fc.out.getLsbD p.val = true) :
    exec (.pwPierRst p a v) s = exec (.pwPierTargetWrite p a v) s := by
  obtain ⟨hfc, -⟩ := s.dev.writeTarget_keeps p a v
  refine congrArg s.answer (if_neg ?_)
  rw [hfc]
  rcases h with h | h <;> rw [h] <;> simp

/-! ### Raises, changes of frequency, lane ramps, idle piers (R466, R467, R470) -/

theorem pierRaise_starts {f : Nat} (hg : s.dev.staggerOk = true) (hr : s.dev.raiseNext = some (p, f)) :
    AnswersWith .pierRaise s (fun d =>
      (d.pier p).pw.change = .freq f (s.dev.pier p).pw.freq ∧ d.pw.lastStart = some s.dev.now ∧
      (d.pier p).pw.shares = max (max (s.dev.pier p).pw.shares (sharesAt f)) 8 ∧ ∀ q, q ≠ p → d.pier q = s.dev.pier q) := by
  have ha : Answers .pierRaise s (s.dev.withPower p ((s.dev.pier p).startFreq s.dev.now f)
      { s.dev.pw with lastStart := some s.dev.now }) := by
    show execPierRaise s = _
    rw [execPierRaise]
    dsimp only
    rw [hg, hr]
    rfl
  refine ha.answersWith ?_
  rw [Dev.withPower_pier]
  exact ⟨rfl, rfl, rfl, fun q => Dev.withPower_pier_of_ne _ _⟩

theorem answers_pierRaise_not (h : s.dev.staggerOk = false ∨ s.dev.raiseNext = none) : Answers .pierRaise s s.dev := by
  show execPierRaise s = _
  rw [execPierRaise]
  dsimp only
  rcases h with h | h <;> rw [h]
  · rfl
  · rw [ite_self]
    rfl

section Change

variable {f o : Nat} (hc : (s.dev.pier p).pw.change = .freq f o)
include hc

theorem exec_frequencyChangeEnd : exec (.frequencyChangeEnd p) s = s.answer
    (if s.dev.now < (s.dev.pier p).pw.since + 250 then s.dev else s.dev.setPier p { s.dev.pier p with pw := { (s.dev.pier p).pw with
      freq := f, shares := sharesAt f
      change := if (s.dev.pier p).pw.st = .idle && (s.dev.pier p).runs.exec.isSome then .ramp else .none
      since := s.dev.now } }) := by
  show execFrequencyChangeEnd p s = _
  rw [execFrequencyChangeEnd]
  dsimp only
  rw [hc]

theorem answers_frequencyChangeEnd (ht : (s.dev.pier p).pw.since + 250 ≤ s.dev.now) :
    Answers (.frequencyChangeEnd p) s (s.dev.setPier p { s.dev.pier p with pw := { (s.dev.pier p).pw with
      freq := f, shares := sharesAt f
      change := if (s.dev.pier p).pw.st = .idle ∧ (s.dev.pier p).runs.exec ≠ none then .ramp else .none
      since := s.dev.now } }) := by
  refine (exec_frequencyChangeEnd hc).trans ?_
  rw [if_neg (Nat.not_lt.2 ht)]
  simp only [Bool.and_eq_true, decide_eq_true_eq, Option.isSome_iff_ne_none]
  rfl

end Change

theorem answers_frequencyChangeEnd_not (h : ∀ f o, (s.dev.pier p).pw.change ≠ .freq f o) :
    Answers (.frequencyChangeEnd p) s s.dev := by
  show execFrequencyChangeEnd p s = _
  rw [execFrequencyChangeEnd]
  dsimp only
  split
  · next hc => exact absurd hc (h _ _)
  · rfl

theorem answers_laneRampEnd_not (h : (s.dev.pier p).pw.change ≠ .ramp ∨ s.dev.now < (s.dev.pier p).pw.since + 2) :
    Answers (.laneRampEnd p) s s.dev := by
  refine congrArg s.answer (if_neg ?_)
  rw [Bool.and_eq_true, decide_eq_true_eq, decide_eq_true_eq, not_and_or, Nat.not_le]
  exact h

theorem idleDrop_spec (p : Fin 16) (s : State) :
    let idle := (s.dev.pier p).pw.st = .run ∧ (s.dev.pier p).runs.exec = none ∧ (s.dev.pier p).runs.queued = none ∧
      (s.dev.pier p).pw.lastRun + 2500 ≤ s.dev.now
    (idle → Answers (.idleDrop p) s (s.dev.setPier p { s.dev.pier p with
      pw := { (s.dev.pier p).pw with st := .idle, since := s.dev.now } })) ∧ (¬ idle → Answers (.idleDrop p) s s.dev) := by
  intro idle
  have hi : (decide ((s.dev.pier p).pw.st = .run) && (s.dev.pier p).runs.exec.isNone && (s.dev.pier p).runs.queued.isNone &&
      decide ((s.dev.pier p).pw.lastRun + 2500 ≤ s.dev.now)) = true ↔ idle := by
    simp only [idle, Bool.and_eq_true, decide_eq_true_eq, Option.isNone_iff_eq_none, and_assoc]
  exact ⟨fun h => congrArg s.answer (if_pos (hi.2 h)), fun h => congrArg s.answer (if_neg (mt hi.1 h))⟩

/-! ### The end of a wake (R305, R361, R468) -/

/-- The pier after its wake: idle at its frequency, its quarry kept; out of SLEEP its banks and registers too (R467, R468). -/
theorem Dev.wakeDone_spec (d : Dev) (p : Fin 16) (f : Nat) :
    ((d.wakeDone p f).pier p).pw.st = .idle ∧ ((d.wakeDone p f).pier p).pw.freq = f ∧
    ((d.wakeDone p f).pier p).pw.shares = sharesAt f ∧
    ((d.wakeDone p f).pier p).mem.selfRefresh = (d.fc.quar.getLsbD p.val || !(d.pier p).mem.trained) ∧
    ((d.wakeDone p f).pier p).mem.quarry = (d.pier p).mem.quarry ∧
    ((d.pier p).pw.st ≠ .off →
      ((d.wakeDone p f).pier p).mem.banks = (d.pier p).mem.banks ∧ ((d.wakeDone p f).pier p).regs = (d.pier p).regs) := by
  unfold Dev.wakeDone
  dsimp only
  split
  · next h =>
    rw [Dev.s2Restore, Dev.pier_onPier_self, Dev.pier_setPier_self]
    exact ⟨rfl, rfl, rfl, rfl, rfl, fun hn => absurd h hn⟩
  · rw [Dev.pier_setPier_self]
    exact ⟨rfl, rfl, rfl, rfl, rfl, fun _ => ⟨rfl, rfl⟩⟩

theorem exec_pierWakeComplete {f : Nat} (hc : (s.dev.pier p).pw.change = .wake f) : exec (.pierWakeComplete p) s =
    if s.dev.now < (s.dev.pier p).pw.since + wakeTicks (s.dev.pier p).pw.st f then s.answer s.dev
    else
      let d := s.dev.wakeDone p f
      let d := if d.life.op = .startUp || !d.mayRelease p then d else d.onPier p (fun P => P.release d.now)
      let d := (d.placedOn p).foldl (fun d b => d.announce p b) d
      s.answer d.reclaim.eagerAll.placeNext := by
  show execPierWakeComplete p s = _
  rw [execPierWakeComplete, hc]

theorem answers_pierWakeComplete {f : Nat} (hc : (s.dev.pier p).pw.change = .wake f)
    (ht : (s.dev.pier p).pw.since + wakeTicks (s.dev.pier p).pw.st f ≤ s.dev.now) :
    let d := s.dev.wakeDone p f
    let e := if d.life.op = .startUp ∨ d.mayRelease p = false then d else d.onPier p (fun P => P.release d.now)
    Answers (.pierWakeComplete p) s (((e.placedOn p).foldl (fun d b => d.announce p b) e).reclaim.eagerAll.placeNext) := by
  intro d e
  refine (exec_pierWakeComplete hc).trans ((if_neg (Nat.not_lt.2 ht)).trans ?_)
  have he : e = if d.life.op = .startUp || !d.mayRelease p then d else d.onPier p (fun P => P.release d.now) := by
    simp only [e, Bool.or_eq_true, decide_eq_true_eq, Bool.not_eq_true']
  rw [he]
  rfl

theorem answers_pierWakeComplete_not (h : ∀ f, (s.dev.pier p).pw.change ≠ .wake f) : Answers (.pierWakeComplete p) s s.dev := by
  show execPierWakeComplete p s = _
  rw [execPierWakeComplete]
  split
  · next hc => exact absurd hc (h _)
  · rfl

/-- An awake pier at `f` takes the smallest whole number of shares from 2.4 + 1.35 f on (R469). -/
theorem sharesAt_least (f : Nat) : 48 + 27 * f ≤ 20 * sharesAt f ∧ 20 * sharesAt f < 48 + 27 * f + 20 := by
  unfold sharesAt
  omega

/-- Settles O56: each command by its lemma above; the shares by `sharesAt_least`. -/
theorem powerCommands : Obligations.PowerCommands := by
  unfold Obligations.PowerCommands
  refine ⟨⟨fun a v s h => congrArg s.answer (Dev.writeBudget_same h), fun a v s hn hu h1 h2 => pwBudgetWrite_accepted hn ⟨hu, h1, h2⟩,
    fun a v s hn h => congrArg s.answer (Dev.writeBudget_refused hn h), fun p a v s h => congrArg s.answer (Dev.writeTarget_same h a),
    fun p a v s ha h => congrArg s.answer (Dev.writeTarget_refused ha h), fun p a v s => pwPierTargetWrite_accepted,
    fun p a v s => pwPierRst_resets, fun p a v s => exec_pwPierRst_of_not, fun s p f => pierRaise_starts,
    fun s => answers_pierRaise_not, fun p s f o hc ht => (exec_frequencyChangeEnd hc).trans (congrArg s.answer (if_pos ht)),
    fun p s f o => answers_frequencyChangeEnd, fun p s => answers_frequencyChangeEnd_not,
    fun p s f hc ht => (exec_pierWakeComplete hc).trans (if_pos ht),
    fun p s f hc ht => ⟨answers_pierWakeComplete hc ht, s.dev.wakeDone_spec p f⟩, fun p s => answers_pierWakeComplete_not,
    fun p s hc ht => congrArg s.answer (if_pos (by simp [hc, ht])), fun p s => answers_laneRampEnd_not, idleDrop_spec⟩, sharesAt_least⟩

end Sys2Proof.Machine
end
